-- ==== Sys2Proof/Word.lean ====
section
/-! DEFINITION. Words, bytes, and the two kinds of sparse data the state is made of: tables (a
record per number) and cells (a memory in one canonical form). R6: every multi-byte value is
little-endian. -/
namespace Sys2Proof

abbrev Byte := BitVec 8
abbrev Word := BitVec 32

/-- A record per number; a number not listed holds the record's reset value. Keys rise strictly. -/
abbrev Table (α : Type) := List (Nat × α)

/-- A memory: addresses strictly rising, and no entry equal to what an unlisted address reads as. -/
abbrev Cells (β : Type) := List (Nat × β)

/-- The entry of number `k`, if it is listed. -/
def Table.find? {α : Type} : Table α → Nat → Option α
  | [], _ => none
  | (k, a) :: t, n => if k = n then some a else Table.find? t n

/-- The entry of number `n`, or `d`. -/
def Table.get {α : Type} (t : Table α) (n : Nat) (d : α) : α := (Table.find? t n).getD d

/-- Put `a` at number `n`; keys stay in rising order. -/
def Table.put {α : Type} : Table α → Nat → α → Table α
  | [], n, a => [(n, a)]
  | (k, b) :: t, n, a =>
    if n < k then (n, a) :: (k, b) :: t
    else if n = k then (n, a) :: t
    else (k, b) :: Table.put t n a

/-- Take number `n` out. -/
def Table.erase {α : Type} (t : Table α) (n : Nat) : Table α := t.filter (fun p => p.1 != n)

def Table.has {α : Type} (t : Table α) (n : Nat) : Bool := (Table.find? t n).isSome

def Table.keys {α : Type} (t : Table α) : List Nat := t.map (·.1)

/-- What address `a` of a memory holds, where an unlisted address reads as `d`. -/
def Cells.get {β : Type} (d : β) : Cells β → Nat → β
  | [], _ => d
  | (k, v) :: c, a => if k = a then v else Cells.get d c a

/-- Write `v` at `a`, keeping the canonical form: writing `d` takes the entry out. -/
def Cells.set {β : Type} [DecidableEq β] (d : β) : Cells β → Nat → β → Cells β
  | [], a, v => if v = d then [] else [(a, v)]
  | (k, w) :: c, a, v =>
    if a < k then (if v = d then (k, w) :: c else (a, v) :: (k, w) :: c)
    else if a = k then (if v = d then c else (a, v) :: c)
    else (k, w) :: Cells.set d c a v

/-- Every address listed is at least `lo`, addresses rise strictly, and no value is `d`. -/
def Cells.wfFrom {β : Type} [DecidableEq β] (d : β) : Nat → Cells β → Bool
  | _, [] => true
  | lo, (k, v) :: c => decide (lo ≤ k) && decide (v ≠ d) && Cells.wfFrom d (k + 1) c

/-- The canonical form of a memory. -/
def Cells.wf {β : Type} [DecidableEq β] (d : β) (c : Cells β) : Bool := Cells.wfFrom d 0 c

/-- Write a run of values from address `a`. -/
def Cells.write {β : Type} [DecidableEq β] (d : β) : Cells β → Nat → List β → Cells β
  | c, _, [] => c
  | c, a, v :: vs => Cells.write d (Cells.set d c a v) (a + 1) vs

/-- Read `n` values from address `a`. -/
def Cells.read {β : Type} (d : β) (c : Cells β) (a n : Nat) : List β :=
  (List.range n).map (fun i => Cells.get d c (a + i))

/-- Take out every entry whose address satisfies `p` (the addresses read as the default again). -/
def Cells.drop {β : Type} (c : Cells β) (p : Nat → Bool) : Cells β := c.filter (fun e => !p e.1)

/-- The little-endian value of a list of bytes (R6). -/
def leNat : List Byte → Nat
  | [] => 0
  | b :: bs => b.toNat + 256 * leNat bs

/-- `n` little-endian bytes of a value (R6). -/
def leBytes : Nat → Nat → List Byte
  | 0, _ => []
  | n + 1, v => BitVec.ofNat 8 v :: leBytes n (v / 256)

/-- Bits [hi:lo] of a value. -/
def fld (v hi lo : Nat) : Nat := v / 2 ^ lo % 2 ^ (hi + 1 - lo)

/-- Saturating sum in `w` bits. -/
def satAdd {w : Nat} (a : BitVec w) (n : Nat) : BitVec w :=
  if a.toNat + n < 2 ^ w then BitVec.ofNat w (a.toNat + n) else BitVec.allOnes w

/-- Two's complement reading of the low `w` bits of a value. -/
def sx (w v : Nat) : Int :=
  if v % 2 ^ w < 2 ^ (w - 1) then (v % 2 ^ w : Nat) else ((v % 2 ^ w : Nat) : Int) - (2 ^ w : Nat)

def bnat (b : Bool) : Nat := if b then 1 else 0

end Sys2Proof
end

