-- ==== Sys2Proof/Syntax.lean ====
section
/-! DEFINITION. The commands: one constructor of Instr per row of spec/opcode_table.json, in the
table's order, with the operands each row needs. -/
namespace Sys2Proof

/-- A logical core coordinate, 640 by 480 (R10). -/
structure CoreId where
  cx : Nat
  cy : Nat
  deriving DecidableEq, Repr

/-- The streams of the LD and ST slots (Table 3.8). -/
inductive StreamOp where
  | gather | scatter | qread | qwrite | rread | msend
  deriving DecidableEq, Repr

/-- Fields of an LD or ST slot (Table 3.8); `resv` is bits [1:0]. -/
structure StreamFields where
  dh : BitVec 6 := 0
  di : BitVec 8 := 0
  idx : BitVec 4 := 8
  count : BitVec 16 := 0
  resv : BitVec 2 := 0
  deriving DecidableEq, Repr

/-- SC slot (Table 3.2). -/
inductive ScOp where
  | nop
  | setc (c : BitVec 3) (hi : Bool) (imm : BitVec 16)
  | incc (c : BitVec 3) (stp : BitVec 16)
  | setk (k : BitVec 2) (c : BitVec 3) (cond : BitVec 2) (limit : BitVec 20)
  | jmp (target : BitVec 10)
  | br (k : BitVec 2) (sense : Bool) (target : BitVec 10)
  | loop (c : BitVec 3) (k : BitVec 2) (stp : BitVec 8) (target : BitVec 10)
  | stop
  | trap
  | reserved
  deriving DecidableEq, Repr

/-- SY slot (Table 3.3). -/
inductive SyOp where
  | nop
  | tick
  | waitcy (n : BitVec 16)
  | qwait (port : BitVec 5) (qp : BitVec 8)
  | qlev (port : BitVec 5) (qp : BitVec 8) (dir geLe : Bool) (n : BitVec 12)
  | expect (h : BitVec 6) (offset : BitVec 10) (length : BitVec 8) (tag : BitVec 3)
  | mwait (tag : BitVec 3)
  | fwait (c : BitVec 3)
  | attend (h : BitVec 6) (offset : BitVec 10)
  | drain
  | reserved
  deriving DecidableEq, Repr

/-- Fields of an MMA or MMAZ (Table 3.4). -/
structure MxFields where
  acc : BitVec 2 := 0
  fmt : BitVec 3 := 0
  bh : BitVec 6 := 0
  boff : BitVec 10 := 0
  bidx : BitVec 4 := 8
  ah : BitVec 6 := 0
  aoff : BitVec 10 := 0
  aidx : BitVec 4 := 8
  deriving DecidableEq, Repr

/-- MX slot (Table 3.4). -/
inductive MxOp where
  | nop
  | mma (z : Bool) (m : MxFields)
  | mzero (acc : BitVec 2)
  | reserved
  deriving DecidableEq, Repr

/-- Fields of the VM layout (Table 3.6). -/
structure VmFields where
  t : BitVec 4 := 0
  h : BitVec 6 := 0
  offset : BitVec 12 := 0
  idx : BitVec 4 := 8
  deriving DecidableEq, Repr

/-- Fields of the VA layout (Table 3.6). -/
structure VaFields where
  dst : BitVec 4 := 0
  srca : BitVec 4 := 0
  srcb : BitVec 4 := 0
  srcc : BitVec 4 := 0
  bmode : BitVec 2 := 0
  vsel : BitVec 3 := 0
  sub : BitVec 3 := 0
  deriving DecidableEq, Repr

/-- Operations of the VA layout (Table 3.7). -/
inductive VaOp where
  | vadd | vmul | vfma | vmax | vmin | vcmp | vsel | vcvt | vexp2 | vrcp | vrsq
  deriving DecidableEq, Repr

/-- VE slot (Table 3.7). -/
inductive VeOp where
  | nop
  | vsetlen (rows cols : BitVec 5)
  | vldt (f : VmFields)
  | vstt (f : VmFields)
  | vacc (t : BitVec 4) (acc : BitVec 2) (clr : Bool)
  | vmovv (t : BitVec 4) (v : BitVec 3) (sub : BitVec 3)
  | vbct (t : BitVec 4) (v : BitVec 3) (sub : BitVec 3)
  | va (o : VaOp) (f : VaFields)
  | vred (col : Bool) (t : BitVec 4) (v : BitVec 3) (sub : BitVec 3)
  | vsmax (t : BitVec 4) (v w : BitVec 3)
  | vssum (t : BitVec 4) (v w : BitVec 3)
  | reserved
  deriving DecidableEq, Repr

/-- LD or ST slot (Table 3.8). -/
inductive LsOp where
  | nop
  | go (o : StreamOp) (f : StreamFields)
  | reserved
  deriving DecidableEq, Repr

/-- A bundle: six slots (R45, Table 3.1). `reserved` stands for every code or field value the
slot's table reserves that the structured fields cannot carry. -/
structure Bundle where
  sc : ScOp := .nop
  ve : VeOp := .nop
  mx : MxOp := .nop
  ld : LsOp := .nop
  st : LsOp := .nop
  sy : SyOp := .nop
  deriving DecidableEq, Repr

/-- How a transfer over the host link ended (R262). -/
inductive Dma where
  | ok
  | abort (off : Nat)
  deriving DecidableEq, Repr

/-- Whether a transfer broke off, and after how many bytes. -/
def Dma.failed? : Dma → Option Nat
  | .ok => none
  | .abort n => some n

/-- Register access paths (R5, R305). -/
inductive Path where
  | bar0 | vf (c : Nat) | window | smbus | monitor
  deriving DecidableEq, Repr

/-- Register spaces a host can write (Table 12.2). -/
inductive Space where
  | pf0 | pf2 | vf0 (n : Nat) | vf2 (n : Nat)
  /-- a control message of the manager: TC_SEC and TC_CTRL (R22) -/
  | control
  deriving DecidableEq, Repr

/-- What an exchange is for (Table 2.4, R209, R258). -/
inductive ExKind where
  | launch | stretch | restore | quiesce | resume | swap
  /-- a change of tables (R231) -/
  | tables
  deriving DecidableEq, Repr

/-- PREPARE as it reaches this module (R42, Table 2.4). -/
structure PrepareMsg where
  kind : ExKind
  job : BitVec 16
  ctx : BitVec 6
  at_ : Nat
  k : Nat
  period : Nat
  floor : Nat
  prog : BitVec 256
  wset : BitVec 256
  cross : Bool
  cut : Bool
  epoch : BitVec 16
  port : BitVec 3
  deriving DecidableEq, Repr

/-- A worker asks its manager for a stretch (R37): its job, the PERIOD and D of its context. -/
structure StretchMsg where
  mod : BitVec 10
  job : BitVec 16
  period : Nat
  d : Nat
  deriving DecidableEq, Repr

/-- The required step of a STRETCH_REQUEST, and whose context needs it (R37): this module's own, or that of a worker which
asks its manager. -/
inductive StretchNeed where
  | own (stp : BitVec 3)
  | worker (stp : BitVec 3) (a : StretchMsg)
  deriving DecidableEq, Repr

/-- Whose hold of a step at or below FLOOR ends a stretch (R39): that of a context of this module, or the one that a worker
reports for its job to its manager. -/
inductive StretchEnd where
  | own (c : BitVec 6)
  | worker (m : BitVec 10) (job : BitVec 16)
  deriving DecidableEq, Repr

/-- What a MEMBER_FAULT message names (R306): the fault of another member, or a fault that the manager raises itself with its two
arguments (R37, R237, R259). -/
inductive MemberCode where
  | member (code : BitVec 16)
  | manager (code : BitVec 16) (arg0 arg1 : Nat)
  deriving DecidableEq, Repr

/-- A child's merged reply (R235): its port, its count of ACKs, its first NAK. -/
structure MergedMsg where
  port : BitVec 3
  acks : Nat
  nak : Option (BitVec 10 × BitVec 16)
  deriving DecidableEq, Repr

/-- One sample of every sensor (R334): temperatures in 0.1 degrees, signed. -/
structure Sensors where
  tfield : List (BitVec 16)
  vfield : List (BitVec 32)
  tstack : List (BitVec 16)
  pin : BitVec 16
  vin : BitVec 16
  inlet : BitVec 16
  outlet : BitVec 16
  deriving DecidableEq, Repr

/-- Conditions of a forced step (R333; codes 1 to 5 of Table 14.11). -/
inductive ForcedCond where
  | fieldSensor | stackSensor | inputPower | crossingSkew | railVoltage
  deriving DecidableEq, Repr

/-- Causes of a converter shutdown (R331, R357, Table 18.3). -/
inductive SupplyCause where
  | railLow (field : BitVec 6) | inputLow | inputHigh | rail48
  deriving DecidableEq, Repr

/-- A module found in ring formation (R219): index, and per port the neighbour's index and port. -/
structure FoundMod where
  idx : BitVec 10
  links : List (BitVec 3 × BitVec 10 × BitVec 3)
  running : Bool := false
  deriving DecidableEq, Repr

/-- What a manager writes to a module it adopts (R219, R220). -/
structure AdoptMsg where
  x : BitVec 3
  y : BitVec 3
  z : BitVec 4
  rsid : BitVec 16
  nx1 : BitVec 3
  ny1 : BitVec 3
  nz1 : BitVec 4
  control : List (BitVec 10 × BitVec 8)
  bmask : BitVec 6
  parent : Option (BitVec 3)
  /-- port it arrives on, and the manager that sends it -/
  port : BitVec 3
  mgr : BitVec 10
  deriving DecidableEq, Repr

/-- Cable classes (Table 10.2; EP_PSTAT.CABLE). -/
inductive CableClass where
  | none | passive | active | optical | unsupported
  deriving DecidableEq, Repr

/-- A codeword group (Table 10.3); `uncorr` and `corrected`: how many of its eight codewords the receiver found uncorrectable and
corrected. -/
structure Group where
  uncorr : Nat
  corrected : Nat
  pip : BitVec 6
  ownchk : BitVec 8
  kind : BitVec 2
  ackpip : BitVec 6
  nak : Bool
  cjob : BitVec 16
  credit : BitVec 16
  data : List (BitVec 8)
  deriving DecidableEq, Repr

/-- An Epfin packet (Table 10.6); `resv`: some bit the table does not list is set. -/
structure EpPacket where
  op : BitVec 4 := 0
  chan : BitVec 4 := 0
  length : BitVec 13 := 0
  tag : BitVec 3 := 0
  rfmt : BitVec 2 := 0
  hops : BitVec 6 := 0
  dmod : BitVec 10 := 0
  dctx : BitVec 6 := 0
  smod : BitVec 10 := 0
  sctx : BitVec 6 := 0
  job : BitVec 16 := 0
  srank : BitVec 16 := 0
  drank : BitVec 16 := 0
  seq : BitVec 16 := 0
  cx : BitVec 10 := 0
  cy : BitVec 9 := 0
  wh : BitVec 6 := 0
  port : BitVec 5 := 0
  stk : Bool := false
  rcount : BitVec 16 := 0
  wgen : BitVec 8 := 0
  woff : BitVec 40 := 0
  crc : BitVec 32 := 0
  data : List (BitVec 8) := []
  resv : Bool := false
  deriving DecidableEq, Repr

/-- What a start stage found (R366): its end in us from the start point; cores that failed the
self-test (1024 cy + px); fields whose rail failed; field edges that failed training; pods whose
scrub failed; ports that failed training; the 48 V rail failed. A field edge is written as [7] 0 for
an edge between fields of one row, 1 for one between fields of one column, [6:1] the field of lower
coordinate, 8 fy + fx, and [0] the half of the edge that holds the failing link. -/
structure StageResult where
  us : BitVec 32
  cores : List Nat
  rails : List (BitVec 6)
  edges : List (BitVec 8)
  pods : List (BitVec 8)
  ports : List (BitVec 5)
  fail48 : Bool
  deriving DecidableEq, Repr

/-- Algorithms a requester offers (Table 17.6). -/
structure AlgOffer where
  p256 : Bool
  sha256 : Bool
  ecdhe : Bool
  aesGcm : Bool
  deriving DecidableEq, Repr

/-- A table change that a control message carries and that waits for its agreed count (R231). -/
structure TableChange where
  at_ : Nat := 0
  job : Nat := 0
  /-- routing entries: module index and byte -/
  routes : List (Nat × BitVec 8) := []
  /-- outbound pips: port, pip, owner -/
  tx : List (Nat × Nat × Nat) := []
  /-- inbound pips: port, pip, owner -/
  rx : List (Nat × Nat × Nat) := []
  /-- rank entries -/
  ranks : List (Nat × BitVec 32) := []
  /-- the module becomes a member of the job: its local context and its rank -/
  member : Option (Nat × Nat) := none
  bmask : Option (BitVec 6) := none
  /-- the job ends: its tables are deleted -/
  ends : Bool := false
  /-- ports given back to use (R239) -/
  ports : List Nat := []
  /-- a cut-out completes with it: module, port (7 for the whole module), excluded -/
  cutOut : Option (Nat × Nat × Bool) := none
  deriving DecidableEq, Repr

/-- The commands (spec/opcode_table.json, in its order). -/
inductive Instr where
  /-- SETC (R50). -/
  | setc (x : CoreId) (c : BitVec 3) (hi : Bool) (imm : BitVec 16) (rest : Bundle)
  /-- INCC (R50). -/
  | incc (x : CoreId) (c : BitVec 3) (stp : BitVec 16) (rest : Bundle)
  /-- SETK (R50). -/
  | setk (x : CoreId) (k : BitVec 2) (c : BitVec 3) (cond : BitVec 2) (limit : BitVec 20) (rest : Bundle)
  /-- JMP (R47). -/
  | jmp (x : CoreId) (target : BitVec 10) (rest : Bundle)
  /-- BR (R47). -/
  | br (x : CoreId) (k : BitVec 2) (sense : Bool) (target : BitVec 10) (rest : Bundle)
  /-- LOOP (R51). -/
  | loop (x : CoreId) (c : BitVec 3) (k : BitVec 2) (stp : BitVec 8) (target : BitVec 10) (rest : Bundle)
  /-- STOP (R52). -/
  | stop (x : CoreId) (rest : Bundle)
  /-- TRAP (R50). -/
  | trap (x : CoreId) (rest : Bundle)
  /-- TICK (R53). -/
  | tick (x : CoreId) (rest : Bundle)
  /-- WAITCY (R54). -/
  | waitcy (x : CoreId) (n : BitVec 16) (rest : Bundle)
  /-- QWAIT (R53). -/
  | qwait (x : CoreId) (port : BitVec 5) (qp : BitVec 8) (rest : Bundle)
  /-- QLEV (R145). -/
  | qlev (x : CoreId) (port : BitVec 5) (qp : BitVec 8) (dir : Bool) (geLe : Bool) (n : BitVec 12) (rest : Bundle)
  /-- EXPECT (R55). -/
  | expect (x : CoreId) (h : BitVec 6) (offset : BitVec 10) (length : BitVec 8) (tag : BitVec 3) (rest : Bundle)
  /-- MWAIT (R55). -/
  | mwait (x : CoreId) (tag : BitVec 3) (rest : Bundle)
  /-- FWAIT (R53). -/
  | fwait (x : CoreId) (c : BitVec 3) (rest : Bundle)
  /-- ATTEND (R56). -/
  | attend (x : CoreId) (h : BitVec 6) (offset : BitVec 10) (rest : Bundle)
  /-- DRAIN (R108). -/
  | drain (x : CoreId) (rest : Bundle)
  /-- MMA (R71). -/
  | mma (x : CoreId) (m : MxFields) (rest : Bundle)
  /-- MMAZ (R71). -/
  | mmaz (x : CoreId) (m : MxFields) (rest : Bundle)
  /-- MZERO (R71). -/
  | mzero (x : CoreId) (acc : BitVec 2) (rest : Bundle)
  /-- VSETLEN (R81). -/
  | vsetlen (x : CoreId) (rows : BitVec 5) (cols : BitVec 5) (rest : Bundle)
  /-- VLDT (R99). -/
  | vldt (x : CoreId) (f : VmFields) (rest : Bundle)
  /-- VSTT (R99). -/
  | vstt (x : CoreId) (f : VmFields) (rest : Bundle)
  /-- VACC (R70). -/
  | vacc (x : CoreId) (t : BitVec 4) (acc : BitVec 2) (clr : Bool) (rest : Bundle)
  /-- VMOVV (R81). -/
  | vmovv (x : CoreId) (t : BitVec 4) (v : BitVec 3) (sub : BitVec 3) (rest : Bundle)
  /-- VBCT (R82). -/
  | vbct (x : CoreId) (t : BitVec 4) (v : BitVec 3) (sub : BitVec 3) (rest : Bundle)
  /-- VADD (R83). -/
  | vadd (x : CoreId) (f : VaFields) (rest : Bundle)
  /-- VMUL (R83). -/
  | vmul (x : CoreId) (f : VaFields) (rest : Bundle)
  /-- VFMA (R83). -/
  | vfma (x : CoreId) (f : VaFields) (rest : Bundle)
  /-- VMAX (R83). -/
  | vmax (x : CoreId) (f : VaFields) (rest : Bundle)
  /-- VMIN (R83). -/
  | vmin (x : CoreId) (f : VaFields) (rest : Bundle)
  /-- VCMP (R83). -/
  | vcmp (x : CoreId) (f : VaFields) (rest : Bundle)
  /-- VSEL (R83). -/
  | vsel (x : CoreId) (f : VaFields) (rest : Bundle)
  /-- VCVT (R85). -/
  | vcvt (x : CoreId) (f : VaFields) (rest : Bundle)
  /-- VEXP2 (R84). -/
  | vexp2 (x : CoreId) (f : VaFields) (rest : Bundle)
  /-- VRCP (R84). -/
  | vrcp (x : CoreId) (f : VaFields) (rest : Bundle)
  /-- VRSQ (R84). -/
  | vrsq (x : CoreId) (f : VaFields) (rest : Bundle)
  /-- VREDR (R83). -/
  | vredr (x : CoreId) (t : BitVec 4) (v : BitVec 3) (sub : BitVec 3) (rest : Bundle)
  /-- VREDC (R83). -/
  | vredc (x : CoreId) (t : BitVec 4) (v : BitVec 3) (sub : BitVec 3) (rest : Bundle)
  /-- VSMAX (R88). -/
  | vsmax (x : CoreId) (t : BitVec 4) (v : BitVec 3) (w : BitVec 3) (rest : Bundle)
  /-- VSSUM (R89). -/
  | vssum (x : CoreId) (t : BitVec 4) (v : BitVec 3) (w : BitVec 3) (rest : Bundle)
  /-- QREAD (R140). -/
  | qread (x : CoreId) (f : StreamFields) (rest : Bundle)
  /-- GATHER (R97). -/
  | gather (x : CoreId) (f : StreamFields) (rest : Bundle)
  /-- RREAD (R127). -/
  | rread (x : CoreId) (f : StreamFields) (rest : Bundle)
  /-- QWRITE (R140). -/
  | qwrite (x : CoreId) (f : StreamFields) (rest : Bundle)
  /-- SCATTER (R97). -/
  | scatter (x : CoreId) (f : StreamFields) (rest : Bundle)
  /-- MSEND (R126). -/
  | msend (x : CoreId) (f : StreamFields) (rest : Bundle)
  /-- STREAM_COMPLETE (R108). -/
  | streamComplete (x : CoreId) (st : Bool) (id : Nat)
  /-- MESH_PACKET_LAND (R126). -/
  | meshPacketLand (src : CoreId) (dst : CoreId) (chan : BitVec 4)
  /-- MESH_NOTICE (R55). -/
  | meshNotice (x : CoreId) (tag : BitVec 3)
  /-- RREAD_REQUEST (R127). -/
  | rreadRequest (src : CoreId) (dst : CoreId) (chan : BitVec 4)
  /-- REDUCE_ADD_PACKET (R130). -/
  | reduceAddPacket (src : CoreId) (dst : CoreId)
  /-- PORT_SLOT_SERVICE (R153). -/
  | portSlotService (port : BitVec 5) (slot : BitVec 6)
  /-- RETURN_LINE (R140). -/
  | returnLine (port : BitVec 5) (x : CoreId)
  /-- QLEV_ANSWER (R145). -/
  | qlevAnswer (x : CoreId)
  /-- QR_FLUSH (R150). -/
  | qrFlush (c : BitVec 6) (port : BitVec 5) (qp : BitVec 8)
  /-- PORT_REFRESH (R156). -/
  | portRefresh (port : BitVec 5)
  /-- PATROL_SCRUB (R155). -/
  | patrolScrub (port : BitVec 5) (atoms : Nat)
  /-- SELF_REFRESH_ENTRY (R157). -/
  | selfRefreshEntry (port : BitVec 5)
  /-- ATTEND_ACCEPT (R173). -/
  | attendAccept (pod : BitVec 8)
  /-- ATTEND_MEMBER_RELEASE (R181). -/
  | attendMemberRelease (pod : BitVec 8) (member : Nat)
  /-- ATTEND_COMPLETE (R182). -/
  | attendComplete (pod : BitVec 8)
  /-- CONTEXT_TICK (R32). -/
  | contextTick (c : BitVec 6)
  /-- FRAME_RUNAWAY (R41). -/
  | frameRunaway (c : BitVec 6)
  /-- COMPLETION_POST (R19). -/
  | completionPost (c : BitVec 6) (seq : Nat) (dma : Dma)
  /-- INPUT_FETCH_DONE (R276). -/
  | inputFetchDone (c : BitVec 6) (dma : Dma)
  /-- SYNC_PULSE (R21). -/
  | syncPulse
  /-- REFERENCE_LOCK (R21). -/
  | referenceLock
  /-- TC_HOLDOVER (R24). -/
  | tcHoldover
  /-- TIME_LOST (R24). -/
  | timeLost
  /-- REFERENCE_RETURN (R25). -/
  | referenceReturn (off : Int)
  /-- COUNTER_SLEW (R26). -/
  | counterSlew
  /-- TIME_TREE_EXCHANGE (R28). -/
  | timeTreeExchange (t1 : Nat) (t2 : Nat) (t3 : Nat) (t4 : Nat)
  /-- FERR_MEASURE (R29). -/
  | ferrMeasure (err : BitVec 16)
  /-- TIME_DRIFT (R259). -/
  | timeDrift (m : BitVec 10) (aligned : Bool)
  /-- TC_NOW_LO_READ (R23). -/
  | tcNowLoRead (path : Path)
  /-- CX_FCOUNT_LO_READ (R32). -/
  | cxFcountLoRead (path : Path) (c : BitVec 6)
  /-- PREPARE (R42). -/
  | prepare (p : PrepareMsg)
  /-- MERGED_REPLY (R235). -/
  | mergedReply (r : MergedMsg)
  /-- EXCHANGE_DECISION (R42). -/
  | exchangeDecision
  /-- GO (R42). -/
  | go (c : BitVec 6)
  /-- NOGO (R43). -/
  | nogo (c : BitVec 6)
  /-- ABORT (R43). -/
  | abort (c : BitVec 6) (m : BitVec 10) (reason : BitVec 16)
  /-- LAUNCH_COUNT (R42). -/
  | launchCount (c : BitVec 6)
  /-- START_COLLECTION_DEADLINE (R42). -/
  | startCollectionDeadline
  /-- STRETCH_REQUEST (R37); `ask`: at the manager, the request of a worker. -/
  | stretchRequest (c : BitVec 6) (stp : StretchNeed)
  /-- STRETCH_ON (R37). -/
  | stretchOn (c : BitVec 6)
  /-- STRETCH_OFF (R39); `held`: at the manager, the report of a worker and its job. -/
  | stretchOff (c : StretchEnd)
  /-- STEP_EVALUATION (R332). -/
  | stepEvaluation (v : Sensors)
  /-- STEP_CHANGE (R328). -/
  | stepChange (stp : BitVec 3)
  /-- FORCED_STEP (R333). -/
  | forcedStep (cond : ForcedCond) (at_ : BitVec 32)
  /-- FORCED_STEP_RELEASE (R333). -/
  | forcedStepRelease
  /-- VOLTAGE_DROOP (R330). -/
  | voltageDroop (field : BitVec 6) (mv : Nat)
  /-- VDROOP (R331). -/
  | vdroop (field : BitVec 6)
  /-- SUPPLY_FAIL (R331). -/
  | supplyFail (cause : SupplyCause)
  /-- XSKEW (R329). -/
  | xskew (edge : BitVec 32)
  /-- THERMAL_TRIP (R335). -/
  | thermalTrip (sensor : BitVec 32) (reading : BitVec 16)
  /-- COOLANT_OK (R337). -/
  | coolantOk
  /-- SUPPLY_HIGH (R357). -/
  | supplyHigh (v : BitVec 16)
  /-- SUPPLY_LOW (R357). -/
  | supplyLow (v : BitVec 16)
  /-- WATCHDOG (R309). -/
  | watchdog
  /-- HI_DB_SQT (R266). -/
  | hiDbSqt (fn : Nat) (v : BitVec 32)
  /-- HI_DB_CQH (R266). -/
  | hiDbCqh (fn : Nat) (v : BitVec 32)
  /-- HI_DB_EQH (R266). -/
  | hiDbEqh (fn : Nat) (v : BitVec 32)
  /-- HI_DB_COMMIT (R387). -/
  | hiDbCommit (fn : Nat) (v : BitVec 32)
  /-- HI_RCTL_ENABLE (R265). -/
  | hiRctlEnable (fn : Nat) (v : BitVec 32)
  /-- DESCRIPTOR_TAKE (R267). -/
  | descriptorTake (fn : Nat)
  /-- DESCRIPTOR_TIMEOUT (R273). -/
  | descriptorTimeout (fn : Nat) (slot : Nat)
  /-- EVENT_LOST (R270). -/
  | eventLost (fn : Nat)
  /-- HOST_RING_LOST (R262). -/
  | hostRingLost (fn : Nat)
  /-- SUBMIT (R276). -/
  | submit (fn : Nat)
  /-- PROGRAM_LOAD (R290). -/
  | programLoad (fn : Nat) (dma : Dma)
  /-- HANDLE (R274). -/
  | handle (fn : Nat)
  /-- QUEUE_CREATE (R142). -/
  | queueCreate (fn : Nat)
  /-- QUEUE_CONFIGURE (R143). -/
  | queueConfigure (fn : Nat)
  /-- QUEUE_DELETE (R275). -/
  | queueDelete (fn : Nat)
  /-- WSET_LOAD (R194). -/
  | wsetLoad (fn : Nat) (dma : Dma)
  /-- WSET_SWAP (R393). -/
  | wsetSwap (fn : Nat) (dma : Dma)
  /-- SWAP_SWITCH (R205). -/
  | swapSwitch (c : BitVec 6)
  /-- SHARD_TRANSFER_START (R207). -/
  | shardTransferStart (c : BitVec 6) (i : Nat)
  /-- SHARD_VERDICT (R195). -/
  | shardVerdict (c : BitVec 6) (i : Nat) (dma : Dma)
  /-- SWAP_RESUME (R208). -/
  | swapResume (c : BitVec 6)
  /-- SWAP_LOADED_REPORT (R209); `failed`: the shard list, bit 15 set for a MISSING shard. -/
  | swapLoadedReport (job : BitVec 16) (m : BitVec 10) (failed : Option (List (BitVec 16)))
  /-- RECHECK_VERDICT (R201). -/
  | recheckVerdict (c : BitVec 6)
  /-- RECHECK_ABANDON (R325). -/
  | recheckAbandon (c : BitVec 6)
  /-- EDIT_PAGETABLE_INIT (R165). -/
  | editPagetableInit (fn : Nat) (dma : Dma)
  /-- EDIT_PAGETABLE_EDIT (R168). -/
  | editPagetableEdit (fn : Nat) (dma : Dma)
  /-- PT_EDIT_PERFORM (R168). -/
  | ptEditPerform (c : BitVec 6) (port : BitVec 5) (base : Nat)
  /-- PT_EDIT_COMPLETE (R169). -/
  | ptEditComplete (c : BitVec 6) (port : BitVec 5) (base : Nat)
  /-- EDIT_PAGETABLE_RELEASE (R170). -/
  | editPagetableRelease (fn : Nat)
  /-- START (R243). -/
  | start (fn : Nat)
  /-- QUIESCE (R248). -/
  | quiesce (fn : Nat)
  /-- QUIESCE_TICK (R248). -/
  | quiesceTick (c : BitVec 6)
  /-- RESUME (R249). -/
  | resume (fn : Nat)
  /-- HOST_XFER (R282). -/
  | hostXfer (fn : Nat)
  /-- HOST_XFER_DONE (R282). -/
  | hostXferDone (fn : Nat) (dma : Dma)
  /-- DEBUG_READ (R283). -/
  | debugRead (fn : Nat) (dma : Dma)
  /-- CREATE_CONTEXT (R244). -/
  | createContext
  /-- BIND (R245). -/
  | bind
  /-- REBIND (R250). -/
  | rebind
  /-- REBIND_PROCEED (R250). -/
  | rebindProceed (c : BitVec 6) (bad : List (BitVec 8)) (took : Nat)
  /-- TEARDOWN (R254). -/
  | teardown (bad : List (BitVec 8)) (dma : Dma)
  /-- WINDOW_SCRUB_DONE (R256). -/
  | windowScrubDone (port : BitVec 5)
  /-- WINDOW_GRANT (R256). -/
  | windowGrant
  /-- WINDOW_RELEASE (R256). -/
  | windowRelease
  /-- RETAINED_FREE (R256). -/
  | retainedFree
  /-- SLOT_GRANT (R152). -/
  | slotGrant
  /-- LIBRARY_INSTALL (R193). -/
  | libraryInstall (dma : Dma)
  /-- LIBRARY_INSTALL_DONE (R193). -/
  | libraryInstallDone (n : Nat) (dma : Dma)
  /-- LIBRARY_GRANT (R193). -/
  | libraryGrant
  /-- LIBRARY_REMOVE (R193). -/
  | libraryRemove
  /-- CONTEXT_RESET (R311). -/
  | contextReset
  /-- ENGINE_HUNG (R311). -/
  | engineHung (c : BitVec 6) (source : BitVec 32)
  /-- ENGINE_RESET (R312). -/
  | engineReset
  /-- ENGINE_RESET_DONE (R312). -/
  | engineResetDone (source : BitVec 32) (good : Bool)
  /-- ENGINE_FAULT (R300). -/
  | engineFault (source : BitVec 32)
  /-- PARTITION_RESET (R313). -/
  | partitionReset (bad : List (BitVec 8))
  /-- MODULE_RESET (R314). -/
  | moduleReset
  /-- FLR (R263). -/
  | flr (c : BitVec 6)
  /-- FLR_DONE (R263). -/
  | flrDone (c : BitVec 6) (hung : Option (BitVec 32))
  /-- JOB_CREATE (R257). -/
  | jobCreate (dma : Dma) (bad : List Nat)
  /-- JOB_END (R257). -/
  | jobEnd
  /-- JOB_LAUNCH (R42). -/
  | jobLaunch
  /-- JOB_QUIESCE (R258). -/
  | jobQuiesce
  /-- JOB_RESUME (R258). -/
  | jobResume
  /-- JOB_SWAP (R209). -/
  | jobSwap
  /-- MANAGER_TAKE (R220). -/
  | managerTake (found : List FoundMod)
  /-- READMIT (R239). -/
  | readmit (bad : Option (BitVec 3))
  /-- EXCLUDE (R239). -/
  | exclude (dma : Dma)
  /-- RING_FORMATION (R219). -/
  | ringFormation (v : BitVec 2) (found : List FoundMod)
  /-- ADOPTION (R219). -/
  | adoption (a : AdoptMsg)
  /-- BEACON (R220). -/
  | beacon
  /-- HEARTBEAT (R220). -/
  | heartbeat (m : BitVec 10)
  /-- MANAGER_LOST (R220). -/
  | managerLost
  /-- MODULE_FAILED (R237). -/
  | moduleFailed (m : BitVec 10) (link : Option (BitVec 3))
  /-- FAULT_REPORT (R319). -/
  | faultReport (m : BitVec 10) (code : BitVec 16) (cls : BitVec 3) (c : BitVec 6) (source : BitVec 32) (arg0 : BitVec 32) (arg1 : BitVec 32)
  /-- TABLE_CHANGE (R231). -/
  | tableChange (t : Option TableChange)
  /-- CABLE_CHANGE (R213). -/
  | cableChange (port : BitVec 3) (cable : CableClass)
  /-- CAGE_OVERCURRENT (R361). -/
  | cageOvercurrent (port : BitVec 3)
  /-- LINK_TRAINED (R217). -/
  | linkTrained (port : BitVec 3)
  /-- LINK_TRAINING_TIMEOUT (R217). -/
  | linkTrainingTimeout (port : BitVec 3)
  /-- LINK_TRAINING_RETRY (R217). -/
  | linkTrainingRetry (port : BitVec 3)
  /-- LINK_ALIGNED (R217). -/
  | linkAligned (port : BitVec 3) (nbr : BitVec 10) (nport : BitVec 3) (delay : BitVec 16)
  /-- LINK_ALIGN_TIMEOUT (R217). -/
  | linkAlignTimeout (port : BitVec 3)
  /-- LINK_DOWN (R217). -/
  | linkDown (port : BitVec 3) (lanes : BitVec 8)
  /-- CODEWORD_GROUP_RX (R216). -/
  | codewordGroupRx (port : BitVec 3) (g : Group)
  /-- REPLAY_RESEND (R227). -/
  | replayResend (port : BitVec 3) (pip : BitVec 6)
  /-- EPFIN_PACKET_TX (R222). -/
  | epfinPacketTx (n : Nat)
  /-- EPFIN_FORWARD (R218). -/
  | epfinForward (port : BitVec 3) (pkt : EpPacket)
  /-- EPFIN_PACKET_RX (R225). -/
  | epfinPacketRx (port : BitVec 3) (pkt : EpPacket)
  /-- IDE_FAIL (R354). -/
  | ideFail (stream : BitVec 3)
  /-- PERST (R360). -/
  | perst
  /-- PWR_EN_RISE (R364). -/
  | pwrEnRise
  /-- PWR_EN_FALL (R364). -/
  | pwrEnFall
  /-- MOD_RST_N (R364). -/
  | modRstN
  /-- MODULE_START_STAGE (R366). -/
  | moduleStartStage (r : StageResult)
  /-- REF_ABSENT (R367). -/
  | refAbsent
  /-- TEMPERATURE_GATE_CLEAR (R368). -/
  | temperatureGateClear
  /-- MG_RESET (R314). -/
  | mgReset (window : Bool) (v : BitVec 32)
  /-- MG_FLOGACK (R305). -/
  | mgFlogack (v : BitVec 32)
  /-- FS_PCAP (R338). -/
  | fsPcap (v : BitVec 32)
  /-- REGISTER_WRITE (R385). -/
  | registerWrite (space : Space) (off : BitVec 32) (v : BitVec 32) (be : BitVec 4)
  /-- RECOVERY_ENTER (R346). -/
  | recoveryEnter (v : BitVec 32)
  /-- RECOVERY_TRANSFER (R347). -/
  | recoveryTransfer (dma : Dma) (flashOk : Bool)
  /-- GET_VERSION (R351). -/
  | getVersion
  /-- GET_CAPABILITIES (R351). -/
  | getCapabilities
  /-- NEGOTIATE_ALGORITHMS (R351). -/
  | negotiateAlgorithms (offer : AlgOffer)
  /-- GET_DIGESTS (R351). -/
  | getDigests
  /-- GET_CERTIFICATE (R350). -/
  | getCertificate (slot : BitVec 4) (off : BitVec 16) (len : BitVec 16)
  /-- CHALLENGE (R351). -/
  | challenge (slot : BitVec 4) (nonce : BitVec 256)
  /-- GET_MEASUREMENTS (R352). -/
  | getMeasurements (index : BitVec 8) (nonce : BitVec 256)
  /-- KEY_EXCHANGE (R354). -/
  | keyExchange (slot : BitVec 4) (nonce : BitVec 256) (share : BitVec 512)
  /-- FINISH (R351). -/
  | finish (good : Bool)
  /-- END_SESSION (R351). -/
  | endSession
  /-- IDE_KM (R354). -/
  | ideKm (stream : BitVec 3) (key : BitVec 256)
  /-- SMBUS_READ (R365). -/
  | smbusRead (off : BitVec 32)
  /-- SMBUS_RESET (R365). -/
  | smbusReset (v : BitVec 32)
  /-- SMBUS_PCAP (R365). -/
  | smbusPcap (v : BitVec 16)
  /-- MONITOR_LINE (R373). -/
  | monitorLine (line : List (BitVec 8))
  /-- MONITOR_ABORT (R373). -/
  | monitorAbort
  /-- MONITOR_ID (R375). -/
  | monitorId
  /-- MONITOR_REG (R375). -/
  | monitorReg (off : Nat) (n : Nat)
  /-- MONITOR_START (R375). -/
  | monitorStart
  /-- MONITOR_TEMP (R375). -/
  | monitorTemp
  /-- MONITOR_LOG (R375). -/
  | monitorLog (n : Nat)
  /-- MONITOR_LOG_FLASH (R375). -/
  | monitorLogFlash (n : Nat)
  /-- MONITOR_CTX (R375). -/
  | monitorCtx (c : Nat)
  /-- MONITOR_CORE (R375). -/
  | monitorCore (cx : Nat) (cy : Nat)
  /-- MONITOR_HANDLE (R375). -/
  | monitorHandle (cx : Nat) (cy : Nat) (h : Option Nat)
  /-- MONITOR_MEM (R375). -/
  | monitorMem (cx : Nat) (cy : Nat) (addr : Nat) (len : Nat)
  /-- MONITOR_ISTORE (R375). -/
  | monitorIstore (cx : Nat) (cy : Nat) (b : Nat) (n : Nat)
  /-- MONITOR_PORT (R375). -/
  | monitorPort (n : Nat)
  /-- MONITOR_PIPS (R375). -/
  | monitorPips (n : Nat)
  /-- MONITOR_RANK (R375). -/
  | monitorRank (job : Nat)
  /-- MONITOR_ROUTE (R375). -/
  | monitorRoute (job : Nat)
  /-- MONITOR_BMASK (R375). -/
  | monitorBmask
  /-- MONITOR_DIST (R375). -/
  | monitorDist (bx : Nat) (by_ : Nat)
  /-- MONITOR_CHALLENGE (R375). -/
  | monitorChallenge
  /-- MONITOR_UNLOCK (R355). -/
  | monitorUnlock (cert : List (BitVec 8))
  /-- MONITOR_LOCK (R376). -/
  | monitorLock
  /-- MONITOR_WREG (R377). -/
  | monitorWreg (off : Nat) (v : BitVec 32)
  /-- MONITOR_WMEM (R377). -/
  | monitorWmem (cx : Nat) (cy : Nat) (addr : Nat) (v : BitVec 32)
  /-- MONITOR_WISTORE (R378). -/
  | monitorWistore (cx : Nat) (cy : Nat) (b : Nat) (ws : List (BitVec 32))
  /-- MONITOR_RESET (R377). -/
  | monitorReset
  /-- INPUT_POWER_LOSS (R315). -/
  | inputPowerLoss
  /-- PERST_DEASSERT (R360). -/
  | perstDeassert
  /-- HOST_LINK_DOWN (R354). -/
  | hostLinkDown
  /-- MOD_RST_N_RELEASE (R364). -/
  | modRstNRelease
  /-- MEMBER_FAULT (R306); `own`: the message names a fault that the manager raises itself, with its arguments (R237, R259,
  R37). -/
  | memberFault (c : BitVec 6) (m : BitVec 10) (code : MemberCode)
  deriving DecidableEq, Repr

end Sys2Proof
end

