-- ==== Sys2Proof/Config.lean ====
section
/-! DEFINITION. What the spec leaves to the part or leaves open: values without a body, so that no
proof can lean on one. Each is named in an entry of notes/assumptions. -/
namespace Sys2Proof.Config

/-- The firmware image in SPI NOR flash as the factory leaves it (R343). Log 2. -/
opaque factoryFlash : List Byte
/-- The flash as a write that failed leaves it, at the n-th draw (R345, Table 17.4). Log 2. -/
opaque damagedFlash : Nat → List Byte
/-- The firmware verification key digest fused at the factory (Table 17.1, FWKEY). Log 2. -/
opaque fwKey : BitVec 256
/-- The digest of the debug-authority public key (Table 17.1, JDKEY). Log 2. -/
opaque jdKey : BitVec 256
/-- The serial number fused at the factory (Table 17.1, SERIAL). Log 2. -/
opaque serial : BitVec 64
/-- The digest of the device identity public key (Table 17.1). Log 2. -/
opaque deviceKey : BitVec 256
/-- The certificate chain of the device key (R350). Log 2. -/
opaque certChain : List Byte
/-- The random value of the n-th draw (challenges, responder nonces). Log 12. -/
opaque random : Nat → BitVec 256
/-- The signature of the device key over a digest, at the n-th draw. Log 12. -/
opaque sign : Nat → BitVec 256 → BitVec 512
/-- The ECDHE share the responder sends at the n-th draw. Log 12. -/
opaque share : Nat → BitVec 512
/-- The HMAC of a session's handshake, at the n-th draw. Log 12. -/
opaque mac : Nat → BitVec 256
/-- Values the spec leaves unstated, by the number of the draw. Log 12. -/
opaque freeValue : Nat → Nat

end Sys2Proof.Config
end

