-- ==== Sys2Proof/Machine/State.lean ====
section
/-! DEFINITION. The machine's state as plain data, its reset value, and the reasons it can stop.
Every field names the rule of spec/ that gives it; a field marked (model) is the model's own. -/
namespace Sys2Proof.Machine

open Sys2Proof

/-- Who holds an entry of the range scoreboard, which says when it is released (Table 3.9). -/
inductive RangeOwner where
  /-- VLDT, VSTT: released at this cycle of the core, when their turn has come (R99). -/
  | tile (ready : Nat)
  /-- An operand of MMA or MMAZ: released at this cycle, when its occupancy ends. -/
  | mx (ready : Nat)
  /-- A stream: released as the table says; `piece` for ranges released in 64-byte pieces. -/
  | stream (id : Nat) (piece : Bool)
  | expect (id : Nat) (tag : BitVec 3)
  /-- ATTEND at its issuing core: part 0 descriptor, 1 query, 2 output, 3 appended rows (Table 8.8). -/
  | attend (id part : Nat)
  /-- The work range of a member lent to the sequencer of a pod (R175). -/
  | work (pod : Nat)
  deriving DecidableEq, Repr

/-- A register of the register scoreboard (R61). -/
inductive RegName where
  | t (n : Nat) | v (n : Nat) | acc (n : Nat) | len
  deriving DecidableEq, Repr

/-- Operations of a mesh packet (R117, R126, R127). -/
inductive MeshOp where
  | write | reduceAdd | readReq | readReply
  deriving DecidableEq, Repr

/-- What a sequencer's packet on a queue pair does (R177): it reads SELECTOR, a directory entry or page entries of a
region, writes a piece of an append, or reads a ring block of a member. -/
inductive AttKind where
  | selector
  | directory
  | entries
  | append
  | page (member block : Nat)
  deriving DecidableEq, Repr

/-- A sequencer's packet: its pod, what it does, and its run of stack bytes (R177). -/
structure AttAcc where
  pod : Nat
  kind : AttKind
  first : Nat
  len : Nat
  deriving DecidableEq, Repr

/-- How far a taken descriptor has got (R268). -/
inductive TakenSt where
  /-- waits in its queue -/
  | waiting
  /-- performed in part: its own completion command ends it -/
  | running
  /-- staged for a commit (R387) -/
  | staged
  /-- SUBMIT: its input is being fetched (R276) -/
  | fetching
  /-- SUBMIT: its input is in its slot -/
  | fetched
  /-- accepted and runs in the background (R268) -/
  | accepted
  /-- timed out after it began: its record is written and its work goes on (R273) -/
  | timedOut
  deriving DecidableEq, Repr

/-- Shard states (Table 9.6). -/
inductive ShardSt where
  | absent | arriving | good | bad | missing
  deriving DecidableEq, Repr

/-- What asked for a quiesce (R248, R250, R254, R258). -/
inductive QuiesceFor where
  | desc | job | rebind | teardown | partReset
  deriving DecidableEq, Repr

/-- Context states (Table 11.2), in the order of their codes. -/
inductive CtxState where
  | free | created | bound | running | quiesced | faulted | scrubbing
  deriving DecidableEq, Repr

/-- A rectangle of pods (R245). -/
structure Rect where
  bx : Nat
  by_ : Nat
  w : Nat
  h : Nat
  deriving DecidableEq, Repr

/-- What a job's exchange at the manager is doing (R257). -/
inductive JobSt where
  | idle | launching | running | quiescing | quiesced | resuming | swapping (quiet : Bool)
  deriving DecidableEq, Repr

/-- The last reply of the SPDM responder (Table 17.6). -/
inductive SpdmReply where
  | none
  | error
  | version
  | capabilities
  | algorithms
  | digests (chain : BitVec 256)
  | certificate (portion : List (BitVec 8)) (remainder : Nat)
  | challengeAuth (nonce : BitVec 256) (sig : BitVec 512)
  | measurements (bytes : List (BitVec 8)) (sig : BitVec 512)
  | keyExchangeRsp (share : BitVec 512) (sig : BitVec 512)
  | finishRsp (mac : BitVec 256)
  | endSessionAck
  | ideKm
  deriving DecidableEq, Repr

/-- A line of monitor output (R374, R375): its name and the values it shows, or an error name. -/
inductive MonOut where
  | values (name : String) (vs : List Nat)
  | ok
  | err (name : String)
  | aborted
  deriving DecidableEq, Repr

/-- A control message of this module (Control traffic, R235, R319). -/
inductive CtlMsg where
  | prepare (m : PrepareMsg)
  | go (job : Nat) (ctx : Nat)
  | abort (job : Nat) (ctx : Nat) (mod reason : Nat)
  | merged (port acks : Nat) (nak : Option (Nat × Nat))
  | start (mod : Nat) (job : Nat)
  | nogo (mod : Nat) (job : Nat) (reason : Nat)
  | beacon (at_ : Nat)
  | heartbeat (mod : Nat) (at_ : Nat)
  | report (mod code cls ctx source arg0 arg1 : Nat)
  | loaded (mod job : Nat) (failed : Option (List Nat))
  | drift (mod ctx : Nat)
  | linkDown (mod port st : Nat)
  | linkPips (mod port pip : Nat)
  | memberFault (mod ctx : Nat) (from_ code : Nat)
  | raise (mod ctx code arg0 arg1 : Nat)
  | adopt (mod : Nat) (m : AdoptMsg)
  | tables (mod : Nat) (c : TableChange)
  | cutOut (mod port : Nat) (excluded : Bool)
  | jobEnd (mod job : Nat)
  | jobSet (mod job ctx rank : Nat)
  | resumeAt (mod job at_ : Nat)
  | setTime (mod : Nat) (sec : BitVec 32)
  | askStretch (mod job period d step : Nat)
  | stepHeld (mod job : Nat)
  | budget (mod ctx at_ step : Nat)
  | adoptNext (port mgr : Nat)
  deriving DecidableEq, Repr

/-- Fused identity of the module (Table 0.3). Nothing writes it after reset. -/
structure Ident where
  /-- 00 R2 R3, ID_IDENT.GRADE -/
  grade : BitVec 8 := 0x0A
  /-- 00 R3, ID_REV.STEP -/
  step : BitVec 8 := 0xA1
  /-- 00 R3 R4, ID_REV.LATTAB -/
  lattab : BitVec 8 := 0x02
  /-- 00 R4, 20 Table 20.4, SK_STAT.FITTED of ports 0-31, fused -/
  fit : BitVec 32 := 0xFFFFFFFF
  deriving DecidableEq, Repr

/-- The time-counter block (02). -/
structure TimeBlock where
  /-- 02 R20 R21, the 64-bit time counter -/
  now : Nat := 0
  /-- 02 R21, the counter runs once LOCK is reported -/
  running : Bool := false
  /-- 02 R31, TC_STATUS.LOCK -/
  lock : Bool := false
  /-- 02 R31, TC_STATUS.SYNCED -/
  synced : Bool := false
  /-- 02 R29 R31, TC_STATUS.ALIGNED -/
  aligned : Bool := false
  /-- 02 R24 R31, TC_STATUS.HOLDOVER -/
  holdover : Bool := false
  /-- 02 R29 R31, TC_STATUS.FREQ_OK -/
  freqOk : Bool := false
  /-- 02 R21 R31, TC_STATUS.PULSE_ERR -/
  pulseErr : Bool := false
  /-- 02 R24 R31, TC_STATUS.REF_LOST -/
  refLost : Bool := false
  /-- 02 R31, TC_STATUS.WWB -/
  wwb : Bool := false
  /-- 02 R21 R31, TC_CTRL.ARM -/
  arm : Bool := false
  /-- 02 R31, TC_SEC -/
  sec : BitVec 32 := 0
  /-- 02 R31, TC_OFFSET, signed, 1/16 tc -/
  offset : BitVec 32 := 0
  /-- 02 R31, TC_FERR, signed, 0.01 ppm -/
  ferr : BitVec 16 := 0
  /-- 02 R23, 18 R365: TC_NOW_HI latch, one per access path -/
  latches : Table (BitVec 32) := []
  /-- 02 R24, counter when holdover began -/
  holdStart : Nat := 0
  /-- 02 R25 R26, counts still to be slewed, signed -/
  slewLeft : Int := 0
  /-- 02 R26, counter of the last slew -/
  lastSlew : Option Nat := none
  /-- 02 R29, start of the 1,000,000,000 tc window -/
  ferrStart : Nat := 0
  /-- 02 R28, exchanges in the current average of 1,024 -/
  exchN : Nat := 0
  /-- 02 R28, sum of offsets in the current average, 1/2 tc -/
  exchSum : Int := 0
  /-- 02 R28, an average of 1,024 exchanges has been taken -/
  avgDone : Bool := false
  /-- 02 R28, the one step before the first context is done -/
  stepped : Bool := false
  /-- 02 Alignment across racks: parent port of the time tree -/
  parent : Option Nat := none
  /-- 16 R327, part of a core cycle left over at the last count (model) -/
  cycAcc : Nat := 0
  deriving DecidableEq, Repr

/-- Frequency steps, power and heat (16). -/
structure FreqBlock where
  /-- 16 R338, FS_STATUS.CUR -/
  cur : Nat := 0
  /-- 16 R328 R338, FS_STATUS.CHANGING and its target step -/
  changing : Option Nat := none
  /-- 16 R328, a step change that waits for one in progress -/
  waiting : Option Nat := none
  /-- 16 R332, s_pow -/
  sPow : Nat := 0
  /-- 16 R332, s_therm -/
  sTherm : Nat := 0
  /-- 16 R332 R338, FS_STATUS.HOLD_FLOOR -/
  holdFloor : Bool := false
  /-- 16 R333 R338, FS_STATUS.FORCED -/
  forced : Bool := false
  /-- 16 R329 R338, FS_STATUS.F_SKEW -/
  fSkew : Bool := false
  /-- 16 R331 R338, FS_STATUS.F_SUPPLY -/
  fSupply : Bool := false
  /-- 16 R333, counter since which every forced condition has been clear -/
  clearSince : Option Nat := none
  /-- 16 R338, FS_PCAP -/
  pcap : BitVec 9 := 0x12C
  /-- 16 R338, FS_CHANGES -/
  changes : BitVec 32 := 0
  /-- 16 R338, FS_FORCES -/
  forces : BitVec 32 := 0
  /-- 16 R338, FS_TIME(0-7), kept in tc: the register reads whole milliseconds -/
  timeTc : Table Nat := []
  /-- 16 R332, counter of the last slower step -/
  lastSlower : Option Nat := none
  /-- 16 R332, counter since which the average exceeds FS_PCAP (Table 16.6) -/
  powSlower : Option Nat := none
  /-- 16 R332, counter since which the faster condition of s_pow holds -/
  powFaster : Option Nat := none
  /-- 16 R332, counter since which the faster condition of s_therm holds -/
  thermFaster : Option Nat := none
  /-- 16 Table 16.1, consecutive evaluations with a hot sensor -/
  hotRuns : Nat := 0
  /-- 16 R337, consecutive evaluations with hot coolant -/
  coolHot : Nat := 0
  /-- 16 R337, COOLANT_HOT posted and COOLANT_OK not yet -/
  coolPosted : Bool := false
  /-- 16 R337, counter since which the coolant is back within limits -/
  coolOkSince : Option Nat := none
  /-- 16 R332, counter of the last evaluation -/
  lastEval : Nat := 0
  /-- 16 R330, setpoint raise of a region in mV -/
  boost : Table Nat := []
  /-- 16 R330, regions in fast-response mode -/
  fastLoop : List Nat := []
  /-- 16 R329, field edges to be retrained at the next module start -/
  xskewEdges : List Nat := []
  /-- 16 R331, core-rail converters on -/
  coreRails : Bool := false
  /-- 16 R335, core clocks run -/
  clocked : Bool := false
  /-- 16 R336, THERM_ALERT_N asserted -/
  alert : Bool := false
  /-- 16 R335, a trip waits for its temperature gate -/
  tripHold : Bool := false
  deriving DecidableEq, Repr

/-- Telemetry registers (16, Table 16.4). -/
structure Telemetry where
  /-- 16 R338, MG_TFIELD(0-47), signed 0.1 C -/
  tfield : Table (BitVec 16) := []
  /-- 16 R338, MG_VFIELD(0-47) CURRENT, VOLT -/
  vfield : Table (BitVec 32) := []
  /-- 16 R338, MG_TSTACK(0-31), signed 0.1 C; 0x8000 when not fitted -/
  tstack : Table (BitVec 16) := []
  /-- 16 R338, MG_PIN.PIN in W -/
  pin : BitVec 16 := 0
  /-- 16 R338, MG_PIN.VIN in 0.1 V -/
  vin : BitVec 16 := 0
  /-- 16 R338, MG_COOL.INLET -/
  inlet : BitVec 16 := 0
  /-- 16 R338, MG_COOL.OUTLET -/
  outlet : BitVec 16 := 0
  deriving DecidableEq, Repr

/-- One comparator K0-K3 (03 R50). -/
structure Compar where
  /-- 03 R50, bound counter -/
  ctr : BitVec 3 := 0
  /-- 03 Table 3.2, COND -/
  cond : BitVec 2 := 0
  /-- 03 R50, LIMIT -/
  limit : BitVec 20 := 0
  deriving DecidableEq, Repr

/-- One of the 32 entries of a core's range scoreboard (03 R61). -/
structure RangeEntry where
  /-- 03 R61, first byte, rounded down to 64 -/
  lo : Nat := 0
  /-- 03 R61, end byte (exclusive), rounded up to 64 -/
  hi : Nat := 0
  /-- 03 R61, pending write or pending read -/
  write : Bool := false
  /-- 03 Table 3.9, 64-byte pieces already released, by number -/
  freed : List Nat := []
  /-- 03 Table 3.9, the operation that registered it -/
  owner : RangeOwner := .tile 0
  deriving DecidableEq, Repr

/-- One entry of a core's register scoreboard (03 R62). -/
structure RegEntry where
  /-- 03 R61, the register written -/
  reg : RegName := .len
  /-- 03 R66, issue cycle from which a consumer may issue -/
  ready : Nat := 0
  deriving DecidableEq, Repr

/-- A stream of the LD or ST slot (03 R60, 05 R104). -/
structure StreamRec where
  /-- 03 R60, issue order (model) -/
  id : Nat := 0
  /-- 05 Table 5.9, kind -/
  op : StreamOp := .gather
  /-- 05 R104, the 16 words taken at issue -/
  desc : List (BitVec 32) := []
  /-- 03 Table 3.8, DH -/
  dh : Nat := 0
  /-- 03 Table 3.8, DI -/
  di : Nat := 0
  /-- 14 Table 14.2, bundle index at issue -/
  bidx : Nat := 0
  /-- 05 R105, the counter passed by IDX -/
  iter : BitVec 32 := 0
  /-- 05 R104, element count -/
  count : Nat := 0
  /-- 05 R102, source handle entry taken at issue -/
  srcH : BitVec 128 := 0
  /-- 05 R102, destination handle entry taken at issue -/
  dstH : BitVec 128 := 0
  /-- 05 R102, source index handle entry taken at issue -/
  srcIH : BitVec 128 := 0
  /-- 05 R102, destination index handle entry taken at issue -/
  dstIH : BitVec 128 := 0
  /-- 05 R108, return or reply lines not yet written (model) -/
  lines : Nat := 0
  /-- 05 R108, no further line will be sent (model) -/
  closed : Bool := false
  /-- 05 R113, the stream was stopped by a fault -/
  dead : Bool := false
  deriving DecidableEq, Repr

/-- A depth watch of QLEV (07 R145). -/
structure Watch where
  /-- 03 Table 3.3, PORT -/
  port : Nat := 0
  /-- 03 Table 3.3, QP -/
  qp : Nat := 0
  /-- 03 Table 3.3, DIR -/
  dir : Bool := false
  /-- 03 Table 3.3, GE_LE -/
  geLe : Bool := false
  /-- 03 Table 3.3, N -/
  n : Nat := 0
  /-- 07 R145, the port answered that the condition held -/
  held : Bool := false
  deriving DecidableEq, Repr

/-- One element accumulator of a reduction (06 R131). -/
structure RedElem where
  /-- 06 R131, S, weight 2^-64 -/
  sum : BitVec 192 := 0
  /-- 06 R131, NAN -/
  nan : Bool := false
  /-- 06 R131, PINF -/
  pinf : Bool := false
  /-- 06 R131, NINF -/
  ninf : Bool := false
  /-- 06 R132, PINF or NINF came from a finite contribution -/
  finOvf : Bool := false
  deriving DecidableEq, Repr

/-- An open reduction of a router (06 R130). -/
structure RedKey where
  /-- 06 R130, context -/
  ctx : Nat := 0
  /-- 06 R130, WH -/
  wh : Nat := 0
  /-- 06 R130, window offset -/
  off : Nat := 0
  /-- 06 R130, length in bytes -/
  len : Nat := 0
  /-- 06 R130, TAG -/
  tag : BitVec 3 := 0
  /-- 06 R130, RFMT of the first packet -/
  rfmt : BitVec 2 := 0
  /-- 06 R130, RCOUNT of the first packet -/
  rcount : Nat := 0
  /-- 06 R130, contributions so far -/
  count : Nat := 0
  /-- 06 R133, accumulators, at most 128 per router in all -/
  elems : List RedElem := []
  deriving DecidableEq, Repr

/-- A tile move that waits for its VE turn (05 R99). -/
structure TileMove where
  /-- 05 R99, cycle of its turn -/
  turn : Nat := 0
  /-- 03 R66, cycle at which it ends -/
  ready : Nat := 0
  /-- 05 R99, the tile register VLDT fills -/
  reg : Option Nat := none
  deriving DecidableEq, Repr

/-- The operand fetch of an MMA (05 R98). -/
structure MxFetch where
  /-- 05 R98, cycle of its first MX turn -/
  first : Nat := 0
  /-- 05 R98, turns made before that one -/
  past : Nat := 0
  /-- 05 R98, first line of operand A -/
  lineA : Nat := 0
  /-- 05 R98, first line of operand B -/
  lineB : Nat := 0
  /-- 05 Table 5.3, lines per operand tile -/
  lines : Nat := 0
  /-- 03 R66, cycle at which its occupancy ends -/
  ready : Nat := 0
  /-- 03 R57, its accumulator -/
  acc : Nat := 0
  /-- 03 R66, cycle at which the accumulator is ready -/
  accReady : Nat := 0
  deriving DecidableEq, Repr

/-- One logical core with its router and reduction unit (03, 04, 05, 06). -/
structure Core where
  /-- 03 R50, C0-C7, 32 bits each -/
  ctrs : Table (BitVec 32) := []
  /-- 03 R50, K0-K3 -/
  cmps : Table Compar := []
  /-- 03 R47, bundle index -/
  bidx : BitVec 10 := 0
  /-- 03 R47 R68, the core has been started and issue has not been stopped -/
  issuing : Bool := false
  /-- 03 R52, the core has issued STOP -/
  stopped : Bool := false
  /-- 03 R63, cycles of this core since start (model) -/
  cyc : Nat := 0
  /-- 03 R54, earliest issue cycle set by WAITCY -/
  earliest : Nat := 0
  /-- 05 R94, 06 R121 rotation phase 0-7 -/
  phase : Nat := 0
  /-- 02 R41, pending ticks -/
  pendTicks : Nat := 0
  /-- 02 R40, the core waits at TICK (reached its tick wait) -/
  waitTick : Bool := false
  /-- 03 R63, idle counter -/
  idle : BitVec 32 := 0
  /-- 03 R63, frame slip counter -/
  slip : BitVec 32 := 0
  /-- 03 R63, running slip total -/
  slipTotal : BitVec 64 := 0
  /-- 03 R63, frame slip latched at TICK -/
  latSlip : BitVec 32 := 0
  /-- 03 R63, idle count latched at TICK -/
  latIdle : BitVec 32 := 0
  /-- 04 R90, numeric flags latched at TICK -/
  latFlags : BitVec 5 := 0
  /-- 03 R64, frame slips latched and not yet published -/
  latSlips : List (BitVec 32) := []
  /-- 04 R90, flags of frames latched and not yet published -/
  newFlags : BitVec 5 := 0
  /-- 03 R64, slip of the frame that ends at this TICK, where the last publication holds it (model) -/
  counted : Option (BitVec 32) := none
  /-- 04 R90, numeric flags of the frame -/
  flags : BitVec 5 := 0
  /-- 04 R90, sticky numeric flags -/
  sticky : BitVec 5 := 0
  /-- 04 R69, ACC0-ACC3, 16 x 16 FP32 each -/
  acc : Cells (BitVec 32) := []
  /-- 04 R69, T0-T15, 16 x 16 lanes of 32 bits each -/
  tile : Cells (BitVec 32) := []
  /-- 04 R69, V0-V7, 16 lanes of 32 bits each -/
  vec : Cells (BitVec 32) := []
  /-- 04 R69, LEN.ROW 1-16 -/
  lenRow : Nat := 16
  /-- 04 R69, LEN.COL 1-16 -/
  lenCol : Nat := 16
  /-- 03 R58, cycle at which the matrix engine's occupancy ends -/
  mxFree : Nat := 0
  /-- 03 R58, accumulator of the last MX operation -/
  mxAcc : Option Nat := none
  /-- 03 R62, cycle at which the vector engine's occupancy ends -/
  veFree : Nat := 0
  /-- 05 R99, first VE turn that no earlier tile move holds -/
  tileFree : Nat := 0
  /-- 05 R99, tile moves that wait for their VE turn -/
  moves : List TileMove := []
  /-- 05 R98, operand fetch of the last MMA -/
  fetch : Option MxFetch := none
  /-- 03 R68, the stalled bundle that has passed its tests (model) -/
  tested : Option Bundle := none
  /-- 03 R61, register scoreboard -/
  regs : List RegEntry := []
  /-- 03 R61, range scoreboard, 32 entries -/
  ranges : List RangeEntry := []
  /-- 03 R60, number of the next stream, EXPECT or ATTEND (model) -/
  nextId : Nat := 0
  /-- 03 R60, LD streams in flight, at most 8 -/
  ld : List StreamRec := []
  /-- 03 R60, ST streams in flight, at most 8 -/
  st : List StreamRec := []
  /-- 03 R55, unclaimed notices of each tag, 8 bits -/
  unclaimed : Table Nat := []
  /-- 03 R55, mesh notices that have reached the core and are not yet taken (model) -/
  due : List (BitVec 3) := []
  /-- 07 R149, packet-complete notices per (PORT, QP), 8 bits -/
  qnotes : Table Nat := []
  /-- 07 R145, depth watch at the port -/
  watch : Option Watch := none
  /-- 05 R92, data scratchpad, 196,608 bytes -/
  mem : Cells (BitVec 8) := []
  /-- 03 R45 R46, instruction store, 1,024 bundles of 8 words -/
  istore : Cells (BitVec 32) := []
  /-- 05 R103, descriptor store, by the scratchpad address it mirrors -/
  dstore : Cells (BitVec 8) := []
  /-- 05 R100, handle table H0-H63 -/
  handles : Cells (BitVec 128) := []
  /-- 05 R112, words of the three stores that hold a single-bit error -/
  eccSingle : List Nat := []
  /-- 05 R112, words of the three stores that hold a double-bit error -/
  eccDouble : List Nat := []
  /-- 05 R112, correctable-error count -/
  correctable : BitVec 32 := 0
  /-- 14 R317, uncorrectable errors in this module start -/
  uncorr : Nat := 0
  /-- 11 R246, router owner: context number with a valid bit -/
  owner : Option Nat := none
  /-- 06 R130, open reduction keys of the router -/
  keys : List RedKey := []
  /-- 06 R133, reduce-add packets waiting for accumulators (model: packet numbers) -/
  redWait : List Nat := []
  /-- 08 R175, lent to the attention sequencer -/
  lent : Bool := false
  /-- 14 R312, the core failed its self-test in an engine reset -/
  selfFail : Bool := false
  deriving DecidableEq, Repr

/-- A packet in flight on the panel mesh (06 Packets). -/
structure MeshPacket where
  /-- 06 R124, order of injection (model) -/
  num : Nat := 0
  /-- 06 header: context -/
  ctx : Nat := 0
  /-- 06 header: sending core index, or an interface -/
  src : Nat := 0
  /-- 06 header: destination core index -/
  dst : Nat := 0
  /-- 06 header: sender's job-local rank -/
  rank : Nat := 0
  /-- 06 header: operation -/
  op : MeshOp := .write
  /-- 06 header: CHAN -/
  chan : Nat := 0
  /-- 06 header: window handle -/
  wh : Nat := 0
  /-- 06 header: expected generation -/
  wgen : Nat := 0
  /-- 06 header: byte offset -/
  off : Nat := 0
  /-- 06 header: length -/
  len : Nat := 0
  /-- 06 header: tag -/
  tag : BitVec 3 := 0
  /-- 06 header: reduce-add format -/
  rfmt : BitVec 2 := 0
  /-- 06 header: RCOUNT -/
  rcount : Nat := 0
  /-- 06 R124, a notice follows this packet -/
  last : Bool := false
  /-- 06 R117, payload, at most 256 bytes -/
  data : List (BitVec 8) := []
  /-- 05 R108, stream of the requester (RREAD) -/
  sid : Nat := 0
  /-- 05 R108, read reply: byte of the stream at which its data begin -/
  first : Nat := 0
  /-- 10 R222, the read-request of another module this request serves -/
  via : Option EpPacket := none
  deriving DecidableEq, Repr

/-- Partial state (m, s, O) of a sequencer's team member (08 R180). -/
structure Partial where
  /-- 08 R180, running maximum of each row -/
  m : List (BitVec 32) := []
  /-- 08 R180, running sum of each row -/
  s : List (BitVec 32) := []
  /-- 08 R180, output lanes of each row, dimension by dimension -/
  o : List (List (BitVec 32)) := []
  /-- 08 R182, numeric flags raised by the member -/
  flags : BitVec 5 := 0
  deriving DecidableEq, Repr

/-- The ATTEND a sequencer has been given (08 R171-R182). -/
structure AttendJob where
  /-- 08 R173, issuing core -/
  core : Nat := 0
  /-- 08 R173, its context -/
  ctx : Nat := 0
  /-- 08 R172, number of its scoreboard ranges (model) -/
  id : Nat := 0
  /-- 08 Table 8.7, the 32 words of the descriptor -/
  desc : List (BitVec 32) := []
  /-- 08 Table 8.7, scratchpad address of the query tiles -/
  qaddr : Nat := 0
  /-- 08 Table 8.7, scratchpad address of the output -/
  oaddr : Nat := 0
  /-- 08 Table 8.7, scratchpad address of the appended rows -/
  aaddr : Nat := 0
  /-- 08 R173, accepted -/
  accepted : Bool := false
  /-- 08 R167, the copy the walk began on -/
  copy : Nat := 0
  /-- 08 R167, the walk is counted at its port -/
  walking : Bool := false
  /-- 08 R167, entry buffer: the layer's page entries, at most 4,095 -/
  entries : List (BitVec 64) := []
  /-- 08 Table 8.4, RING_BLOCKS -/
  ringBlocks : Nat := 0
  /-- 08 Table 8.4, FIRST -/
  firstEntry : Nat := 0
  /-- 08 R175, query tiles as read for the team -/
  query : List (BitVec 8) := []
  /-- 08 R177, ring blocks each member has still to read, by member number -/
  todo : Table (List Nat) := []
  /-- 08 R177, page reads in flight of each member, at most two -/
  flying : Table Nat := []
  /-- 08 R177 R183, head parts read, by 4,096 x member + block -/
  pages : Table (List (BitVec 8)) := []
  /-- 08 R178, append writes not yet served -/
  appends : Nat := 0
  /-- 08 R175, members still lent, by member number -/
  lentCores : List Nat := []
  /-- 08 R181, states sent and not yet merged, by member number -/
  sent : Table Partial := []
  /-- 08 R182, heads whose output is written -/
  outs : List Nat := []
  /-- 08 R182, numeric flags raised so far -/
  flags : BitVec 5 := 0
  deriving DecidableEq, Repr

/-- A context's run of 64 MiB blocks on a port (07 R138). -/
structure Window where
  /-- 07 R138, first block -/
  base : Nat := 0
  /-- 07 R138, blocks -/
  blocks : Nat := 0
  deriving DecidableEq, Repr

/-- An owned page-table region (08 R164, R165). -/
structure Region where
  /-- 08 R165, owning context -/
  ctx : Nat := 0
  /-- 08 R164, first byte in the context's window -/
  base : Nat := 0
  /-- 08 Table 8.3, LAYERS -/
  layers : Nat := 0
  /-- 08 Table 8.3, MAXENT -/
  maxent : Nat := 0
  /-- 08 R167, walks begun on copy 0 and not ended -/
  walks0 : Nat := 0
  /-- 08 R167, walks begun on copy 1 and not ended -/
  walks1 : Nat := 0
  /-- 08 R169, pending EDIT descriptors with the index of their descriptor, in submission order -/
  edits : List (List (BitVec 32) × Nat) := []
  /-- 08 R169, an EDIT flipped and waiting for the old copy: its descriptor's index and that copy -/
  flipped : Option (Nat × Nat) := none
  /-- 08 R170, a RELEASE waiting: its descriptor's index -/
  release : Option Nat := none
  deriving DecidableEq, Repr

/-- A packet posted on a queue pair (07 R140). -/
structure QPacket where
  /-- 07 R151, posting order (model) -/
  num : Nat := 0
  /-- 07 R140, posting core -/
  core : Nat := 0
  /-- 07 R140, QREAD or QWRITE -/
  read : Bool := true
  /-- 05 R104, the stream with its descriptor -/
  s : StreamRec := {}
  /-- 07 R140, bytes performed, in element order -/
  pos : Nat := 0
  /-- 07 R140, QWRITE: source bytes in element order -/
  data : List (BitVec 8) := []
  /-- 07 R140 R144, QREAD: bytes read and not yet sent -/
  buf : List (BitVec 8) := []
  /-- 07 R140, byte of the stream at which they begin -/
  bufAt : Nat := 0
  /-- 05 R108, QWRITE: every source byte has been handed to the queue -/
  handed : Bool := false
  /-- 05 R105 R140, QWRITE: the index values of its stack side, read with its source -/
  idxs : List Nat := []
  /-- 08 R177, a packet of a sequencer -/
  att : Option AttAcc := none
  /-- 07 R147, QWRITE: ring offset reserved -/
  ringAt : Option Nat := none
  /-- 07 R147, QREAD: number of the ring packet taken -/
  took : Option Nat := none
  /-- 07 R148 R150, the rest is sent as the empty item -/
  empty : Bool := false
  /-- 07 R147, bytes of the taken packet to be delivered -/
  cutAt : Nat := 0
  /-- 07 R143 R148, the empty item in force when the port took the packet -/
  item : BitVec 32 := 0xFFFFFFFF
  deriving DecidableEq, Repr

/-- A packet in a channel-mode ring (07 R147). -/
structure RingPkt where
  /-- 07 R147, number of its QWRITE -/
  num : Nat := 0
  /-- 07 R147, byte offset in the ring -/
  at_ : Nat := 0
  /-- 07 R147, bytes reserved -/
  len : Nat := 0
  /-- 07 R147, bytes in the ring -/
  got : Nat := 0
  /-- 07 R147, a QREAD has taken it -/
  taken : Bool := false
  /-- 07 R143 R147, CUT in force when the port took its QWRITE -/
  cut : Nat := 0
  deriving DecidableEq, Repr

/-- A queue pair's record and queues (07 R142, R143). -/
structure Pair where
  /-- 07 Table 7.3, QR_CFG.MODE -/
  mode : BitVec 2 := 0
  /-- 07 Table 7.3, QR_CFG.RQCAP -/
  rqcap : Nat := 8
  /-- 07 Table 7.3, QR_CFG.EMPTY -/
  empty : Bool := false
  /-- 07 Table 7.3, QR_CFG.CUT -/
  cut : BitVec 16 := 0
  /-- 07 Table 7.3, QR_IDLE -/
  idle : BitVec 32 := 0
  /-- 07 Table 7.3, QR_RBASE -/
  rbase : BitVec 24 := 0
  /-- 07 Table 7.3, QR_RSIZE -/
  rsize : BitVec 20 := 0
  /-- 07 Table 7.3, QR_COUNT.EMPTYS -/
  emptys : BitVec 16 := 0
  /-- 07 Table 7.3, QR_COUNT.FLUSHES -/
  flushes : BitVec 16 := 0
  /-- 07 Table 7.3, QR_CTRL.WWB -/
  wwb : Bool := false
  /-- 07 R144, packets posted and not finished (RQD is their number) -/
  reqs : List QPacket := []
  /-- 07 R147, packets of the ring, oldest first (RTD and FILL are counted from it) -/
  ring : List RingPkt := []
  /-- 07 R147, ring write point -/
  wptr : Nat := 0
  deriving DecidableEq, Repr

/-- A return line on its way from a port to a core (07 R140). -/
structure RetLine where
  /-- 07 R140, destination core -/
  core : Nat := 0
  /-- 07 R140, 11 R247, context whose QREAD it answers -/
  ctx : Nat := 0
  /-- 07 R140, stream -/
  sid : Nat := 0
  /-- 07 R140, byte of the stream at which the line begins -/
  first : Nat := 0
  /-- 07 R140, bytes in element order, at most 256 -/
  data : List (BitVec 8) := []
  /-- 05 R108, the last line of its stream -/
  fin : Bool := false
  deriving DecidableEq, Repr

/-- A window scrub of a port (11 R256). -/
structure ScrubJob where
  /-- 11 R256, first block -/
  base : Nat := 0
  /-- 11 R256, blocks -/
  blocks : Nat := 0
  /-- 11 R256, index of the descriptor that waits for it -/
  num : Option Nat := none
  deriving DecidableEq, Repr

/-- An STK write that waits at its port (10 R223). -/
structure StkWrite where
  /-- 10 R223, destination context -/
  ctx : Nat := 0
  /-- 10 R223, window offset of the bytes still to be written -/
  off : Nat := 0
  /-- 10 R223, the bytes still to be written -/
  data : List (BitVec 8) := []
  deriving DecidableEq, Repr

/-- A stack port with its stack (07). -/
structure StackPort where
  /-- 20 Table 20.4, SK_STAT.TRAINED -/
  trained : Bool := false
  /-- 20 Table 20.4, SK_STAT.DISABLED (port in the disabled-unit map) -/
  disabled : Bool := false
  /-- 20 Table 20.4, SK_STAT.SELFREF -/
  selfRef : Bool := false
  /-- 14 R312, engine reset of the port in progress -/
  resetting : Bool := false
  /-- 14 R317, bad-block list (tier A) -/
  bad : List Nat := []
  /-- 07 R158, rewrite count of each 64 MiB block (tier B) -/
  wear : Table Nat := []
  /-- 14 R317, uncorrectable errors of a block in this start -/
  ueBlocks : Table Nat := []
  /-- 20 Table 20.4, SK_CECNT -/
  ce : BitVec 32 := 0
  /-- 20 Table 20.4, SK_UECNT -/
  ue : BitVec 32 := 0
  /-- 20 Table 20.4, SK_PATROL -/
  patrol : BitVec 32 := 0
  /-- 07 R155 R157, next atom of patrol scrub -/
  patrolAt : Nat := 0
  /-- 07 R156, refreshes issued in the port's own slots (model) -/
  refreshes : Nat := 0
  /-- 07 R152, service slots 0-61 granted, slot to context -/
  slots : Table Nat := []
  /-- 07 R142, queue pairs, by 256 x context + QP -/
  pairs : Table Pair := []
  /-- 07 R138, windows by context -/
  wins : Table Window := []
  /-- 11 R256, retained windows by retention number -/
  retained : Table Window := []
  /-- 08 R165, owned regions, at most 1,024 -/
  regions : List Region := []
  /-- 07 R137, stack bytes, 32 GiB tier A, 64 GiB tier B -/
  mem : Cells (BitVec 8) := []
  /-- 07 R155, 64-bit stack words that hold a correctable error -/
  eccSingle : List Nat := []
  /-- 07 R155, 64-bit stack words that hold an uncorrectable error -/
  eccDouble : List Nat := []
  /-- 07 R140, return lines on their way to cores -/
  lines : List RetLine := []
  /-- 10 R223, STK writes that have arrived and wait for their contexts' slots, oldest first -/
  stkQ : List StkWrite := []
  /-- 07 R151, number of the next packet (model) -/
  nextNum : Nat := 0
  /-- 07 R153, pair served last, by context -/
  lastQp : Table Nat := []
  /-- 07 R159, digest engine: the context and shard it serves -/
  engine : Option (Nat × Nat) := none
  /-- 09 R192, contexts and shards that have asked for the engine while it was busy, in that order -/
  engineQ : List (Nat × Nat) := []
  /-- 07 R157, an access took the port out of self-refresh -/
  woken : Bool := false
  /-- 07 R157, counter since which the port has held no access -/
  idleSince : Nat := 0
  /-- 11 R256, window scrubs under way -/
  scrubs : List ScrubJob := []
  /-- 09 R193, blocks of library entries, block to entry number (tier B) -/
  libUsed : Table Nat := []
  deriving DecidableEq, Repr

/-- What the checks of a PROGRAM_LOAD use as it was when its descriptor was taken (13 R290). -/
structure Seen where
  /-- 13 R290, the partition -/
  part : Option Rect := none
  /-- 13 R290, the context's windows, by port -/
  wins : List (Nat × Window) := []
  /-- 13 R290, CX_FRAME.PERIOD -/
  period : Nat := 0
  /-- 13 R290, CX_FRAME.FLOOR -/
  floor : Nat := 0
  /-- 13 R290, pods withdrawn (the disabled-unit map) -/
  withdrawn : List Nat := []
  deriving DecidableEq, Repr

/-- A descriptor the module has taken (12 R267, R272). -/
structure Taken where
  /-- 12 R272, its 16 words -/
  w : List (BitVec 32) := []
  /-- 12 R266, its index in the submission ring -/
  num : Nat := 0
  /-- 12 R269, SQSLOT -/
  slot : Nat := 0
  /-- 12 R267, its function, 0 PF, c + 1 VF of context c -/
  fn : Nat := 0
  /-- 12 R273, ticks counted towards TIMEOUT -/
  ticks : Nat := 0
  /-- 12 R268, how far it has got -/
  st : TakenSt := .waiting
  /-- 12 R276, input slot of a SUBMIT -/
  inSlot : Option Nat := none
  /-- 12 R276, INDIG of a SUBMIT -/
  digest : BitVec 256 := 0
  /-- 12 R263, an FLR came after it was taken: no record is due -/
  mute : Bool := false
  /-- 13 R290, of a PROGRAM_LOAD -/
  seen : Option Seen := none
  deriving DecidableEq, Repr

/-- One function of the host interface (12 Tables 12.3, 12.4). -/
structure HostFn where
  /-- 12 Table 12.3, HI_SQBASE_LO -/
  sqLo : BitVec 32 := 0
  /-- 12 Table 12.3, HI_SQBASE_HI -/
  sqHi : BitVec 32 := 0
  /-- 12 Table 12.3, HI_CQBASE_LO -/
  cqLo : BitVec 32 := 0
  /-- 12 Table 12.3, HI_CQBASE_HI -/
  cqHi : BitVec 32 := 0
  /-- 12 Table 12.3, HI_EQBASE_LO -/
  eqLo : BitVec 32 := 0
  /-- 12 Table 12.3, HI_EQBASE_HI -/
  eqHi : BitVec 32 := 0
  /-- 12 Table 12.3, HI_RCTL.CQVEC -/
  cqVec : Nat := 0
  /-- 12 Table 12.3, HI_RCTL.EQVEC -/
  eqVec : Nat := 0
  /-- 12 Table 12.3, HI_RCTL.ENABLE -/
  enable : Bool := false
  /-- 12 Table 12.3, HI_RSTAT.EVLOST -/
  evlost : BitVec 16 := 0
  /-- 12 Table 12.3, HI_RSTAT.HOSTERR -/
  hosterr : Bool := false
  /-- 12 Table 12.3, HI_RSTAT.BADDB -/
  baddb : Bool := false
  /-- 12 Table 12.3, HI_RSTAT.WWB -/
  wwb : Bool := false
  /-- 12 Table 12.4, submission tail -/
  sqt : BitVec 32 := 0
  /-- 12 Table 12.4, HI_DB_SQH -/
  sqh : BitVec 32 := 0
  /-- 12 Table 12.4, HI_DB_CQT -/
  cqt : BitVec 32 := 0
  /-- 12 Table 12.4, completion head -/
  cqh : BitVec 32 := 0
  /-- 12 Table 12.4, HI_DB_EQT -/
  eqt : BitVec 32 := 0
  /-- 12 Table 12.4, event head -/
  eqh : BitVec 32 := 0
  /-- 12 Table 12.4, HI_DB_CQRES -/
  res : BitVec 32 := 0
  /-- 12 R270, events dropped and not yet reported by EVENT_LOST -/
  lost : Nat := 0
  /-- 12 R268, admission queue -/
  admq : List Taken := []
  /-- 12 R268, transfer queue -/
  xferq : List Taken := []
  /-- 12 R268, control queue -/
  ctlq : List Taken := []
  /-- 12 R268, accepted WSET_LOAD, WSET_SWAP and EDIT_PAGETABLE in the background -/
  bg : List Taken := []
  /-- 12 R263, an FLR of the function is in progress -/
  flr : Bool := false
  deriving DecidableEq, Repr

/-- The PCI Express link, IDE and host memory (12, 17, 20). -/
structure HostLink where
  /-- 20 Table 20.3, HI_LINK.UP -/
  up : Bool := false
  /-- 20 Table 20.3, HI_LINK.FLIT -/
  flit : Bool := false
  /-- 20 Table 20.3, HI_LINK.RATE -/
  rate : BitVec 4 := 0
  /-- 20 Table 20.3, HI_LINK.WIDTH -/
  width : BitVec 4 := 0
  /-- 20 Table 20.3, HI_IDE.KEYED -/
  keyed : BitVec 8 := 0
  /-- 20 Table 20.3, HI_IDE.INSECURE -/
  insecure : BitVec 8 := 0
  /-- 20 Table 20.3, HI_ERR.BADWR -/
  badwr : BitVec 16 := 0
  /-- 20 Table 20.3, HI_ERR.ABORTS -/
  aborts : BitVec 16 := 0
  /-- 18 R360, PERST# asserted -/
  perst : Bool := true
  /-- 18 R360, configuration space is served -/
  cfgServed : Bool := false
  /-- 12 R262, host memory as the module reads and writes it (model: the host's own) -/
  mem : Cells (BitVec 8) := []
  /-- 12 R271, MSI-X messages sent: function, vector (model: outbox) -/
  msix : List (Nat × Nat) := []
  /-- 17 R354, keys of selective IDE streams 0-7 -/
  ideKeys : Table (BitVec 256) := []
  deriving DecidableEq, Repr

/-- One shard of a weight set (09 Tables 9.2, 9.6). -/
structure Shard where
  /-- 09 Table 9.2, DIGEST -/
  digest : BitVec 256 := 0
  /-- 09 Table 9.2, LENGTH -/
  len : Nat := 0
  /-- 09 Table 9.2, IMGOFF -/
  imgoff : Nat := 0
  /-- 09 Table 9.2, X -/
  x : Nat := 0
  /-- 09 Table 9.2, Y -/
  y : Nat := 0
  /-- 09 Table 9.2, W -/
  w : Nat := 0
  /-- 09 Table 9.2, H -/
  h : Nat := 0
  /-- 09 Table 9.2, HD -/
  hd : Nat := 0
  /-- 09 Table 9.2, OFF, 64-byte units -/
  off : Nat := 0
  /-- 09 Table 9.2, PER, 64-byte units -/
  per : Nat := 0
  /-- 09 Table 9.6, state -/
  st : ShardSt := .absent
  /-- 09 R201, last-good frame -/
  lastGood : Nat := 0
  deriving DecidableEq, Repr

/-- A load, repair or swap under way (09 R194, R196). -/
structure Load where
  /-- 09 R194, its descriptor -/
  d : Taken := {}
  /-- 09 Table 9.3, SOURCE -/
  source : Nat := 0
  /-- 09 Table 9.3, image base of a host source -/
  addr : Nat := 0
  /-- 09 Table 9.3, staging copies: port and window offset -/
  pairs : List (Nat × Nat) := []
  /-- 09 R193, library entry number -/
  lib : Nat := 0
  /-- 09 R196 R198, shards this load transfers -/
  todo : List Nat := []
  /-- 09 R205, it is a swap -/
  swap : Bool := false
  /-- 09 R206, POLICY CUT -/
  cut : Bool := false
  /-- 09 R209, JOB swap held for the manager's exchange -/
  job : Bool := false
  /-- 09 R205, accepted and waiting for its switch tick -/
  armed : Bool := false
  /-- 09 R205, switch tick T as a value of the counter (model) -/
  at_ : Nat := 0
  /-- 09 R205, tick number of T once switched (model) -/
  tTick : Nat := 0
  /-- 09 R205, the switch is done and the load runs -/
  waiting : Bool := false
  deriving DecidableEq, Repr

/-- A re-check under way (09 R200). -/
structure Recheck where
  /-- 09 R200, shard -/
  shard : Nat := 0
  /-- 09 R200, tick at which it began -/
  tick : Nat := 0
  /-- 15 R325, counter at which it began -/
  tc : Nat := 0
  deriving DecidableEq, Repr

/-- The set that a swap replaces, until the new one is READY (09 R205, R207). -/
structure OldSet where
  /-- 09 R205, number of the switch tick T -/
  tTick : Nat := 0
  /-- 09 R206, every stage was released at T -/
  cut : Bool := false
  /-- 09 R203, its epoch -/
  epoch : Nat := 0
  /-- 09 R189, its ROOT -/
  root : BitVec 256 := 0
  /-- 09 R205, its shards, for the stages not yet released -/
  shards : List Shard := []
  /-- 09 R202, its last-verified frame -/
  lvf : Nat := 0
  deriving DecidableEq, Repr

/-- The weight set of a context (09). -/
structure WSet where
  /-- 09 Table 9.8, CX_WSET.STATE -/
  st : Nat := 0
  /-- 09 Table 9.8, CX_WSET.EPOCH -/
  epoch : Nat := 0
  /-- 09 R189, ROOT -/
  root : BitVec 256 := 0
  /-- 09 R195, shards with their states -/
  shards : List Shard := []
  /-- 09 R205, shards, ROOT and EPOCH of an accepted swap before its switch -/
  next : Option (List Shard × BitVec 256 × Nat) := none
  /-- 09 R194, load or swap pending or running -/
  load : Option Load := none
  /-- 09 R200, re-check under way -/
  recheck : Option Recheck := none
  /-- 09 R200, tick at which the previous re-check began -/
  lastStart : Option Nat := none
  /-- 09 R200, shard of the next re-check -/
  nextShard : Nat := 0
  /-- 09 Table 9.8, CX_WCHECK.GAP -/
  gap : BitVec 16 := 0
  /-- 09 R208, resume tick of a swap that is READY -/
  resumeAt : Option Nat := none
  /-- 09 R205, the set that a swap replaces -/
  old : Option OldSet := none
  /-- 09 R210, GAP committed during a swap, in force from the resume tick -/
  gapNext : Option (BitVec 16) := none
  /-- 09 R210, tick of the last resume of a swap: re-checks start after it -/
  freshAt : Nat := 0
  deriving DecidableEq, Repr

/-- One CODE block of the stage table (13 Table 13.3). -/
structure CodeBlk where
  /-- 13 Table 13.3, X -/
  x : Nat := 0
  /-- 13 Table 13.3, Y -/
  y : Nat := 0
  /-- 13 Table 13.3, W -/
  w : Nat := 0
  /-- 13 Table 13.3, H -/
  h : Nat := 0
  /-- 13 Table 13.3, NBUND -/
  nbund : Nat := 0
  /-- 13 Table 13.3, STAGE -/
  stage : Nat := 0
  deriving DecidableEq, Repr

/-- The input or output area of a program (13 Table 13.4). -/
structure IoArea where
  /-- 13 Table 13.4, IKIND -/
  kind : Nat := 0
  /-- 13 Table 13.4, IPORT -/
  port : Nat := 0
  /-- 13 Table 13.4, IHD -/
  hd : Nat := 0
  /-- 13 Table 13.4, IX -/
  x : Nat := 0
  /-- 13 Table 13.4, IY -/
  y : Nat := 0
  /-- 13 Table 13.4, IW -/
  w : Nat := 0
  /-- 13 Table 13.4, IH -/
  h : Nat := 0
  /-- 13 Table 13.4, IOFF -/
  off : Nat := 0
  /-- 13 Table 13.4, NIN -/
  n : Nat := 1
  /-- 13 Table 13.4, ISIZE -/
  size : Nat := 0
  deriving DecidableEq, Repr

/-- The verified program of a context (13). -/
structure Program where
  /-- 14 R312, the loader's copy of the image -/
  image : List (BitVec 8) := []
  /-- 13 R285, PROGDIG -/
  digest : BitVec 256 := 0
  /-- 13 Table 13.1, TOOLID -/
  toolid : BitVec 256 := 0
  /-- 13 Table 13.1, S -/
  s : Nat := 1
  /-- 13 Table 13.1, D -/
  d : Nat := 1
  /-- 13 R288, stage table -/
  blocks : List CodeBlk := []
  /-- 13 Table 13.4, input area -/
  inp : IoArea := {}
  /-- 13 Table 13.4, output area -/
  out : IoArea := {}
  /-- 13 Table 13.4, ADMH -/
  admH : Nat := 0
  /-- 13 Table 13.4, ADMTAG -/
  admTag : BitVec 3 := 0
  /-- 13 Table 13.4, ADMOFF -/
  admOff : Nat := 0
  /-- 13 R298, generation list of its load, entries as in Table 12.7 -/
  gens : List Nat := []
  deriving DecidableEq, Repr

/-- A microbatch in flight (01 R18, 12 R277). -/
structure Batch where
  /-- 12 R278, SEQ -/
  seq : Nat := 0
  /-- 01 R18, admission tick n -/
  tick : Nat := 0
  /-- 09 R203, epoch -/
  epoch : Nat := 0
  /-- 12 R276, its SUBMIT -/
  d : Taken := {}
  /-- 12 R280, LATE -/
  late : Bool := false
  /-- 12 R279, the copy of its result has started -/
  copying : Bool := false
  /-- 12 Table 12.9, CX_NUMST was nonzero at tick n + S -/
  numst : Bool := false
  /-- 09 R204, status and DETAIL with which it ended, its record due at tick n + S -/
  ended : Option (Nat × Nat) := none
  deriving DecidableEq, Repr

/-- A quiesce accepted and not complete (11 R248). -/
structure Quiesce where
  /-- 11 R248, policy -/
  cut : Bool := false
  /-- 11 R248, quiesce tick Q as a value of the counter -/
  at_ : Nat := 0
  /-- 11 R248, the tick number of Q once reached -/
  q : Option Nat := none
  /-- 11 R243, what asked for it -/
  why : QuiesceFor := .desc
  deriving DecidableEq, Repr

/-- The shadow set of a context's LV fields (20 R387). -/
structure Shadow where
  /-- 20 R387, core, handle and entry written -/
  handles : List (Nat × Nat × BitVec 128) := []
  /-- 20 R387, port, pair, what is written, value, IDLE -/
  pairs : List (Nat × Nat × BitVec 2 × BitVec 16 × BitVec 32) := []
  /-- 20 R387, port and slot mask -/
  slots : List (Nat × BitVec 64) := []
  /-- 20 R387, CX_WCHECK.GAP -/
  gap : Option (BitVec 16) := none
  deriving DecidableEq, Repr

/-- One context (11) with its context-setup page (20 Table 20.5). -/
structure Context where
  /-- 11 Table 11.7, CX_STATE.STATE -/
  st : CtxState := .free
  /-- 11 Table 11.7, CX_STATE.CAPTURE -/
  capture : Bool := false
  /-- 11 Table 11.7, CX_STATE.CUTQ -/
  cutq : Bool := false
  /-- 03 Table 3.10, CX_MODE.STRICT -/
  strict : Bool := false
  /-- 11 Table 11.7, CX_PART -/
  part : Option Rect := none
  /-- 11 Table 11.7, CX_JOB.JOB -/
  job : Nat := 0
  /-- 11 Table 11.7, CX_JOB.RANK -/
  rank : Nat := 0
  /-- 11 Table 11.7, CX_REBIND -/
  rebind : BitVec 32 := 0
  /-- 11 Table 11.7, CX_DISCARD -/
  discard : BitVec 32 := 0
  /-- 02 Table 2.2, CX_FRAME.PERIOD -/
  period : Nat := 50000
  /-- 02 Table 2.2, CX_FRAME.FLOOR -/
  floor : Nat := 0
  /-- 02 Table 2.2, CX_FSTAT.STRETCH, log2 of k -/
  stretch : Nat := 0
  /-- 02 R32, PERIOD in force for the running ticks (R386) -/
  runPeriod : Nat := 50000
  /-- 02 R32, start count -/
  startAt : Nat := 0
  /-- 02 R32, counter value of the next tick -/
  nextTick : Nat := 0
  /-- 02 Table 2.2, CX_FCOUNT -/
  fcount : Nat := 0
  /-- 02 Table 2.2, CX_FCOUNT_HI latch, one per access path -/
  fcLatch : Table (BitVec 32) := []
  /-- 02 Table 2.2, CX_OVERRUN -/
  overruns : BitVec 32 := 0
  /-- 03 Table 3.10, CX_SLIP -/
  slipSum : BitVec 32 := 0
  /-- 03 Table 3.10, CX_SLIPMAX -/
  slipMax : BitVec 32 := 0
  /-- 03 Table 3.10, CX_SLIPAT: the core that holds MAX -/
  slipAt : Option Nat := none
  /-- 04 Table 4.10, CX_NUMST -/
  numst : BitVec 5 := 0
  /-- 04 Table 4.10, CX_NUMFR -/
  numfr : BitVec 32 := 0
  /-- 20 Table 20.6, CX_CFGST -/
  cfgst : BitVec 3 := 0
  /-- 20 Table 20.6, CX_CRJ -/
  crj : BitVec 32 := 0
  /-- 20 Table 20.6, CX_LASTCOMMIT -/
  lastCommit : BitVec 32 := 0
  /-- 09 Table 9.8, weight set -/
  wset : WSet := {}
  /-- 13 R293, verified program -/
  prog : Option Program := none
  /-- 12 R277, microbatches in flight, oldest first -/
  batches : List Batch := []
  /-- 12 R278, microbatches admitted since start -/
  admSeq : Nat := 0
  /-- 12 R276, next input slot -/
  nextIn : Nat := 0
  /-- 12 R276, input slots in use -/
  inBusy : List Nat := []
  /-- 12 R276, input slots to free and the tick that frees them -/
  inFree : List (Nat × Nat) := []
  /-- 11 R243, started or launched since it became BOUND (model) -/
  started : Bool := false
  /-- 12 R273, ticks counted since it was created (model) -/
  tickNo : Nat := 0
  /-- 02 R40, tick whose overruns have been found (model) -/
  lookedAt : Nat := 0
  /-- 09 R207, 11 R248, stages held -/
  held : List Nat := []
  /-- 11 R248, quiesce pending -/
  quiesce : Option Quiesce := none
  /-- 11 R249, resume tick -/
  resumeAt : Option Nat := none
  /-- 20 R387, shadow set -/
  shadow : Shadow := {}
  /-- 14 R307, code of the first fault while FAULTED -/
  fault : Option Nat := none
  /-- 14 R306, the context's pips carry idle codewords -/
  pipIdle : Bool := false
  /-- 16 R332, step for which the context is stretched -/
  stretchFor : Nat := 0
  /-- 16 R332, step for which a stretch is asked -/
  stretchNext : Nat := 0
  /-- 02 R37 R39, agreed count and log2 of the new k -/
  stretchTo : Option (Nat × Nat) := none
  /-- 02 R39, counter since which the step is at or below FLOOR -/
  floorSince : Option Nat := none
  /-- 02 R37, count at which FRAME_BUDGET is raised and the required step -/
  budgetAt : Option (Nat × Nat) := none
  /-- 11 R250, REBIND under way as giver: receiver and start of its clock -/
  rebindTo : Option (Nat × Nat) := none
  /-- 14 R310, LEVEL of the reset in progress -/
  resetting : Option Nat := none
  /-- 14 R311, a reset ended and no START or launch came since: what arrives is discarded -/
  deaf : Bool := false
  deriving DecidableEq, Repr

/-- A fault-log entry (14 Table 14.4). -/
structure LogEntry where
  /-- 14 Table 14.4, SEQ -/
  seq : Nat := 0
  /-- 14 Table 14.4, CODE -/
  code : BitVec 16 := 0
  /-- 14 Table 14.4, CLASS -/
  cls : BitVec 8 := 0
  /-- 14 Table 14.4, CTX -/
  ctx : BitVec 8 := 0
  /-- 14 Table 14.4, TC -/
  tc : Nat := 0
  /-- 14 Table 14.4, SOURCE -/
  source : BitVec 32 := 0
  /-- 14 Table 14.4, MOD -/
  mod : BitVec 16 := 0
  /-- 14 Table 14.4, ARG0 -/
  arg0 : BitVec 32 := 0
  /-- 14 Table 14.4, ARG1 -/
  arg1 : BitVec 32 := 0
  deriving DecidableEq, Repr

/-- A library entry (09 R193). -/
structure LibEntry where
  /-- 09 R193, ROOT -/
  root : BitVec 256 := 0
  /-- 09 R193, COMPLETE or INSTALLING -/
  complete : Bool := false
  /-- 09 R193, virtual functions that may load it -/
  grants : BitVec 64 := 0
  /-- 09 R193, its shards -/
  shards : List Shard := []
  /-- 09 R193, port and block of each shard -/
  blocks : List (Nat × Nat) := []
  /-- 09 R193, the install's descriptor -/
  d : Taken := {}
  /-- 09 Table 9.4, IMGBASE -/
  base : Nat := 0
  deriving DecidableEq, Repr

/-- The management block: reset, start, fault log, maps (14, 18, 20). -/
structure Mgmt where
  /-- 14 Table 14.5, MG_RSTCAUSE -/
  rstCause : BitVec 8 := 0
  /-- 14 Table 14.5, MG_RSTCNT -/
  rstCnt : BitVec 32 := 0
  /-- 14 Table 14.5, MG_FLOGWR -/
  logNext : Nat := 0
  /-- 14 Table 14.5, MG_FLOGACK -/
  logAck : Nat := 0
  /-- 14 Table 14.5, MG_FLOGSTAT.SUMONLY -/
  sumOnly : Bool := false
  /-- 14 R304, detailed fault log, 2,048 entries by SEQ mod 2,048 -/
  log : Table LogEntry := []
  /-- 14 R304 R305, MG_FSUM counts by word -/
  sums : Table (BitVec 32) := []
  /-- 14 R304, newest 1,024 entries of class 3 and 4 in flash -/
  flashLog : List LogEntry := []
  /-- 18 Table 18.10, MG_START.STAGE -/
  stage : Nat := 0
  /-- 18 Table 18.10, MG_START.REFWAIT -/
  refWait : Bool := false
  /-- 18 Table 18.10, MG_START.STOPPED -/
  stoppedGate : Bool := false
  /-- 18 Table 18.10, MG_START.READY -/
  ready : Bool := false
  /-- 18 R368, the temperature gate of this start has cleared (model) -/
  gateOpen : Bool := false
  /-- 18 Table 18.10, MG_STTIME(0-9) -/
  stTime : Table (BitVec 32) := []
  /-- 18 R366, the start is a power-up and not a module reset -/
  powerUpStart : Bool := true
  /-- 18 R366, counter at the start point of a module reset -/
  startTc : Nat := 0
  /-- 18 R364, converters enabled by PWR_EN -/
  powered : Bool := true
  /-- 16 R331, shut down by SUPPLY_FAIL -/
  supplyFail : Bool := false
  /-- 00 R4, the part state UNKNOWN_PART -/
  unknownPart : Bool := false
  /-- 14 R309, counter at which the watchdog was last restarted -/
  dogAt : Nat := 0
  /-- 01 R11, in-service retirement list, 1,024 x cy + px, kept in flash -/
  retired : List Nat := []
  /-- 01 R11, list fused at factory test, 1,024 x cy + px -/
  factoryRetired : List Nat := []
  /-- 01 R11, spare map in force since the module start -/
  spare : List Nat := []
  /-- 01 R12, withdrawn pods -/
  withdrawn : List Nat := []
  /-- 15 R324, withdrawn attention sequencers -/
  seqOff : List Nat := []
  /-- 06 Table 6.7, MG_MESH.TRAINED -/
  trained : Bool := false
  /-- 06 Table 6.7, MG_MESH.FAILED_EDGES -/
  failedEdges : BitVec 8 := 0
  /-- 06 Table 6.7, MG_MESH.DIST_VALID -/
  distValid : Bool := false
  /-- 06 Table 6.6, BUILT -/
  distBuilt : Nat := 0
  /-- 06 Table 6.6, MAPDIG -/
  distDig : BitVec 128 := 0
  /-- 06 R119 R135, spare map, withdrawn pods, sequencers and ports in force at the module start -/
  startMap : List Nat × List Nat × List Nat × List Nat := ([], [], [], [])
  /-- 09 R193, directory of the tier-B library -/
  lib : Table LibEntry := []
  /-- 09 R193, number of the next library entry (model) -/
  nextLib : Nat := 1
  /-- 11 R256, next retention number -/
  nextRet : Nat := 1
  /-- 11 R254 R256, descriptors that wait for window scrubs: with their STATUS and DETAIL -/
  tearList : List (Taken × Nat × Nat) := []
  /-- 14 R314, module resets requested and performed (model) -/
  modReset : Nat := 0
  /-- 14 R310, engine resets in progress -/
  resets : List (BitVec 32 × Taken) := []
  /-- 14 R312, contexts that took ENGINE_RESET in an engine reset in progress, by SOURCE (model) -/
  resetHit : Table (List Nat) := []
  /-- 14 R300, engines stopped by an engine fault until their reset, by SOURCE -/
  engFaults : List (BitVec 32) := []
  deriving DecidableEq, Repr

/-- What the boot ROM latched of the firmware it runs (17 R344). -/
structure FwImage where
  /-- 17 R344, FWDIG in the measurement latch -/
  digest : BitVec 256 := 0
  /-- 17 R344, FWVER in the measurement latch -/
  ver : BitVec 64 := 0
  deriving DecidableEq, Repr

/-- One OWNER(n) fuse set (17 Table 17.1). -/
structure Owner where
  /-- 17 Table 17.1, key digest -/
  key : BitVec 256 := 0
  /-- 17 R348, the slot holds a key -/
  enrolled : Bool := false
  /-- 17 Table 17.1, REVOKED -/
  revoked : Bool := false
  deriving DecidableEq, Repr

/-- SPDM responder of the DOE mailbox (17 R351). -/
structure Spdm where
  /-- 17 Table 17.6, GET_VERSION answered -/
  version : Bool := false
  /-- 17 Table 17.6, GET_CAPABILITIES answered -/
  caps : Bool := false
  /-- 17 Table 17.6, NEGOTIATE_ALGORITHMS answered -/
  algs : Bool := false
  /-- 17 R354, 0 none, 1 KEY_EXCHANGE done, 2 FINISH done -/
  session : Nat := 0
  /-- 17 R351, last reply (model: outbox) -/
  reply : SpdmReply := .none
  deriving DecidableEq, Repr

/-- Identity, boot and debug (17). -/
structure Security where
  /-- 17 Table 17.1, fused SVN 0-64 -/
  svn : Nat := 0
  /-- 17 Table 17.1, OWNER(0-3) -/
  owners : Table Owner := []
  /-- 17 R343, firmware image in SPI NOR flash -/
  flash : List (BitVec 8) := Config.factoryFlash
  /-- 17 R344, measurement latch of the signing engine -/
  latch : FwImage := {}
  /-- 17 R346, the ROM is in recovery -/
  inRecovery : Bool := false
  /-- 17 R345 Table 17.4, the last write of the flash failed: the next check fails -/
  flashBad : Bool := false
  /-- 17 R346, the next start enters recovery with no image checks -/
  forceRecovery : Bool := false
  /-- 17 Table 17.3, MG_RCVKIND -/
  rcvKind : Bool := false
  /-- 17 Table 17.3, MG_RCVADDR_LO -/
  rcvLo : BitVec 32 := 0
  /-- 17 Table 17.3, MG_RCVADDR_HI -/
  rcvHi : BitVec 32 := 0
  /-- 17 Table 17.3, MG_RCVLEN -/
  rcvLen : BitVec 32 := 0
  /-- 17 Table 17.3, MG_RCVSTAT.CODE -/
  rcvCode : BitVec 8 := 0
  /-- 17 Table 17.3, MG_RCVSTAT.STATE -/
  rcvState : BitVec 3 := 0
  /-- 17 Table 17.7, FLAGS[2]: the last start came through recovery -/
  throughRecovery : Bool := false
  /-- 17 R355, the monitor is unlocked -/
  unlocked : Bool := false
  /-- 17 Table 17.9, PERMS granted -/
  perms : BitVec 3 := 0
  /-- 17 R355, unlocked since power-up -/
  unlockedEver : Bool := false
  /-- 17 R355, number of the current challenge (the value is free, log 12) -/
  challenge : Nat := 0
  /-- 17 R351, SPDM responder -/
  spdm : Spdm := {}
  deriving DecidableEq, Repr

/-- The Zewick monitor (19). -/
structure Monitor where
  /-- 19 R373, a command is answering -/
  answering : Bool := false
  /-- 19 R373, the line being answered -/
  current : List (BitVec 8) := []
  /-- 19 R373, a line held, one deep -/
  heldLine : Option (List (BitVec 8)) := none
  /-- 19 R376, certificate bytes collected by unlock -/
  collecting : Option (List (BitVec 8)) := none
  /-- 19 R374, output (model: outbox) -/
  out : List MonOut := []
  deriving DecidableEq, Repr

/-- SMBus interface (18 R365). -/
structure SmBus where
  /-- 18 Table 18.7, status of the last READ -/
  status : BitVec 8 := 0
  /-- 18 Table 18.7, value of the last READ -/
  value : BitVec 32 := 0
  /-- 20 R380, value of the last register read of a host path (model: outbox) -/
  readback : BitVec 32 := 0
  deriving DecidableEq, Repr

/-- Tray-controller and power lines (18 R363, R364). -/
structure Lines where
  /-- 18 R364, PWR_EN -/
  pwrEn : Bool := true
  /-- 18 R364, MOD_RST_N -/
  modRstN : Bool := true
  /-- 18 R357, input power present -/
  input : Bool := true
  /-- 18 R357, SUPPLY_LOW posted in this excursion -/
  lowPosted : Bool := false
  /-- 18 R357, SUPPLY_HIGH posted in this excursion -/
  highPosted : Bool := false
  deriving DecidableEq, Repr

/-- A stream or read the Epfin interface is packing (10 R222). -/
structure EpStream where
  /-- 10 R222, context -/
  ctx : Nat := 0
  /-- 10 R222, sending core -/
  core : Nat := 0
  /-- 10 R222, stream -/
  sid : Nat := 0
  /-- 10 R222, the packet, its SEQ and CRC not yet set -/
  pkt : EpPacket := {}
  deriving DecidableEq, Repr

/-- A read-request sent to another module and not yet answered (10 R222). -/
structure EpRead where
  /-- 10 R222, context -/
  ctx : Nat := 0
  /-- 10 R222, requesting core -/
  core : Nat := 0
  /-- 10 R222, its RREAD stream -/
  sid : Nat := 0
  /-- 10 R222, rank asked -/
  drank : Nat := 0
  /-- 10 R230, channel -/
  chan : Nat := 0
  /-- 10 R222, byte of the stream at which this request begins -/
  first : Nat := 0
  /-- 10 R222, bytes requested -/
  len : Nat := 0
  /-- 10 R222, the stream's last request -/
  last : Bool := false
  deriving DecidableEq, Repr

/-- One Epfin port (10 Table 10.10). -/
structure EpPort where
  /-- 10 Table 10.10, EP_PCTL.ENABLE -/
  enable : Bool := true
  /-- 10 Table 10.10, EP_PCTL.TEST -/
  test : BitVec 2 := 0
  /-- 10 Table 10.10, EP_PSTAT.STATE -/
  st : Nat := 0
  /-- 10 Table 10.10, EP_PSTAT.CABLE -/
  cable : Nat := 0
  /-- 10 Table 10.10, EP_PSTAT.NBR_OK -/
  nbrOk : Bool := false
  /-- 10 Table 10.10, EP_PSTAT.PIPMISMATCH -/
  pipMis : Bool := false
  /-- 10 Table 10.10, EP_PSTAT.REPLAY_EXHAUST -/
  exhaust : Bool := false
  /-- 10 Table 10.10, EP_PSTAT.LANES -/
  lanes : BitVec 8 := 0
  /-- 10 Table 10.10, EP_PNBR: NMOD, NPORT -/
  nbr : Option (Nat × Nat) := none
  /-- 10 Table 10.10, EP_FECC -/
  corr : BitVec 32 := 0
  /-- 10 Table 10.10, EP_FECU -/
  uncorr : BitVec 32 := 0
  /-- 10 Table 10.10, EP_REPLAY -/
  resent : BitVec 32 := 0
  /-- 10 Table 10.10, EP_DELAY -/
  delay : BitVec 16 := 0
  /-- 10 Table 10.11, EP_PIPTX owners of pips 1-31, 33-63 -/
  pipTx : Table Nat := []
  /-- 10 Table 10.11, EP_PIPRX owners -/
  pipRx : Table Nat := []
  /-- 10 R216, pip of the previous group received -/
  rxPip : Option Nat := none
  /-- 10 R227, owners whose groups are discarded until the resend, with the pip -/
  nakOwner : Table Nat := []
  /-- 10 R227, pip to NAK in the next group sent back -/
  nakSend : Option Nat := none
  /-- 10 R227, groups of the last round kept for replay, by pip -/
  replay : Table (List (BitVec 8)) := []
  /-- 10 R227, resends of a pip without success -/
  tries : Table Nat := []
  /-- 10 R228, cumulative 640-byte units freed by the far end, by job, not reduced modulo 65,536 -/
  credit : Table Nat := []
  /-- 10 R228, bytes sent, by job -/
  sent : Table Nat := []
  /-- 10 R227, pip of the last group each job sent -/
  txPip : Table Nat := []
  /-- 10 Table 10.3, bytes received and not yet a whole packet, by job -/
  rxBytes : Table (List (BitVec 8)) := []
  /-- 10 R218, bytes waiting for the job's pips, by job -/
  txq : Table (List (BitVec 8)) := []
  /-- 18 R361, the cage is switched on -/
  caged : Bool := false
  /-- 10 R213, class of the cable in the cage, as EP_PSTAT.CABLE codes it (model) -/
  plugged : Nat := 0
  /-- 10 Table 10.4, retrained after FAULTED and not yet readmitted -/
  reserve : Bool := false
  /-- 10 Table 10.4, the manager's cut-out of this FAULTED port has completed -/
  cutDone : Bool := false
  /-- 10 R228, bytes of buffer freed, by job -/
  freed : Table Nat := []
  /-- 10 R215, pip of the last group sent -/
  lastTx : Nat := 63
  /-- 10 R217, counter at which TRAINING or ALIGNING began or DOWN was entered -/
  retryAt : Nat := 0
  deriving DecidableEq, Repr

/-- A job as the manager holds it (11 R257). -/
structure Job where
  /-- 11 R257, module index and context of each rank -/
  members : List (Nat × Nat) := []
  /-- 10 R233, SRANK, DRANK and pips -/
  plan : List (Nat × Nat × Nat) := []
  /-- 10 R238, overrides of its routing tables: module, DMOD and port -/
  ovr : List (Nat × Nat × Nat) := []
  /-- 11 R257, what its exchange is doing -/
  st : JobSt := .idle
  /-- 10 R237, link of an unreachable pair: the next launch is refused -/
  short : Option (Nat × Nat) := none
  /-- 11 R257, ranks whose member left -/
  lost : List Nat := []
  /-- 09 R209, modules that reported LOADED -/
  loaded : List Nat := []
  /-- 09 R209, epoch of its swap -/
  epoch : Nat := 0
  /-- 02 R39, modules whose limit forced the stretch in force -/
  askers : List Nat := []
  /-- 02 R37, PERIOD that the request of its stretch gave -/
  per : Nat := 0
  /-- 02 R37, log2 of k in force -/
  k : Nat := 0
  deriving DecidableEq, Repr

/-- The exchange open at the module (02 Table 2.4). -/
structure Exchange where
  /-- 02 R42 R43, what it is for -/
  kind : ExKind := .launch
  /-- 02 R42, job, or 0 for a context of its own -/
  job : Nat := 0
  /-- 02 R42, context of this module, 64 for none -/
  ctx : Nat := 0
  /-- 02 R42, agreed count L or C -/
  at_ : Nat := 0
  /-- 02 R37, log2 of k of a stretch -/
  k : Nat := 0
  /-- 02 R42, cross-rack -/
  cross : Bool := false
  /-- 02 Table 2.4, this module is its manager -/
  manager : Bool := false
  /-- 02 R42, this module answered ACK -/
  acked : Bool := false
  /-- 02 R42, GO is held -/
  go : Bool := false
  /-- 10 R235, ACKs counted -/
  acks : Nat := 0
  /-- 10 R235, first NAK: module index and reason -/
  nak : Option (Nat × Nat) := none
  /-- 10 R235, children whose merged reply is missing, by port -/
  waiting : List Nat := []
  /-- 10 R235, port the broadcast arrived on -/
  upPort : Nat := 6
  /-- 10 R235, deadline of the merged reply -/
  deadline : Nat := 0
  /-- 10 R235, the merged reply has been sent -/
  replied : Bool := false
  /-- 02 Table 2.4, STARTs collected -/
  started : Nat := 0
  /-- 11 R258, policy of a quiesce -/
  cut : Bool := false
  /-- 09 R209, epoch of a swap -/
  epoch : Nat := 0
  /-- 02 R42, PERIOD in PREPARE -/
  period : Nat := 0
  /-- 02 R42, FLOOR in PREPARE -/
  floor : Nat := 0
  /-- 02 R42, program digest in PREPARE -/
  prog : BitVec 256 := 0
  /-- 02 R42, weight-set digest in PREPARE -/
  wset : BitVec 256 := 0
  /-- 02 R43, log2 of k before a stretch -/
  prevK : Nat := 0
  /-- 02 R43, LOCK, SYNCED or, across racks, ALIGNED was lost after the ACK -/
  lost : Bool := false
  /-- 10 R231, overrides and pips of a job before its launch (manager) -/
  undo : Option (List (Nat × Nat × Nat) × Table (List (Nat × Nat))) := none
  /-- 12 R284, the manager's descriptor -/
  d : Option Taken := none
  deriving DecidableEq, Repr

/-- The Epfin block and this module's part of a ring set (10). -/
structure Epfin where
  /-- 10 Table 10.10, EP_ROLE.REQ -/
  req : BitVec 2 := 0
  /-- 10 Table 10.10, EP_ROLE.ROLE -/
  role : Nat := 0
  /-- 10 Table 10.10, EP_ROLE.RSID -/
  rsid : BitVec 16 := 0
  /-- 10 Table 10.10, EP_SHAPE.NX1 -/
  nx1 : BitVec 3 := 0
  /-- 10 Table 10.10, EP_SHAPE.NY1 -/
  ny1 : BitVec 3 := 0
  /-- 10 Table 10.10, EP_SHAPE.NZ1 -/
  nz1 : BitVec 4 := 0
  /-- 10 R239, NX, NY and NZ in force since the formation -/
  shape : Nat × Nat × Nat := (1, 1, 1)
  /-- 10 Table 10.10, EP_COORD -/
  coord : Option (Nat × Nat × Nat) := none
  /-- 10 Table 10.10, EP_STATUS.CUTS -/
  cuts : BitVec 16 := 0
  /-- 10 Table 10.10, EP_STATUS.CUT -/
  cut : Bool := false
  /-- 10 Table 10.10, EP_STATUS.WWB -/
  wwb : Bool := false
  /-- 10 Table 10.10, EP_STATUS.MGR_LOST -/
  mgrLost : Bool := false
  /-- 10 Table 10.10, EP_STATUS.FORMED -/
  formed : Bool := false
  /-- 10 Table 10.10, the six ports -/
  ports : Table EpPort := []
  /-- 10 R226, routing tables by job, entry 7 where not listed -/
  tables : Table (Cells (BitVec 8)) := []
  /-- 10 R226, control routing table -/
  control : Cells (BitVec 8) := []
  /-- 10 R224, rank tables by job -/
  ranks : Table (Table (BitVec 32)) := []
  /-- 10 R235, broadcast mask -/
  bmask : BitVec 6 := 0
  /-- 10 R229, next SEQ sent, by JOB, SRANK, DRANK, CHAN -/
  txSeq : Table Nat := []
  /-- 10 R229, next SEQ expected, by JOB, SRANK, DRANK, CHAN -/
  rxSeq : Table Nat := []
  /-- 10 R222, packets filled and not yet sent -/
  streams : List EpStream := []
  /-- 10 R222, read-requests not yet answered (model) -/
  reads : List EpRead := []
  /-- 10 Table 10.3, codeword groups sent: port and group (model: outbox) -/
  out : List (Nat × Group) := []
  /-- 10 Control traffic: control messages sent (model: outbox) -/
  ctl : List CtlMsg := []
  /-- 10 R220, counter of the last beacon sent or received -/
  beaconAt : Nat := 0
  /-- 10 R220, counter of the last heartbeat of each module -/
  beats : Table Nat := []
  /-- 10 R231, table changes waiting for their agreed count -/
  changes : List TableChange := []
  /-- 11 R257, the manager's jobs -/
  jobs : Table Job := []
  /-- 11 R257, next JOB -/
  nextJob : Nat := 1
  /-- 10 R237, modules declared failed or excluded -/
  failedMods : List Nat := []
  /-- 10 R237, links declared failed: module and port -/
  failedLinks : List (Nat × Nat) := []
  /-- 10 R233, pips of each link direction with their jobs, by 8 x module + port (manager) -/
  linkPips : Table (List (Nat × Nat)) := []
  /-- 11 R259, counter at which a worker reported TC_DRIFT, and its TC_OFFSET (manager) -/
  drift : Table (Nat × Nat) := []
  /-- 11 R259, workers refused cross-rack launches (manager) -/
  noCross : List Nat := []
  /-- 10 R235, 09 R210 the exchange open at this module -/
  ex : Option Exchange := none
  /-- 10 R235, an exchange that the module passes on while another is open -/
  relay : Option Exchange := none
  /-- 10 R231, table changes whose exchange waits for the open one to end, with the descriptor that it completes (manager) -/
  tableQ : List (Option (Taken × Nat) × List (Nat × TableChange)) := []
  /-- 10 R237, ports reported to have left UP: module and port (manager) -/
  downs : List (Nat × Nat) := []
  deriving DecidableEq, Repr

/-- The compute panel (01, 03-06, 08). -/
structure Panel where
  /-- 01 R10, 307,200 cores by 640 x cy + cx -/
  cores : Table Core := []
  /-- 08 R173, the ATTEND of each pod's sequencer, by pod -/
  seqs : Table AttendJob := []
  /-- 06 R124, packets in flight on the mesh, oldest first -/
  flight : List MeshPacket := []
  /-- 06 R124, number of the next packet (model) -/
  nextNum : Nat := 0
  /-- 05 R94, 06 R121 R246, phase of a router that no context has used -/
  phase : Nat := 0
  deriving DecidableEq, Repr

/-- The whole machine. -/
structure State where
  /-- 00 R3, fused identity -/
  ident : Ident := {}
  /-- 02, time-counter block -/
  tcb : TimeBlock := {}
  /-- 16, frequency steps, power, heat -/
  fs : FreqBlock := {}
  /-- 16 R338, telemetry -/
  tel : Telemetry := {}
  /-- 01 R10, compute panel -/
  panel : Panel := {}
  /-- 07, stack ports by number: TA0-TA23 are 0-23, TB0-TB7 are 24-31 -/
  ports : Table StackPort := []
  /-- 11 R241, contexts 0-63 -/
  ctxs : Table Context := []
  /-- 12 R261, functions: 0 the PF, c + 1 the VF of context c -/
  fns : Table HostFn := []
  /-- 12, host link -/
  link : HostLink := {}
  /-- 10, Epfin block -/
  ep : Epfin := {}
  /-- 14 18 20, management block -/
  mg : Mgmt := {}
  /-- 17, identity, boot, debug -/
  sec : Security := {}
  /-- 19, Zewick monitor -/
  mon : Monitor := {}
  /-- 18 R365, SMBus -/
  smb : SmBus := {}
  /-- 18 R363 R364, lines -/
  lines : Lines := {}
  /-- MODEL ONLY: how many free values have been taken -/
  free : Nat := 1
  /-- MODEL ONLY: the commands that wait, first in, first out -/
  pending : List Instr := []
  deriving DecidableEq, Repr

/-- Why the machine stops with a fault. Each stands for an operand that names nothing of the
hardware; the hardware cannot be given such a command, so every one is safe. -/
inductive Fault where
  /-- A coordinate outside the 640 by 480 array (R10). Raised by the meanings with a CoreId. Safe. -/
  | noSuchCore
  /-- A function above 64 (R261). Raised by the meanings with a function number. Safe. -/
  | noSuchFunction
  /-- An Epfin port above 5 (Table 10.10). Raised by the meanings with a port. Safe. -/
  | noSuchEpPort
  /-- A pod that is none of the 192 (R10). Raised by the attention meanings. Safe. -/
  | noSuchPod
  /-- A field above 47 (R330). Raised by the voltage meanings. Safe. -/
  | noSuchField
  deriving DecidableEq, Repr

/-- Why a command has no meaning. -/
inductive Refusal where
  /-- Raised by a refused arm of exec only: the command is not modelled. Safe. -/
  | notModelled (mnemonic : String)
  deriving DecidableEq, Repr

/-- The machine right after reset: every field at the value its structure gives it. -/
def State.reset : State := {}

end Sys2Proof.Machine
end

