-- ==== Sys2Proof/Machine/Ops.lean ====
section
/-! DEFINITION. The named operations over the state: parts of it by number, host memory, records
and events on the rings, the fault log, and the context fault, which every meaning shares. -/
namespace Sys2Proof.Machine

open Sys2Proof

/-! ## Parts of the state by number -/

/-- The number of a core, row-major over 640 by 480 (R10). -/
def coreIdx (x : CoreId) : Nat := 640 * x.cy + x.cx

def coreCx (i : Nat) : Nat := i % 640
def coreCy (i : Nat) : Nat := i / 640

/-- The pod of a core, 16 by + bx (R10: pods are 40 by 40). -/
def podOf (i : Nat) : Nat := 16 * (coreCy i / 40) + coreCx i / 40

/-- SOURCE of a core (R302, KIND 3). -/
def srcCore (i : Nat) : Nat := 3 * 2 ^ 28 + 1024 * coreCy i + coreCx i
def srcPort (p : Nat) : Nat := p
def srcSeq (pod : Nat) : Nat := 2 ^ 28 + pod
def srcEp (p : Nat) : Nat := 2 * 2 ^ 28 + p
def srcHost : Nat := 4 * 2 ^ 28
def srcMgmt : Nat := 5 * 2 ^ 28
def srcCtx : Nat := 6 * 2 ^ 28
def srcMod (m : Nat) : Nat := 7 * 2 ^ 28 + m

/-- A core that nothing has used is at its reset values, its router's phase running freely (R94, R246). -/
def State.blankCore (s : State) : Core := { phase := s.panel.phase }
def State.core (s : State) (i : Nat) : Core := s.panel.cores.get i s.blankCore
def State.setCore (s : State) (i : Nat) (c : Core) : State :=
  { s with panel := { s.panel with cores := s.panel.cores.put i c } }
def State.modCore (s : State) (i : Nat) (f : Core → Core) : State := s.setCore i (f (s.core i))

def State.port (s : State) (p : Nat) : StackPort := s.ports.get p {}
def State.setPort (s : State) (p : Nat) (q : StackPort) : State := { s with ports := s.ports.put p q }
def State.modPort (s : State) (p : Nat) (f : StackPort → StackPort) : State :=
  s.setPort p (f (s.port p))

def State.ctx (s : State) (c : Nat) : Context := s.ctxs.get c {}
def State.setCtx (s : State) (c : Nat) (x : Context) : State := { s with ctxs := s.ctxs.put c x }
def State.modCtx (s : State) (c : Nat) (f : Context → Context) : State := s.setCtx c (f (s.ctx c))

def State.fn (s : State) (f : Nat) : HostFn := s.fns.get f {}
def State.setFn (s : State) (f : Nat) (x : HostFn) : State := { s with fns := s.fns.put f x }
def State.modFn (s : State) (f : Nat) (g : HostFn → HostFn) : State := s.setFn f (g (s.fn f))

def State.epPort (s : State) (p : Nat) : EpPort := s.ep.ports.get p {}
def State.setEpPort (s : State) (p : Nat) (x : EpPort) : State :=
  { s with ep := { s.ep with ports := s.ep.ports.put p x } }
def State.modEpPort (s : State) (p : Nat) (g : EpPort → EpPort) : State :=
  s.setEpPort p (g (s.epPort p))

def State.job (s : State) (j : Nat) : Job := s.ep.jobs.get j {}
def State.setJob (s : State) (j : Nat) (x : Job) : State :=
  { s with ep := { s.ep with jobs := s.ep.jobs.put j x } }

/-- A queue pair of a port, by context and QP (R142). -/
def pairKey (c q : Nat) : Nat := 256 * c + q
def StackPort.pair (p : StackPort) (c q : Nat) : Pair := p.pairs.get (pairKey c q) {}
def StackPort.hasPair (p : StackPort) (c q : Nat) : Bool := p.pairs.has (pairKey c q)
def StackPort.setPair (p : StackPort) (c q : Nat) (x : Pair) : StackPort :=
  { p with pairs := p.pairs.put (pairKey c q) x }

/-- Codes of CX_STATE.STATE (Table 11.2). -/
def CtxState.code : CtxState → Nat
  | .free => 0 | .created => 1 | .bound => 2 | .running => 3
  | .quiesced => 4 | .faulted => 5 | .scrubbing => 6

/-- The step frequency in units of 10 MHz (Table 2.3). -/
def stepFreq (n : Nat) : Nat := [225, 210, 195, 180, 165, 150, 120, 90].getD n 225

/-- The cycle budget B(P, s) (R35); f_s is in units of 0.01 GHz. -/
def budget (p n : Nat) : Nat := p * stepFreq n * 99499 / 10000000 - 64

/-! ## Partitions -/

def Rect.hasPod (r : Rect) (pod : Nat) : Bool :=
  decide (r.bx ≤ pod % 16) && decide (pod % 16 < r.bx + r.w) &&
  decide (r.by_ ≤ pod / 16) && decide (pod / 16 < r.by_ + r.h)

/-- The pods of a rectangle, in row-major order. -/
def Rect.pods (r : Rect) : List Nat :=
  (List.range r.h).flatMap (fun y => (List.range r.w).map (fun x => 16 * (r.by_ + y) + (r.bx + x)))

/-- Cores of a rectangle of cores, in row-major order, which is rising order of number. -/
def coreRect (x y w h : Nat) : List Nat :=
  (List.range h).flatMap (fun j => (List.range w).map (fun i => 640 * (y + j) + (x + i)))

/-- The cores of a partition, in row-major order. -/
def Rect.cores (r : Rect) : List Nat := coreRect (40 * r.bx) (40 * r.by_) (40 * r.w) (40 * r.h)

def Context.cores (x : Context) : List Nat := (x.part.map Rect.cores).getD []
def Context.pods (x : Context) : List Nat := (x.part.map Rect.pods).getD []

/-- Whether a core lies in a context's partition. -/
def Context.hasCore (x : Context) (i : Nat) : Bool :=
  match x.part with
  | some r => r.hasPod (podOf i) && decide (coreCx i < 640) && decide (coreCy i < 480)
  | none => false

/-- Change every core of a list (in rising order). -/
def State.modCores (s : State) (ks : List Nat) (f : Nat → Core → Core) : State :=
  { s with panel := { s.panel with
      cores := ks.foldr (fun k t => t.put k (f k (t.get k s.blankCore))) s.panel.cores } }

/-- Contexts that exist, in rising number. -/
def State.liveCtxs (s : State) : List Nat :=
  (List.range 64).filter (fun c => decide ((s.ctx c).st ≠ .free))

/-- Any context exists (R22, R219, R240). -/
def State.anyCtx (s : State) : Bool := !s.liveCtxs.isEmpty

/-- An engine fault holds the engine stopped until its reset (R300, Table 14.1). -/
def State.engineDown (s : State) (source : Nat) : Bool := s.mg.engFaults.contains (BitVec.ofNat 32 source)

/-- A core issues: its context runs, it has been started, and it has not met STOP or a fault (R47,
R52, R68). -/
def State.coreLive (s : State) (i : Nat) : Bool :=
  let c := s.core i
  match c.owner with
  | some x => decide ((s.ctx x).st = .running) && c.issuing && !c.stopped && s.fs.clocked && !s.engineDown (srcCore i)
  | none => false

/-- The attention sequencers of the grade (R3, Table 0.4). -/
def State.hasSeqs (s : State) : Bool := decide (s.ident.grade = 0x0A#8)

/-- The pairs of GRADE and STEP that exist (R4). -/
def State.knownPart (s : State) : Bool :=
  let p := (s.ident.grade.toNat, s.ident.step.toNat)
  [(0x0A, 0xA0), (0x0A, 0xA1), (0x0A, 0xB0), (0x0E, 0xA1), (0x0E, 0xB0)].contains p

/-- A stack is fitted on the port: tier A always and tier B on a CG-48A, where the pair of GRADE and STEP is one of Table 0.4; on
any other part GRADE says nothing, and the fused bit of each port does (R4, Table 20.4). -/
def State.fitted (s : State) (p : Nat) : Bool :=
  decide (p < 32) && (if s.knownPart then decide (p < 24) || s.hasSeqs else s.ident.fit.getLsbD p)

/-- The port serves: fitted and not in the disabled-unit map (R139). -/
def State.portUp (s : State) (p : Nat) : Bool := s.fitted p && !(s.port p).disabled

/-- The module's index in the ring set (R219), none for a standalone module. -/
def State.modIndex? (s : State) : Option Nat :=
  if s.ep.role = 0 then none else s.ep.coord.map (fun p => p.1 + 8 * p.2.1 + 64 * p.2.2)
def State.modIndex (s : State) : Nat := s.modIndex?.getD 0

/-- The module's parent in the time tree changes: what was measured to the old one says nothing any longer (R29). -/
def TimeBlock.setParent (t : TimeBlock) (p : Option Nat) : TimeBlock :=
  if t.parent = p then t
  else { t with parent := p, aligned := false, freqOk := false, avgDone := false, exchN := 0, exchSum := 0, offset := 0, ferr := 0, ferrStart := t.now }

/-- A root module of the time tree (R29). -/
def State.timeRoot (s : State) : Bool := s.tcb.parent.isNone

/-- ALIGNED as TC_STATUS shows it: on a root module it is SYNCED (R29). -/
def State.alignedNow (s : State) : Bool := if s.timeRoot then s.tcb.synced else s.tcb.aligned

/-! ## Host memory -/

def State.hostRead (s : State) (a n : Nat) : List Byte := Cells.read 0 s.link.mem a n
def State.hostWrite (s : State) (a : Nat) (bs : List Byte) : State :=
  { s with link := { s.link with mem := Cells.write 0 s.link.mem a bs } }
def State.hostWord (s : State) (a : Nat) : Nat := leNat (s.hostRead a 4)

/-! ## Rings (R265, R266) -/

def ringAddr (lo hi : BitVec 32) : Nat := 2 ^ 32 * hi.toNat + (lo.toNat / 4096) * 4096
def ringSize (lo : BitVec 32) : Nat := 2 ^ (lo.toNat % 16 + 4)

/-- The phase of entry i of a ring (R269): 1 on the first pass. -/
def ringPhase (i n : Nat) : Nat := 1 - i / n % 2

/-- Descriptors taken and not yet completed (HI_RSTAT.ACTIVE): each has an entry reserved (R267). -/
def HostFn.active (f : HostFn) : Bool := f.res != 0

/-- WHEN of an event (Table 14.3): CX_FCOUNT on a virtual function, the counter on the PF. -/
def State.when_ (s : State) (f : Nat) : Nat :=
  if f = 0 then s.tcb.now else (s.ctx (f - 1)).fcount

/-- The bytes of an event record (Table 14.3). -/
def eventBytes (code phase cls ctx source when_ arg0 arg1 tc : Nat) : List Byte :=
  leBytes 2 code ++ leBytes 1 (phase + 2 * cls) ++ leBytes 1 (ctx % 64) ++ leBytes 4 source ++
  leBytes 8 when_ ++ leBytes 4 arg0 ++ leBytes 4 arg1 ++ leBytes 8 tc

/-- Write one event into a ring with room (R269, R271). -/
def State.putEvent (s : State) (f code cls ctx source arg0 arg1 : Nat) : State :=
  let h := s.fn f
  let n := ringSize h.eqLo
  let i := h.eqt.toNat
  let s1 := s.hostWrite (ringAddr h.eqLo h.eqHi + 32 * (i % n))
    (eventBytes code (ringPhase i n) cls ctx source (s.when_ f) arg0 arg1 s.tcb.now)
  let s2 := s1.setFn f { h with eqt := h.eqt + 1 }
  if h.eqt = h.eqh then
    { s2 with link := { s2.link with msix := s2.link.msix ++ [(f, h.eqVec)] } }
  else s2

/-- Free entries of an event ring. -/
def HostFn.eqFree (h : HostFn) : Nat := ringSize h.eqLo - (h.eqt - h.eqh).toNat

/-- The first event after events were dropped is EVENT_LOST (R270). -/
def State.flushLost (s : State) (f : Nat) : State :=
  let h := s.fn f
  if h.lost = 0 ∨ h.eqFree = 0 then s
  else (s.setFn f { h with lost := 0 }).putEvent f 0x8402 1 (f - 1) srcHost h.lost 0

/-- Post an event to a function's ring (R270): a full ring drops and counts it. -/
def State.post (s : State) (f code cls ctx source arg0 arg1 : Nat) : State :=
  let s := s.flushLost f
  let h := s.fn f
  if h.eqFree = 0 then
    s.setFn f { h with lost := h.lost + 1, evlost := satAdd h.evlost 1 }
  else s.putEvent f code cls ctx source arg0 arg1

/-- An event of the physical function (CTX 0). -/
def State.postPf (s : State) (code source arg0 arg1 : Nat) : State := s.post 0 code 1 0 source arg0 arg1
/-- An event of a context's ring. -/
def State.postCtx (s : State) (c code source arg0 arg1 : Nat) : State :=
  s.post (c + 1) code 1 c source arg0 arg1
/-- An event to every context and the physical function (Table 14.11). -/
def State.postAll (s : State) (code source arg0 arg1 : Nat) : State :=
  (s.liveCtxs.foldl (fun t c => t.postCtx c code source arg0 arg1) s).postPf code source arg0 arg1

/-! ## The fault log (R304, R305, R390) -/

/-- The word of MG_FSUM that counts a code (R305, R304 for codes of neither table). -/
def sumWord (code : Nat) : Nat :=
  if code < 0x8000 then 16 * (fld code 11 8 - 1) + fld code 3 0 - 1 else 0x2FC / 4

/-- Write an entry (R304): in detail, and to flash from class 3 on, where its slot may be overwritten; always as a count. -/
def State.logAs (s : State) (m code cls ctx source arg0 arg1 : Nat) : State :=
  let g := s.mg
  let e : LogEntry :=
    { seq := g.logNext, code := BitVec.ofNat 16 code, cls := BitVec.ofNat 8 cls, ctx := BitVec.ofNat 8 ctx, tc := s.tcb.now,
      source := BitVec.ofNat 32 source, mod := BitVec.ofNat 16 m, arg0 := BitVec.ofNat 32 arg0, arg1 := BitVec.ofNat 32 arg1 }
  let sums := g.sums.put (sumWord code) (satAdd (g.sums.get (sumWord code) 0) 1)
  let flash := if cls ≥ 3 then (e :: g.flashLog).take 1024 else g.flashLog
  let room := decide (g.logNext < 2048) || decide (g.logNext - 2048 < g.logAck)
  if room then
    { s with mg := { g with sums := sums, flashLog := flash, logNext := g.logNext + 1,
                            log := g.log.put (g.logNext % 2048) e } }
  else { s with mg := { g with sums := sums, sumOnly := true } }

/-- An entry of this module (MOD 0xFFFF when standalone). -/
def State.logFault (s : State) (code cls ctx source arg0 arg1 : Nat) : State :=
  s.logAs (s.modIndex?.getD 0xFFFF) code cls ctx source arg0 arg1

/-- CTX of a log entry that names no context. -/
def noCtx : Nat := 0xFF

/-- Send a control message (model outbox). -/
def State.ctl (s : State) (m : CtlMsg) : State := { s with ep := { s.ep with ctl := s.ep.ctl ++ [m] } }

/-! ## Completion records (R269, R271, R280) -/

/-- The bytes of a completion record (Table 12.8). -/
def recordBytes (user status flags op epoch slot frame lvf detail : Nat) : List Byte :=
  leBytes 8 user ++ leBytes 2 status ++ leBytes 1 flags ++ leBytes 1 op ++ leBytes 2 epoch ++
  leBytes 2 slot ++ leBytes 8 frame ++ leBytes 4 lvf ++ leBytes 4 detail

/-- Word k of a descriptor. -/
def Taken.word (d : Taken) (k : Nat) : Nat := (d.w.getD k 0).toNat
/-- The 64-bit value at word k. -/
def Taken.dword (d : Taken) (k : Nat) : Nat := d.word k + 2 ^ 32 * d.word (k + 1)
def Taken.op (d : Taken) : Nat := d.word 0 % 256
def Taken.irq (d : Taken) : Bool := decide (fld (d.word 0) 9 9 = 1)
def Taken.user (d : Taken) : Nat := d.dword 2

/-- Same descriptor: its index in its submission ring and its function name it. -/
def Taken.same (d e : Taken) : Bool := decide (d.num = e.num) && decide (d.fn = e.fn)

/-- The descriptors of a function's queues. -/
def HostFn.queues (h : HostFn) : List Taken := h.admq ++ h.xferq ++ h.ctlq ++ h.bg

/-- An FLR came after the descriptor was taken: no record is due (R263). -/
def State.muted (s : State) (d : Taken) : Bool :=
  d.mute || (s.fn d.fn).queues.any (fun e => e.same d && e.mute)

/-- Write a completion record and give up its reserved entry (R267, R269, R271); none is written after
an FLR of the function (R263). -/
def State.record (s : State) (d : Taken) (status detail epoch lvf frame : Nat) (late rrec : Bool) :
    State :=
  let h := s.fn d.fn
  if s.muted d then s.setFn d.fn { h with res := h.res - 1 } else
  let n := ringSize h.cqLo
  let i := h.cqt.toNat
  let flags := ringPhase i n + 2 * bnat late + 4 * bnat rrec
  let s1 := s.hostWrite (ringAddr h.cqLo h.cqHi + 32 * (i % n))
    (recordBytes d.user status flags d.op epoch d.slot frame lvf detail)
  let s2 := s1.setFn d.fn { h with cqt := h.cqt + 1, res := h.res - 1 }
  if d.irq ∧ h.cqt = h.cqh then
    { s2 with link := { s2.link with msix := s2.link.msix ++ [(d.fn, h.cqVec)] } }
  else s2

/-- FRAME of the record of an operation other than SUBMIT (R280). -/
def State.frameOf (s : State) (f : Nat) : Nat := s.when_ f

/-- Take a descriptor out of its function's queues. -/
def State.dropDesc (s : State) (d : Taken) : State :=
  s.modFn d.fn (fun h => { h with
    admq := h.admq.filter (fun e => !e.same d), xferq := h.xferq.filter (fun e => !e.same d),
    ctlq := h.ctlq.filter (fun e => !e.same d), bg := h.bg.filter (fun e => !e.same d) })

/-- Whether a descriptor is still due a record (an FLR takes it out, a timeout has given it one). -/
def State.holds (s : State) (d : Taken) : Bool :=
  (s.fn d.fn).queues.any (fun e => e.same d && e.st != .timedOut)

/-- Complete an operation other than SUBMIT: its record, and its queue goes on (R268, R280). A
descriptor no longer held has had its record, or gets none (R263, R273). -/
def State.complete (s : State) (d : Taken) (status detail : Nat) : State :=
  if s.holds d then
    (s.record d status detail 0 0 (s.frameOf d.fn) false false).dropDesc d
  else s.dropDesc d

/-- The last-verified frame of a set (R202). -/
def WSet.lvf (w : WSet) : Nat :=
  match w.shards with
  | [] => 0
  | h :: t => (t.foldl (fun m x => min m x.lastGood) h.lastGood) % 2 ^ 32

/-- The last-verified frame and the ROOT of the set that serves a microbatch of an epoch: the old one still does while a swap
replaces it (R202, R205). -/
def WSet.lvfOf (w : WSet) (epoch : Nat) : Nat :=
  match w.old with
  | some o => if o.epoch = epoch then o.lvf else w.lvf
  | none => w.lvf
def WSet.rootOf (w : WSet) (epoch : Nat) : BitVec 256 :=
  match w.old with
  | some o => if o.epoch = epoch then o.root else w.root
  | none => w.root

/-- Complete a SUBMIT that is not a microbatch (R276): its input slot is freed. -/
def State.completeSubmit (s : State) (d : Taken) (status detail : Nat) : State :=
  if s.holds d then
    let c := d.fn - 1
    let s := (s.record d status detail 0 (s.ctx c).wset.lvf (s.ctx c).fcount false false).dropDesc d
    match d.inSlot with
    | some k => s.modCtx c (fun x => { x with inBusy := x.inBusy.filter (· != k) })
    | none => s
  else s

/-- FRAME is that of tick n + S, or of the tick at which it ended (R280).
End a microbatch with a status and its record at once (R248, R273, R306); one that has ended
under R204 and waits for its record keeps its own status. -/
def State.endBatch (s : State) (c : Nat) (b : Batch) (status detail : Nat) (rrec : Bool) : State :=
  let x := s.ctx c
  let sd := b.ended.getD (status, detail)
  let frame := match b.ended with
    | some e => b.tick + e.2
    | none => if status = 0 ∨ status = 8 ∨ status = 0x0B then b.tick + (x.prog.map (·.s)).getD 1 else x.fcount
  let s := s.record b.d sd.1 sd.2 b.epoch (x.wset.lvfOf b.epoch) frame b.late rrec
  s.modCtx c (fun y => { y with batches := y.batches.filter (fun e => e.seq != b.seq) })

/-- End every microbatch in flight with one status (R248, R306). -/
def State.endBatches (s : State) (c status detail : Nat) : State :=
  (s.ctx c).batches.foldl (fun t b => t.endBatch c b status detail false) s

/-! ## Context faults (R301, R306, R307) -/

/-- Post and log a context fault; the class is 2. -/
def State.tellFault (s : State) (c code source arg0 arg1 : Nat) : State :=
  (s.post (c + 1) code 2 c source arg0 arg1).logFault code 2 c source arg0 arg1

/-- Report a fault of a job member to the manager (R306 step 6, R319). -/
def State.reportFault (s : State) (c code source arg0 arg1 : Nat) : State :=
  if (s.ctx c).job = 0 then s
  else s.ctl (.report s.modIndex code 2 c source arg0 arg1)

/-- A context takes a context fault (R306, R307). The first one makes it FAULTED; any further one,
and one during a scrub, is posted and logged and changes nothing else. -/
def State.ctxFault (s : State) (c code source arg0 arg1 : Nat) : State :=
  let s1 := s.tellFault c code source arg0 arg1
  match (s.ctx c).st with
  | .bound | .running | .quiesced =>
    let s2 := s1.endBatches c 0x0007 code
    let s3 := s2.modCtx c (fun x => { x with st := .faulted, fault := some code, pipIdle := true })
    s3.reportFault c code source arg0 arg1
  | _ => s1

/-- A context fault found at a core (R68, R306): its source is that core. -/
def State.coreFault (s : State) (i code arg0 arg1 : Nat) : State :=
  match (s.core i).owner with
  | some c => s.ctxFault c code (srcCore i) arg0 arg1
  | none => s

/-! ## Time -/

/-- Let the counter reach a count that lies ahead; it never goes back (R20). The time passes at the
current step (FS_TIME, R338). -/
def State.passTo (s : State) (t : Nat) : State :=
  { s with
    tcb := { s.tcb with now := max s.tcb.now t },
    fs := { s.fs with timeTc := s.fs.timeTc.put s.fs.cur (s.fs.timeTc.get s.fs.cur 0 + (t - s.tcb.now)) } }

/-- The next value of the counter at or above a multiple of n. -/
def ceilMul (t n : Nat) : Nat := if n = 0 then t else (t + n - 1) / n * n

/-- P_eff of a context (R32, R37). -/
def Context.eff (x : Context) : Nat := x.runPeriod * 2 ^ x.stretch

/-- Take the number of a free value (log 12). -/
def State.draw (s : State) : Nat × State := (s.free, { s with free := s.free + 1 })

/-! ## Outcomes -/

abbrev Out := Host.Outcome State Fault Refusal

def inArray (x : CoreId) : Bool := decide (x.cx < 640) && decide (x.cy < 480)

/-- A meaning at a core: a coordinate outside the array is no core (R10). -/
def atCore (x : CoreId) (s : State) (f : Nat → State → State) : Out :=
  if inArray x then .next (f (coreIdx x) s) else .fault .noSuchCore

/-- A meaning at a function: 0 to 64 (R261). -/
def atFn (f : Nat) (s : State) (g : State → State) : Out :=
  if f ≤ 64 then .next (g s) else .fault .noSuchFunction

/-- A register space answers a host: READY is set, and PERST# is not asserted (R360). -/
def State.barLive (s : State) : Bool := s.mg.ready && !s.link.perst

/-- A register write of a host at a function: before READY it takes no effect (R360). -/
def atBar (f : Nat) (s : State) (g : State → State) : Out :=
  if f ≤ 64 then .next (if s.barLive then g s else s) else .fault .noSuchFunction

/-- A meaning at an Epfin port: 0 to 5 (Table 10.10). -/
def atEp (p : BitVec 3) (s : State) (g : State → State) : Out :=
  if p.toNat < 6 then .next (g s) else .fault .noSuchEpPort

/-- A meaning at a pod: bx 0 to 15, by 0 to 11 (R10). -/
def atPod (p : BitVec 8) (s : State) (g : State → State) : Out :=
  if p.toNat < 192 then .next (g s) else .fault .noSuchPod

/-- A meaning at a field: 0 to 47 (R330). -/
def atField (f : BitVec 6) (s : State) (g : State → State) : Out :=
  if f.toNat < 48 then .next (g s) else .fault .noSuchField

end Sys2Proof.Machine
end

