-- ==== Sys2Proof/Machine/Flags.lean ====
section
/-! DEFINITION. Exact arithmetic with one rounding, and the numeric flags it sets (chapter 04;
R71, R73 to R77, R80, R83 to R89). A finite value is an integer times a power of two; every sum is
formed exactly and rounded once. -/
namespace Sys2Proof.Machine

open Sys2Proof

/-! ## Numeric flags (R90) -/

def fNanIn : BitVec 5 := 1#5
def fInvalid : BitVec 5 := 2#5
def fDiv0 : BitVec 5 := 4#5
def fOverflow : BitVec 5 := 8#5
def fSat : BitVec 5 := 16#5

/-- A decoded element, lane or product: `bad` is the product Inf x 0 (R76). -/
inductive Fp where
  | nan
  | bad
  | inf (neg : Bool)
  | fin (neg : Bool) (m : Nat) (e : Int)
  deriving DecidableEq, Repr

/-- A result of the engines: 32 bits and the flags it sets. -/
abbrev FRes := BitVec 32 × BitVec 5

/-- The canonical NaN (R76, R80). -/
def qnan : BitVec 32 := 0x7FC00000#32

/-- Shift right by n, to nearest, ties to even. -/
def shrRne (v n : Nat) : Nat :=
  if n = 0 then v
  else
    let q := v / 2 ^ n
    let r := v % 2 ^ n
    let h := 2 ^ (n - 1)
    if h < r ∨ (r = h ∧ q % 2 = 1) then q + 1 else q

/-- Magnitude code of n * 2^e in a format of p significand bits whose smallest subnormal is 2^qmin,
to nearest even, with no upper limit: the code of a larger number is larger. -/
def roundCode (p : Nat) (qmin : Int) (n : Nat) (e : Int) : Nat :=
  if n = 0 then 0
  else
    let top : Int := e + Nat.log2 n
    let q : Int := max (top - (p - 1 : Int)) qmin
    let k := if q ≤ e then n * 2 ^ (e - q).toNat else shrRne n (q - e).toNat
    (q - qmin).toNat * 2 ^ (p - 1) + k

/-- The value of a magnitude code: exponent and significand fields of a format with m mantissa bits
whose smallest subnormal is 2^qmin (R73). -/
def codeMag (m : Nat) (qmin : Int) (code : Nat) : Nat × Int :=
  if code < 2 ^ m then (code, qmin)
  else (code % 2 ^ m + 2 ^ m, qmin + ((code / 2 ^ m - 1 : Nat) : Int))

def signed32 (neg : Bool) (mag : Nat) : BitVec 32 := BitVec.ofNat 32 (mag + 2 ^ 31 * bnat neg)

/-- Round n * 2^e to binary32 (R75, R80): beyond the range it is an infinity with OVERFLOW. -/
def round32 (neg : Bool) (n : Nat) (e : Int) : FRes :=
  let c := roundCode 24 (-149) n e
  if 0x7F800000 ≤ c then (signed32 neg 0x7F800000, fOverflow) else (signed32 neg c, 0)

/-- Decode a binary32 lane. -/
def dec32 (b : BitVec 32) : Fp :=
  let mag := b.toNat % 2 ^ 31
  let neg := decide (2 ^ 31 ≤ b.toNat)
  if 0x7F800000 < mag then .nan
  else if mag = 0x7F800000 then .inf neg
  else let v := codeMag 23 (-149) mag; .fin neg v.1 v.2

/-- Decode an element of a packed format (Table 4.2, by FMT code of Table 3.5). -/
def decElem (fmt bits : Nat) : Fp :=
  match fmt with
  | 0 => dec32 (BitVec.ofNat 32 (bits % 65536 * 65536))
  | 1 =>
    let b := bits % 256
    if b < 128 then .fin false b 0 else .fin true (256 - b) 0
  | 2 =>
    let mag := bits % 128
    let neg := decide (128 ≤ bits % 256)
    if mag = 127 then .nan else let v := codeMag 3 (-9) mag; .fin neg v.1 v.2
  | 3 =>
    let mag := bits % 128
    let neg := decide (128 ≤ bits % 256)
    if 124 < mag then .nan else if mag = 124 then .inf neg
    else let v := codeMag 2 (-16) mag; .fin neg v.1 v.2
  | 4 => let v := codeMag 2 (-4) (bits % 32); .fin (decide (32 ≤ bits % 64)) v.1 v.2
  | 5 => let v := codeMag 3 (-3) (bits % 32); .fin (decide (32 ≤ bits % 64)) v.1 v.2
  | _ => let v := codeMag 1 (-1) (bits % 8); .fin (decide (8 ≤ bits % 16)) v.1 v.2

/-- An element of a vector with an E8M0 scale byte (R74). -/
def scaleBy (s : Nat) (x : Fp) : Fp :=
  if s = 255 then .nan
  else match x with
    | .fin n m e => .fin n m (e + (s : Int) - 127)
    | y => y

def Fp.negate : Fp → Fp
  | .fin n m e => .fin (!n) m e
  | .inf n => .inf (!n)
  | x => x

/-- The exact product (R71, R75, R76). -/
def Fp.mul : Fp → Fp → Fp
  | .nan, _ => .nan
  | _, .nan => .nan
  | .bad, _ => .bad
  | _, .bad => .bad
  | .inf a, .inf b => .inf (a != b)
  | .inf a, .fin b m _ => if m = 0 then .bad else .inf (a != b)
  | .fin a m _, .inf b => if m = 0 then .bad else .inf (a != b)
  | .fin a m e, .fin b n f => .fin (a != b) (m * n) (e + f)

def Fp.isNan : Fp → Bool
  | .nan => true
  | _ => false
def Fp.isBad : Fp → Bool
  | .bad => true
  | _ => false
def Fp.isInf (neg : Bool) : Fp → Bool
  | .inf n => n == neg
  | _ => false

/-- A zero of negative sign. -/
def Fp.isNegZero : Fp → Bool
  | .fin true 0 _ => true
  | _ => false

/-- Exact sum of finite values as an integer times a power of two. -/
def addDyad (a : Int × Int) : Fp → Int × Int
  | .fin neg m e =>
    let q := min a.2 e
    let v : Int := if neg then -(m : Int) else m
    (a.1 * 2 ^ (a.2 - q).toNat + v * 2 ^ (e - q).toNat, q)
  | _ => a

/-- The exact sum of a list, rounded once (R75, R76). -/
def exactSum (xs : List Fp) : FRes :=
  if xs.any Fp.isNan then (qnan, fNanIn)
  else if xs.any Fp.isBad || (xs.any (Fp.isInf true) && xs.any (Fp.isInf false)) then (qnan, fInvalid)
  else if xs.any (Fp.isInf true) then (0xFF800000#32, 0)
  else if xs.any (Fp.isInf false) then (0x7F800000#32, 0)
  else
    let v := xs.foldl addDyad (0, 0)
    if v.1 = 0 then (if xs.all Fp.isNegZero && !xs.isEmpty then 0x80000000#32 else 0#32, 0)
    else round32 (decide (v.1 < 0)) v.1.natAbs v.2

/-! ## Comparison (R83, Table 4.5) -/

/-- Order in which -0 is below +0. -/
def orderKey (b : BitVec 32) : Int :=
  if b.toNat < 2 ^ 31 then (b.toNat : Int) else -1 - ((b.toNat - 2 ^ 31 : Nat) : Int)

/-- Order in which -0 equals +0. -/
def valueKey (b : BitVec 32) : Int :=
  if b.toNat < 2 ^ 31 then (b.toNat : Int) else -((b.toNat - 2 ^ 31 : Nat) : Int)

def isNan32 (b : BitVec 32) : Bool := (dec32 b).isNan

def vMax (a b : BitVec 32) : FRes :=
  if isNan32 a || isNan32 b then (qnan, fNanIn)
  else (if orderKey a < orderKey b then b else a, 0)
def vMin (a b : BitVec 32) : FRes :=
  if isNan32 a || isNan32 b then (qnan, fNanIn)
  else (if orderKey b < orderKey a then b else a, 0)

/-- VCMP: 0 EQ, 1 NE, 2 LT, 3 LE. -/
def vCmp (sub : Nat) (a b : BitVec 32) : FRes :=
  let m (p : Bool) : BitVec 32 := if p then 0xFFFFFFFF#32 else 0#32
  if isNan32 a || isNan32 b then (m (sub == 1), fNanIn)
  else
    let x := valueKey a
    let y := valueKey b
    (m (match sub with
      | 0 => decide (x = y)
      | 1 => decide (x ≠ y)
      | 2 => decide (x < y)
      | _ => decide (x ≤ y)), 0)

def vAdd (a b : BitVec 32) : FRes := exactSum [dec32 a, dec32 b]
def vSub (a b : BitVec 32) : FRes := exactSum [dec32 a, (dec32 b).negate]
def vMul (a b : BitVec 32) : FRes := exactSum [(dec32 a).mul (dec32 b)]
def vFma (a b c : BitVec 32) : FRes := exactSum [(dec32 a).mul (dec32 b), dec32 c]

/-! ## Reciprocal, reciprocal root, power of two (R84, Table 4.6) -/

/-- Floor of the square root of n below 2^b, bit by bit. -/
def isqrt (n b : Nat) : Nat :=
  (List.range b).foldl (fun r i =>
    let t := r + 2 ^ (b - 1 - i)
    if t * t ≤ n then t else r) 0

def vRcp (a : BitVec 32) : FRes :=
  match dec32 a with
  | .fin neg 0 _ => (signed32 neg 0x7F800000, fDiv0)
  | .fin neg m e =>
    let q := 2 ^ 64 / m
    let sticky := if q * m = 2 ^ 64 then 0 else 1
    round32 neg (2 * q + sticky) (-e - 65)
  | .inf neg => (signed32 neg 0, 0)
  | _ => (qnan, fNanIn)

def vRsq (a : BitVec 32) : FRes :=
  match dec32 a with
  | .fin neg 0 _ => (signed32 neg 0x7F800000, fDiv0)
  | .fin true _ _ => (qnan, fInvalid)
  | .fin false m e =>
    let odd := e % 2 ≠ 0
    let n := if odd then 2 * m else m
    let f : Int := if odd then e - 1 else e
    let q := isqrt (2 ^ 128 / n) 65
    let sticky := if q * q * n = 2 ^ 128 then 0 else 1
    round32 false (2 * q + sticky) (-(f / 2) - 65)
  | .inf true => (qnan, fInvalid)
  | .inf false => (0, 0)
  | _ => (qnan, fNanIn)

/-- Bounds of 2^(fr / 2^k), 0 < fr < 2^k, times 2^p: each root is kept with floor, its error is
below 2, and the products are rounded outward. -/
def exp2Bounds (p fr k : Nat) : Nat × Nat :=
  let st := (List.range k).foldl (fun (t : Nat × Nat × Nat) i =>
    let r := isqrt (t.1 * 2 ^ p) (p + 2)
    if fr / 2 ^ (k - 1 - i) % 2 = 1 then
      (r, t.2.1 * r / 2 ^ p, t.2.2 * (r + 2) / 2 ^ p + 1)
    else (r, t.2)) (2 ^ (p + 1), 2 ^ p, 2 ^ p)
  st.2

/-- Round 2^(n + fr / 2^k): more bits are taken until both bounds round alike. The value is
irrational, so it lies strictly between them and no tie occurs. -/
def exp2Round : Nat → Nat → Int → Nat → Nat → FRes
  | 0, p, n, fr, k => round32 false (2 * (exp2Bounds p fr k).1 + 1) (n - p - 1)
  | fuel + 1, p, n, fr, k =>
    let b := exp2Bounds p fr k
    let lo := round32 false (2 * b.1 + 1) (n - p - 1)
    let hi := round32 false (2 * b.2 - 1) (n - p - 1)
    if lo = hi then lo else exp2Round fuel (2 * p) n fr k

def one32 : BitVec 32 := 0x3F800000#32

def vExp2 (a : BitVec 32) : FRes :=
  match dec32 a with
  | .fin _ 0 _ => (one32, 0)
  | .fin neg m e =>
    let k := (-e).toNat
    let num : Int := (if neg then -(m : Int) else m) * 2 ^ e.toNat
    if (128 : Int) * 2 ^ k ≤ num then (0x7F800000#32, fOverflow)
    else if num ≤ -150 * 2 ^ k then (0, 0)
    else
      let n : Int := num / 2 ^ k
      let fr := (num % 2 ^ k).toNat
      if fr = 0 then round32 false 1 n
      else if (num.natAbs : Nat) * 2 ^ 25 ≤ 2 ^ k then (one32, 0)
      else exp2Round 4 96 n fr k
  | .inf neg => (if neg then 0 else 0x7F800000#32, 0)
  | _ => (qnan, fNanIn)

/-! ## Conversion (R85 to R87) -/

/-- Element formats of VCVT by FMT code: significand bits, 2^qmin, largest finite code, sign bit
position, emax (Table 4.2, R87). -/
def elemFmt (fmt : Nat) : Nat × Int × Nat × Nat × Int :=
  match fmt with
  | 2 => (4, -9, 0x7E, 7, 8)
  | 3 => (3, -16, 0x7B, 7, 15)
  | 4 => (3, -4, 0x1F, 5, 4)
  | 5 => (4, -3, 0x1F, 5, 2)
  | _ => (2, -1, 0x7, 3, 2)

/-- BF16 of a lane, 16 bits (R85). -/
def toBf16 (b : BitVec 32) : Nat × BitVec 5 :=
  match dec32 b with
  | .fin neg m e =>
    let c := roundCode 8 (-133) m e
    if 0x7F80 ≤ c then (0x7F80 + 0x8000 * bnat neg, fOverflow) else (c + 0x8000 * bnat neg, 0)
  | .inf neg => (0x7F80 + 0x8000 * bnat neg, 0)
  | _ => (0x7FC0, fNanIn)

/-- INT8 of a lane, 8 bits (R85). -/
def toInt8 (b : BitVec 32) : Nat × BitVec 5 :=
  match dec32 b with
  | .fin neg m e =>
    let n := if 0 ≤ e then m * 2 ^ e.toNat else shrRne m (-e).toNat
    if neg then (if 128 < n then (0x80, fSat) else ((256 - n) % 256, 0))
    else if 127 < n then (0x7F, fSat) else (n, 0)
  | .inf neg => (if neg then 0x80 else 0x7F, fSat)
  | _ => (0, fNanIn)

/-- One element of a block at shared exponent x (R87). -/
def toElem (fmt : Nat) (x : Int) (b : BitVec 32) : Nat × BitVec 5 :=
  let f := elemFmt fmt
  match dec32 b with
  | .fin neg m e =>
    let c := roundCode f.1 f.2.1 m (e - x)
    let sgn := 2 ^ f.2.2.2.1 * bnat neg
    if f.2.2.1 < c then (f.2.2.1 + sgn, fSat) else (c + sgn, 0)
  | _ => (0, 0)

/-- floor(log2 |v|) of a block's largest magnitude, none when every value is zero. -/
def blockExp (vs : List (BitVec 32)) : Option Int :=
  vs.foldl (fun m b => match dec32 b with
    | .fin _ 0 _ => m
    | .fin _ n e =>
      let t : Int := e + Nat.log2 n
      some (match m with | some y => max y t | none => t)
    | _ => m) none

/-- Scale byte and shared exponent of a block and its block flags; none where the block holds a NaN
or an infinity (R87). -/
def blockScale (fmt : Nat) (vs : List (BitVec 32)) : Nat × Option Int × BitVec 5 :=
  if vs.any isNan32 then (0xFF, none, fNanIn)
  else if vs.any (fun b => (dec32 b).isInf true || (dec32 b).isInf false) then (0xFF, none, fInvalid)
  else
    let x : Int := match blockExp vs with
      | none => -127
      | some t => max (-127) (t - (elemFmt fmt).2.2.2.2)
    ((x + 127).toNat, some x, 0)

/-- Width in bits of one element of a staged lane (Table 4.8). -/
def elemBits (fmt : Nat) : Nat :=
  match fmt with
  | 2 => 8 | 3 => 8 | 4 => 6 | 5 => 6 | _ => 4

/-- A staged row (R86, R87): lanes of A and B in pairs give the lanes of the destination. -/
def stageRow (fmt : Nat) (as bs : List (BitVec 32)) : List (BitVec 32) × BitVec 5 :=
  let sc := blockScale fmt (as ++ bs)
  match sc.2.1 with
  | none => (as.map (fun _ => BitVec.ofNat 32 (sc.1 * 65536)), sc.2.2)
  | some x =>
    let ls := (as.zip bs).map (fun p =>
      let a := toElem fmt x p.1
      let b := toElem fmt x p.2
      (BitVec.ofNat 32 (sc.1 * 65536 + b.1 * 2 ^ elemBits fmt + a.1), a.2 ||| b.2))
    (ls.map (·.1), ls.foldl (fun f l => f ||| l.2) sc.2.2)

/-- VCVT SUB 7 on one lane. -/
def bf16Lane (b : BitVec 32) : FRes :=
  let r := toBf16 b
  (BitVec.ofNat 32 (r.1 * 65536), r.2)

/-! ## Online softmax (R88, R89) -/

def negInf : BitVec 32 := 0xFF800000#32

/-- One row of VSMAX: V, W, lanes and flags. -/
def smaxRow (v : BitVec 32) (ts : List (BitVec 32)) : BitVec 32 × BitVec 32 × List (BitVec 32) × BitVec 5 :=
  let m := ts.foldl (fun (a : FRes) t => let r := vMax a.1 t; (r.1, a.2 ||| r.2)) (v, 0)
  if m.1 = negInf then (v, 0, ts.map (fun _ => negInf), m.2)
  else
    let w := vSub v m.1
    let ls := ts.map (fun t => vSub t m.1)
    (m.1, w.1, ls.map (·.1), ls.foldl (fun f l => f ||| l.2) (m.2 ||| w.2))

/-- One row of VSSUM: V, W and flags. -/
def ssumRow (v w : BitVec 32) (ts : List (BitVec 32)) : BitVec 32 × BitVec 32 × BitVec 5 :=
  let c := vExp2 w
  let r := exactSum ((dec32 v).mul (dec32 c.1) :: ts.map dec32)
  (r.1, c.1, c.2 ||| r.2)

/-- Sum, max or min of a row or column (R83): the sum is formed exactly. -/
def reduceLanes (sub : Nat) (ts : List (BitVec 32)) : FRes :=
  match sub with
  | 0 => exactSum (ts.map dec32)
  | _ =>
    match ts with
    | [] => (0, 0)
    | t :: r =>
      let first : FRes := (t, if isNan32 t then fNanIn else 0)
      r.foldl (fun a b =>
        let x := if sub = 1 then vMax a.1 b else vMin a.1 b
        (x.1, a.2 ||| x.2)) (if isNan32 t then (qnan, fNanIn) else first)

end Sys2Proof.Machine
end

