-- ==== Sys2Proof/Machine/Operands.lean ====
section
/-! DEFINITION. Operand forms of a core: registers, handles, address forms, the bundle as it is
stored, and what makes a slot reserved (R45, R48, R49, R57, R69, R100 to R107, R392). -/
namespace Sys2Proof.Machine

open Sys2Proof

/-! ## Registers (R69) -/

def Core.lane (c : Core) (t r l : Nat) : BitVec 32 := Cells.get 0 c.tile (256 * t + 16 * r + l)
def Core.setLane (c : Core) (t r l : Nat) (v : BitVec 32) : Core :=
  { c with tile := Cells.set 0 c.tile (256 * t + 16 * r + l) v }
def Core.vlane (c : Core) (v n : Nat) : BitVec 32 := Cells.get 0 c.vec (16 * v + n)
def Core.setVlane (c : Core) (v n : Nat) (x : BitVec 32) : Core :=
  { c with vec := Cells.set 0 c.vec (16 * v + n) x }
def Core.accAt (c : Core) (a i j : Nat) : BitVec 32 := Cells.get 0 c.acc (256 * a + 16 * i + j)
def Core.setAcc (c : Core) (a i j : Nat) (x : BitVec 32) : Core :=
  { c with acc := Cells.set 0 c.acc (256 * a + 16 * i + j) x }
def Core.ctr (c : Core) (n : Nat) : BitVec 32 := c.ctrs.get n 0
def Core.setCtr (c : Core) (n : Nat) (v : BitVec 32) : Core := { c with ctrs := c.ctrs.put n v }
def Core.cmp (c : Core) (n : Nat) : Compar := c.cmps.get n {}
def Core.raise (c : Core) (f : BitVec 5) : Core :=
  { c with flags := c.flags ||| f, sticky := c.sticky ||| f }

/-- Every (row, lane) inside r x l, row-major. -/
def lanes (r l : Nat) : List (Nat × Nat) :=
  (List.range r).flatMap (fun i => (List.range l).map (fun j => (i, j)))

/-- Bytes of the data scratchpad (R92). -/
def Core.bytes (c : Core) (a n : Nat) : List Byte := Cells.read 0 c.mem a n
def Core.writeBytes (c : Core) (a : Nat) (bs : List Byte) : Core :=
  { c with mem := Cells.write 0 c.mem a bs }
def Core.word32 (c : Core) (a : Nat) : BitVec 32 := BitVec.ofNat 32 (leNat (c.bytes a 4))

/-! ## Handles (R100 to R103) -/

/-- A handle entry at reset: GEN 1, every other field 0. -/
def handleReset : BitVec 128 := BitVec.ofNat 128 (2 ^ 120)

def Core.handle (c : Core) (h : Nat) : BitVec 128 := Cells.get handleReset c.handles h
def Core.setHandle (c : Core) (h : Nat) (v : BitVec 128) : Core :=
  { c with handles := Cells.set handleReset c.handles h v }

def hGen (h : BitVec 128) : Nat := fld h.toNat 127 120
def hCtx (h : BitVec 128) : Nat := fld h.toNat 119 114
def hValid (h : BitVec 128) : Bool := decide (fld h.toNat 113 113 = 1)
def hDesc (h : BitVec 128) : Bool := decide (fld h.toNat 112 112 = 1)
def hWin (h : BitVec 128) : Bool := decide (fld h.toNat 111 111 = 1)
def hRights (h : BitVec 128) : Nat := fld h.toNat 110 109
def hRankHi (h : BitVec 128) : Nat := fld h.toNat 95 80
def hRankLo (h : BitVec 128) : Nat := fld h.toNat 79 64
def hSize (h : BitVec 128) : Nat := fld h.toNat 41 32
def hBase (h : BitVec 128) : Nat := fld h.toNat 9 0
/-- First byte and number of bytes of a handle. -/
def hByte (h : BitVec 128) : Nat := 256 * hBase h
def hBytes (h : BitVec 128) : Nat := 256 * hSize h

/-- An entry from its fields (Table 5.4). -/
def mkHandle (gen ctx : Nat) (valid desc win : Bool) (rights hi lo size base : Nat) : BitVec 128 :=
  BitVec.ofNat 128 (gen % 256 * 2 ^ 120 + ctx % 64 * 2 ^ 114 + bnat valid * 2 ^ 113 + bnat desc * 2 ^ 112 +
    bnat win * 2 ^ 111 + rights % 4 * 2 ^ 109 + hi % 65536 * 2 ^ 80 + lo % 65536 * 2 ^ 64 +
    size % 1024 * 2 ^ 32 + base % 1024)

/-- GEN advances; 255 wraps to 1 (R100). -/
def nextGen (g : Nat) : Nat := if g = 255 then 1 else g + 1

/-- A run of bytes of a handle is in bounds (R102). -/
def inBounds (h : BitVec 128) (o n : Nat) : Bool := hValid h && decide (o + n ≤ hBytes h)

/-- The counter an IDX field names, or 0 (IDX 8); 9 to 15 are reserved. -/
def Core.idxVal (c : Core) (idx : BitVec 4) : Nat :=
  if idx.toNat < 8 then (c.ctr idx.toNat).toNat else 0

/-! ## The bundle as stored (R45, Tables 3.1 to 3.8) -/

def bvf (w : Nat) (v hi lo : Nat) : BitVec w := BitVec.ofNat w (fld v hi lo)
def bitAt (v n : Nat) : Bool := decide (fld v n n = 1)
/-- Bits [hi:lo] are zero. -/
def zeroAt (v hi lo : Nat) : Bool := decide (fld v hi lo = 0)

def decSc (w : Nat) : ScOp :=
  match fld w 31 27 with
  | 0x00 => if zeroAt w 26 0 then .nop else .reserved
  | 0x01 => if zeroAt w 22 16 then .setc (bvf 3 w 26 24) (bitAt w 23) (bvf 16 w 15 0) else .reserved
  | 0x02 => if zeroAt w 23 16 then .incc (bvf 3 w 26 24) (bvf 16 w 15 0) else .reserved
  | 0x03 => .setk (bvf 2 w 26 25) (bvf 3 w 24 22) (bvf 2 w 21 20) (bvf 20 w 19 0)
  | 0x04 => if zeroAt w 26 10 then .jmp (bvf 10 w 9 0) else .reserved
  | 0x05 => if zeroAt w 23 10 then .br (bvf 2 w 26 25) (bitAt w 24) (bvf 10 w 9 0) else .reserved
  | 0x06 =>
    if zeroAt w 13 10 then .loop (bvf 3 w 26 24) (bvf 2 w 23 22) (bvf 8 w 21 14) (bvf 10 w 9 0)
    else .reserved
  | 0x07 => if zeroAt w 26 0 then .stop else .reserved
  | 0x1F => if zeroAt w 26 0 then .trap else .reserved
  | _ => .reserved

def decSy (w : Nat) : SyOp :=
  match fld w 31 27 with
  | 0x00 => if zeroAt w 26 0 then .nop else .reserved
  | 0x01 => if zeroAt w 26 0 then .tick else .reserved
  | 0x02 => if zeroAt w 26 16 then .waitcy (bvf 16 w 15 0) else .reserved
  | 0x03 => if zeroAt w 13 0 then .qwait (bvf 5 w 26 22) (bvf 8 w 21 14) else .reserved
  | 0x04 => .qlev (bvf 5 w 26 22) (bvf 8 w 21 14) (bitAt w 13) (bitAt w 12) (bvf 12 w 11 0)
  | 0x05 => .expect (bvf 6 w 26 21) (bvf 10 w 20 11) (bvf 8 w 10 3) (bvf 3 w 2 0)
  | 0x06 => if zeroAt w 26 3 then .mwait (bvf 3 w 2 0) else .reserved
  | 0x07 => if zeroAt w 23 0 then .fwait (bvf 3 w 26 24) else .reserved
  | 0x08 => if zeroAt w 10 0 then .attend (bvf 6 w 26 21) (bvf 10 w 20 11) else .reserved
  | 0x09 => if zeroAt w 26 0 then .drain else .reserved
  | _ => .reserved

def decMx (w : Nat) : MxOp :=
  let f : MxFields :=
    { acc := bvf 2 w 44 43, fmt := bvf 3 w 42 40, bh := bvf 6 w 39 34, boff := bvf 10 w 33 24,
      bidx := bvf 4 w 23 20, ah := bvf 6 w 19 14, aoff := bvf 10 w 13 4, aidx := bvf 4 w 3 0 }
  match fld w 47 45 with
  | 0 => if zeroAt w 44 0 then .nop else .reserved
  | 1 => .mma false f
  | 2 => .mma true f
  | 3 => if zeroAt w 42 0 then .mzero (bvf 2 w 44 43) else .reserved
  | _ => .reserved

def decVe (w : Nat) : VeOp :=
  let va (o : VaOp) : VeOp :=
    if zeroAt w 33 0 then
      .va o { dst := bvf 4 w 57 54, srca := bvf 4 w 53 50, srcb := bvf 4 w 49 46, srcc := bvf 4 w 45 42,
              bmode := bvf 2 w 41 40, vsel := bvf 3 w 39 37, sub := bvf 3 w 36 34 }
    else .reserved
  let vm : VmFields :=
    { t := bvf 4 w 57 54, h := bvf 6 w 53 48, offset := bvf 12 w 47 36, idx := bvf 4 w 35 32 }
  let t := bvf 4 w 57 54
  let v := bvf 3 w 53 51
  let sub := bvf 3 w 47 45
  let low := zeroAt w 44 0
  let vr := low && zeroAt w 50 48
  match fld w 63 58 with
  | 0x00 => if zeroAt w 57 0 then .nop else .reserved
  | 0x01 => if zeroAt w 47 0 then .vsetlen (bvf 5 w 57 53) (bvf 5 w 52 48) else .reserved
  | 0x02 => if zeroAt w 31 0 then .vldt vm else .reserved
  | 0x03 => if zeroAt w 31 0 then .vstt vm else .reserved
  | 0x04 => if low && zeroAt w 53 51 && zeroAt w 47 45 then .vacc t (bvf 2 w 50 49) (bitAt w 48) else .reserved
  | 0x05 => if vr then .vmovv t v sub else .reserved
  | 0x06 => if vr then .vbct t v sub else .reserved
  | 0x08 => va .vadd
  | 0x09 => va .vmul
  | 0x0A => va .vfma
  | 0x0B => va .vmax
  | 0x0C => va .vmin
  | 0x0D => va .vcmp
  | 0x0E => va .vsel
  | 0x0F => va .vcvt
  | 0x10 => va .vexp2
  | 0x11 => va .vrcp
  | 0x12 => va .vrsq
  | 0x13 => if vr then .vred false t v sub else .reserved
  | 0x14 => if vr then .vred true t v sub else .reserved
  | 0x15 => if vr then .vsmax t v sub else .reserved
  | 0x16 => if vr then .vssum t v sub else .reserved
  | _ => .reserved

def decLs (ops : List StreamOp) (w : Nat) : LsOp :=
  let f : StreamFields :=
    { dh := bvf 6 w 35 30, di := bvf 8 w 29 22, idx := bvf 4 w 21 18, count := bvf 16 w 17 2,
      resv := bvf 2 w 1 0 }
  match fld w 39 36 with
  | 0 => if zeroAt w 35 0 then .nop else .reserved
  | k + 1 => match ops[k]? with
    | some o => .go o f
    | none => .reserved

/-- The bundle of a 256-bit value (Table 3.1). -/
def decBundle (v : Nat) : Bundle :=
  { sc := decSc (fld v 31 0), ve := decVe (fld v 95 32), mx := decMx (fld v 143 96),
    ld := decLs [.qread, .gather, .rread] (fld v 183 144),
    st := decLs [.qwrite, .scatter, .msend] (fld v 223 184), sy := decSy (fld v 255 224) }

/-- The 256-bit value of bundle n of the instruction store: eight little-endian words (R45). -/
def Core.bundleBits (c : Core) (n : Nat) : Nat :=
  (List.range 8).foldr (fun w v => (Cells.get 0 c.istore (8 * n + w)).toNat + 2 ^ 32 * v) 0

/-- The TRAP encoding of the SC slot, which fills a store beyond its image (R46). -/
def trapWord : BitVec 32 := BitVec.ofNat 32 (0x1F * 2 ^ 27)

def idxOk (i : BitVec 4) : Bool := decide (i.toNat ≤ 8)

end Sys2Proof.Machine

namespace Sys2Proof

open Machine

/-! ## Reserved field values (R45, R59, R78, R83, R392, Table 3.15) -/

def ScOp.legal : ScOp → Bool
  | .reserved => false
  | _ => true

def SyOp.legal : SyOp → Bool
  | .reserved => false
  | .expect _ _ n _ => decide (n ≠ 0)
  | _ => true

def MxOp.legal : MxOp → Bool
  | .reserved => false
  | .mma _ m => decide (m.fmt ≠ 7) && idxOk m.bidx && idxOk m.aidx
  | _ => true

/-- BMODE 3 is reserved; a broadcast replaces SRCB, which is then zero; VSEL needs BMODE. -/
def VaFields.bOk (f : VaFields) : Bool :=
  decide (f.bmode ≠ 3) && (decide (f.bmode = 0) || decide (f.srcb = 0)) &&
  (decide (f.bmode ≠ 0) || decide (f.vsel = 0))
/-- The operand B is not used at all. -/
def VaFields.noB (f : VaFields) : Bool :=
  decide (f.srcb = 0) && decide (f.bmode = 0) && decide (f.vsel = 0)
def VaFields.noC (f : VaFields) : Bool := decide (f.srcc = 0)
def VaFields.noSub (f : VaFields) : Bool := decide (f.sub = 0)

def VeOp.legal : VeOp → Bool
  | .reserved => false
  | .vsetlen r c => decide (1 ≤ r.toNat) && decide (r.toNat ≤ 16) && decide (1 ≤ c.toNat) && decide (c.toNat ≤ 16)
  | .vldt f => idxOk f.idx
  | .vstt f => idxOk f.idx
  | .vmovv _ _ s => decide (s.toNat ≤ 1)
  | .vbct _ _ s => decide (s.toNat ≤ 1)
  | .vred _ _ _ s => decide (s.toNat ≤ 2)
  | .vsmax _ v w => decide (v ≠ w)
  | .vssum _ v w => decide (v ≠ w)
  | .va o f =>
    match o with
    | .vadd | .vmul | .vmax | .vmin => f.bOk && f.noC && f.noSub
    | .vfma | .vsel => f.bOk && f.noSub
    | .vcmp => f.bOk && f.noC && decide (f.sub.toNat ≤ 3)
    | .vcvt => f.noC && (if f.sub = 7 then f.noB else f.bOk)
    | .vexp2 | .vrcp | .vrsq => f.noB && f.noC && f.noSub
  | _ => true

def LsOp.legal (ops : List StreamOp) : LsOp → Bool
  | .nop => true
  | .reserved => false
  | .go o f => ops.contains o && idxOk f.idx && decide (f.resv = 0)

/-! ## What a slot writes (R49) -/

/-- Registers a VE operation writes: tiles, vectors and accumulators. -/
def VeOp.writes : VeOp → List RegName
  | .vsetlen _ _ => [.len]
  | .vldt f => [.t f.t.toNat]
  | .vacc t a clr => .t t.toNat :: (if clr then [.acc a.toNat] else [])
  | .vmovv _ v _ => [.v v.toNat]
  | .vbct t _ _ => [.t t.toNat]
  | .va _ f => [.t f.dst.toNat]
  | .vred _ _ v _ => [.v v.toNat]
  | .vsmax t v w => [.t t.toNat, .v v.toNat, .v w.toNat]
  | .vssum _ v w => [.v v.toNat, .v w.toNat]
  | _ => []

/-- Registers a VE operation reads (R59, R70, R81). -/
def VeOp.reads : VeOp → List RegName
  | .vldt _ => [.len]
  | .vstt f => [.t f.t.toNat, .len]
  | .vacc _ a _ => [.acc a.toNat]
  | .vmovv t _ _ => [.t t.toNat, .len]
  | .vbct _ v _ => [.v v.toNat, .len]
  | .va o f =>
    let a := [RegName.t f.srca.toNat, .len]
    let b := if f.bmode = 0 then [RegName.t f.srcb.toNat] else [.v f.vsel.toNat]
    match o with
    | .vexp2 | .vrcp | .vrsq => a
    | .vcvt => if f.sub = 7 then a else a ++ b
    | .vfma | .vsel => a ++ b ++ [.t f.srcc.toNat]
    | _ => a ++ b
  | .vred _ t _ _ => [.t t.toNat, .len]
  | .vsmax t v _ => [.t t.toNat, .v v.toNat, .len]
  | .vssum t v w => [.t t.toNat, .v v.toNat, .v w.toNat, .len]
  | _ => []

def MxOp.acc? : MxOp → Option Nat
  | .mma _ m => some m.acc.toNat
  | .mzero a => some a.toNat
  | _ => none

/-- Two slots write one target (R49): of the six slots only VE and MX can share one, an
accumulator; the higher-numbered is MX. -/
def Bundle.clash (b : Bundle) : Bool :=
  match b.mx.acc? with
  | some a => b.ve.writes.contains (.acc a)
  | none => false

/-- The first slot that meets an ILLEGAL_BUNDLE condition (R68 step 1). -/
def Bundle.illegal? (b : Bundle) : Option Nat :=
  if !b.sc.legal then some 0
  else if !b.ve.legal then some 1
  else if !b.mx.legal || b.clash then some 2
  else if !b.ld.legal [.qread, .gather, .rread] then some 3
  else if !b.st.legal [.qwrite, .scatter, .msend] then some 4
  else if !b.sy.legal then some 5
  else none

end Sys2Proof

namespace Sys2Proof.Machine

open Sys2Proof

/-! ## Footprints (Table 3.5) -/

def footprint (fmt : Nat) : Nat := [1024, 512, 528, 528, 400, 400, 272].getD fmt 0

/-- Scratchpad offset in its handle of an MMA operand (R57). -/
def Core.tileOff (c : Core) (off : BitVec 10) (idx : BitVec 4) (fmt : BitVec 3) : Nat :=
  (off.toNat + c.idxVal idx) * footprint fmt.toNat

/-- Offset of a VLDT or VSTT (R102). -/
def Core.vmOff (c : Core) (f : VmFields) : Nat := 64 * f.offset.toNat + 1024 * c.idxVal f.idx

end Sys2Proof.Machine

namespace Sys2Proof.Machine

open Sys2Proof

/-! ## Stream descriptors (R104 to R107) -/

/-- One side of a stream (Table 5.6). -/
structure Side where
  mode : Nat
  h : Nat
  off : Nat
  run : Nat
  stride : Int
  ih : Nat
  ioff : Nat
  ishift : Nat
  limit : Nat
  itstride : Int
  deriving DecidableEq, Repr

/-- Word k of a descriptor. -/
def dw (d : List (BitVec 32)) (k : Nat) : Nat := (d.getD k 0).toNat

/-- The side whose four words begin at word k. -/
def mkSide (d : List (BitVec 32)) (mode k : Nat) : Side :=
  { mode := mode, h := fld (dw d k) 29 24, off := fld (dw d k) 17 0, run := fld (dw d (k + 1)) 31 20,
    stride := sx 20 (dw d (k + 1)), ih := fld (dw d (k + 2)) 29 24, ioff := fld (dw d (k + 2)) 17 0,
    ishift := fld (dw d (k + 3)) 30 26, limit := fld (dw d (k + 3)) 25 16, itstride := sx 16 (dw d (k + 3)) }

def dSrc (d : List (BitVec 32)) : Side := mkSide d (fld (dw d 0) 11 10) 1
def dDst (d : List (BitVec 32)) : Side := mkSide d (fld (dw d 0) 9 8) 5
def dEsize (d : List (BitVec 32)) : Nat := fld (dw d 0) 15 12
/-- Packing modes are ESIZE 8 to 11 (Table 5.8). -/
def dPack (d : List (BitVec 32)) : Bool := decide (8 ≤ dEsize d)
/-- Bytes of an element. -/
def dElem (d : List (BitVec 32)) : Nat := 2 ^ dEsize d
def dIw (d : List (BitVec 32)) : Nat := if fld (dw d 0) 7 7 = 1 then 4 else 2
def dPort (d : List (BitVec 32)) : Nat := fld (dw d 9) 4 0
def dQp (d : List (BitVec 32)) : Nat := fld (dw d 9) 12 5
def dQoff (d : List (BitVec 32)) : Nat := dw d 10 + 2 ^ 32 * fld (dw d 11) 15 0
def dWh (d : List (BitVec 32)) : Nat := fld (dw d 9) 31 26
def dCx (d : List (BitVec 32)) : Nat := fld (dw d 9) 25 16
def dRank (d : List (BitVec 32)) : Nat := fld (dw d 9) 15 0
def dRfmt (d : List (BitVec 32)) : Nat := fld (dw d 10) 27 26
def dTag (d : List (BitVec 32)) : Nat := fld (dw d 10) 25 23
def dRop (d : List (BitVec 32)) : Nat := fld (dw d 10) 22 21
def dChan (d : List (BitVec 32)) : Nat := fld (dw d 10) 20 17
def dWgen (d : List (BitVec 32)) : Nat := fld (dw d 10) 16 9
def dCy (d : List (BitVec 32)) : Nat := fld (dw d 10) 8 0
def dWoff (d : List (BitVec 32)) : Nat := fld (dw d 11) 17 0
def dRcount (d : List (BitVec 32)) : Nat := fld (dw d 12) 15 0

/-- Packing: bits per lane, has a scale, bytes per vector, footprint (Table 5.8). -/
def packOf (esize : Nat) : Nat × Bool × Nat × Nat :=
  match esize with
  | 8 => (16, true, 32, 528)
  | 9 => (16, false, 32, 512)
  | 10 => (12, true, 24, 400)
  | _ => (8, true, 16, 272)

/-- The iteration term of a side (R105). -/
def Side.it (s : Side) (iter : Nat) : Int := (iter : Int) * s.itstride * 16

/-- Offset of element i of a side from its base, given the index value (R105). -/
def Side.elem (s : Side) (iter e i idx : Nat) : Int :=
  (s.off : Int) + s.it iter +
  match s.mode with
  | 0 => ((i * e : Nat) : Int)
  | 1 => (i : Int) * s.stride
  | 2 => ((idx * 2 ^ s.ishift : Nat) : Int)
  | _ => ((idx * 2 ^ s.ishift : Nat) : Int) + ((i % s.run : Nat) : Int) * s.stride

def Side.indexed (s : Side) : Bool := decide (2 ≤ s.mode)

/-- Number of the index that element i uses. -/
def Side.idxNo (s : Side) (i : Nat) : Nat := if s.mode = 3 then i / s.run else i
/-- Number of indices of n elements (R107). -/
def Side.idxCount (s : Side) (n : Nat) : Nat := if s.mode = 3 then (n + s.run - 1) / s.run else n

/-- Lowest offset and end of the bytes of a local side in mode 0 or 1, or its declared extent
(R105, R107). -/
def Side.extent (s : Side) (iter e n : Nat) : Int × Int :=
  let b := (s.off : Int) + s.it iter
  match s.mode with
  | 0 => (b, b + ((n * e : Nat) : Int))
  | 1 =>
    let l := b + ((n - 1 : Nat) : Int) * s.stride
    (min b l, max b l + (e : Int))
  | _ => (b, b + ((256 * s.limit : Nat) : Int))

/-- End of the bytes a packing destination writes, from its start (R106, R107). -/
def packEnd (esize n : Nat) : Nat :=
  let p := packOf esize
  let t := (n - 1) / 16
  let r := (n - 1) % 16 + 1
  t * p.2.2.2 + (if p.2.1 then 16 * p.2.2.1 + r else r * p.2.2.1)

/-- Extent of the source side and of the destination side of a stream. -/
def srcExtent (d : List (BitVec 32)) (iter n : Nat) : Int × Int :=
  let s := dSrc d
  if dPack d then
    let b := (s.off : Int) + s.it iter
    (b, b + ((64 * n : Nat) : Int))
  else s.extent iter (dElem d) n
def dstExtent (d : List (BitVec 32)) (iter n : Nat) : Int × Int :=
  let s := dDst d
  if dPack d then
    let b := (s.off : Int) + s.it iter
    (b, b + (packEnd (dEsize d) n : Int))
  else s.extent iter (dElem d) n

/-- Reserved bits of a side and fields its mode does not use (R104, Table 5.6). -/
def sideOk (d : List (BitVec 32)) (mode k : Nat) : Bool :=
  zeroAt (dw d k) 31 30 && zeroAt (dw d k) 23 18 && zeroAt (dw d (k + 2)) 31 30 &&
  zeroAt (dw d (k + 2)) 23 18 && zeroAt (dw d (k + 3)) 31 31 &&
  (match mode with
   | 0 => zeroAt (dw d (k + 1)) 31 0 && zeroAt (dw d (k + 2)) 31 0 && zeroAt (dw d (k + 3)) 31 16
   | 1 => zeroAt (dw d (k + 1)) 31 20 && zeroAt (dw d (k + 2)) 31 0 && zeroAt (dw d (k + 3)) 31 16
   | 2 => zeroAt (dw d (k + 1)) 31 0
   | _ => !zeroAt (dw d (k + 1)) 31 20)
/-- A stack side: H, OFFSET and LIMIT are zero (R105). -/
def stackSideOk (d : List (BitVec 32)) (mode k : Nat) : Bool :=
  sideOk d mode k && zeroAt (dw d k) 31 0 && zeroAt (dw d (k + 3)) 25 16
/-- A remote side: contiguous, only ITSTRIDE may be nonzero (R105). -/
def remoteSideOk (d : List (BitVec 32)) (mode k : Nat) : Bool :=
  decide (mode = 0) && zeroAt (dw d k) 31 0 && zeroAt (dw d (k + 1)) 31 0 && zeroAt (dw d (k + 2)) 31 0 &&
  zeroAt (dw d (k + 3)) 31 16

/-- A descriptor holds no reserved value and no unused field for its operation (R104 to R106, R129,
R147); `n` is the element count in force, `chan` that the pair is in channel mode. A descriptor COUNT beside a nonzero COUNT
of the slot is accepted, and the slot's is used (DESIGN CHOICE, log 95). -/
def descOk (o : StreamOp) (d : List (BitVec 32)) (n : Nat) (chan : Bool) : Bool :=
  let es := dEsize d
  let sm := fld (dw d 0) 11 10
  let dm := fld (dw d 0) 9 8
  let target0 := zeroAt (dw d 9) 31 0 && zeroAt (dw d 10) 31 0 && zeroAt (dw d 11) 31 0 && zeroAt (dw d 12) 31 0
  let queue := zeroAt (dw d 9) 31 13 && zeroAt (dw d 11) 31 16 && zeroAt (dw d 12) 31 0
  let ring (k : Nat) (m : Nat) := !chan || (decide (m = 0) && decide (dQoff d = 0) && zeroAt (dw d (k + 3)) 15 0)
  let base := zeroAt (dw d 0) 6 0 && (decide (es ≤ 4) || (decide (8 ≤ es) && decide (es ≤ 11))) &&
    zeroAt (dw d 13) 31 0 && zeroAt (dw d 14) 31 0 && zeroAt (dw d 15) 31 0 && decide (n ≠ 0) &&
    (decide (2 ≤ sm) || decide (2 ≤ dm) || zeroAt (dw d 0) 7 7)
  let packOk := !dPack d || (decide (sm = 0) && decide (dm = 0) &&
    (decide (o = .gather) || (decide (o = .msend) && decide (dRop d ≤ 1))))
  base && packOk &&
  match o with
  | .gather | .scatter => sideOk d sm 1 && sideOk d dm 5 && target0
  | .qread => stackSideOk d sm 1 && sideOk d dm 5 && queue && ring 1 sm
  | .qwrite => sideOk d sm 1 && stackSideOk d dm 5 && queue && ring 5 dm
  | .rread => remoteSideOk d sm 1 && sideOk d dm 5 && zeroAt (dw d 10) 31 21 && zeroAt (dw d 11) 31 18 &&
      zeroAt (dw d 12) 31 0
  | .msend => sideOk d sm 1 && remoteSideOk d dm 5 && zeroAt (dw d 10) 31 28 && zeroAt (dw d 11) 31 18 &&
      zeroAt (dw d 12) 31 16 &&
      (match dRop d with
       | 0 => decide (dRfmt d = 0) && decide (dTag d = 0) && decide (dRcount d = 0)
       | 1 => decide (dRfmt d = 0) && decide (dRcount d = 0)
       | 2 => decide (dRcount d ≠ 0)
       | _ => false)

end Sys2Proof.Machine

namespace Sys2Proof

/-- Which sides are local (Table 5.9). -/
def StreamOp.srcLocal (o : StreamOp) : Bool := o != .qread && o != .rread
def StreamOp.dstLocal (o : StreamOp) : Bool := o != .qwrite && o != .msend
def StreamOp.queue (o : StreamOp) : Bool := o == .qread || o == .qwrite

end Sys2Proof

namespace Sys2Proof.Machine

open Sys2Proof

/-- Alignment of one side outside packing (R105). -/
def sideAligned (s : Side) (iter es e w : Nat) : Bool :=
  decide (((s.off : Int) + s.it iter) % (e : Int) = 0) && decide (s.stride % (e : Int) = 0) &&
  (!s.indexed || (decide (es ≤ s.ishift) && decide (s.ioff % w = 0)))

/-- The alignment conditions of R105. -/
def descAligned (o : StreamOp) (d : List (BitVec 32)) (iter : Nat) : Bool :=
  let s := dSrc d
  let t := dDst d
  if dPack d then
    decide (((s.off : Int) + s.it iter) % 64 = 0) &&
    decide ((((if o = .msend then dWoff d else t.off : Nat) : Int) + t.it iter) % 16 = 0)
  else sideAligned s iter (dEsize d) (dElem d) (dIw d) && sideAligned t iter (dEsize d) (dElem d) (dIw d)

/-- The index tensor of an indexed side: offset in IH and length (R107). -/
def Side.idxRange (s : Side) (w n : Nat) : Nat × Nat := (s.ioff, w * s.idxCount n)

end Sys2Proof.Machine
end

