-- ==== Sys2Proof/Machine/Stages.lean ====
section
/-! DEFINITION. Stages and shards: which cores a stage has, which stages a shard belongs to, and when
a stage may go on (R187, R188, R197, R204, R207, R288). -/
namespace Sys2Proof.Machine

open Sys2Proof

/-- A core of a partition, relative to its top-left core (R287). -/
def Context.rel (x : Context) (i : Nat) : Option (Nat × Nat) :=
  match x.part with
  | some r => if x.hasCore i then some (coreCx i - 40 * r.bx, coreCy i - 40 * r.by_) else none
  | none => none

/-- The core at a place relative to the partition's top-left core. -/
def Context.coreAt (x : Context) (px py : Nat) : Nat :=
  match x.part with
  | some r => 640 * (40 * r.by_ + py) + (40 * r.bx + px)
  | none => 0

def inRect (px py x y w h : Nat) : Bool :=
  decide (x ≤ px) && decide (px < x + w) && decide (y ≤ py) && decide (py < y + h)

/-- Two rectangles share a place. -/
def rectsMeet (x y w h x' y' w' h' : Nat) : Bool :=
  decide (x < x' + w') && decide (x' < x + w) && decide (y < y' + h') && decide (y' < y + h)

/-- The places of a rectangle, row by row. -/
def rectPlaces (x y w h : Nat) : List (Nat × Nat) :=
  (List.range h).flatMap (fun j => (List.range w).map (fun i => (x + i, y + j)))

/-- The stage of a place (R188, R288). -/
def Program.stageAt (p : Program) (px py : Nat) : Option Nat :=
  (p.blocks.find? (fun b => inRect px py b.x b.y b.w b.h)).map (·.stage)

/-- The stage of a core, if its context's program covers it. -/
def Context.stage? (x : Context) (i : Nat) : Option Nat :=
  match x.prog, x.rel i with
  | some p, some q => p.stageAt q.1 q.2
  | _, _ => none

/-- The stages a shard belongs to (R188). -/
def Program.shardStages (p : Program) (h : Shard) : List Nat :=
  ((p.blocks.filter (fun b => rectsMeet h.x h.y h.w h.h b.x b.y b.w b.h)).map (·.stage)).eraseDups

def Context.shardStages (x : Context) (h : Shard) : List Nat := (x.prog.map (·.shardStages h)).getD []

/-- The shards and the epoch that a stage serves: a swap has replaced its set, or the stage is not yet released and still
holds the old one (R205). -/
def Context.stageSet (x : Context) (k : Nat) : List Shard × Nat :=
  match x.wset.old with
  | some o => if x.held.contains k then (x.wset.shards, x.wset.epoch) else (o.shards, o.epoch)
  | none => (x.wset.shards, x.wset.epoch)

/-- Every shard of a stage is GOOD (R197). -/
def Context.stageGood (x : Context) (k : Nat) : Bool :=
  (x.stageSet k).1.all (fun h => h.st == .good || !(x.shardStages h).contains k)

/-- A TICK on a core of the stage may issue (R197, R207). -/
def Context.stageOpen (x : Context) (k : Nat) : Bool := !x.held.contains k && x.stageGood k

/-- The same by core; a core that no stage covers is at STOP (R288). -/
def Context.coreOpen (x : Context) (i : Nat) : Bool := ((x.stage? i).map x.stageOpen).getD true

/-- A core of a held stage (R207). -/
def Context.coreHeld (x : Context) (i : Nat) : Bool := ((x.stage? i).map x.held.contains).getD false

/-- Stages of the program. -/
def Context.stages (x : Context) : Nat := (x.prog.map (·.s)).getD 1

/-- The microbatch's epoch is the one under which stage k is GOOD, and the stage is not held (R204). -/
def Context.stageServes (x : Context) (k epoch : Nat) : Bool :=
  !x.held.contains k && x.stageGood k && decide ((x.stageSet k).2 = epoch)

/-- The cores a context owns, in rising number (R246). -/
def State.ownedCores (s : State) (c : Nat) : List (Nat × Core) :=
  s.panel.cores.filter (fun e => e.2.owner == some c)

/-- Change every core a context owns. -/
def State.mapOwned (s : State) (c : Nat) (f : Nat → Core → Core) : State :=
  { s with panel := { s.panel with
      cores := s.panel.cores.map (fun e => if e.2.owner == some c then (e.1, f e.1 e.2) else e) } }

end Sys2Proof.Machine
end

