-- ==== Sys2Proof/Machine/Routes.lean ====
section
/-! DEFINITION. Routes: paths over the panel, the entries of its stack ports and interfaces, and routes over the torus (R11, R14,
R15, R119, R126, R135, R141, R226). -/
namespace Sys2Proof.Machine

open Sys2Proof

/-! ## Routes (R119, R126, R135) -/

/-- A logical position. -/
abbrev Pos := Nat × Nat

def posOf (i : Nat) : Pos := (coreCx i, coreCy i)

/-- The pods met on a row from column a to column b, and on a column from row a to row b. -/
def rowPods (y a b : Nat) : List Nat :=
  (List.range (max a b / 40 - min a b / 40 + 1)).map (fun k => 16 * (y / 40) + min a b / 40 + k)
def colPods (x a b : Nat) : List Nat :=
  (List.range (max a b / 40 - min a b / 40 + 1)).map (fun k => 16 * (min a b / 40 + k) + x / 40)

/-- Pods withdrawn since the module start. -/
def State.startWithdrawn (s : State) : List Nat := s.mg.startMap.2.1

/-- The path along cx and then cy, and the one along cy and then cx, meet no withdrawn pod (R119). -/
def State.xFirst (s : State) (a b : Pos) : Bool := (rowPods a.2 a.1 b.1 ++ colPods b.1 a.2 b.2).all (fun p => !s.startWithdrawn.contains p)
def State.yFirst (s : State) (a b : Pos) : Bool := (colPods a.1 a.2 b.2 ++ rowPods b.2 a.1 b.1).all (fun p => !s.startWithdrawn.contains p)

/-- One of the two paths is open (R119). -/
def State.reachable (s : State) (a b : Pos) : Bool := s.xFirst a b || s.yFirst a b

/-- The link by which packets from a reach the router of b, on the path that R119 gives them: 0 local, 1 and 2 from above and
below, 3 and 4 from the left and the right. -/
def State.inputSide (s : State) (a b : Pos) : Nat :=
  if a = b then 0
  else if (if s.xFirst a b then decide (a.2 ≠ b.2) else decide (a.1 = b.1)) then (if a.2 < b.2 then 1 else 2)
  else if a.1 < b.1 then 3 else 4

/-- Open cycles of a path: hops, and 3 for each field boundary (R126, R135). -/
def pathCycles (a b : Pos) : Nat :=
  let d (m n : Nat) : Nat := max m n - min m n
  d a.1 b.1 + d a.2 b.2 + 3 * (d (a.1 / 80) (b.1 / 80) + d (a.2 / 80) (b.2 / 80))

/-- Attachment cores of X+, X-, Y+, Y-, Z+, Z-, the host interface and the management bus, in the
order of the distance table (Table 1.5, R134). -/
def attachPos (k : Nat) : Pos :=
  [(460, 260), (180, 220), (460, 220), (180, 260), (340, 260), (300, 220), (300, 260), (340, 220)].getD k (0, 0)

/-! ## Physical positions (R11) -/

/-- The physical column of a logical core under a spare map. -/
def physCol (spare : List Nat) (p : Pos) : Nat :=
  let f := p.1 / 80
  let good := (List.range 84).filter (fun pc => !spare.contains (1024 * p.2 + 84 * f + pc))
  84 * f + good.getD (p.1 % 80) 83

/-! ## Entries of the stack ports (R14, R135, R141) -/

/-- The logical position of a physical column of a field in a row: the nearest good core at or to the
right (R135), under the spare map of the start. -/
def logicalAt (spare : List Nat) (fx y local_ : Nat) : Pos :=
  (80 * fx + min 79 ((List.range local_).filter (fun k => !spare.contains (1024 * y + 84 * fx + k))).length, y)

/-- Local positions of the entry routers of a port. -/
def entryCols : List Nat := [10, 31, 52, 73]

/-- Entry routers in the top or bottom row of a field. -/
def rowEntries (spare : List Nat) (fx y : Nat) : List Pos := entryCols.map (logicalAt spare fx y)

/-- Entry routers in the left or right column of a field. -/
def colEntries (x fy : Nat) : List Pos := entryCols.map (fun k => (x, 80 * fy + k))

/-- The entry routers of a port (Table 1.3, R135). TB4 to TB7 share those of the side edges. -/
def portEntries (spare : List Nat) (p : Nat) : List Pos :=
  if p < 8 then rowEntries spare p 0
  else if p < 16 then rowEntries spare (p - 8) 479
  else if p < 20 then colEntries 0 (p - 15)
  else if p < 24 then colEntries 639 (p - 19)
  else [colEntries 0 0, colEntries 0 5, colEntries 639 0, colEntries 639 5, colEntries 0 0, colEntries 639 0, colEntries 0 5, colEntries 639 5].getD (p - 24) []

/-- The port of a perimeter pod's direct lane (Table 1.4). -/
def lanePort (pod : Nat) : Option Nat :=
  let bx := pod % 16
  let by_ := pod / 16
  if by_ = 0 then some (bx / 2)
  else if by_ = 11 then some (8 + bx / 2)
  else if bx = 0 then some (if by_ = 1 then 24 else if by_ = 10 then 25 else 15 + by_ / 2)
  else if bx = 15 then some (if by_ = 1 then 26 else if by_ = 10 then 27 else 19 + by_ / 2)
  else none

/-- The router of a perimeter pod's direct lane. -/
def laneRouter (spare : List Nat) (pod : Nat) : Pos :=
  let bx := pod % 16
  let by_ := pod / 16
  if by_ = 0 ∨ by_ = 11 then logicalAt spare (bx / 2) (if by_ = 0 then 0 else 479) (if bx % 2 = 0 then 21 else 63)
  else (if bx = 0 then 0 else 639, 80 * (by_ / 2) + (if by_ % 2 = 0 then 21 else 63))

/-- The entry by which a core's traffic with a port passes, of those R119 lets it reach: the one of fewest open cycles, ties to
the lane and then to the lower local column or row (R141). -/
def State.portEntry (s : State) (i p : Nat) : Option Pos :=
  let es := (if lanePort (podOf i) = some p then [laneRouter s.mg.startMap.1 (podOf i)] else []) ++ portEntries s.mg.startMap.1 p
  (es.filter (s.reachable (posOf i))).foldl (fun (m : Option Pos) b =>
    if m.any (fun a => decide (pathCycles (posOf i) a ≤ pathCycles (posOf i) b)) then m else some b) none

/-! ## Shape, coordinates and routes (Ring sets, R226) -/

/-- NX, NY, NZ: the shape of the last formation (R239). -/
def Epfin.size (e : Epfin) (d : Nat) : Nat := [e.shape.1, e.shape.2.1, e.shape.2.2].getD d 1

/-- The shape that EP_SHAPE holds. -/
def shapeOf (nx1 ny1 : BitVec 3) (nz1 : BitVec 4) : Nat × Nat × Nat := (nx1.toNat + 1, ny1.toNat + 1, nz1.toNat + 1)

/-- Coordinate of a module along a dimension: the index is x + 8y + 64z. -/
def modAxis (m d : Nat) : Nat := if d = 0 then m % 8 else if d = 1 then m / 8 % 8 else m / 64 % 16

/-- The module with another coordinate along a dimension. -/
def modAt (m d v : Nat) : Nat :=
  let c (k : Nat) : Nat := if k = d then v else modAxis m k
  c 0 + 8 * c 1 + 64 * c 2

/-- Ports are numbered X+, X-, Y+, Y-, Z+, Z-: the one along d, in direction + where `up`. -/
def portAlong (d : Nat) (up : Bool) : Nat := 2 * d + bnat (!up)

/-- The port of the neighbour that a port joins. -/
def farPort (p : Nat) : Nat := if p % 2 = 0 then p + 1 else p - 1

/-- The module a port leads to. -/
def Epfin.nextMod (e : Epfin) (m p : Nat) : Nat :=
  let n := e.size (p / 2)
  modAt m (p / 2) ((modAxis m (p / 2) + (if p % 2 = 0 then 1 else n - 1)) % n)

/-- Dimension order, the shortest way, ties to + ; 6 for the module itself (R226). -/
def Epfin.dimPort (e : Epfin) (here dst : Nat) : Nat :=
  match (List.range 3).find? (fun d => decide (modAxis here d ≠ modAxis dst d)) with
  | none => 6
  | some d =>
    let n := e.size d
    let delta := (modAxis dst d + n - modAxis here d) % n
    portAlong d (decide (delta ≤ n / 2))

/-- A routing table entry: 7 where not listed (R226). -/
def routeByte (t : Cells Byte) (m : Nat) : Byte := Cells.get 7 t m

/-- The routing table of a job, 0xFFFF for control. -/
def Epfin.table (e : Epfin) (job : Nat) : Cells Byte := if job = 0xFFFF then e.control else e.tables.get job []

/-- The port a packet takes at this module (R226). -/
def State.nextPort (s : State) (job dmod : Nat) : Nat :=
  let v := (routeByte (s.ep.table job) dmod).toNat % 8
  if v ≠ 7 then v else s.ep.dimPort s.modIndex dmod

end Sys2Proof.Machine
end

