-- ==== Sys2Proof/Machine/Mesh.lean ====
section
/-! DEFINITION. The panel mesh: packets, the checks at injection and at the target, landing,
and the exact reduction (R108 to R136, R222, R224). -/
namespace Sys2Proof.Machine

open Sys2Proof

/-! ## Cores that fail (R11, R112, R317) -/

/-- The number of a physical core in the retirement lists. -/
def State.physNo (s : State) (i : Nat) : Nat := 1024 * coreCy i + physCol s.mg.spare (posOf i)

/-- A physical core joins the in-service retirement list, with its fault-log entry (R11, R312, R317,
R390); it takes effect at the next module start. -/
def State.retireNo (s : State) (n source : Nat) : State :=
  if s.mg.retired.contains n then s
  else ({ s with mg := { s.mg with retired := s.mg.retired ++ [n] } }).logFault 0x0906 3 noCtx source n 0

def State.retire (s : State) (i : Nat) : State := s.retireNo (s.physNo i) (srcCore i)

/-- A core meets an uncorrectable error; at its second in a module start it is retired (R317). -/
def State.coreUe (s : State) (i : Nat) : State :=
  let c := s.core i
  let s1 := s.setCore i { c with uncorr := c.uncorr + 1 }
  if 2 ≤ c.uncorr + 1 then s1.retire i else s1

/-- A context fault of core i: code, ARG0, ARG1; an uncorrectable error counts against the core. -/
def State.dataFault (s : State) (i : Nat) (f : Nat × Nat × Nat) : State :=
  (if f.1 = 0x0207 then s.coreUe i else s).coreFault i f.1 f.2.1 f.2.2

/-! ## Ranks (R224, R298) -/

inductive Resolved where
  | loc
  | rem (md cx : Nat)
  | bad
  | unplanned
  deriving DecidableEq, Repr

/-- What a rank named by a stream resolves to. -/
def State.resolve (s : State) (x rank : Nat) : Resolved :=
  let c := s.ctx x
  if c.job = 0 then (if rank = 0 then .loc else .bad)
  else
    match (s.ep.ranks.get c.job []).find? rank with
    | none => .bad
    | some e =>
      let v := e.toNat
      if fld v 31 31 = 0 then .bad
      else if s.modIndex? = some (fld v 9 0) then .loc
      else if fld v 30 30 = 0 then .unplanned
      else .rem (fld v 9 0) (fld v 21 16)

/-! ## Packets (R117, R121, R222) -/

/-- Cut a run of bytes at every multiple of `blk` of its offset and at `cap` bytes. -/
def cutRun (blk cap : Nat) : Nat → Nat → List Byte → List (Nat × List Byte)
  | 0, _, _ => []
  | fuel + 1, off, bs =>
    if bs.isEmpty then []
    else
      let n := min (blk - off % blk) cap
      (off, bs.take n) :: cutRun blk cap fuel (off + n) (bs.drop n)

/-- Cut a run of n bytes into offsets and lengths the same way. -/
def cutLen (blk : Nat) : Nat → Nat → Nat → List (Nat × Nat)
  | 0, _, _ => []
  | fuel + 1, off, n =>
    if n = 0 then []
    else
      let k := min (blk - off % blk) n
      (off, k) :: cutLen blk fuel (off + k) (n - k)

/-- Bytes of a reduce-add element (Table 5.7, RFMT). -/
def rSize (rfmt : Nat) : Nat := [4, 2, 1, 1].getD rfmt 1

/-- Flits of a packet (R117). -/
def MeshPacket.flits (p : MeshPacket) : Nat := 1 + (p.data.length + 31) / 32

/-- A packet enters the mesh. -/
def State.inject (s : State) (p : MeshPacket) : State :=
  { s with panel := { s.panel with
      flight := s.panel.flight ++ [{ p with num := s.panel.nextNum }], nextNum := s.panel.nextNum + 1 } }

/-- Handle and offset in ARG0 of WINDOW_REFUSED (Table 14.2). -/
def refusedArg (wh off : Nat) : Nat := (wh * 2 ^ 18 + off % 2 ^ 18) % 2 ^ 32

/-- A remote side's first byte: WOFF + it, kept in the 40 bits of the packet header. -/
def remoteOff (d : List (BitVec 32)) (t : Side) (iter : Nat) : Nat :=
  ((((dWoff d : Nat) : Int) + t.it iter) % 2 ^ 40).toNat

/-- The checks of the sender's router on a destination core (R118, R119): code, source, ARG0, ARG1. -/
def State.sendFault (s : State) (x i cx cy wh off : Nat) : Option (Nat × Nat × Nat × Nat) :=
  let j := 640 * cy + cx
  if !(decide (cx < 640) && decide (cy < 480) && (s.ctx x).hasCore j) then
    some (0x0206, 3 * 2 ^ 28 + 1024 * cy + cx, refusedArg wh off, (s.ctx x).rank)
  else if !s.reachable (posOf i) (cx, cy) then some (0x0501, srcCore i, 1024 * cx + cy, 0)
  else none

/-- Runs cut into packets, in order, at a start offset. -/
def cutRuns (blk cap off : Nat) (rs : List (Nat × List Byte)) : List (Nat × List Byte) :=
  rs.flatMap (fun p => cutRun blk cap (p.2.length + 1) (off + p.1) p.2)

/-- The mesh packets of a local send (R117, R124). -/
def State.sendLocal (s : State) (x i : Nat) (r : StreamRec) (rs : List (Nat × List Byte)) (whole : Bool) : State :=
  let d := r.desc
  let rop := dRop d
  let off := remoteOff d (dDst d) r.iter.toNat
  match s.sendFault x i (dCx d) (dCy d) (dWh d) off with
  | some f => s.ctxFault x f.1 f.2.1 f.2.2.1 f.2.2.2
  | none =>
    let parts := cutRuns 256 (if rop = 2 then min 256 (128 * rSize (dRfmt d)) else 256) off rs
    parts.zipIdx.foldl (fun t p =>
      t.inject { ctx := x, src := i, dst := 640 * dCy d + dCx d, rank := (s.ctx x).rank,
                 op := if rop = 2 then .reduceAdd else .write, chan := dChan d, wh := dWh d, wgen := dWgen d,
                 off := p.1.1, len := p.1.2.length, tag := BitVec.ofNat 3 (dTag d),
                 rfmt := BitVec.ofNat 2 (dRfmt d), rcount := dRcount d,
                 last := decide (rop = 1) && whole && decide (p.2 + 1 = parts.length), data := p.1.2 }) s

/-- The header fields every Epfin packet of a stream shares (R221, R224). -/
def State.epHeader (s : State) (x md cx : Nat) (d : List (BitVec 32)) : EpPacket :=
  { chan := BitVec.ofNat 4 (dChan d), hops := 63, dmod := BitVec.ofNat 10 md, dctx := BitVec.ofNat 6 cx,
    smod := BitVec.ofNat 10 s.modIndex, sctx := BitVec.ofNat 6 x, job := BitVec.ofNat 16 (s.ctx x).job,
    srank := BitVec.ofNat 16 (s.ctx x).rank, drank := BitVec.ofNat 16 (dRank d),
    cx := BitVec.ofNat 10 (dCx d), cy := BitVec.ofNat 9 (dCy d), wh := BitVec.ofNat 6 (dWh d),
    wgen := BitVec.ofNat 8 (dWgen d) }

/-- A packet waits to be sent by the Epfin interface. -/
def State.pushEp (s : State) (x i sid : Nat) (p : EpPacket) : State :=
  { s with ep := { s.ep with streams := s.ep.streams ++ [{ ctx := x, core := i, sid := sid, pkt := p }] } }

/-- Whether a core reaches the attachment core of the port by which a job's packets leave for a module (R119, R222): the fault
of a send that does not, with its destination. Packets that no port takes are the interface's to drop. -/
def State.attachFault (s : State) (x i md : Nat) : Option (Nat × Nat × Nat × Nat) :=
  let p := s.nextPort (s.ctx x).job md
  let a := attachPos p
  if p < 6 ∧ s.reachable (posOf i) a = false then some (0x0501, srcCore i, 1024 * a.1 + a.2, 0) else none

/-- The Epfin packets of a send to another module (R222): its mesh packets go to the attachment core of the first port of the
route, which must be reachable, and the interface makes Epfin packets of them. -/
def State.sendRemote (s : State) (x i md cx : Nat) (r : StreamRec) (rs : List (Nat × List Byte)) (whole : Bool) : State :=
  let d := r.desc
  let rop := dRop d
  let parts := cutRuns 4096 4096 (remoteOff d (dDst d) r.iter.toNat) rs
  match s.attachFault x i md with
  | some f => s.ctxFault x f.1 f.2.1 f.2.2.1 f.2.2.2
  | none => parts.zipIdx.foldl (fun t p =>
    let last := whole && decide (p.2 + 1 = parts.length)
    t.pushEp x i r.id { s.epHeader x md cx d with
      op := if rop = 2 then 2 else if rop = 1 ∧ last then 1 else 0,
      length := BitVec.ofNat 13 p.1.2.length, tag := BitVec.ofNat 3 (dTag d),
      rfmt := BitVec.ofNat 2 (dRfmt d), rcount := BitVec.ofNat 16 (dRcount d),
      woff := BitVec.ofNat 40 p.1.1, data := p.1.2 }) s

/-- A stream names a rank with no way to it (R224): no packet is sent and the context faults. -/
def State.rankFault (s : State) (x i rank : Nat) (unplanned : Bool) : State :=
  s.ctxFault x (if unplanned then 0x0504 else 0x0503) (srcCore i) rank 0

/-- The bytes of an MSEND leave its core; `whole`: they are all its bytes. -/
def State.sendBytes (s : State) (x i : Nat) (r : StreamRec) (rs : List (Nat × List Byte)) (whole : Bool) : State :=
  match s.resolve x (dRank r.desc) with
  | .loc => s.sendLocal x i r rs whole
  | .rem m c => s.sendRemote x i m c r rs whole
  | .bad => s.rankFault x i (dRank r.desc) false
  | .unplanned => s.rankFault x i (dRank r.desc) true

/-- The request of an RREAD, injected at its issue (R127, R222). -/
def State.sendRead (s : State) (x i : Nat) (r : StreamRec) : State :=
  let d := r.desc
  let n := r.count * dElem d
  let off := remoteOff d (dSrc d) r.iter.toNat
  match s.resolve x (dRank d) with
  | .loc =>
    (match s.sendFault x i (dCx d) (dCy d) (dWh d) off with
     | some f => s.ctxFault x f.1 f.2.1 f.2.2.1 f.2.2.2
     | none =>
       s.inject { ctx := x, src := i, dst := 640 * dCy d + dCx d, rank := (s.ctx x).rank, op := .readReq,
                  chan := dChan d, wh := dWh d, wgen := dWgen d, off := off, len := n, sid := r.id })
  | .rem m c =>
    let parts := cutLen 4096 (n + 1) off n
    match s.attachFault x i m with
    | some f => s.ctxFault x f.1 f.2.1 f.2.2.1 f.2.2.2
    | none => parts.zipIdx.foldl (fun t p =>
      let t1 := t.pushEp x i r.id { s.epHeader x m c d with
        op := 3, length := BitVec.ofNat 13 p.1.2, woff := BitVec.ofNat 40 p.1.1 }
      { t1 with ep := { t1.ep with reads := t1.ep.reads ++
          [{ ctx := x, core := i, sid := r.id, drank := dRank d, chan := dChan d, first := p.1.1 - off,
             len := p.1.2, last := decide (p.2 + 1 = parts.length) }] } }) s
  | .bad => s.rankFault x i (dRank d) false
  | .unplanned => s.rankFault x i (dRank d) true

/-! ## Stream elements (R105, R106) -/

/-- Byte address of the first word with a double-bit error met by a read of the data scratchpad
(R112). -/
def Core.eccRead (c : Core) (a n : Nat) : Option Nat :=
  (c.eccDouble.find? (fun w => decide (w < 24576) && decide (a < 8 * w + 8) && decide (8 * w < a + n))).map (8 * ·)

/-- The same for a write: only a word written in part is read first. -/
def Core.eccMerge (c : Core) (a n : Nat) : Option Nat :=
  (c.eccDouble.find? (fun w => decide (w < 24576) && decide (a < 8 * w + 8) && decide (8 * w < a + n) &&
    !(decide (a ≤ 8 * w) && decide (8 * w + 8 ≤ a + n)))).map (8 * ·)

/-- Single-bit errors met by a read of n bytes from byte a are corrected and counted (R112). -/
def Core.correct (c : Core) (a n : Nat) : Core :=
  let hit := c.eccSingle.filter (fun w => decide (a < 8 * w + 8) && decide (8 * w < a + n))
  if hit.isEmpty then c
  else { c with eccSingle := c.eccSingle.filter (fun w => !hit.contains w), correctable := satAdd c.correctable hit.length }

/-- A word written whole holds an error no longer; one written in part is merged, and its single-bit error
corrected and counted (R112). -/
def Core.overwritten (c : Core) (a n : Nat) : Core :=
  let whole (w : Nat) : Bool := decide (a ≤ 8 * w) && decide (8 * w + 8 ≤ a + n)
  if c.eccSingle.isEmpty && c.eccDouble.isEmpty then c
  else ({ c with eccSingle := c.eccSingle.filter (fun w => !whole w), eccDouble := c.eccDouble.filter (fun w => !whole w) }).correct a n

/-- Read a run of the data scratchpad: the bytes, or ECC_UNCORRECTABLE. -/
def Core.load (c : Core) (a n : Nat) : List Byte ⊕ (Nat × Nat × Nat) :=
  match c.eccRead a n with
  | some b => .inr (0x0207, 0, b)
  | none => .inl (c.bytes a n)

/-- Write a run of the data scratchpad: the core, or ECC_UNCORRECTABLE and no byte written. -/
def Core.store (c : Core) (a : Nat) (bs : List Byte) : Core ⊕ (Nat × Nat × Nat) :=
  match c.eccMerge a bs.length with
  | some b => .inr (0x0207, 0, b)
  | none => .inl ((c.writeBytes a bs).overwritten a bs.length)

/-- Byte of the data scratchpad at which the index of element i of a side lies. -/
def Side.idxAt (sd : Side) (ih : BitVec 128) (w i : Nat) : Nat := hByte ih + sd.ioff + w * sd.idxNo i

/-- The index that element i of a side uses, read from its index tensor. -/
def Core.index (c : Core) (sd : Side) (ih : BitVec 128) (w i : Nat) : Nat :=
  if sd.indexed then leNat (c.bytes (sd.idxAt ih w i) w) else 0

/-- The scratchpad address of element i of a local side for an index value, or the fault of an element outside its
declared extent (R105, R113). -/
def elemAt (sd : Side) (h : BitVec 128) (iter e i idx : Nat) : Nat ⊕ (Nat × Nat × Nat) :=
  let off := sd.elem iter e i idx
  let b := (sd.off : Int) + sd.it iter
  if sd.indexed && !(decide (b ≤ off) && decide (off + e ≤ b + 256 * sd.limit)) then
    .inr (0x0202, sd.h, (off % 2 ^ 32).toNat)
  else .inl ((hByte h : Int) + off).toNat

/-- The address of element i of a local side, its index read from the data scratchpad (R105, R112). -/
def Core.elemAddr (c : Core) (sd : Side) (h ih : BitVec 128) (iter e w i : Nat) : Nat ⊕ (Nat × Nat × Nat) :=
  match (if sd.indexed then c.eccRead (sd.idxAt ih w i) w else none) with
  | some b => .inr (0x0207, 0, b)
  | none => elemAt sd h iter e i (c.index sd ih w i)

/-- Every byte of word w lies in some run. -/
def runsCover (rs : List (Nat × List Byte)) (w : Nat) : Bool :=
  (List.range 8).all (fun k => rs.any (fun r => decide (r.1 ≤ 8 * w + k) && decide (8 * w + k < r.1 + r.2.length)))

def runMeets (r : Nat × List Byte) (w : Nat) : Bool := decide (r.1 < 8 * w + 8) && decide (8 * w < r.1 + r.2.length)

/-- Single-bit and double-bit errors after runs are written together: words written whole hold none, and a word
written in part is merged, its single-bit error corrected and counted (R112). -/
def Core.runsEcc (c : Core) (rs : List (Nat × List Byte)) : Core :=
  if c.eccSingle.isEmpty && c.eccDouble.isEmpty then c
  else
    let hit := c.eccSingle.filter (fun w => rs.any (fun r => runMeets r w) && !runsCover rs w)
    { c with eccSingle := c.eccSingle.filter (fun w => !(rs.any (fun r => runMeets r w))),
             eccDouble := c.eccDouble.filter (fun w => !runsCover rs w),
             correctable := if hit.isEmpty then c.correctable else satAdd c.correctable hit.length }

/-- Runs written in one access, each with the number of the element it belongs to. Where a word is written in part and
holds a double-bit error, the elements before the first one that meets it are written, and that element is the
offending one (R112, R113). -/
def Core.storeRuns (c : Core) (es : List (Nat × Nat × List Byte)) : Core × Option (Nat × Nat × Nat × Nat) :=
  let rs := es.map (·.2)
  let bad (r : Nat × List Byte) : Option Nat :=
    c.eccDouble.find? (fun w => decide (w < 24576) && runMeets r w && !runsCover rs w)
  match es.findSome? (fun e => (bad e.2).map (fun w => (e.1, w))) with
  | none => ((rs.foldl (fun k r => k.writeBytes r.1 r.2) c).runsEcc rs, none)
  | some (n, w) =>
    let ok := (es.filter (fun e => decide (e.1 < n))).map (·.2)
    ((ok.foldl (fun k r => k.writeBytes r.1 r.2) c).runsEcc ok, some (n, 0x0207, 0, 8 * w))

/-- Packed bytes of a source row (R106): the vector's bytes, and its scale byte if the mode has one. -/
def packRow (esize : Nat) (row : List Byte) : List Byte × Option Byte :=
  let p := packOf esize
  let bits := (List.range 16).foldr (fun l v => leNat ((row.drop (4 * l)).take 4) % 2 ^ p.1 + 2 ^ p.1 * v) 0
  (leBytes p.2.2.1 bits, if p.2.1 then some (row.getD 2 0) else none)

/-- Offsets of row n's vector and scale in a packed image (R106). -/
def packOffs (esize n : Nat) : Nat × Nat :=
  let p := packOf esize
  (n / 16 * p.2.2.2 + n % 16 * p.2.2.1, n / 16 * p.2.2.2 + 16 * p.2.2.1 + n % 16)

/-- The runs that row n of a packing stream makes: the vector and, if the mode has one, the scale byte. -/
def packRuns (esize n : Nat) (row : List Byte) : List (Nat × List Byte) :=
  let r := packRow esize row
  let o := packOffs esize n
  (o.1, r.1) :: (match r.2 with
    | some b => [(o.2, [b])]
    | none => [])

/-! ## GATHER and SCATTER, turn by turn (R97, R105, R106, R113) -/

/-- How far a GATHER or SCATTER has got: index lines read with the bytes they held, elements obtained and the source
bytes of the next one, what the elements obtained write, and the destination lines written. `n` is the number of
elements to be performed: a fault lowers it to those before the offending one. -/
structure CopySt where
  c : Core
  snap : List (Nat × List Byte) := []
  nidx : Nat := 0
  got : Nat := 0
  part : List Byte := []
  runs : List (Nat × Nat × List Byte) := []
  done : List Nat := []
  n : Nat
  fault : Option (Nat × Nat × Nat) := none
  deriving DecidableEq, Repr

/-- Source lines of an element: one, or the four of a staged row (R105, R106). -/
def linesPer (d : List (BitVec 32)) : Nat := if dPack d then 4 else 1

/-- The index value of element i: as its line held when it was read, or else as memory holds it. -/
def CopySt.idx (t : CopySt) (sd : Side) (ih : BitVec 128) (w i : Nat) : Nat :=
  let a := sd.idxAt ih w i
  if !sd.indexed then 0
  else match t.snap.find? (fun e => e.1 == a / 16) with
    | some e => leNat ((e.2.drop (a % 16)).take w)
    | none => leNat (t.c.bytes a w)

/-- Where element i of a stream begins at its source and at its destination. -/
def CopySt.src (r : StreamRec) (t : CopySt) (i : Nat) : Nat ⊕ (Nat × Nat × Nat) :=
  let d := r.desc
  if dPack d then .inl (((hByte r.srcH : Int) + (dSrc d).off + (dSrc d).it r.iter.toNat).toNat + 64 * i)
  else elemAt (dSrc d) r.srcH r.iter.toNat (dElem d) i (t.idx (dSrc d) r.srcIH (dIw d) i)
def CopySt.dst (r : StreamRec) (t : CopySt) (i : Nat) : Nat ⊕ (Nat × Nat × Nat) :=
  let d := r.desc
  if dPack d then .inl ((hByte r.dstH : Int) + (dDst d).off + (dDst d).it r.iter.toNat).toNat
  else elemAt (dDst d) r.dstH r.iter.toNat (dElem d) i (t.idx (dDst d) r.dstIH (dIw d) i)

/-- Runs that element i writes, given its source bytes. -/
def elemRuns (r : StreamRec) (i b : Nat) (bs : List Byte) : List (Nat × List Byte) :=
  if dPack r.desc then (packRuns (dEsize r.desc) i bs).map (fun p => (b + p.1, p.2)) else [(b, bs)]

/-- Destination lines of element i. -/
def CopySt.dstLines (r : StreamRec) (t : CopySt) (i : Nat) : List Nat :=
  match t.dst r i with
  | .inl b => (elemRuns r i b (List.replicate (if dPack r.desc then 64 else dElem r.desc) 0)).flatMap (fun p =>
      (List.range ((p.1 + p.2.length - 1) / 16 - p.1 / 16 + 1)).map (p.1 / 16 + ·))
  | .inr _ => []

/-- The index lines of a stream in index order, each with the last element it serves (R97). Where both sides are
indexed, the lines of an element come source first (DESIGN CHOICE, log 18). -/
def indexLines (r : StreamRec) : List (Nat × Nat) :=
  let d := r.desc
  let one (sd : Side) (ih : BitVec 128) (i : Nat) : List Nat := if sd.indexed then [sd.idxAt ih (dIw d) i / 16] else []
  (List.range r.count).foldl (fun (t : List (Nat × Nat)) i =>
    (one (dSrc d) r.srcIH i ++ one (dDst d) r.dstIH i).foldl (fun t l =>
      if t.any (fun e => e.1 == l) then t.map (fun e => if e.1 = l then (l, i) else e) else t ++ [(l, i)]) t) []

/-- The destination lines of a stream in element order, each with the last element that falls in it (R97). -/
def CopySt.writeList (r : StreamRec) (t : CopySt) : List (Nat × Nat) :=
  (List.range t.n).foldl (fun (l : List (Nat × Nat)) i =>
    (t.dstLines r i).foldl (fun l a =>
      if l.any (fun e => e.1 == a) then l.map (fun e => if e.1 = a then (a, i) else e) else l ++ [(a, i)]) l) []

/-- The part of a run that falls in a line. -/
def inLine (l : Nat) (r : Nat × Nat × List Byte) : List (Nat × Nat × List Byte) :=
  let lo := max r.2.1 (16 * l)
  let hi := min (r.2.1 + r.2.2.length) (16 * l + 16)
  if lo < hi then [(r.1, lo, (r.2.2.drop (lo - r.2.1)).take (hi - lo))] else []

/-- Stop at element i: the elements before it are still performed (R113). -/
def CopySt.stop (t : CopySt) (i : Nat) (f : Nat × Nat × Nat) : CopySt :=
  { t with n := min t.n i, got := min t.got i, part := [], fault := some f, runs := t.runs.filter (fun e => decide (e.1 < i)) }

/-- The writes of a turn: the longest prefix of the list whose banks are free; the banks taken. -/
def CopySt.writes (ls : List (Nat × Nat)) (t : CopySt) : CopySt × List Nat :=
  let cand := ls.filter (fun e => decide (e.2 < t.got) && !t.done.contains e.1)
  let o := cand.foldl (fun (q : CopySt × List Nat × Bool) e =>
    if q.2.2 || q.2.1.contains (e.1 % 16) then (q.1, q.2.1, true)
    else
      let w := q.1.c.storeRuns (q.1.runs.flatMap (inLine e.1))
      match w.2 with
      | none => ({ q.1 with c := w.1, done := e.1 :: q.1.done }, e.1 % 16 :: q.2.1, false)
      | some f => ({ q.1 with c := w.1 }.stop f.1 f.2, e.1 % 16 :: q.2.1, true)) (t, [], false)
  (o.1, o.2.1)

/-- The index reads of a turn, at most 16 lines read and not wholly used; whether the prefix went on. -/
def CopySt.indexReads (ix : List (Nat × Nat)) (q : CopySt × List Nat) : CopySt × List Nat × Bool :=
  let used := q.1.got
  (ix.drop q.1.nidx).foldl (fun (q : CopySt × List Nat × Bool) e =>
    let open_ := ((ix.take q.1.nidx).filter (fun k => decide (used ≤ k.2))).length
    if q.2.2 = false ∨ 16 ≤ open_ then q
    else if q.2.1.contains (e.1 % 16) then (q.1, q.2.1, false)
    else
      ({ q.1 with nidx := q.1.nidx + 1, snap := (e.1, q.1.c.bytes (16 * e.1) 16) :: q.1.snap }, e.1 % 16 :: q.2.1, true)) (q.1, q.2, true)

/-- Element i may be read: every index line it needs was read in an earlier turn. -/
def idxKnown (r : StreamRec) (lines : List (Nat × List Byte)) (i : Nat) : Bool :=
  let d := r.desc
  let ok (sd : Side) (ih : BitVec 128) : Bool := !sd.indexed || lines.any (fun e => e.1 == sd.idxAt ih (dIw d) i / 16)
  ok (dSrc d) r.srcIH && ok (dDst d) r.dstIH

/-- A double-bit error in the index of element i. -/
def idxBad (r : StreamRec) (c : Core) (i : Nat) : Option Nat :=
  let d := r.desc
  let bad (sd : Side) (ih : BitVec 128) : Option Nat := if sd.indexed then c.eccRead (sd.idxAt ih (dIw d) i) (dIw d) else none
  (bad (dSrc d) r.srcIH).or (bad (dDst d) r.dstIH)

/-- One data read: the next source line of the next element. `last` is the line of the access before it: consecutive
accesses to one line merge. -/
def CopySt.readOne (r : StreamRec) (old : List (Nat × List Byte)) (q : CopySt × List Nat × Option Nat × Bool) :
    CopySt × List Nat × Option Nat × Bool :=
  let t := q.1
  let i := t.got
  if q.2.2.2 = false ∨ t.n ≤ i ∨ idxKnown r old i = false then (t, q.2.1, q.2.2.1, false)
  else
    match idxBad r t.c i with
    | some b => (t.stop i (0x0207, 0, b), q.2.1, q.2.2.1, false)
    | none =>
      match t.src r i, t.dst r i with
      | .inr f, _ => (t.stop i f, q.2.1, q.2.2.1, false)
      | _, .inr f => (t.stop i f, q.2.1, q.2.2.1, false)
      | .inl a0, .inl b =>
        let a := a0 + t.part.length
        let m := if dPack r.desc then 16 else dElem r.desc
        if q.2.1.contains (a / 16 % 16) && q.2.2.1 != some (a / 16) then (t, q.2.1, q.2.2.1, false)
        else
          match t.c.load a m with
          | .inr f => (t.stop i f, q.2.1, q.2.2.1, false)
          | .inl bs =>
            let all := t.part ++ bs
            let t1 := { t with c := t.c.correct a m }
            (if all.length = m * linesPer r.desc then
              { t1 with got := i + 1, part := [], runs := t1.runs ++ (elemRuns r i b all).map (fun p => (i, p)) }
            else { t1 with part := all }, a / 16 % 16 :: q.2.1, some (a / 16), true)

/-- One turn (R97): writes of what earlier turns obtained, then index reads, then data reads. -/
def CopySt.turn (r : StreamRec) (ix : List (Nat × Nat)) (t : CopySt) : CopySt :=
  let old := t.snap
  let w := t.writes (t.writeList r)
  let x := CopySt.indexReads ix w
  if t.fault.isSome || w.1.fault.isSome then w.1
  else ((List.range (256 / (if dPack r.desc then 16 else dElem r.desc) + 1)).foldl (fun q _ => CopySt.readOne r old q) (x.1, x.2.1, none, x.2.2)).1

/-- Turns until every element to be performed has been written. -/
def CopySt.run (r : StreamRec) (ix : List (Nat × Nat)) : Nat → CopySt → CopySt
  | 0, t => t
  | fuel + 1, t =>
    if t.n ≤ t.got ∧ (t.writeList r).all (fun e => t.done.contains e.1) then t
    else CopySt.run r ix fuel (t.turn r ix)

/-- GATHER and SCATTER, packing or not: their turns taken together, and the fault that stopped them (log 18). -/
def copyElems (r : StreamRec) (c : Core) : Core × Option (Nat × Nat × Nat) :=
  let ix := indexLines r
  let t := CopySt.run r ix (8 * r.count + ix.length + 8) { c := c, n := r.count }
  (ix.foldl (fun k e => if t.snap.any (fun s => s.1 == e.1) then k.correct (16 * e.1) 16 else k) t.c, t.fault)

/-! ## Source bytes of a QWRITE or MSEND (R106, R108, R113) -/

/-- Maximal runs of consecutive bytes, by address. -/
def runsOf : List (Nat × Byte) → List (Nat × List Byte)
  | [] => []
  | (a, b) :: t =>
    match runsOf t with
    | (k, bs) :: rest => if k = a + 1 then (a, b :: bs) :: rest else (a, [b]) :: (k, bs) :: rest
    | [] => [(a, [b])]

/-- The elements of a source side in order, with the fault that stopped the walk. -/
def sourceElems (r : StreamRec) (c : Core) : List (List Byte) × Option (Nat × Nat × Nat) :=
  let d := r.desc
  let m := if dPack d then 64 else dElem d
  let t := (List.range r.count).foldl (fun (t : List (List Byte) × Option (Nat × Nat × Nat)) i =>
    match t.2 with
    | some _ => t
    | none =>
      match (if r.op = .qwrite ∧ (dDst d).indexed then c.eccRead ((dDst d).idxAt r.dstIH (dIw d) i) (dIw d) else none) with
      | some b => (t.1, some (0x0207, 0, b))
      | none =>
      match (if dPack d then .inl (((hByte r.srcH : Int) + (dSrc d).off + (dSrc d).it r.iter.toNat).toNat + 64 * i)
             else c.elemAddr (dSrc d) r.srcH r.srcIH r.iter.toNat m (dIw d) i) with
      | .inr f => (t.1, some f)
      | .inl a =>
        match c.load a m with
        | .inr f => (t.1, some f)
        | .inl bs => (bs :: t.1, none)) ([], none)
  (t.1.reverse, t.2)

/-- The source bytes of a QWRITE or MSEND, and the fault that stopped the stream: runs by their offset at the target,
which are one run but for a packed image with a part of a tile (R106). -/
def sourceRuns (r : StreamRec) (c : Core) : List (Nat × List Byte) × Option (Nat × Nat × Nat) :=
  let o := sourceElems r c
  if dPack r.desc then
    let rs := (o.1.zipIdx).flatMap (fun p => packRuns (dEsize r.desc) p.2 p.1)
    let img : Table Byte := rs.foldl (fun t p => (p.2.zipIdx).foldl (fun t b => t.put (p.1 + b.2) b.1) t) []
    (runsOf img, o.2)
  else ((if o.1.flatten.isEmpty then [] else [(0, o.1.flatten)]), o.2)

/-- The same bytes in order, without their offsets. -/
def sourceBytes (r : StreamRec) (c : Core) : List Byte × Option (Nat × Nat × Nat) :=
  ((sourceRuns r c).1.flatMap (·.2), (sourceRuns r c).2)

/-- The reads of a source side correct and count its single-bit errors (R112). -/
def Core.correctSource (c : Core) (r : StreamRec) : Core :=
  if c.eccSingle.isEmpty then c
  else
    let d := r.desc
    (List.range (sourceElems r c).1.length).foldl (fun k i =>
      if dPack d then k.correct (((hByte r.srcH : Int) + (dSrc d).off + (dSrc d).it r.iter.toNat).toNat + 64 * i) 64
      else
        let k1 := if (dSrc d).indexed then k.correct ((dSrc d).idxAt r.srcIH (dIw d) i) (dIw d) else k
        match c.elemAddr (dSrc d) r.srcH r.srcIH r.iter.toNat (dElem d) (dIw d) i with
        | .inl a => k1.correct a (dElem d)
        | .inr _ => k1) c

/-! ## The target (R110, R111, R117, R126, R247) -/

/-- RIGHTS permits the operation: 0 read, 1 write, 2 both, 3 reduce-add besides (Table 5.4). -/
def rightsOk (rights : Nat) : MeshOp → Bool
  | .write => decide (1 ≤ rights)
  | .reduceAdd => decide (rights = 3)
  | .readReq => decide (rights ≠ 1)
  | .readReply => true

/-- The target checks on an access of n bytes (R110). -/
def windowOk (c : Core) (p : MeshPacket) (n : Nat) : Bool :=
  let h := c.handle p.wh
  hValid h && hWin h && !hDesc h && decide (hRankLo h ≤ p.rank) && decide (p.rank ≤ hRankHi h) &&
  rightsOk (hRights h) p.op && decide (hGen h = p.wgen) && decide (p.off + n ≤ hBytes h)

/-- An access that fails a check (R110): WINDOW_REFUSED, naming the target core. -/
def State.refuse (s : State) (p : MeshPacket) : State :=
  s.ctxFault p.ctx 0x0206 (srcCore p.dst) (refusedArg p.wh p.off) p.rank

/-- Take a packet out of flight. -/
def State.takePacket (s : State) (p : MeshPacket) : State :=
  { s with panel := { s.panel with flight := s.panel.flight.filter (fun q => q.num != p.num) } }

/-- The virtual channel of a packet: 0 scheduled, 1 reduction, 2 best-effort (R120). -/
def MeshPacket.channel (p : MeshPacket) : Nat := if p.op = .reduceAdd then 1 else if p.chan < 12 then 0 else 2

/-- The packet that a sender's next packets to a destination wait behind on a channel: the oldest, if it is of the kind asked
for (R124). -/
def State.oldestOn (s : State) (src dst channel : Nat) (f : MeshPacket → Bool) : Option MeshPacket :=
  (s.panel.flight.find? (fun p => decide (p.src = src) && decide (p.dst = dst) && decide (p.channel = channel))).filter f

/-- Flits of a context that no longer owns their destination are discarded and counted (R247, R260). -/
def State.discardFlits (s : State) (c n : Nat) : State := s.modCtx c (fun x => { x with discard := satAdd x.discard n })
def State.discard (s : State) (p : MeshPacket) : State := s.discardFlits p.ctx p.flits

/-- A write lands whole; the notice of a write-with-notice reaches the core with it (R124, R126). -/
def State.landWrite (s : State) (p : MeshPacket) : State :=
  let c := s.core p.dst
  if !windowOk c p p.data.length then s.refuse p
  else
    match c.store (hByte (c.handle p.wh) + p.off) p.data with
    | .inr f => s.dataFault p.dst f
    | .inl k => s.setCore p.dst (if p.last then { k with due := k.due ++ [p.tag] } else k)

/-- 64-byte pieces, by number, that a byte range meets. -/
def piecesOf (a n : Nat) : List Nat :=
  if n = 0 then [] else (List.range ((a + n - 1) / 64 - a / 64 + 1)).map (a / 64 + ·)

/-- Bytes [first, first + length) of a stream's data arrive at its destination side: each byte goes
to its element's place (R105), and a piece is released once no later byte can fall in it (Table 3.9). -/
def Core.deliver (c : Core) (r : StreamRec) (first : Nat) (bs : List Byte) : Core × Option (Nat × Nat × Nat) :=
  let d := r.desc
  let e := dElem d
  let addr (k : Nat) := c.elemAddr (dDst d) r.dstH r.dstIH r.iter.toNat e (dIw d) k
  let es := (List.range ((first + bs.length + e - 1) / e - first / e)).map (fun k => first / e + k)
  let runs := es.foldl (fun (t : List (Nat × Nat × List Byte) × Option (Nat × Nat × Nat)) k =>
    match t.2 with
    | some _ => t
    | none =>
      match addr k with
      | .inr f => (t.1, some f)
      | .inl a =>
        let lo := max first (k * e)
        let hi := min (first + bs.length) (k * e + e)
        ((k, a + (lo - k * e), (bs.drop (lo - first)).take (hi - lo)) :: t.1, none)) ([], none)
  let o := c.storeRuns runs.1.reverse
  let c1 := if (dDst d).indexed then es.foldl (fun k i => k.correct ((dDst d).idxAt r.dstIH (dIw d) i) (dIw d)) o.1 else o.1
  let fault := (o.2.map (·.2)).or runs.2
  let wrote := (runs.1.filter (fun x => (o.2.map (fun f => decide (x.1 < f.1))).getD true)).map (fun x => x.2.1 / 64)
  let later := (List.range (r.count - (first + bs.length) / e)).map (fun k =>
    match addr ((first + bs.length) / e + k) with
    | .inl a => a / 64
    | .inr _ => 0)
  let free := wrote.dedup.filter (fun q => !later.contains q)
  let k := c1
  ({ k with ranges := k.ranges.map (fun x =>
      if x.owner = .stream r.id true then { x with freed := (x.freed ++ free.filter (fun q =>
        decide (x.lo ≤ 64 * q) && decide (64 * q < x.hi))).dedup } else x) }, fault)

def Core.stream? (c : Core) (id : Nat) : Option StreamRec :=
  (c.ld ++ c.st).find? (fun r => r.id = id)

def Core.setStream (c : Core) (r : StreamRec) : Core :=
  let f (q : StreamRec) : StreamRec := if q.id = r.id then r else q
  { c with ld := c.ld.map f, st := c.st.map f }

/-- A stream met a fault: it is stopped and the context faults (R113). -/
def State.stopStream (s : State) (i id : Nat) (f : Nat × Nat × Nat) : State :=
  let c := s.core i
  let s1 := match c.stream? id with
    | some r => s.setCore i (c.setStream { r with dead := true })
    | none => s
  s1.dataFault i f

/-- A reply's bytes are written into the requester's destination (R127). -/
def State.landReply (s : State) (i sid first : Nat) (bs : List Byte) (last : Bool) : State :=
  let c := s.core i
  match c.stream? sid with
  | none => s
  | some r =>
    if r.dead then s
    else
      let o := c.deliver r first bs
      let s1 := s.setCore i o.1
      match o.2 with
      | some f => s1.stopStream i sid f
      | none => if last then s1.setCore i (o.1.setStream { r with closed := true }) else s1

/-! ## Reduction (R129 to R133) -/

def decRed (rfmt : Nat) (bs : List Byte) : Fp :=
  match rfmt with
  | 0 => dec32 (BitVec.ofNat 32 (leNat bs))
  | 1 => decElem 0 (leNat bs)
  | 2 => decElem 2 (leNat bs)
  | _ => decElem 3 (leNat bs)

/-- Add one contribution to an element (R131). -/
def RedElem.add (e : RedElem) : Fp → RedElem
  | .fin neg m x =>
    if m ≠ 0 ∧ (111 : Int) ≤ (Nat.log2 m : Int) + x then
      if neg then { e with ninf := true, finOvf := true } else { e with pinf := true, finOvf := true }
    else
      let v : Nat := if 0 ≤ x + 64 then m * 2 ^ (x + 64).toNat else m / 2 ^ (-(x + 64)).toNat
      { e with sum := if neg then e.sum - BitVec.ofNat 192 v else e.sum + BitVec.ofNat 192 v }
  | .inf neg => if neg then { e with ninf := true } else { e with pinf := true }
  | _ => { e with nan := true }

/-- Infinity of a reduction format, and the flags it sets: FP8 E4M3 has none (R132). -/
def redInf (rfmt : Nat) : Nat × BitVec 5 :=
  [(0x7F800000, 0), (0x7F80, 0), (0x7E, fSat), (0x7C, 0)].getD rfmt (0, 0)

/-- The result of an element: magnitude bits with sign, and flags (R132). NAN beside both infinities sets NAN_IN alone: DESIGN
CHOICE (log 109). -/
def RedElem.result (rfmt : Nat) (e : RedElem) : Nat × BitVec 5 :=
  let sign := 2 ^ (8 * rSize rfmt - 1)
  if e.nan then ([0x7FC00000, 0x7FC0, 0x7F, 0x7F].getD rfmt 0, fNanIn)
  else if e.pinf && e.ninf then ([0x7FC00000, 0x7FC0, 0x7F, 0x7F].getD rfmt 0, fInvalid)
  else if e.pinf || e.ninf then
    let v := redInf rfmt
    (v.1 + sign * bnat e.ninf, v.2 ||| (if e.finOvf then fOverflow else 0))
  else
    let v := e.sum.toInt
    let p : Nat × Int × Nat := [(24, -149, 0x7F800000), (8, -133, 0x7F80), (4, -9, 0x7F), (3, -16, 0x7C)].getD rfmt (24, -149, 0)
    let c := roundCode p.1 p.2.1 v.natAbs (-64)
    if p.2.2 ≤ c then
      let w := redInf rfmt
      (w.1 + sign * bnat (decide (v < 0)), if rfmt = 2 then fSat else fOverflow)
    else (c + sign * bnat (decide (v < 0)), 0)

def RedKey.matches (k : RedKey) (p : MeshPacket) : Bool :=
  decide (k.ctx = p.ctx) && decide (k.wh = p.wh) && decide (k.off = p.off) && decide (k.len = p.data.length) &&
  decide (k.tag = p.tag)

/-- Elements of a reduce-add packet. -/
def redElems (p : MeshPacket) : List Fp :=
  let z := rSize p.rfmt.toNat
  (List.range (p.data.length / z)).map (fun k => decRed p.rfmt.toNat ((p.data.drop (z * k)).take z))

/-- Accumulators in use at a router (R133). -/
def Core.redUsed (c : Core) : Nat := c.keys.foldl (fun n k => n + k.elems.length) 0

/-- A completed reduction is rounded, written, noticed and its accumulators freed (R132). -/
def State.finishKey (s : State) (p : MeshPacket) (k : RedKey) : State :=
  let c := s.core p.dst
  let rs := k.elems.map (RedElem.result k.rfmt.toNat)
  let bs := rs.flatMap (fun r => leBytes (rSize k.rfmt.toNat) r.1)
  let c1 := { c with keys := c.keys.filter (fun q => !q.matches p) }
  match (c1.raise (rs.foldl (fun f r => f ||| r.2) 0)).store (hByte (c.handle p.wh) + p.off) bs with
  | .inr f => (s.setCore p.dst c1).dataFault p.dst f
  | .inl c2 => s.setCore p.dst { c2 with due := c2.due ++ [p.tag] }

/-- A reduce-add packet at its destination router (R130, R131). -/
def State.absorb (s : State) (p : MeshPacket) : State :=
  let c := s.core p.dst
  if !windowOk c p p.data.length then s.refuse p
  else
    let xs := redElems p
    match c.keys.find? (fun k => k.matches p) with
    | some k =>
      if k.rfmt ≠ p.rfmt ∨ k.rcount ≠ p.rcount then
        s.ctxFault p.ctx 0x0502 (srcCore p.dst) (p.off % 2 ^ 32) p.tag.toNat
      else
        let k1 := { k with count := k.count + 1, elems := (k.elems.zip xs).map (fun q => q.1.add q.2) }
        if k1.count = k1.rcount then s.finishKey p k1
        else s.setCore p.dst { c with keys := c.keys.map (fun q => if q.matches p then k1 else q) }
    | none =>
      let k : RedKey := { ctx := p.ctx, wh := p.wh, off := p.off, len := p.data.length, tag := p.tag, rfmt := p.rfmt,
                          rcount := p.rcount, count := 1, elems := xs.map (RedElem.add {}) }
      if p.rcount = 1 then s.finishKey p k
      else s.setCore p.dst { c with keys := c.keys ++ [k] }

end Sys2Proof.Machine
end

