-- ==== Sys2Proof/Machine/Issue.lean ====
section
/-! DEFINITION. Issue of a bundle: its waits, the faults found at issue in their order, the hazards
of the two scoreboards, and the effect of each slot (R47, R48, R52 to R68, R69 to R90, R104 to
R107, R139 to R147, R171 to R173). -/
namespace Sys2Proof.Machine

open Sys2Proof

/-- A fault at issue: code, ARG0, ARG1. -/
abbrev IFault := Nat × Nat × Nat

/-! ## Slot operands that issue checks (R102) -/

/-- A range of a handle is checked: HANDLE_INVALID, then HANDLE_BOUNDS; `dst` adds DESC_WRITE
between them (R68 order). -/
def checkRange (c : Core) (h o n : Nat) (dst : Bool) : Option IFault :=
  let e := c.handle h
  if !hValid e then some (0x0201, h, c.bidx.toNat)
  else if dst && hDesc e then some (0x0205, h, c.bidx.toNat)
  else if !inBounds e o n then some (0x0202, h, o % 2 ^ 32)
  else none

/-- The first fault of a list of checks. -/
def firstFault : List (Option IFault) → Option IFault
  | [] => none
  | some f :: _ => some f
  | none :: t => firstFault t

def scFault (c : Core) : ScOp → Option IFault
  | .trap => some (0x0103, c.bidx.toNat, 0)
  | _ => none

def veFault (c : Core) : VeOp → Option IFault
  | .vldt f => checkRange c f.h.toNat (c.vmOff f) 1024 false
  | .vstt f => checkRange c f.h.toNat (c.vmOff f) 1024 true
  | _ => none

/-- HANDLE_INVALID of both operands comes before HANDLE_BOUNDS of either (R68). -/
def mxFault (c : Core) : MxOp → Option IFault
  | .mma _ m =>
    let inv (h : Nat) : Option IFault := if hValid (c.handle h) then none else some (0x0201, h, c.bidx.toNat)
    let n := footprint m.fmt.toNat
    firstFault [inv m.ah.toNat, inv m.bh.toNat,
      checkRange c m.ah.toNat (c.tileOff m.aoff m.aidx m.fmt) n false,
      checkRange c m.bh.toNat (c.tileOff m.boff m.bidx m.fmt) n false]
  | _ => none

/-- The 64 bytes of the descriptor a stream names, as 16 words of the descriptor store (R103). -/
def Core.storeWords (c : Core) (a n : Nat) : List (BitVec 32) :=
  (List.range n).map (fun k => BitVec.ofNat 32 (leNat (Cells.read 0 c.dstore (a + 4 * k) 4)))

def Core.streamDesc (c : Core) (f : StreamFields) : List (BitVec 32) :=
  c.storeWords (hByte (c.handle f.dh.toNat) + 64 * f.di.toNat) 16

/-- Element count in force (R104). -/
def streamCount (f : StreamFields) (d : List (BitVec 32)) : Nat :=
  if f.count = 0 then fld (dw d 0) 31 16 else f.count.toNat

/-- ARG0 of STREAM_ALIGN and DESC_INVALID. -/
def descArg (f : StreamFields) : Nat := 256 * f.dh.toNat + f.di.toNat

/-- Out of its handle (R105, R107): a range given by two integers. -/
def extentFault (c : Core) (h : Nat) (x : Int × Int) : Option IFault :=
  if 0 ≤ x.1 ∧ x.2 ≤ (hBytes (c.handle h) : Int) then none
  else some (0x0202, h, (x.1 % 2 ^ 32).toNat)

/-- The faults of an LD or ST slot after ILLEGAL_BUNDLE, in the order of R68. The descriptor's
values cannot be read where the descriptor handle is invalid or too short (log 17). -/
def streamFault (s : State) (c : Core) (x : Nat) : LsOp → Option IFault
  | .go o f =>
    let b := c.bidx.toNat
    let dh := c.handle f.dh.toNat
    if !hValid dh || !hDesc dh then some (0x0201, f.dh.toNat, b)
    else if !inBounds dh (64 * f.di.toNat) 64 then some (0x0202, f.dh.toNat, 64 * f.di.toNat)
    else
      let d := c.streamDesc f
      let p := dPort d
      let q := dQp d
      let n := streamCount f d
      let it := c.idxVal f.idx
      let pr := (s.port p).pair x q
      let chan := o.queue && (s.port p).hasPair x q && decide (pr.mode = 1)
      let sd := dSrc d
      let td := dDst d
      let inv (h : Nat) (used : Bool) : Option IFault :=
        if !used || hValid (c.handle h) then none else some (0x0201, h, b)
      let idxB (e : Side) : Option IFault :=
        if !e.indexed then none
        else let r := e.idxRange (dIw d) n; checkRange c e.ih r.1 r.2 false
      firstFault [
        if o.queue && !s.portUp p then some (0x0102, b, srcPort p) else none,
        if descOk o d n chan then none else some (0x0204, descArg f, b),
        inv sd.ih sd.indexed, inv sd.h o.srcLocal, inv td.ih td.indexed, inv td.h o.dstLocal,
        if o.queue && !(s.port p).hasPair x q then some (0x0301, 256 * p + q, 0) else none,
        if o = .qwrite ∧ 24 ≤ p then some (0x0303, p, 0) else none,
        if o.dstLocal && hDesc (c.handle td.h) then some (0x0205, td.h, b) else none,
        if o.srcLocal then extentFault c sd.h (srcExtent d it n) else none, idxB sd,
        if o.dstLocal then extentFault c td.h (dstExtent d it n) else none, idxB td,
        if descAligned o d it then none else some (0x0203, descArg f, b),
        if chan ∧ o = .qwrite ∧ pr.rsize.toNat * 4096 < n * dElem d then
          some (0x0302, 256 * p + q, n * dElem d) else none]
  | _ => none

/-! ## ATTEND at issue (R171, R172, Tables 8.2, 8.7, 8.8) -/

def aMask (d : List (BitVec 32)) : Nat := fld (dw d 0) 2 0
def aFmt (d : List (BitVec 32)) : Nat := fld (dw d 0) 6 4
def aHead (d : List (BitVec 32)) : Nat := 64 * 2 ^ fld (dw d 0) 9 8
def aAppend (d : List (BitVec 32)) : Bool := bitAt (dw d 0) 10
def aBf16 (d : List (BitVec 32)) : Bool := bitAt (dw d 0) 11
def aNote (d : List (BitVec 32)) : Bool := bitAt (dw d 0) 12
def aTag (d : List (BitVec 32)) : BitVec 3 := bvf 3 (dw d 0) 15 13
def aQt (d : List (BitVec 32)) : Nat := fld (dw d 0) 20 16
def aGq (d : List (BitVec 32)) : Nat := fld (dw d 0) 25 21
def aG (d : List (BitVec 32)) : Nat := fld (dw d 1) 4 0
def aH0 (d : List (BitVec 32)) : Nat := fld (dw d 1) 12 8
def aHk (d : List (BitVec 32)) : Nat := fld (dw d 1) 20 16
def aW (d : List (BitVec 32)) : Nat := dw d 2
def aLayer (d : List (BitVec 32)) : Nat := fld (dw d 3) 15 0
def aL (d : List (BitVec 32)) : Nat := dw d 4
def aT0 (d : List (BitVec 32)) : Nat := dw d 5
def aPort (d : List (BitVec 32)) : Nat := fld (dw d 6) 4 0
def aQp (d : List (BitVec 32)) : Nat := fld (dw d 6) 12 5
def aBase (d : List (BitVec 32)) : Nat := 4096 * fld (dw d 7) 23 0
def aTx (d : List (BitVec 32)) : Nat := fld (dw d 8) 5 0
def aTy (d : List (BitVec 32)) : Nat := fld (dw d 8) 11 6
def aTw (d : List (BitVec 32)) : Nat := fld (dw d 8) 15 12 + 1
def aTh (d : List (BitVec 32)) : Nat := fld (dw d 8) 19 16 + 1
def aQh (d : List (BitVec 32)) : Nat := fld (dw d 9) 5 0
def aQoff (d : List (BitVec 32)) : Nat := fld (dw d 9) 23 6
def aOh (d : List (BitVec 32)) : Nat := fld (dw d 10) 5 0
def aOoff (d : List (BitVec 32)) : Nat := fld (dw d 10) 23 6
def aWh (d : List (BitVec 32)) : Nat := fld (dw d 11) 5 0
def aAh (d : List (BitVec 32)) : Nat := fld (dw d 12) 5 0
def aAoff (d : List (BitVec 32)) : Nat := fld (dw d 12) 23 6
/-- Stored tile, query tile and member footprint F' by KVFMT (Table 8.2, R174). -/
def kvTile (f : Nat) : Nat := [512, 512, 528, 528, 1024].getD f 0
def kvQuery (f : Nat) : Nat := if f = 4 then 1024 else 528
/-- Bytes of an appended element. -/
def kvElem (f : Nat) : Nat := if f = 4 then 2 else 1

def aQueryBytes (d : List (BitVec 32)) : Nat := aHk d * (aHead d / 32) * kvQuery (aFmt d)
def aAppendBytes (d : List (BitVec 32)) : Nat := aQt d * aHk d * (2 * aHead d) * kvElem (aFmt d)
def aOutBytes (d : List (BitVec 32)) : Nat :=
  if aBf16 d then aHk d * (aHead d / 32) * 1024 else aHk d * (aHead d / 16) * 1024

/-- The conditions of R172 that are ATTEND_DESC. -/
def attendOk (d : List (BitVec 32)) : Bool :=
  zeroAt (dw d 0) 3 3 && zeroAt (dw d 0) 7 7 && zeroAt (dw d 0) 31 26 && zeroAt (dw d 1) 7 5 &&
  zeroAt (dw d 1) 15 13 && zeroAt (dw d 1) 31 21 && zeroAt (dw d 3) 31 16 && zeroAt (dw d 6) 31 13 &&
  zeroAt (dw d 7) 31 24 && zeroAt (dw d 8) 31 20 && zeroAt (dw d 9) 31 24 && zeroAt (dw d 10) 31 24 &&
  zeroAt (dw d 11) 31 6 && zeroAt (dw d 12) 31 24 && (d.drop 13).all (· == 0) &&
  decide (aMask d ≤ 2) && decide (aFmt d ≤ 4) && decide (fld (dw d 0) 9 8 ≤ 2) &&
  decide (1 ≤ aQt d) && decide (aQt d ≤ 16) && decide (1 ≤ aGq d) && decide (aGq d ≤ 16) &&
  decide (1 ≤ aG d) && decide (aG d ≤ 16) && decide (1 ≤ aHk d) && decide (aHk d ≤ 16) &&
  decide (aPort d ≤ 23) && decide (aTx d ≤ 39) && decide (aTy d ≤ 39) &&
  decide (aQoff d % 64 = 0) && decide (aOoff d % 64 = 0) && decide (aAoff d % 16 = 0) &&
  (aNote d || decide (aTag d = 0)) && (aAppend d || zeroAt (dw d 12) 31 0) &&
  decide (aQt d * aGq d ≤ 16) && decide (aH0 d + aHk d ≤ aG d) &&
  (if aMask d = 1 then decide (1 ≤ aW d) && decide (aW d ≤ 65536) else decide (aW d = 0)) &&
  decide (aT0 d + aQt d ≤ aL d) &&
  (!aAppend d || ((aFmt d == 0 || aFmt d == 1 || aFmt d == 4) && decide (aT0 d + aQt d = aL d)))

/-- A sequencer that can serve: fitted, its pod not withdrawn, not in the disabled-unit map (R56). -/
def State.seqUp (s : State) (pod : Nat) : Bool :=
  s.hasSeqs && !s.mg.seqOff.contains pod && !s.mg.withdrawn.contains pod

def attendFault (s : State) (i : Nat) (c : Core) (h : BitVec 6) (off : BitVec 10) : Option IFault :=
  let b := c.bidx.toNat
  let e := c.handle h.toNat
  if !s.seqUp (podOf i) then some (0x0102, b, srcSeq (podOf i))
  else if !hValid e || !hDesc e then some (0x0201, h.toNat, b)
  else if !inBounds e (256 * off.toNat) 128 then some (0x0202, h.toNat, 256 * off.toNat)
  else
    let d := c.storeWords (hByte e + 256 * off.toNat) 32
    let inv (k : Nat) : Option IFault := if hValid (c.handle k) then none else some (0x0201, k, b)
    firstFault [
      if attendOk d then none else some (0x0401, aLayer d, 0),
      inv (aQh d), inv (aOh d), if aAppend d then inv (aAh d) else none,
      if hDesc (c.handle (aOh d)) then some (0x0205, aOh d, b) else none,
      checkRange c (aQh d) (aQoff d) (aQueryBytes d) false,
      checkRange c (aOh d) (aOoff d) (aOutBytes d) false,
      if aAppend d then checkRange c (aAh d) (aAoff d) (aAppendBytes d) false else none]

def syFault (s : State) (x i : Nat) (c : Core) : SyOp → Option IFault
  | .qwait p q | .qlev p q _ _ _ =>
    if !s.portUp p.toNat then some (0x0102, c.bidx.toNat, srcPort p.toNat)
    else if !(s.port p.toNat).hasPair x q.toNat then some (0x0301, 256 * p.toNat + q.toNat, 0)
    else none
  | .expect h o n _ => checkRange c h.toNat (256 * o.toNat) (256 * n.toNat) true
  | .attend h o => attendFault s i c h o
  | _ => none

/-- The one fault of a bundle, if it meets any (R68). -/
def issueFault (s : State) (x i : Nat) (c : Core) (b : Bundle) : Option IFault :=
  match b.illegal? with
  | some slot => some (0x0101, c.bidx.toNat, slot)
  | none =>
    firstFault [scFault c b.sc, veFault c b.ve, mxFault c b.mx, streamFault s c x b.ld,
      streamFault s c x b.st, syFault s x i c b.sy]

/-! ## The SY slot's condition (R53) -/

/-- Whether the blocking condition of the SY slot holds. -/
def syReady (s : State) (x i : Nat) (c : Core) : SyOp → Bool
  | .tick => decide (0 < c.pendTicks) && decide (c.pendTicks < 3) && (s.ctx x).coreOpen i
  | .qwait p q => decide (0 < c.qnotes.get (256 * p.toNat + q.toNat) 0) || !s.portUp p.toNat ||
      !(s.port p.toNat).hasPair x q.toNat
  | .qlev p q _ _ _ => (c.watch.map (·.held)).getD false || !s.portUp p.toNat ||
      !(s.port p.toNat).hasPair x q.toNat
  | .mwait t => decide (0 < c.unclaimed.get t.toNat 0)
  | .fwait k => !(BitVec.ofNat 32 (s.ctx x).fcount - c.ctr k.toNat).msb
  | .drain => c.ld.isEmpty && c.st.isEmpty
  | .nop | .waitcy _ | .expect _ _ _ _ | .attend _ _ | .reserved => true

/-! ## Occupancy and latency (R66, R67, Table 3.11) -/

/-- The column of Table 3.11 for LATTAB. -/
def latCol (t a0 a1 b0 : Nat) : Nat := if t = 1 then a0 else if t = 3 then b0 else a1

def mxOcc : MxOp → Nat
  | .mma _ m => if m.fmt = 0 then 128 else if m.fmt = 6 then 32 else 64
  | .mzero _ => 1
  | _ => 0
def mxLat (t : Nat) : MxOp → Nat
  | .mma z m => mxOcc (.mma z m) + latCol t 6 5 4
  | .mzero _ => 2
  | _ => 0

/-- R67: a short LEN.ROW shortens the operation. -/
def rowCut (rows : Nat) : Nat := 4 - (rows + 3) / 4

def veOcc (rows : Nat) : VeOp → Nat
  | .nop => 0
  | .vsetlen _ _ => 1
  | .va o _ => match o with
    | .vexp2 | .vrcp | .vrsq => 8 - 2 * rowCut rows
    | _ => 4 - rowCut rows
  | .vred _ _ _ _ | .vsmax _ _ _ | .vssum _ _ _ => 4 - rowCut rows
  | _ => 4
def veLat (t rows : Nat) : VeOp → Nat
  | .nop => 0
  | .vsetlen _ _ => 1
  | .vldt _ | .vstt _ => latCol t 9 8 8
  | .vacc _ _ _ | .vmovv _ _ _ | .vbct _ _ _ => latCol t 7 6 5
  | .va o _ => match o with
    | .vexp2 | .vrcp | .vrsq => latCol t 14 12 11 - 2 * rowCut rows
    | .vfma => latCol t 8 7 6 - rowCut rows
    | _ => latCol t 7 6 6 - rowCut rows
  | .vred _ _ _ _ => latCol t 9 8 7 - rowCut rows
  | .vsmax _ _ _ => latCol t 10 9 8 - rowCut rows
  | .vssum _ _ _ => latCol t 12 11 10 - rowCut rows
  | .reserved => 0

/-! ## Ranges a bundle touches (R61, R62, R107, Table 3.9) -/

/-- A byte range: first byte, end, whether it is written. -/
abbrev Touch := Nat × Nat × Bool

def hTouch (c : Core) (h o n : Nat) (wr : Bool) : Touch := (hByte (c.handle h) + o, hByte (c.handle h) + o + n, wr)

def veTouch (c : Core) : VeOp → List Touch
  | .vldt f => [hTouch c f.h.toNat (c.vmOff f) 1024 false]
  | .vstt f => [hTouch c f.h.toNat (c.vmOff f) 1024 true]
  | _ => []

def mxTouch (c : Core) : MxOp → List Touch
  | .mma _ m =>
    let n := footprint m.fmt.toNat
    [hTouch c m.ah.toNat (c.tileOff m.aoff m.aidx m.fmt) n false,
     hTouch c m.bh.toNat (c.tileOff m.boff m.bidx m.fmt) n false]
  | _ => []

/-- Ranges of a stream (R107); the flag says it is released in 64-byte pieces. -/
def streamTouch (c : Core) (o : StreamOp) (f : StreamFields) : List (Touch × Bool) :=
  let d := c.streamDesc f
  let n := streamCount f d
  let it := c.idxVal f.idx
  let sd := dSrc d
  let td := dDst d
  let ext (h : Nat) (x : Int × Int) (wr : Bool) : Touch :=
    (((hByte (c.handle h) : Int) + x.1).toNat, ((hByte (c.handle h) : Int) + x.2).toNat, wr)
  let idx (e : Side) : List (Touch × Bool) :=
    if e.indexed then let r := e.idxRange (dIw d) n; [(hTouch c e.ih r.1 r.2 false, false)] else []
  (if o.dstLocal then [(ext td.h (dstExtent d it n) true, o == .qread || o == .rread)] else []) ++
  (if o.srcLocal then [(ext sd.h (srcExtent d it n) false, false)] else []) ++ idx sd ++ idx td

def lsTouch (c : Core) : LsOp → List (Touch × Bool)
  | .go o f => streamTouch c o f
  | _ => []

def attendDesc (c : Core) (h : BitVec 6) (off : BitVec 10) : List (BitVec 32) :=
  c.storeWords (hByte (c.handle h.toNat) + 256 * off.toNat) 32

def syTouch (c : Core) : SyOp → List Touch
  | .expect h o n _ => [hTouch c h.toNat (256 * o.toNat) (256 * n.toNat) true]
  | .attend h o =>
    let d := attendDesc c h o
    [hTouch c h.toNat (256 * o.toNat) 128 false, hTouch c (aQh d) (aQoff d) (aQueryBytes d) false,
     hTouch c (aOh d) (aOoff d) (aOutBytes d) true] ++
    (if aAppend d then [hTouch c (aAh d) (aAoff d) (aAppendBytes d) false] else [])
  | _ => []

def bundleTouches (c : Core) (b : Bundle) : List Touch :=
  veTouch c b.ve ++ mxTouch c b.mx ++ (lsTouch c b.ld).map (·.1) ++ (lsTouch c b.st).map (·.1) ++ syTouch c b.sy

/-- An entry still pending at a cycle. -/
def RangeEntry.live (e : RangeEntry) (t : Nat) : Bool :=
  match e.owner with
  | .tile r | .mx r => decide (t < r)
  | _ => true

/-- A 64-byte piece of the entry meets the touch and is not yet released. -/
def RangeEntry.meets (e : RangeEntry) (t : Touch) : Bool :=
  let lo := max e.lo t.1
  let hi := min e.hi t.2.1
  decide (lo < hi) && (e.freed.isEmpty ||
    (List.range ((hi - 1) / 64 - lo / 64 + 1)).any (fun k => !e.freed.contains (lo / 64 + k)))

/-- The hazard of R62 items 1 to 3 between an access and a pending entry. -/
def RangeEntry.blocks (e : RangeEntry) (t : Touch) : Bool := (e.write || t.2.2) && e.meets t

/-- Number of entries a bundle registers. -/
def bundleNeeds (c : Core) (b : Bundle) : Nat := (bundleTouches c b).length

/-! ## Hazards with a known end, and the others (R58, R62) -/

/-- The cycle from which every hazard with a known end is over. -/
def readyAt (c : Core) (b : Bundle) : Nat :=
  let mxOp := b.mx != .nop
  let veOp := b.ve != .nop
  let eng := max (if mxOp then c.mxFree else 0) (if veOp then c.veFree else 0)
  let chained (a : Nat) : Bool := match b.mx with
    | .mma _ _ => c.mxAcc == some a
    | _ => false
  let regs := b.ve.reads ++ b.ve.writes ++ (match b.mx.acc? with
    | some a => if chained a then [] else [.acc a]
    | none => [])
  let r := c.regs.foldl (fun m e => if regs.contains e.reg then max m e.ready else m) eng
  c.ranges.foldl (fun m e => match e.owner with
    | .tile t | .mx t => if (bundleTouches c b).any e.blocks then max m t else m
    | _ => m) r

/-- Packets of a core on a pair and not finished (R146). -/
def Pair.ofCore (p : Pair) (i : Nat) : Nat := (p.reqs.filter (fun q => q.core == i)).length

/-- Ring bytes reserved and not yet freed (Table 7.4, FILL). -/
def Pair.fill (p : Pair) : Nat := if p.mode = 1 then p.ring.foldl (fun n k => n + k.len) 0 else 0

/-- The pair a queue operation names: its port and QP. -/
def queuePair (c : Core) : LsOp → Option (Nat × Nat)
  | .go o f => if o.queue then some (dPort (c.streamDesc f), dQp (c.streamDesc f)) else none
  | _ => none

/-- The stalls a queue imposes (R146); `taken` is the pair on which an earlier slot of the bundle posts. -/
def queueStall (s : State) (x i : Nat) (c : Core) (taken : Option (Nat × Nat)) : LsOp → Bool
  | .go o f =>
    o.queue &&
    (let d := c.streamDesc f
     let p := (s.port (dPort d)).pair x (dQp d)
     decide (p.rqcap ≤ p.ofCore i + bnat (decide (taken = some (dPort d, dQp d)))) ||
     (decide (o = .qwrite) && decide (p.mode = 1) &&
      decide (p.rsize.toNat * 4096 - p.fill < streamCount f d * dElem d)))
  | _ => false

/-- A stall with no known end: a range held by a stream, EXPECT or ATTEND, a full scoreboard, a ninth
stream, a full queue, an engine lent to the sequencer, a busy sequencer (R56, R60 to R62, R146,
R173, R175). -/
def stalls (s : State) (x i : Nat) (c : Core) (b : Bundle) : Bool :=
  let held := c.ranges.filter (fun e => e.live c.cyc)
  held.any (fun e => (bundleTouches c b).any e.blocks) ||
  decide (32 < held.length + bundleNeeds c b) ||
  (b.ld != .nop && decide (8 ≤ c.ld.length)) || (b.st != .nop && decide (8 ≤ c.st.length)) ||
  queueStall s x i c none b.ld || queueStall s x i c (queuePair c b.ld) b.st ||
  (c.lent && (b.mx != .nop || b.ve != .nop)) ||
  (match b.sy with
   | .attend _ _ => s.panel.seqs.has (podOf i)
   | _ => false)

/-! ## Effects of the SC slot (R47, R50, R51) -/

/-- Value of a comparator's condition on a counter value (R50). -/
def Compar.holds (k : Compar) (v : BitVec 32) : Bool :=
  let l := k.limit.toNat
  match k.cond with
  | 0 => decide (v.toNat = l)
  | 1 => decide (v.toNat ≠ l)
  | 2 => decide (v.toNat < l)
  | _ => decide (l ≤ v.toNat)

def Core.kval (c : Core) (k : BitVec 2) : Bool :=
  let m := c.cmp k.toNat
  m.holds (c.ctr m.ctr.toNat)

/-- The SC slot: counters and bindings are written to `c`, operands are read in `c0`. -/
def scApply (c0 c : Core) : ScOp → Core
  | .setc k hi imm =>
    c.setCtr k.toNat (if hi then imm ++ (c0.ctr k.toNat).extractLsb' 0 16 else imm.zeroExtend 32)
  | .incc k d => c.setCtr k.toNat (c0.ctr k.toNat + d.signExtend 32)
  | .setk k n cond lim => { c with cmps := c.cmps.put k.toNat { ctr := n, cond := cond, limit := lim } }
  | .loop k _ d _ => c.setCtr k.toNat (c0.ctr k.toNat + d.signExtend 32)
  | .stop => { c with stopped := true }
  | .nop | .jmp _ | .br _ _ _ | .trap | .reserved => c

/-- The index of the next bundle (R47, Table 3.2). -/
def scNext (c : Core) : ScOp → BitVec 10
  | .jmp t => t
  | .br k sense t => if c.kval k = sense then t else c.bidx + 1
  | .loop n k d t => if (c.cmp k.toNat).holds (c.ctr n.toNat + d.signExtend 32) then c.bidx + 1 else t
  | _ => c.bidx + 1

/-! ## Effects of the MX slot (R57, R71 to R77) -/

/-- Decoded elements of vector v of an operand tile whose bytes are given (Tables 4.1, 4.2). -/
def tileVec (fmt : Nat) (t : List Byte) (v : Nat) : List Fp :=
  let by_ (k : Nat) : Nat := (t.getD k 0).toNat
  (List.range 32).map (fun k =>
    match fmt with
    | 0 => decElem 0 (by_ (64 * v + 2 * k) + 256 * by_ (64 * v + 2 * k + 1))
    | 1 => decElem 1 (by_ (32 * v + k))
    | 2 | 3 => scaleBy (by_ (512 + v)) (decElem fmt (by_ (32 * v + k)))
    | 4 | 5 =>
      let b := 6 * k
      let w := by_ (24 * v + b / 8) + 256 * (if b / 8 + 1 < 24 then by_ (24 * v + b / 8 + 1) else 0)
      scaleBy (by_ (384 + v)) (decElem fmt (w / 2 ^ (b % 8) % 64))
    | _ => scaleBy (by_ (256 + v)) (decElem 6 (by_ (16 * v + k / 2) / 16 ^ (k % 2) % 16)))

/-- One element of an MMA: the addends in exact form, rounded once (R71, R75, R76). -/
def dotElem (addend : Option (BitVec 32)) (a b : List Fp) : FRes :=
  exactSum ((addend.map dec32).toList ++ (a.zip b).map (fun p => p.1.mul p.2))

/-- The whole product on tiles of bytes: element (i, j) of the accumulator, and the flags. -/
def mmaTiles (fmt : Nat) (z : Bool) (acc : Nat → Nat → BitVec 32) (ta tb : List Byte) :
    List (Nat × FRes) :=
  let as := (List.range 16).map (tileVec fmt ta)
  let bs := (List.range 16).map (tileVec fmt tb)
  (lanes 16 16).map (fun p =>
    (16 * p.1 + p.2,
     dotElem (if z then none else some (acc p.1 p.2)) (as.getD p.1 []) (bs.getD p.2 [])))

def mxApply (c0 c : Core) : MxOp → Core
  | .mma z m =>
    let n := footprint m.fmt.toNat
    let ta := c0.bytes (hByte (c0.handle m.ah.toNat) + c0.tileOff m.aoff m.aidx m.fmt) n
    let tb := c0.bytes (hByte (c0.handle m.bh.toNat) + c0.tileOff m.boff m.bidx m.fmt) n
    let rs := mmaTiles m.fmt.toNat z (c0.accAt m.acc.toNat) ta tb
    let c1 := { c with acc := rs.foldl (fun t (r : Nat × FRes) => Cells.set 0 t (256 * m.acc.toNat + r.1) r.2.1) c.acc }
    c1.raise (rs.foldl (fun f (r : Nat × FRes) => f ||| r.2.2) 0)
  | .mzero a => { c with acc := Cells.drop c.acc (fun k => k / 256 == a.toNat) }
  | _ => c

/-! ## Effects of the VE slot (R59, R80 to R89) -/

/-- Operand B of a VA operation at a lane (R82). -/
def Core.opB (c : Core) (f : VaFields) (r l : Nat) : BitVec 32 :=
  if f.bmode = 1 then c.vlane f.vsel.toNat l
  else if f.bmode = 2 then c.vlane f.vsel.toNat r
  else c.lane f.srcb.toNat r l

/-- One lane of a VA operation other than VCVT to an MX format. -/
def vaLane (o : VaOp) (sub : Nat) (a b c : BitVec 32) : FRes :=
  match o with
  | .vadd => vAdd a b
  | .vmul => vMul a b
  | .vfma => vFma a b c
  | .vmax => vMax a b
  | .vmin => vMin a b
  | .vcmp => vCmp sub a b
  | .vsel => (if c ≠ 0 then a else b, 0)
  | .vexp2 => vExp2 a
  | .vrcp => vRcp a
  | .vrsq => vRsq a
  | .vcvt =>
    if sub = 0 then
      let x := toBf16 a
      let y := toBf16 b
      (BitVec.ofNat 32 (x.1 + 65536 * y.1), x.2 ||| y.2)
    else if sub = 1 then
      let x := toInt8 a
      let y := toInt8 b
      (BitVec.ofNat 32 (x.1 + 256 * y.1), x.2 ||| y.2)
    else bf16Lane a

/-- Results of a VA operation: lane address and value, and flags. -/
def vaResults (c : Core) (o : VaOp) (f : VaFields) : List (Nat × BitVec 32) × BitVec 5 :=
  let sub := f.sub.toNat
  let d := f.dst.toNat
  if o = .vcvt ∧ 2 ≤ sub ∧ sub ≤ 6 then
    (List.range c.lenRow).foldl (fun t r =>
      let row := stageRow sub ((List.range c.lenCol).map (c.lane f.srca.toNat r))
        ((List.range c.lenCol).map (c.opB f r))
      (t.1 ++ row.1.zipIdx.map (fun p => (256 * d + 16 * r + p.2, p.1)), t.2 ||| row.2)) ([], 0)
  else
    let rs := (lanes c.lenRow c.lenCol).map (fun p =>
      (256 * d + 16 * p.1 + p.2,
       vaLane o sub (c.lane f.srca.toNat p.1 p.2) (c.opB f p.1 p.2) (c.lane f.srcc.toNat p.1 p.2)))
    (rs.map (fun r => (r.1, r.2.1)), rs.foldl (fun g r => g ||| r.2.2) 0)

def Core.putLanes (c : Core) (ls : List (Nat × BitVec 32)) : Core :=
  { c with tile := ls.foldl (fun t p => Cells.set 0 t p.1 p.2) c.tile }
def Core.putVlanes (c : Core) (v : Nat) (ls : List (Nat × BitVec 32)) : Core :=
  { c with vec := ls.foldl (fun t p => Cells.set 0 t (16 * v + p.1) p.2) c.vec }

def veApply (c0 c : Core) : VeOp → Core
  | .vsetlen r l => { c with lenRow := r.toNat, lenCol := l.toNat }
  | .vldt f =>
    let a := hByte (c0.handle f.h.toNat) + c0.vmOff f
    c.putLanes ((lanes c0.lenRow c0.lenCol).map (fun p =>
      (256 * f.t.toNat + 16 * p.1 + p.2, c0.word32 (a + 64 * p.1 + 4 * p.2))))
  | .vstt f =>
    let a := hByte (c0.handle f.h.toNat) + c0.vmOff f
    (lanes c0.lenRow c0.lenCol).foldl (fun k p =>
      k.writeBytes (a + 64 * p.1 + 4 * p.2) (leBytes 4 (c0.lane f.t.toNat p.1 p.2).toNat)) c
  | .vacc t a clr =>
    let c1 := c.putLanes ((lanes 16 16).map (fun p =>
      (256 * t.toNat + 16 * p.1 + p.2, c0.accAt a.toNat p.1 p.2)))
    if clr then { c1 with acc := Cells.drop c1.acc (fun k => k / 256 == a.toNat) } else c1
  | .vmovv t v sub =>
    if sub = 0 then c.putVlanes v.toNat ((List.range c0.lenCol).map (fun l => (l, c0.lane t.toNat 0 l)))
    else c.putVlanes v.toNat ((List.range c0.lenRow).map (fun r => (r, c0.lane t.toNat r 0)))
  | .vbct t v sub =>
    c.putLanes ((lanes c0.lenRow c0.lenCol).map (fun p =>
      (256 * t.toNat + 16 * p.1 + p.2, c0.vlane v.toNat (if sub = 0 then p.2 else p.1))))
  | .va o f =>
    let r := vaResults c0 o f
    (c.putLanes r.1).raise r.2
  | .vred col t v sub =>
    let rs := if col then
        (List.range c0.lenCol).map (fun l =>
          (l, reduceLanes sub.toNat ((List.range c0.lenRow).map (fun r => c0.lane t.toNat r l))))
      else
        (List.range c0.lenRow).map (fun r =>
          (r, reduceLanes sub.toNat ((List.range c0.lenCol).map (c0.lane t.toNat r))))
    (c.putVlanes v.toNat (rs.map (fun r => (r.1, r.2.1)))).raise (rs.foldl (fun g r => g ||| r.2.2) 0)
  | .vsmax t v w =>
    (List.range c0.lenRow).foldl (fun k r =>
      let o := smaxRow (c0.vlane v.toNat r) ((List.range c0.lenCol).map (c0.lane t.toNat r))
      (((k.setVlane v.toNat r o.1).setVlane w.toNat r o.2.1).putLanes
        (o.2.2.1.zipIdx.map (fun p => (256 * t.toNat + 16 * r + p.2, p.1)))).raise o.2.2.2) c
  | .vssum t v w =>
    (List.range c0.lenRow).foldl (fun k r =>
      let o := ssumRow (c0.vlane v.toNat r) (c0.vlane w.toNat r)
        ((List.range c0.lenCol).map (c0.lane t.toNat r))
      ((k.setVlane v.toNat r o.1).setVlane w.toNat r o.2.1).raise o.2.2) c
  | _ => c

/-! ## Effects of the LD, ST and SY slots -/

/-- A new entry of the range scoreboard, rounded outward to 64 bytes (R61). -/
def entry (t : Touch) (o : RangeOwner) : RangeEntry :=
  { lo := t.1 / 64 * 64, hi := (t.2.1 + 63) / 64 * 64, write := t.2.2, owner := o }

/-- The record of a stream as it issues (R60, R102, R104). -/
def mkStream (c0 : Core) (id : Nat) (o : StreamOp) (f : StreamFields) : StreamRec :=
  let d := c0.streamDesc f
  { id := id, op := o, desc := d, dh := f.dh.toNat, di := f.di.toNat, bidx := c0.bidx.toNat,
    iter := BitVec.ofNat 32 (c0.idxVal f.idx), count := streamCount f d,
    srcH := c0.handle (dSrc d).h, dstH := c0.handle (dDst d).h,
    srcIH := c0.handle (dSrc d).ih, dstIH := c0.handle (dDst d).ih }

/-- A stream takes its number, its place in its slot and its ranges. -/
def lsApply (c0 c : Core) (isSt : Bool) : LsOp → Core
  | .go o f =>
    let r := mkStream c0 c.nextId o f
    let es := (streamTouch c0 o f).map (fun t => entry t.1 (.stream c.nextId t.2))
    { c with nextId := c.nextId + 1, ranges := c.ranges ++ es,
             ld := if isSt then c.ld else c.ld ++ [r], st := if isSt then c.st ++ [r] else c.st }
  | _ => c

/-- Ring bytes a channel-mode QWRITE reserves: contiguous modulo the ring (R147). -/
def Pair.reserve (p : Pair) (num n : Nat) : Pair :=
  if p.mode = 1 ∧ p.rsize ≠ 0 then
    { p with ring := p.ring ++ [{ num := num, at_ := p.wptr, len := n, cut := p.cut.toNat }],
             wptr := (p.wptr + n) % (p.rsize.toNat * 4096) }
  else p

/-- The empty item of a pair: not-valid or idle (R148). -/
def Pair.item (p : Pair) : BitVec 32 := if p.empty then p.idle else 0xFFFFFFFF

/-- A QREAD or QWRITE is posted to its pair (R140, R144, R147), and the port takes it with the LV fields in force
(R143; log 96). -/
def postPacket (x i : Nat) (r : StreamRec) (s : State) : State :=
  let p := dPort r.desc
  let q := dQp r.desc
  s.modPort p (fun k =>
    let pr := k.pair x q
    let pk : QPacket := { num := k.nextNum, core := i, read := decide (r.op = .qread), s := r, item := pr.item,
                          ringAt := if r.op = .qwrite ∧ pr.mode = 1 then some pr.wptr else none }
    let pr1 := { pr with reqs := pr.reqs ++ [pk] }
    let pr2 := if r.op = .qwrite then pr1.reserve k.nextNum (r.count * dElem r.desc) else pr1
    { (k.setPair x q pr2) with nextNum := k.nextNum + 1 })

/-- The packet of a QREAD or QWRITE is injected, unless the core reaches no entry of the port (R119, R141). -/
def sendPacket (x i : Nat) (r : StreamRec) (s : State) : State :=
  let p := dPort r.desc
  match s.portEntry i p with
  | some _ => postPacket x i r s
  | none =>
    let a := (portEntries s.mg.startMap.1 p).headD (0, 0)
    s.ctxFault x 0x0501 (srcCore i) (1024 * a.1 + a.2) 0

/-- What the LD or ST slot changes outside its core. -/
def lsPost (x i : Nat) (c0 : Core) (id : Nat) (op : LsOp) (s : State) : State :=
  match op with
  | .go o f =>
    if o.queue then sendPacket x i (mkStream c0 id o f) s
    else if o = .rread then s.sendRead x i (mkStream c0 id o f)
    else s
  | _ => s

def takeOne (t : Table Nat) (k : Nat) : Table Nat := t.put k (t.get k 0 - 1)

/-- What a TICK latches and clears as its bundle issues (R63, R64, R90): a frame that the last publication
holds is not published again, but for the slip met since. The flags that the bundle itself raises belong to
the frame it begins (DESIGN CHOICE, log 93). -/
def tickLatch (c : Core) : SyOp → Core
  | .tick =>
    { c with latSlip := c.slip, latIdle := c.idle, latFlags := c.flags, slip := 0, idle := 0, flags := 0, counted := none,
             latSlips := c.latSlips ++ (match c.counted with
               | none => [c.slip]
               | some n => if c.slip = n then [] else [c.slip - n]),
             newFlags := if c.counted.isSome then c.newFlags else c.newFlags ||| c.flags }
  | _ => c

/-- The SY slot on the core (R53 to R56). -/
def syApply (c0 c : Core) : SyOp → Core
  | .tick =>
    { c with pendTicks := c.pendTicks - 1, waitTick := false }
  | .waitcy n => { c with earliest := c0.cyc + n.toNat + 1 }
  | .qwait p q => { c with qnotes := takeOne c.qnotes (256 * p.toNat + q.toNat) }
  | .qlev _ _ _ _ _ => { c with watch := none }
  | .expect h o n t =>
    { c with nextId := c.nextId + 1,
             ranges := c.ranges ++ [entry (hTouch c0 h.toNat (256 * o.toNat) (256 * n.toNat) true) (.expect c.nextId t)] }
  | .mwait t => { c with unclaimed := takeOne c.unclaimed t.toNat }
  | .attend h o =>
    { c with nextId := c.nextId + 1,
             ranges := c.ranges ++ (syTouch c0 (.attend h o)).zipIdx.map (fun t => entry t.1 (.attend c.nextId t.2)) }
  | _ => c

/-- ATTEND gives its descriptor to the pod's sequencer (R171, R173). -/
def syPost (x i : Nat) (c0 : Core) (id : Nat) (op : SyOp) (s : State) : State :=
  match op with
  | .attend h o =>
    let d := attendDesc c0 h o
    let job : AttendJob :=
      { core := i, ctx := x, id := id, desc := d,
        qaddr := hByte (c0.handle (aQh d)) + aQoff d, oaddr := hByte (c0.handle (aOh d)) + aOoff d,
        aaddr := if aAppend d then hByte (c0.handle (aAh d)) + aAoff d else 0 }
    { s with panel := { s.panel with seqs := s.panel.seqs.put (podOf i) job } }
  | _ => s

/-! ## Cycles of a core -/

/-- One or more cycles pass at a core: its clock and its rotation phase (R94). -/
def Core.pass (c : Core) (n : Nat) : Core := { c with cyc := c.cyc + n, phase := (c.phase + n) % 8 }

/-- Slip cycles (R63): the frame counter saturates, the total does not. -/
def Core.slipBy (c : Core) (n : Nat) : Core :=
  if n = 0 then c
  else { c.pass n with slip := satAdd c.slip n, slipTotal := c.slipTotal + BitVec.ofNat 64 n }

/-- A slip cycle of a bundle that has passed its tests (R62, R68). -/
def Core.stallOne (c : Core) (b : Bundle) : Core := { c.slipBy 1 with tested := some b }

/-- A wait cycle; those at TICK are counted idle (R63). What the idle counter does past 2^32 - 1 is not stated: it
wraps (DESIGN CHOICE, log 94). -/
def Core.waitOne (c : Core) (b : Bundle) : Core :=
  let c := c.pass 1
  if b.sy = .tick then { c with waitTick := true, idle := c.idle + 1 } else c

/-- The rotation wait of a tile move issued now (R99). -/
def Core.tileTurn (c : Core) : Nat :=
  let t := c.cyc + (3 + 8 - c.phase) % 8
  if c.tileFree ≤ t then t else t + (c.tileFree - t + 7) / 8 * 8

/-- The operand fetch of an MMA issued now (R98). -/
def mxFetch (c : Core) (m : MxFields) (ready accReady : Nat) : MxFetch :=
  let line (h : BitVec 6) (o : BitVec 10) (x : BitVec 4) : Nat := (hByte (c.handle h.toNat) + c.tileOff o x m.fmt) / 16
  { first := c.cyc + (2 + 8 - c.phase) % 8, lineA := line m.ah m.aoff m.aidx, lineB := line m.bh m.boff m.bidx,
    lines := footprint m.fmt.toNat / 16, ready := ready, acc := m.acc.toNat, accReady := accReady }

/-- Turns of the fetch: in each it reads every needed line whose bank is free (R92, R98). -/
def MxFetch.turns (f : MxFetch) : Nat :=
  let inA (l : Nat) : Bool := decide (f.lineA ≤ l) && decide (l < f.lineA + f.lines)
  let ls := (List.range f.lines).map (f.lineA + ·) ++ ((List.range f.lines).map (f.lineB + ·)).filter (fun l => !inA l)
  (List.range 16).foldl (fun m b => max m (ls.countP (fun l => l % 16 == b))) 0

/-- Turns made before cycle t. -/
def MxFetch.made (f : MxFetch) (t : Nat) : Nat := f.past + (t + 7 - f.first) / 8

/-- A restart at cycle t puts off the turns that remain: the cycles by which the last one comes later, and the
fetch as it goes on (R96, R98). -/
def MxFetch.restart (f : MxFetch) (t : Nat) : Nat × MxFetch :=
  let n := f.turns
  let k := f.made t
  if n ≤ k then (0, f)
  else
    let g := (t + 2 + 8 * (n - k - 1)) - (f.first + 8 * (n - f.past - 1))
    (g, { f with first := t + 2, past := k, ready := f.ready + g, accReady := f.accReady + g })

/-- A tick restarts the phase (R94): the tile moves that wait take the first turns after it (R96, R99), and an
operand fetch under way ends later, with its occupancy and latency (R98). -/
def Core.restart (c : Core) : Core :=
  let t := c.cyc
  let waits := (c.moves.filter (fun m => decide (t ≤ m.turn))).zipIdx.map (fun p => (p.1, t + 3 + 8 * p.2))
  let f := c.fetch.map (fun f => f.restart t)
  let g := (f.map (·.1)).getD 0
  let moved (r : Nat) : Nat := ((waits.find? (fun p => p.1.ready == r)).map (fun p => r + p.2 - p.1.turn)).getD r
  { c with
    phase := 0,
    moves := waits.map (fun p => { p.1 with turn := p.2, ready := p.1.ready + p.2 - p.1.turn }),
    tileFree := if waits.isEmpty then min c.tileFree t else t + 3 + 8 * waits.length,
    mxFree := c.mxFree + g,
    fetch := f.map (·.2),
    regs := c.regs.map (fun e => { e with ready := match e.reg, c.fetch with
      | .t n, _ => if waits.any (fun p => p.1.reg == some n) then moved e.ready else e.ready
      | .acc a, some f => if a = f.acc ∧ e.ready = f.accReady then e.ready + g else e.ready
      | _, _ => e.ready }),
    ranges := c.ranges.map (fun e => { e with owner := match e.owner with
      | .tile r => .tile (moved r)
      | .mx r => .mx (r + g)
      | o => o }) }

/-- The tile register a VLDT fills. -/
def veTileReg : VeOp → Option Nat
  | .vldt f => some f.t.toNat
  | _ => none

/-- What the scoreboards and engines hold once the bundle has issued (R58, R61, R66, R67, R99). -/
def timing (lattab : Nat) (c0 c : Core) (b : Bundle) : Core :=
  let t := c0.cyc
  let tileMove := match b.ve with
    | .vldt _ | .vstt _ => true
    | _ => false
  let wait := if tileMove then c0.tileTurn - t else 0
  let vr := t + veLat lattab c0.lenRow b.ve + wait
  let mr := t + mxLat lattab b.mx
  let regs := c.regs.filter (fun e => decide (t < e.ready)) ++
    b.ve.writes.map (fun r => { reg := r, ready := vr }) ++
    (match b.mx.acc? with | some a => [{ reg := .acc a, ready := mr }] | none => [])
  let ranges := c.ranges.filter (fun e => e.live t) ++
    (veTouch c0 b.ve).map (fun x => entry x (.tile vr)) ++
    (mxTouch c0 b.mx).map (fun x => entry x (.mx (t + mxOcc b.mx)))
  let clr := match b.ve with
    | .vacc _ a true => some a.toNat
    | _ => none
  { c with
    regs := regs, ranges := ranges,
    veFree := if b.ve = .nop then c.veFree else t + veOcc c0.lenRow b.ve,
    mxFree := if b.mx = .nop then c.mxFree else t + mxOcc b.mx,
    mxAcc := match b.mx.acc? with
      | some a => some a
      | none => if clr = c.mxAcc then none else c.mxAcc,
    tileFree := if tileMove then c0.tileTurn + 8 else c.tileFree,
    moves := if tileMove then c.moves.filter (fun m => decide (t ≤ m.turn)) ++ [{ turn := c0.tileTurn, ready := vr, reg := veTileReg b.ve }] else c.moves,
    fetch := match b.mx with
      | .mma _ m => some (mxFetch c0 m (t + mxOcc b.mx) mr)
      | _ => c.fetch }

/-- The watch of a QLEV is sent to its port once (R145). -/
def sendWatch (c : Core) : SyOp → Core
  | .qlev p q dir ge n =>
    if c.watch.isNone then
      { c with watch := some { port := p.toNat, qp := q.toNat, dir := dir, geLe := ge, n := n.toNat } }
    else c
  | _ => c

/-- The first word with a double-bit error in bytes lo to hi of a store whose words are numbered from
`base`, as a byte address of that store (R112, log 14). -/
def Core.badWord (c : Core) (base lo hi : Nat) : Option Nat :=
  (c.eccDouble.find? (fun w => decide (base ≤ w) && decide (lo < 8 * (w - base) + 8) && decide (8 * (w - base) < hi))).map
    (fun w => 8 * (w - base))

/-- The descriptor a stream operation fetches lies in a bad word (R93, R112). -/
def descHit (c : Core) : LsOp → Option (Nat × Nat)
  | .go _ f =>
    let a := hByte (c.handle f.dh.toNat) + 64 * f.di.toNat
    (c.badWord 28672 a (a + 64)).map (fun e => (2, e))
  | _ => none

/-- Bytes of the data scratchpad that the bundle's own slots read as it issues: what a stream or an ATTEND reads
later is met there. -/
def engineReads (c : Core) (b : Bundle) : List Touch := (veTouch c b.ve ++ mxTouch c b.mx).filter (fun t => !t.2.2)

/-- The runs of the data scratchpad that a VSTT writes: the lanes inside LEN (R80, R112). -/
def vsttRuns (c : Core) : VeOp → List (Nat × Nat)
  | .vstt f => (List.range c.lenRow).map (fun r => (hByte (c.handle f.h.toNat) + c.vmOff f + 64 * r, 4 * c.lenCol))
  | _ => []

/-- An uncorrectable error in the fetched bundle, in a descriptor it fetches, in bytes it reads, or in a word that
VSTT writes in part: the store and the byte (R112, log 14). -/
def eccHit (c : Core) (b : Bundle) : Option (Nat × Nat) :=
  let n := 32 * c.bidx.toNat
  let read := (engineReads c b).filterMap (fun t => (c.badWord 0 t.1 t.2.1).map (fun e => (0, e)))
  let merge := (vsttRuns c b.ve).filterMap (fun r => (c.eccMerge r.1 r.2).map (fun e => (0, e)))
  ((c.badWord 24576 n (n + 32)).map (fun e => (1, e))).or ((descHit c b.ld).or ((descHit c b.st).or (read ++ merge).head?))

/-- Bytes of the two other stores that the bundle reads: itself and its descriptors, as words numbered over the
three stores. -/
def storeReads (c : Core) (b : Bundle) : List (Nat × Nat) :=
  let desc (o : LsOp) : List (Nat × Nat) := match o with
    | .go _ f => [(28672 * 8 + hByte (c.handle f.dh.toNat) + 64 * f.di.toNat, 64)]
    | _ => []
  (24576 * 8 + 32 * c.bidx.toNat, 32) :: (desc b.ld ++ desc b.st)

/-- Single-bit errors in what the issuing bundle reads are corrected and counted, and a word that VSTT writes whole
holds an error no longer (R112). -/
def Core.eccAfter (c c0 : Core) (b : Bundle) : Core :=
  if c.eccSingle.isEmpty && c.eccDouble.isEmpty then c
  else
    let c1 := (storeReads c0 b ++ (engineReads c0 b).map (fun t => (t.1, t.2.1 - t.1))).foldl (fun k r => k.correct r.1 r.2) c
    (vsttRuns c0 b.ve).foldl (fun k r => k.overwritten r.1 r.2) c1

/-- The bundle issues: every slot reads the state before it (R47, R48). -/
def issueNow (s : State) (x i : Nat) (c0 : Core) (b : Bundle) : State :=
  let c1 := timing s.ident.lattab.toNat c0 c0 b
  let c2 := scApply c0 (tickLatch c1 b.sy) b.sc
  let c3 := veApply c0 c2 b.ve
  let c4 := mxApply c0 c3 b.mx
  let c5 := lsApply c0 c4 false b.ld
  let c6 := lsApply c0 c5 true b.st
  let c7 := syApply c0 c6 b.sy
  let c8 := { ((c7.eccAfter c0 b).pass 1) with bidx := scNext c0 b.sc, tested := none }
  let s1 := s.setCore i c8
  let s2 := lsPost x i c0 c4.nextId b.ld s1
  let s3 := lsPost x i c0 c5.nextId b.st s2
  syPost x i c0 c6.nextId b.sy s3

/-- The faults a bundle is still to be tested for: the tests are made once, in the first cycle in which its own
waits are over (R68). -/
def bundleFault (s : State) (x i : Nat) (c : Core) (b : Bundle) : Option IFault :=
  if c.tested = some b then none else issueFault s x i c b

/-- Core x of a live context tries to issue a bundle. `patient`: hazards and delays with a known end
are waited out at once; otherwise one cycle passes (log 5). -/
def tryIssue (patient : Bool) (i : Nat) (b : Bundle) (s : State) : State :=
  if !s.coreLive i then s
  else
    let x := (s.core i).owner.getD 0
    let c := sendWatch (s.core i) b.sy
    if !syReady s x i c b.sy then s.setCore i (c.waitOne b)
    else if !patient && decide (c.cyc < c.earliest) then s.setCore i (c.pass 1)
    else
      let c := c.pass (c.earliest - c.cyc)
      match bundleFault s x i c b with
      | some f => (s.setCore i c).coreFault i f.1 f.2.1 f.2.2
      | none =>
        match eccHit c b with
        | some e => (s.setCore i c).dataFault i (0x0207, e.1, e.2)
        | none =>
          let w := readyAt c b - c.cyc
          if !patient && decide (0 < w) then s.setCore i (c.stallOne b)
          else
            let c := c.slipBy w
            if stalls s x i c b then s.setCore i (c.stallOne b)
            else issueNow s x i c b

/-- A slot command: core x issues the bundle, with its own waits (log 5, log 7). -/
def runBundle (x : CoreId) (b : Bundle) (s : State) : Out :=
  atCore x s (fun i t => tryIssue true i b t)

end Sys2Proof.Machine
end

