-- ==== Sys2Proof/Machine/Stack.lean ====
section
/-! DEFINITION. A stack port's windows, owned regions and stack bytes with their errors (R138, R140, R155, R157, R164 to
R166, R317). -/
namespace Sys2Proof.Machine

open Sys2Proof

/-! ## Windows and owned regions (R138, R164) -/

/-- Bytes of a 64 MiB block. -/
def blockBytes : Nat := 2 ^ 26

/-- A run of a context's window: its stack address, or none outside the window. -/
def StackPort.addr? (p : StackPort) (x : Nat) (off : Int) (n : Nat) : Option Nat :=
  match p.wins.find? x with
  | some w => if 0 ≤ off ∧ off + n ≤ (w.blocks * blockBytes : Nat) then some (w.base * blockBytes + off.toNat) else none
  | none => none

/-- Size of one copy of a page table (R164). -/
def Region.cs (r : Region) : Nat := (8 * (r.layers + r.maxent) + 63) / 64 * 64
def Region.bytes (r : Region) : Nat := 64 + 2 * r.cs

/-- A run of a context's window meets one of its owned regions (R166). -/
def StackPort.owned (p : StackPort) (x : Nat) (off n : Nat) : Bool :=
  p.regions.any (fun r => decide (r.ctx = x) && decide (off < r.base + r.bytes) && decide (r.base < off + n))

/-! ## Stack bytes and their errors (R155, R317) -/

def StackPort.bytes (p : StackPort) (a n : Nat) : List Byte := Cells.read 0 p.mem a n
def StackPort.write (p : StackPort) (a : Nat) (bs : List Byte) : StackPort := { p with mem := Cells.write 0 p.mem a bs }

/-- First word with an uncorrectable error in a run. -/
def StackPort.eccAt (p : StackPort) (a n : Nat) : Option Nat :=
  (p.eccDouble.find? (fun w => decide (a < 8 * w + 8) && decide (8 * w < a + n))).map (8 * ·)

/-- A word that cannot be read in an atom that a write covers only in part: such a write reads the atom first
(R140, R155). -/
def StackPort.eccMerge (p : StackPort) (a n : Nat) : Option Nat :=
  (p.eccDouble.find? (fun w => decide (a < 64 * (w / 8) + 64) && decide (64 * (w / 8) < a + n) &&
    !(decide (a ≤ 64 * (w / 8)) && decide (64 * (w / 8) + 64 ≤ a + n)))).map (8 * ·)

/-- Correctable errors in a run are corrected, counted and written back. -/
def StackPort.correct (p : StackPort) (a n : Nat) : StackPort :=
  let hit := p.eccSingle.filter (fun w => decide (a < 8 * w + 8) && decide (8 * w < a + n))
  if hit.isEmpty then p
  else { p with eccSingle := p.eccSingle.filter (fun w => !hit.contains w), ce := satAdd p.ce hit.length }

/-- Errors after a write of a run: atoms written whole hold none, and those written in part are read first, their
correctable errors corrected and counted (R155). -/
def StackPort.overwritten (p : StackPort) (a n : Nat) : StackPort :=
  if p.eccSingle.isEmpty && p.eccDouble.isEmpty then p
  else
    let whole (w : Nat) : Bool := decide (a ≤ 64 * (w / 8)) && decide (64 * (w / 8) + 64 ≤ a + n)
    ({ p with eccSingle := p.eccSingle.filter (fun w => !whole w), eccDouble := p.eccDouble.filter (fun w => !whole w) }).correct
      (a / 64 * 64) ((a + n + 63) / 64 * 64 - a / 64 * 64)

/-- Write a run and settle the errors of its atoms. -/
def StackPort.store (p : StackPort) (a : Nat) (bs : List Byte) : StackPort := (p.write a bs).overwritten a bs.length

/-- An uncorrectable error is counted; a tier-A block with two in a module start becomes bad (R317). -/
def StackPort.countUe (p : StackPort) (tierA : Bool) (a : Nat) : StackPort :=
  let b := a / blockBytes
  let n := p.ueBlocks.get b 0 + 1
  { p with ue := satAdd p.ue 1, ueBlocks := p.ueBlocks.put b n,
           bad := if tierA && decide (2 ≤ n) && !p.bad.contains b then p.bad ++ [b] else p.bad }

/-- The port counts an uncorrectable error at byte a; a block that becomes bad is logged (R317, R390). -/
def State.portUe (s : State) (p a : Nat) : State :=
  let k := s.port p
  let k1 := k.countUe (decide (p < 24)) a
  let s1 := s.setPort p k1
  if k1.bad.length = k.bad.length then s1 else s1.logFault 0x0A0A 3 noCtx (srcPort p) (a / blockBytes) 0

/-- ARG0 and ARG1 of ECC_UNCORRECTABLE in a stack (Table 14.2). -/
def stackEccArg (a : Nat) : Nat × Nat := (3 + 256 * (a / 2 ^ 32 % 256), a % 2 ^ 32)

/-- A port leaves self-refresh for an access, and notes the access (R157). -/
def StackPort.touch (p : StackPort) (now : Nat) : StackPort := 
  { p with selfRef := false, woken := p.woken || p.selfRef, idleSince := now }

/-! ## Bytes of a window (R140, R155, R282) -/

/-- Write bytes at a window offset of a context; nothing where the window does not hold them. -/
def State.windowWrite (s : State) (x p off : Nat) (bs : List Byte) : State :=
  match (s.port p).addr? x (off : Nat) bs.length with
  | some a =>
    match (s.port p).eccMerge a bs.length with
    | some w => let g := stackEccArg w; (s.portUe p w).ctxFault x 0x0207 (srcPort p) g.1 g.2
    | none => s.modPort p (fun k => (k.touch s.tcb.now).store a bs)
  | none => s

/-- A read of a run of a window: the port leaves self-refresh, and its correctable errors are corrected (R155, R157). -/
def State.windowUsed (s : State) (x p off n : Nat) : State :=
  match (s.port p).addr? x (off : Nat) n with
  | some a => s.modPort p (fun k => (k.touch s.tcb.now).correct a n)
  | none => s

/-- Read bytes at a window offset, or the state after the fault of an uncorrectable error. -/
def State.windowRead (s : State) (x p off n : Nat) : List Byte ⊕ State :=
  match (s.port p).addr? x (off : Nat) n with
  | some a =>
    match (s.port p).eccAt a n with
    | some w => let g := stackEccArg w; .inr (((s.windowUsed x p off n).portUe p w).ctxFault x 0x0207 (srcPort p) g.1 g.2)
    | none => .inl ((s.port p).bytes a n)
  | none => .inl []

/-! ## Updates of a pair -/

def State.setPair (s : State) (p x q : Nat) (pr : Pair) : State := s.modPort p (fun k => k.setPair x q pr)

end Sys2Proof.Machine
end

