-- ==== Sys2Proof/Machine/Walk.lean ====
section
/-! DEFINITION. The walk of an attention sequencer: the ring and what is visible, acceptance and its checks, and the
packets by which it reads its region, writes an append and reads its pages (R160 to R179, R184). -/
namespace Sys2Proof.Machine

open Sys2Proof

/-! ## Packets of a sequencer (R163, R177) -/

/-- A sequencer posts a packet on pair q of a port (R177): a read, or a write of bytes. -/
def State.postAtt (s : State) (x p q : Nat) (w : AttAcc) (bs : List Byte) : State :=
  s.modPort p (fun k =>
    let pr := k.pair x q
    let pk : QPacket := { num := k.nextNum, core := 640 * 480, read := decide (w.kind ≠ .append), att := some w, data := bs,
                          item := pr.item }
    { (k.setPair x q { pr with reqs := pr.reqs ++ [pk] }) with nextNum := k.nextNum + 1 })

/-- Bytes of a block of the ring (R161). -/
def ringBlockBytes (d : List (BitVec 32)) : Nat := aG d * (aHead d / 8) * kvTile (aFmt d)
/-- Bytes of a head part (R161). -/
def headBytes (d : List (BitVec 32)) : Nat := aHead d / 8 * kvTile (aFmt d)

/-- Fields of a page entry (Table 8.5). -/
def peValid (e : BitVec 64) : Bool := decide (fld e.toNat 63 63 = 1)
def peLog2 (e : BitVec 64) : Nat := fld e.toNat 62 58
def peGen (e : BitVec 64) : Nat := fld e.toNat 57 50
def pePort (e : BitVec 64) : Nat := fld e.toNat 49 45
def peBase (e : BitVec 64) : Nat := 4096 * fld e.toNat 44 22

/-- The entry that ring block b lies in and its place in the page: blocks fill pages in order, and one lies at byte 0 of
a page too small to hold it, which is then invalid (R163, R176). -/
def blockIn (bb : Nat) : List (BitVec 64) → Nat → Nat → Option (Nat × BitVec 64 × Nat)
  | [], _, _ => none
  | e :: es, k, b =>
    let cap := max 1 (2 ^ peLog2 e / bb)
    if b < cap then some (k, e, b) else blockIn bb es (k + 1) (b - cap)

/-- Port and window offset of head part `head` of ring block b. -/
def AttendJob.place (j : AttendJob) (b head : Nat) : Option (Nat × Nat) :=
  (blockIn (ringBlockBytes j.desc) j.entries 0 b).map (fun r =>
    (pePort r.2.1, peBase r.2.1 + r.2.2 * ringBlockBytes j.desc + head * headBytes j.desc))

/-- Members of the team, and of a subteam (R174). -/
def AttendJob.nt (j : AttendJob) : Nat := aTw j.desc * aTh j.desc
def AttendJob.ns (j : AttendJob) : Nat := j.nt / aHk j.desc

/-- The sequencer posts the next page read of a member, if it has one (R177). -/
def State.nextPage (s : State) (pod m : Nat) : State :=
  match s.panel.seqs.find? pod with
  | none => s
  | some j =>
    match j.todo.get m [] with
    | [] => s
    | b :: bs =>
      let j1 := { j with todo := j.todo.put m bs, flying := j.flying.put m (j.flying.get m 0 + 1) }
      let s1 := { s with panel := { s.panel with seqs := s.panel.seqs.put pod j1 } }
      match j.place b (aH0 j.desc + m / j.ns) with
      | some (p, o) =>
        s1.postAtt j.ctx p (aQp j.desc)
          { pod := pod, kind := .page m b, first := ((s.port p).addr? j.ctx o 1).getD 0, len := headBytes j.desc } []
      | none => s1

/-- Take one from the walk count of an ATTEND (R167). -/
def State.endWalk (s : State) (j : AttendJob) : State :=
  s.modPort (aPort j.desc) (fun k => { k with regions := k.regions.map (fun r =>
    if r.ctx = j.ctx ∧ r.base = aBase j.desc then
      if j.copy = 0 then { r with walks0 := r.walks0 - 1 } else { r with walks1 := r.walks1 - 1 }
    else r) })

/-- Change the ATTEND of a pod. -/
def State.setSeq (s : State) (pod : Nat) (j : AttendJob) : State :=
  { s with panel := { s.panel with seqs := s.panel.seqs.put pod j } }

/-- Nothing of the walk is left to be posted or served. -/
def AttendJob.walkOver (j : AttendJob) : Bool :=
  j.todo.all (fun e => e.2.isEmpty) && j.flying.all (fun e => e.2 == 0) && decide (j.appends = 0)

/-- The walk's last page read and append write have been served: its count is returned (R167). -/
def State.closeWalk (s : State) (pod : Nat) : State :=
  match s.panel.seqs.find? pod with
  | none => s
  | some k => if k.walking && k.walkOver then (s.setSeq pod { k with walking := false }).endWalk k else s

/-- The context of an ATTEND lets its sequencer go on (R248, R306). -/
def State.walkGoes (s : State) (j : AttendJob) : Bool :=
  decide ((s.ctx j.ctx).st = .running) || decide ((s.ctx j.ctx).st = .quiesced)

/-- A page read of a member has been served with these bytes; the last one ends the walk (R167, R177, R183). -/
def State.pageServed (s : State) (pod m b : Nat) (bs : List Byte) : State :=
  match s.panel.seqs.find? pod with
  | none => s
  | some j =>
    let s1 := s.setSeq pod { j with flying := j.flying.put m (j.flying.get m 0 - 1), pages := j.pages.put (4096 * m + b) bs }
    (if s.walkGoes j then s1.nextPage pod m else s1).closeWalk pod

/-- The first page reads of every member (R177). -/
def State.startPages (s : State) (pod : Nat) : State :=
  match s.panel.seqs.find? pod with
  | none => s
  | some j => ((List.range j.nt).foldl (fun t m => (t.nextPage pod m).nextPage pod m) s).closeWalk pod

/-- An append write has been served; the page reads follow the last one (R178). -/
def State.appendServed (s : State) (pod : Nat) : State :=
  match s.panel.seqs.find? pod with
  | none => s
  | some j =>
    let s1 := s.setSeq pod { j with appends := j.appends - 1 }
    if j.appends = 1 ∧ s.walkGoes j then s1.startPages pod else s1

/-! ### The region of an ATTEND (R164, R167, R176) -/

def StackPort.word64 (p : StackPort) (a : Nat) : BitVec 64 := BitVec.ofNat 64 (leNat (p.bytes a 8))

/-- The owned region at a base of a context's window. -/
def StackPort.region? (p : StackPort) (x base : Nat) : Option Region :=
  p.regions.find? (fun r => decide (r.ctx = x) && decide (r.base = base))

/-- Fields of a directory entry (Table 8.4). -/
def deEntries (e : BitVec 64) : Nat := fld e.toNat 39 28
def deFirst (e : BitVec 64) : Nat := fld e.toNat 27 12
def deRing (e : BitVec 64) : Nat := fld e.toNat 11 0

/-- A directory entry meets Table 8.4. -/
def deOk (e : BitVec 64) (maxent : Nat) : Bool :=
  decide (fld e.toNat 63 40 = 0) && decide (1 ≤ deEntries e) && decide (deFirst e + deEntries e ≤ maxent) &&
  decide (1 ≤ deRing e) && decide (deRing e ≤ 2048)

/-- The stack byte of a copy of a region's table. -/
def StackPort.copyAt (p : StackPort) (r : Region) (c : Nat) : Nat :=
  (p.addr? r.ctx (r.base : Nat) 1).getD 0 + 64 + c * r.cs
/-- The active copy (Table 8.3, SELECTOR). -/
def StackPort.sel (p : StackPort) (r : Region) : Nat := fld (p.word64 ((p.addr? r.ctx (r.base : Nat) 1).getD 0)).toNat 0 0

/-! ## The ring and what is visible (R160, R179) -/

/-- Ring positions R. -/
def AttendJob.r (j : AttendJob) : Nat := 32 * j.ringBlocks
/-- The lowest position held. -/
def AttendJob.lo (j : AttendJob) : Nat := aL j.desc - j.r
/-- The position that a ring position holds. -/
def AttendJob.posAt (j : AttendJob) (rp : Nat) : Option Nat :=
  let p := j.lo + (rp + j.r - j.lo % j.r) % j.r
  if p < aL j.desc then some p else none
/-- The mask's condition on a position and a token position (R179). -/
def seen (d : List (BitVec 32)) (p t : Nat) : Bool :=
  match aMask d with
  | 0 => decide (p ≤ t)
  | 1 => decide (t < p + aW d) && decide (p ≤ t)
  | _ => true
/-- Query rows, and the token position of a row. -/
def attRows (d : List (BitVec 32)) : Nat := aQt d * aGq d
def rowPos (d : List (BitVec 32)) (r : Nat) : Nat := aT0 d + r / aGq d
/-- A slot of a ring block is visible to a query row. -/
def AttendJob.visible (j : AttendJob) (b slot r : Nat) : Bool :=
  match j.posAt (32 * b + slot) with
  | some p => seen j.desc p (rowPos j.desc r)
  | none => false
def AttendJob.visibleAny (j : AttendJob) (b slot n : Nat) : Bool :=
  (List.range n).any (fun k => (List.range (attRows j.desc)).any (j.visible b (slot + k)))
/-- Visited blocks in walk order. -/
def AttendJob.visited (j : AttendJob) : List Nat :=
  let b0 := j.lo % j.r / 32
  ((List.range j.ringBlocks).map (fun k => (b0 + k) % j.ringBlocks)).filter (fun b => j.visibleAny b 0 32)
/-- The blocks of a member of its subteam. -/
def AttendJob.share (j : AttendJob) (i : Nat) : List Nat :=
  let v := j.visited
  let a := i * v.length / j.ns
  (v.drop a).take ((i + 1) * v.length / j.ns - a)

/-! ## Acceptance (R167, R174, R176) -/

/-- The number of member m of a team. -/
def memberCore (pod : Nat) (d : List (BitVec 32)) (m : Nat) : Nat :=
  640 * (40 * (pod / 16) + aTy d + m / aTw d) + 40 * (pod % 16) + aTx d + m % aTw d

/-- Bytes of a member's work range (R174). -/
def workBytes (d : List (BitVec 32)) : Nat := (9 * aHead d / 32 + 2) * kvQuery (aFmt d)

/-- The team conditions of R174. -/
def State.teamOk (s : State) (pod : Nat) (j : AttendJob) : Bool :=
  let d := j.desc
  decide (aTx d + aTw d ≤ 40) && decide (aTy d + aTh d ≤ 40) && decide (memberCore pod d 0 = j.core) &&
  decide (j.nt % aHk d = 0) &&
  (List.range j.nt).all (fun m =>
    let h := (s.core (memberCore pod d m)).handle (aWh d)
    hValid h && !hDesc h && decide (workBytes d ≤ hBytes h))

/-- A page entry's fields are legal (Table 8.5). -/
def peOk (e : BitVec 64) : Bool :=
  decide (fld e.toNat 21 0 = 0) && decide (12 ≤ peLog2 e) && decide (peLog2 e ≤ 21) && decide (pePort e ≤ 23) &&
  decide (peBase e % 2 ^ peLog2 e = 0)

/-- ARG1 of an attention fault: entry index x 256 + GEN. -/
def entryArg (k : Nat) (e : BitVec 64) : Nat := 256 * k + peGen e

/-- The checks of R176 in their order on a job whose buffer is filled. The entry index that a fault names counts from the
start of the copy's page entries (DESIGN CHOICE, log 100). -/
def State.pageFault (s : State) (j : AttendJob) : Option (Nat × Nat × Nat) :=
  let d := j.desc
  let bb := ringBlockBytes d
  let used := ((j.visited.filterMap (fun b => blockIn bb j.entries 0 b)).map (fun r => (r.1, r.2.1))).dedup
  let bad (f : Nat × BitVec 64 → Bool) (code : Nat) : Option (Nat × Nat × Nat) :=
    (used.find? (fun e => !f e)).map (fun e => (code, aLayer d, entryArg (j.firstEntry + e.1) e.2))
  let inWin (e : Nat × BitVec 64) : Bool :=
    let p := pePort e.2
    s.portUp p && decide (p < 24) && ((s.port p).addr? j.ctx (peBase e.2 : Nat) (2 ^ peLog2 e.2)).isSome &&
    decide (peBase e.2 % 2 ^ peLog2 e.2 = 0) && decide (bb ≤ 2 ^ peLog2 e.2) &&
    !(s.port p).owned j.ctx (peBase e.2) (2 ^ peLog2 e.2)
  let qp (p : Nat) : Bool := (s.port p).hasPair j.ctx (aQp d) && decide (((s.port p).pair j.ctx (aQp d)).mode ≠ 1)
  match bad (fun e => peValid e.2) 0x0405 with
  | some f => some f
  | none =>
    match bad inWin 0x0406 with
    | some f => some f
    | none =>
      ((aPort d :: used.map (fun e => pePort e.2)).find? (fun p => !qp p)).map (fun p => (0x0301, 256 * p + aQp d, 0))

/-- The checks of acceptance made at once: the job with its buffer filled, or the fault (R174, R176). -/
def State.acceptJob (s : State) (pod : Nat) (j : AttendJob) : AttendJob ⊕ (Nat × Nat × Nat) :=
  let d := j.desc
  let p := aPort d
  let sp := s.port p
  if !s.teamOk pod j then .inr (0x0402, aLayer d, 0)
  else
    match (if s.portUp p then sp.region? j.ctx (aBase d) else none) with
    | none => .inr (0x0403, aLayer d, 0)
    | some r =>
      if r.layers ≤ aLayer d then .inr (0x0404, aLayer d, 0)
      else
        let c := sp.sel r
        let t := sp.copyAt r c
        let e := sp.word64 (t + 8 * aLayer d)
        let es := (List.range (deEntries e)).map (fun k => sp.word64 (t + 8 * (r.layers + deFirst e + k)))
        let cap := es.foldl (fun n k => n + 2 ^ peLog2 k / ringBlockBytes d) 0
        if !deOk e r.maxent || decide (cap < deRing e) then .inr (0x0404, aLayer d, 0)
        else
          let j1 := { j with accepted := true, copy := c, walking := true, entries := es, ringBlocks := deRing e,
                             firstEntry := deFirst e }
          match s.pageFault j1 with
          | some f => .inr f
          | none => .inl j1

/-- Release one part of an ATTEND's ranges at its issuing core. -/
def Core.releaseAttend (c : Core) (id part : Nat) : Core :=
  { c with ranges := c.ranges.filter (fun e => e.owner != .attend id part) }

/-- Byte of element k of vector v of a stored tile (Table 4.1). -/
def kvByte (d : List (BitVec 32)) (v k : Nat) : Nat := kvElem (aFmt d) * (32 * v + k)

/-- The writes of an append: ring block, head, offset in the head part, bytes (R178). -/
def AttendJob.appendWrites (j : AttendJob) (rows : List Byte) : List (Nat × Nat × Nat × List Byte) :=
  let d := j.desc
  let hd := aHead d
  let e := kvElem (aFmt d)
  let f := kvTile (aFmt d)
  (List.range (aQt d)).flatMap (fun i => (List.range (aHk d)).flatMap (fun h =>
    let rp := (aT0 d + i) % j.r
    let slot := rp % 32
    let k := (rows.drop ((i * aHk d + h) * 2 * hd * e)).take (hd * e)
    let v := (rows.drop ((i * aHk d + h) * 2 * hd * e + hd * e)).take (hd * e)
    (List.range (hd / 32)).map (fun c =>
      (rp / 32, aH0 d + h, (slot / 16 * (hd / 32) + c) * f + kvByte d (slot % 16) 0, (k.drop (32 * e * c)).take (32 * e))) ++
    (List.range hd).map (fun n =>
      (rp / 32, aH0 d + h, (hd / 16 + n / 16) * f + kvByte d (n % 16) slot, (v.drop (e * n)).take e))))

/-- The members of a team are lent (R175). -/
def State.lendTeam (s : State) (pod : Nat) (j : AttendJob) : State :=
  (List.range j.nt).foldl (fun t m =>
    t.modCore (memberCore pod j.desc m) (fun c =>
      let a := hByte (c.handle (aWh j.desc))
      { c with lent := true, ranges := c.ranges ++ [entry (a, a + workBytes j.desc, true) (.work pod)] })) s

/-- Every member has a free entry in its range scoreboard (R175). -/
def State.teamFree (s : State) (pod : Nat) (j : AttendJob) : Bool :=
  (List.range j.nt).all (fun m =>
    let c := s.core (memberCore pod j.desc m)
    decide ((c.ranges.filter (fun e => e.live c.cyc)).length < 32))

/-! ## The walk (R167, R173, R175 to R178) -/

/-- The walk of an ATTEND is no longer counted, if it was. -/
def State.endIf (s : State) (j : AttendJob) : State := if j.walking then s.endWalk j else s

/-- A fault of the sequencer found before the walk: its walk is no longer counted (DESIGN CHOICE, log 97). -/
def State.seqFault (s : State) (pod : Nat) (j : AttendJob) (f : Nat × Nat × Nat) : State :=
  ((s.setSeq pod { j with walking := false }).endIf j).ctxFault j.ctx f.1 (srcSeq pod) f.2.1 f.2.2

/-- SELECTOR has been read: in the same port operation the walk is counted on the copy it names; the directory entry is
read next (R167). -/
def State.selectorRead (s : State) (pod sel : Nat) : State :=
  match s.panel.seqs.find? pod with
  | none => s
  | some j =>
    let p := aPort j.desc
    match (s.port p).region? j.ctx (aBase j.desc) with
    | none => s.seqFault pod j (0x0403, aLayer j.desc, 0)
    | some r =>
      let s1 := s.modPort p (fun k => { k with regions := k.regions.map (fun q =>
        if q.ctx = j.ctx ∧ q.base = aBase j.desc then
          if sel = 0 then { q with walks0 := q.walks0 + 1 } else { q with walks1 := q.walks1 + 1 }
        else q) })
      let s2 := s1.setSeq pod { j with copy := sel, walking := true }
      if s.walkGoes j then
        s2.postAtt j.ctx p (aQp j.desc)
          { pod := pod, kind := .directory, first := (s.port p).copyAt r sel + 8 * aLayer j.desc, len := 8 } []
      else s2

/-- The directory entry has been read; the layer's page entries are read next (R167, R176). -/
def State.directoryRead (s : State) (pod : Nat) (e : BitVec 64) : State :=
  match s.panel.seqs.find? pod with
  | none => s
  | some j =>
    let p := aPort j.desc
    match (s.port p).region? j.ctx (aBase j.desc) with
    | none => s.seqFault pod j (0x0403, aLayer j.desc, 0)
    | some r =>
      if !s.walkGoes j then s
      else if !deOk e r.maxent then s.seqFault pod j (0x0404, aLayer j.desc, 0)
      else
        (s.setSeq pod { j with ringBlocks := deRing e, firstEntry := deFirst e }).postAtt j.ctx p (aQp j.desc)
          { pod := pod, kind := .entries, first := (s.port p).copyAt r j.copy + 8 * (r.layers + deFirst e), len := 8 * deEntries e } []

/-- Release the descriptor, the query and the appended rows at the issuing core (Table 8.8). -/
def Core.releaseInputs (c : Core) (id : Nat) : Core := ((c.releaseAttend id 0).releaseAttend id 1).releaseAttend id 3

/-- Every check has passed: the query and the appended rows are read, and the append writes, or else the first page reads,
are posted (R175, R177, R178). -/
def State.beginWalk (s : State) (pod : Nat) (j : AttendJob) : State :=
  let d := j.desc
  let c := s.core j.core
  match c.load j.qaddr (aQueryBytes d), (if aAppend d then c.load j.aaddr (aAppendBytes d) else .inl []) with
  | .inr f, _ => s.dataFault j.core f
  | _, .inr f => s.dataFault j.core f
  | .inl qs, .inl rows =>
    let ws := if aAppend d then j.appendWrites rows else []
    let c1 := (c.correct j.qaddr (aQueryBytes d)).correct j.aaddr rows.length
    let j1 := { j with query := qs, todo := (List.range j.nt).map (fun m => (m, j.share (m % j.ns))), appends := ws.length }
    let s1 := (s.setCore j.core (c1.releaseInputs j.id)).setSeq pod j1
    if ws.isEmpty then s1.startPages pod
    else ws.foldl (fun t w =>
      match j1.place w.1 w.2.1 with
      | none => t
      | some po => t.postAtt j.ctx po.1 (aQp d)
          { pod := pod, kind := .append, first := (((t.port po.1).addr? j.ctx ((po.2 + w.2.2.1 : Nat) : Int) 1).getD 0), len := w.2.2.2.length }
          w.2.2.2) s1

/-- The page entries have been read into the buffer: the checks of R176 (R167). -/
def State.entriesRead (s : State) (pod : Nat) (es : List (BitVec 64)) : State :=
  match s.panel.seqs.find? pod with
  | none => s
  | some j =>
    if !s.walkGoes j then s
    else
      let j1 := { j with entries := es }
      let cap := es.foldl (fun n k => n + 2 ^ peLog2 k / ringBlockBytes j.desc) 0
      if cap < j1.ringBlocks then s.seqFault pod j (0x0404, aLayer j.desc, 0)
      else match s.pageFault j1 with
        | some f => s.seqFault pod j f
        | none => s.beginWalk pod j1

/-- The sequencer accepts its ATTEND (R173 to R176): the team is lent and SELECTOR is read by a packet. Where pair QP does
not exist on the region's port no packet can be posted, and the checks of R176 find the fault. -/
def State.accept (s : State) (pod : Nat) (j : AttendJob) : State :=
  let d := j.desc
  let p := aPort d
  let fault (f : Nat × Nat × Nat) : State := s.ctxFault j.ctx f.1 (srcSeq pod) f.2.1 f.2.2
  if !s.teamOk pod j then fault (0x0402, aLayer d, 0)
  else
    match (if s.portUp p then (s.port p).region? j.ctx (aBase d) else none) with
    | none => fault (0x0403, aLayer d, 0)
    | some r =>
      if r.layers ≤ aLayer d then fault (0x0404, aLayer d, 0)
      else if !((s.port p).hasPair j.ctx (aQp d) && decide (((s.port p).pair j.ctx (aQp d)).mode ≠ 1)) then
        match s.acceptJob pod j with
        | .inr f => fault f
        | .inl _ => s
      else if !s.teamFree pod j then s
      else
        ((s.setSeq pod { j with accepted := true, lentCores := List.range j.nt }).lendTeam pod j).postAtt j.ctx p (aQp d)
          { pod := pod, kind := .selector, first := ((s.port p).addr? j.ctx (r.base : Nat) 1).getD 0, len := 8 } []

end Sys2Proof.Machine
end

