-- ==== Sys2Proof/Machine/Port.lean ====
section
/-! DEFINITION. Stack ports at work: packets, return lines, rings, slots, depths, flushes and self-refresh (R139 to R159). -/
namespace Sys2Proof.Machine

open Sys2Proof

/-! ## Packets (R140, R147) -/

def QPacket.total (k : QPacket) : Nat := k.s.count * dElem k.s.desc

/-- The stack side of a packet. -/
def QPacket.side (k : QPacket) : Side := if k.read then dSrc k.s.desc else dDst k.s.desc
def QPacket.sideIH (k : QPacket) : BitVec 128 := if k.read then k.s.srcIH else k.s.dstIH

/-- Window offset of element i of the stack side (R105). -/
def QPacket.elemOff (k : QPacket) (c : Core) (i : Nat) : Int :=
  let sd := k.side
  (dQoff k.s.desc : Int) + sd.elem k.s.iter.toNat (dElem k.s.desc) i
    (if k.read then c.index sd k.sideIH (dIw k.s.desc) i else k.idxs.getD i 0)

/-- Scratchpad address of byte n of a QREAD's destination, or its fault. -/
def QPacket.dstAddr (k : QPacket) (c : Core) (n : Nat) : Nat ⊕ (Nat × Nat × Nat) :=
  let e := dElem k.s.desc
  match c.elemAddr (dDst k.s.desc) k.s.dstH k.s.dstIH k.s.iter.toNat e (dIw k.s.desc) (n / e) with
  | .inr f => .inr f
  | .inl a => .inl (a + n % e)

/-- Byte of the empty item at a scratchpad address (R148). -/
def emptyByte (item : BitVec 32) (a : Nat) : Byte := BitVec.ofNat 8 (item.toNat / 2 ^ (8 * (a % 4)))

/-- A step in which the port adds byte `b` for destination address `a` to a packet: a line leaves
when the next byte lies in another 256-byte block (R140). -/
structure Sending where
  lines : List RetLine := []
  buf : List Byte := []
  bufAt : Nat := 0
  blk : Nat := 0
  deriving DecidableEq, Repr

def Sending.add (t : Sending) (core sid pos a : Nat) (b : Byte) : Sending :=
  if t.buf.isEmpty then { t with buf := [b], bufAt := pos, blk := a / 256 }
  else if a / 256 = t.blk then { t with buf := t.buf ++ [b] }
  else { lines := t.lines ++ [{ core := core, sid := sid, first := t.bufAt, data := t.buf }],
         buf := [b], bufAt := pos, blk := a / 256 }

/-- The last line leaves. -/
def Sending.close (t : Sending) (core sid : Nat) : List RetLine :=
  t.lines ++ [{ core := core, sid := sid, first := t.bufAt, data := t.buf, fin := true }]

/-- What a packet still holds, as the start of a step. -/
def QPacket.sending (k : QPacket) (c : Core) : Sending :=
  { buf := k.buf, bufAt := k.bufAt,
    blk := match k.dstAddr c k.bufAt with
      | .inl a => a / 256
      | .inr _ => 0 }

/-- The rest of a QREAD's destination, from byte `pos`, as the empty item. -/
def QPacket.emptyRest (k : QPacket) (c : Core) (t : Sending) (pos : Nat) :
    Sending × Option (Nat × Nat × Nat) :=
  (List.range (k.total - pos)).foldl (fun (u : Sending × Option (Nat × Nat × Nat)) n =>
    match u.2 with
    | some _ => u
    | none =>
      match k.dstAddr c (pos + n) with
      | .inr f => (u.1, some f)
      | .inl a => (u.1.add k.core k.s.id (pos + n) a (emptyByte k.item a), none)) (t, none)

/-! ## Updates of a pair -/


def Pair.replace (pr : Pair) (k : QPacket) : Pair :=
  { pr with reqs := pr.reqs.map (fun r => if r.num = k.num then k else r) }
def Pair.remove (pr : Pair) (k : QPacket) : Pair := { pr with reqs := pr.reqs.filter (fun r => r.num != k.num) }

/-- Return lines for a context leave the port. -/
def State.sendLines (s : State) (p x : Nat) (ls : List RetLine) : State :=
  s.modPort p (fun k => { k with lines := k.lines ++ ls.map (fun l => { l with ctx := x }) })

/-- The port stops a packet on a fault (R113, R144): it is finished and its stream does not complete; the lines of a
QREAD that were sent before still land. -/
def State.stopPacket (s : State) (p x q : Nat) (k : QPacket) (source : Nat) (f : Nat × Nat × Nat) : State :=
  let pr := (s.port p).pair x q
  let s1 := s.setPair p x q (pr.remove k)
  let c := s1.core k.core
  let s2 := match c.stream? k.s.id with
    | some r => if c.owner = some x ∧ !k.read then s1.setCore k.core (c.setStream { r with dead := true }) else s1
    | none => s1
  s2.ctxFault x f.1 source f.2.1 f.2.2

/-- A QREAD has sent everything (R144). -/
def State.endRead (s : State) (p x q : Nat) (k : QPacket) (t : Sending) : State :=
  let pr := (s.port p).pair x q
  let pr1 := (pr.remove k)
  let pr2 := match k.took with
    | some n => { pr1 with ring := pr1.ring.filter (fun r => r.num != n) }
    | none => pr1
  (s.setPair p x q pr2).sendLines p x (t.close k.core k.s.id)

/-- End a QREAD with the empty item from byte `pos` on (R147, R148, R150). -/
def State.endEmpty (s : State) (p x q : Nat) (k : QPacket) (t : Sending) (pos : Nat) : State :=
  let o := k.emptyRest (s.core k.core) t pos
  match o.2 with
  | some f => (s.sendLines p x o.1.lines).stopPacket p x q k (srcCore k.core) f
  | none => s.endRead p x q k o.1

/-! ## One atom access (R140, R151, R153) -/

/-- Window offset of byte n of an access-mode packet. -/
def QPacket.byteOff (k : QPacket) (c : Core) (n : Nat) : Int :=
  k.elemOff c (n / dElem k.s.desc) + (n % dElem k.s.desc : Nat)

/-- The fault of the element that begins at byte n, if any (Table 7.6, R166). -/
def QPacket.elemFault (k : QPacket) (sp : StackPort) (p x : Nat) (c : Core) (n : Nat) :
    Option (Nat × Nat × Nat × Nat) :=
  let e := dElem k.s.desc
  let off := k.elemOff c (n / e)
  let arg := (off / 64 % 2 ^ 32).toNat
  match sp.addr? x off e with
  | none => some (0x0304, srcPort p, p, arg)
  | some a =>
    if !k.read && sp.owned x off.toNat e then some (0x0305, srcPort p, p, arg)
    else
      match (if k.read then sp.eccAt a e else none) with
      | some w => let g := stackEccArg w; some (0x0207, srcPort p, g.1, g.2)
      | none => none

/-- End of the run of bytes that one access serves: consecutive bytes in the atom of byte n0 (R140). -/
def QPacket.runEnd (k : QPacket) (sp : StackPort) (p x : Nat) (c : Core) (n0 : Nat) : Nat → Nat → Nat
  | 0, n => n
  | fuel + 1, n =>
    if k.total ≤ n ∨ (!k.read ∧ k.data.length ≤ n) then n
    else if n ≠ n0 ∧ n % dElem k.s.desc = 0 ∧ (k.elemFault sp p x c n).isSome then n
    else if k.byteOff c n / 64 ≠ k.byteOff c n0 / 64 then n
    else k.runEnd sp p x c n0 fuel (n + 1)

/-- Add read bytes to a QREAD, byte by byte. -/
def QPacket.gotBytes (k : QPacket) (c : Core) (t : Sending) (pos : Nat) (bs : List Byte) :
    Sending × Option (Nat × Nat × Nat) :=
  bs.zipIdx.foldl (fun (u : Sending × Option (Nat × Nat × Nat)) b =>
    match u.2 with
    | some _ => u
    | none =>
      match k.dstAddr c (pos + b.2) with
      | .inr f => (u.1, some f)
      | .inl a => (u.1.add k.core k.s.id (pos + b.2) a b.1, none)) (t, none)

/-- Read bytes join a QREAD; when `fin`, it has sent everything. -/
def State.feedRead (s : State) (p x q : Nat) (k : QPacket) (bs : List Byte) (fin : Bool) : State :=
  let c := s.core k.core
  let o := k.gotBytes c (k.sending c) k.pos bs
  match o.2 with
  | some f => (s.sendLines p x o.1.lines).stopPacket p x q k (srcCore k.core) f
  | none =>
    let k1 := { k with pos := k.pos + bs.length, buf := o.1.buf, bufAt := o.1.bufAt }
    if fin then s.endRead p x q k1 o.1
    else (s.setPair p x q (((s.port p).pair x q).replace k1)).sendLines p x o.1.lines

/-- The next atom of an access-mode packet. -/
def State.serveAccess (s : State) (p x q : Nat) (k : QPacket) : State :=
  let sp := s.port p
  let c := s.core k.core
  match (if k.pos % dElem k.s.desc = 0 then k.elemFault sp p x c k.pos else none) with
  | some f =>
    let s1 := if f.1 = 0x0207 then s.portUe p ((f.2.2.1 / 256) * 2 ^ 32 + f.2.2.2)
      else s
    s1.stopPacket p x q k f.2.1 (f.1, f.2.2.1, f.2.2.2)
  | none =>
    let e := k.runEnd sp p x c k.pos (k.total - k.pos) k.pos
    let addrs := (List.range (e - k.pos)).map (fun n => (sp.addr? x (k.byteOff c (k.pos + n)) 1).getD 0)
    if k.read then
      (s.modPort p (fun t => addrs.foldl (fun t a => t.correct a 1) t)).feedRead p x q k
        (addrs.map (fun a => Cells.get 0 sp.mem a)) (decide (e = k.total))
    else
      let atom := addrs.headD 0 / 64 * 64
      let whole := (List.range 64).all (fun n => addrs.contains (atom + n))
      match (if whole then none else sp.eccAt atom 64) with
      | some w =>
        let g := stackEccArg w
        (s.portUe p w).stopPacket p x q k (srcPort p) (0x0207, g.1, g.2)
      | none =>
        let s2 := s.modPort p (fun t =>
          ((addrs.zip (k.data.drop k.pos)).foldl (fun t w => t.write w.1 [w.2]) t).overwritten atom (if whole then 64 else 1))
        let pr := (s2.port p).pair x q
        s2.setPair p x q (if e = k.total then pr.remove k else pr.replace { k with pos := e })

/-- First byte of the ring in the window, and its size (R147). -/
def Pair.ringBase (p : Pair) : Nat := p.rbase.toNat * 4096
def Pair.ringSize (p : Pair) : Nat := p.rsize.toNat * 4096

/-- The ring lies in the window and has a size. -/
def StackPort.ringOk (p : StackPort) (x : Nat) (pr : Pair) : Bool :=
  pr.rsize != 0 && (p.addr? x pr.ringBase pr.ringSize).isSome

/-- A ring packet is available (R147). -/
def RingPkt.available (r : RingPkt) : Bool := !r.taken && decide (min (r.cut * 64) r.len ≤ r.got)

/-- The next bytes in the ring's atom from ring offset o, at most n. -/
def ringRun (pr : Pair) (o n : Nat) : Nat :=
  min n (min (64 - (pr.ringBase + o % pr.ringSize) % 64) (pr.ringSize - o % pr.ringSize))

/-- A run of the ring: its stack address. -/
def StackPort.ringAddr (sp : StackPort) (x : Nat) (pr : Pair) (o : Nat) : Nat :=
  (sp.addr? x ((pr.ringBase + o % pr.ringSize : Nat) : Int) 1).getD 0

/-- Lengths in 64-byte units in QREAD_LENGTH (Table 14.11), rounded up. -/
def lenUnits (n : Nat) : Nat := min ((n + 63) / 64) 0xFFFF

/-- Bytes of a ring write of n bytes at ring offset o that lie before the first element that falls in an owned
region (R166). -/
def StackPort.ringClear (sp : StackPort) (x : Nat) (pr : Pair) (k : QPacket) (o n : Nat) : Nat :=
  let e := dElem k.s.desc
  ((List.range n).find? (fun j => sp.owned x (pr.ringBase + (o + j) % pr.ringSize - (k.pos + j) % e) e)).getD n

/-- The next atom of a channel-mode QWRITE (R147, R155, R166); bytes dropped by a flush are skipped. -/
def State.serveRingWrite (s : State) (p x q : Nat) (k : QPacket) : State :=
  let sp := s.port p
  let pr := sp.pair x q
  match k.ringAt, pr.ring.find? (fun r => r.num = k.num) with
  | some o, some r =>
    let n := sp.ringClear x pr k (o + k.pos) (ringRun pr (o + k.pos) (k.data.length - k.pos))
    let a := sp.ringAddr x pr (o + k.pos)
    if n = 0 then s.stopPacket p x q k (srcPort p) (0x0305, p, (pr.ringBase + (o + k.pos) % pr.ringSize) / 64 % 2 ^ 32)
    else
      match sp.eccMerge a n with
      | some w =>
        let g := stackEccArg w
        (s.portUe p w).stopPacket p x q k (srcPort p) (0x0207, g.1, g.2)
      | none =>
        let s1 := s.modPort p (fun t => t.store a ((k.data.drop k.pos).take n))
        let pr1 := { pr with ring := pr.ring.map (fun (w : RingPkt) => if w.num = k.num then { r with got := r.got + n } else w) }
        s1.setPair p x q (if k.pos + n = k.total then pr1.remove k else pr1.replace { k with pos := k.pos + n })
  | _, _ => s.setPair p x q (pr.remove k)

/-- The next atom of a channel-mode QREAD that has taken its packet. -/
def State.serveRingRead (s : State) (p x q : Nat) (k : QPacket) (r : RingPkt) : State :=
  let sp := s.port p
  let pr := sp.pair x q
  if k.cutAt ≤ k.pos then s.endEmpty p x q k (k.sending (s.core k.core)) k.pos
  else
    let n := ringRun pr (r.at_ + k.pos) (min k.cutAt r.got - k.pos)
    let a := sp.ringAddr x pr (r.at_ + k.pos)
    match sp.eccAt a n with
    | some w =>
      let g := stackEccArg w
      (s.portUe p w).stopPacket p x q k (srcPort p) (0x0207, g.1, g.2)
    | none =>
      let s1 := (s.modPort p (fun t => t.correct a n)).feedRead p x q k (sp.bytes a n) (decide (k.pos + n = k.total))
      match ((s1.port p).pair x q).reqs.find? (fun w => w.num = k.num) with
      | some k1 =>
        if k1.pos = k1.cutAt ∧ k1.cutAt < k1.total then s1.endEmpty p x q k1 (k1.sending (s1.core k1.core)) k1.pos else s1
      | none => s1

/-- A channel-mode QREAD at the head takes the oldest available packet, or is served with the empty item at once
(R147, R148). -/
def State.takeRing (s : State) (p x q : Nat) (k : QPacket) : State :=
  let pr := (s.port p).pair x q
  match pr.ring.find? RingPkt.available with
  | none =>
    let s1 := s.setPair p x q { pr with emptys := satAdd pr.emptys 1 }
    s1.endEmpty p x q { k with empty := true } {} 0
  | some r =>
    let k1 := { k with took := some r.num, cutAt := min k.total r.len }
    let pr1 := { (pr.replace k1) with ring := pr.ring.map (fun w => if w.num = r.num then { w with taken := true } else w) }
    let s1 := s.setPair p x q pr1
    if k.total = r.len then s1
    else s1.postCtx x 0x8201 (srcPort p) (256 * p + q) (2 ^ 16 * lenUnits k.total + lenUnits r.len)

/-- The channel-mode QREAD that stands at the head of a pair's request queue: every QREAD before it has taken its
packet or its empty item, and every QWRITE has reserved its space as it was posted (R151). -/
def Pair.headRead? (pr : Pair) : Option QPacket := pr.reqs.find? (fun k => k.read && k.took.isNone)

/-- The QREADs of a channel-mode pair that stand at its head take what they are to have; where the ring lies outside
the window or has no size, every packet of the pair faults (R147, R148). -/
def State.settlePair (p x q : Nat) : Nat → State → State
  | 0, s => s
  | fuel + 1, s =>
    let pr := (s.port p).pair x q
    if pr.mode ≠ 1 then s
    else if !(s.port p).ringOk x pr then
      match pr.reqs with
      | k :: _ => State.settlePair p x q fuel (s.stopPacket p x q k (srcPort p) (0x0304, p, pr.ringBase / 64 % 2 ^ 32))
      | [] => s
    else
      match pr.headRead? with
      | some k => State.settlePair p x q fuel (s.takeRing p x q k)
      | none => s

/-- All channel-mode pairs of a port are settled. -/
def State.settlePort (s : State) (p : Nat) : State :=
  (s.port p).pairs.foldl (fun t e => State.settlePair p (e.1 / 256) (e.1 % 256) (e.2.reqs.length + 1) t) s

/-- Whether packet k of a channel-mode pair has an access ready (R147, R151). -/
def Pair.ringReady (pr : Pair) (k : QPacket) : Bool :=
  if k.read then
    match k.took with
    | some n => match pr.ring.find? (fun r => r.num = n) with
      | some r => decide (k.pos < min k.cutAt r.got) || decide (k.cutAt ≤ k.pos)
      | none => true
    | none => false
  else decide (k.pos < k.data.length)

/-- A packet of an access-mode pair has an access ready. -/
def QPacket.ready (k : QPacket) : Bool := k.read || k.att.isSome || decide (k.pos < k.data.length)

/-- The packet of a pair whose access is served next, if one is ready (R151). Which of several ready packets of a
channel-mode pair takes the slot is not stated: the first QREAD in posting order, and where none is ready the first
QWRITE (DESIGN CHOICE, log 98). -/
def Pair.next? (pr : Pair) : Option QPacket :=
  if pr.mode = 1 then (pr.reqs.find? (fun k => k.read && pr.ringReady k)).or (pr.reqs.find? pr.ringReady)
  else match pr.reqs with
    | k :: _ => if k.ready then some k else none
    | [] => none

/-- An access of a sequencer's packet has been served whole on a pair of context x (R167, R177, R178): `bs` is what it read.
An ATTEND that has ended, or another one, takes nothing from it. -/
def State.attServed (s : State) (x : Nat) (w : AttAcc) (bs : List Byte) : State :=
  if (s.panel.seqs.find? w.pod).any (fun j => j.ctx != x) then s
  else match w.kind with
  | .page m b => s.pageServed w.pod m b bs
  | .append => s.appendServed w.pod
  | .selector => s.selectorRead w.pod (fld (leNat (bs.take 8)) 0 0)
  | .directory => s.directoryRead w.pod (BitVec.ofNat 64 (leNat bs))
  | .entries => s.entriesRead w.pod ((List.range (bs.length / 8)).map (fun k => BitVec.ofNat 64 (leNat ((bs.drop (8 * k)).take 8))))

/-- The next atom of a sequencer's packet (R155, R177). -/
def State.serveAtt (s : State) (p x q : Nat) (k : QPacket) (t : AttAcc) : State :=
  let sp := s.port p
  let a := t.first + k.pos
  let n := min (64 - a % 64) (t.len - k.pos)
  let pr := sp.pair x q
  match (if k.read then sp.eccAt a n else sp.eccMerge a n) with
  | some w =>
    let g := stackEccArg w
    ((s.portUe p w).setPair p x q (pr.remove k)).ctxFault x 0x0207 (srcPort p) g.1 g.2
  | none =>
    let s1 := s.modPort p (fun u => if k.read then u.correct a n else u.store a ((k.data.drop k.pos).take n))
    let k1 := { k with pos := k.pos + n, buf := if k.read then k.buf ++ sp.bytes a n else k.buf }
    if k1.pos < t.len then s1.setPair p x q (pr.replace k1)
    else (s1.setPair p x q (pr.remove k)).attServed x t k1.buf

/-- Serve packet k of pair q of context x. -/
def State.servePacket (s : State) (p x q : Nat) (k : QPacket) : State :=
  let sp := s.port p
  let pr := sp.pair x q
  if pr.mode = 1 then
    if !k.read then s.serveRingWrite p x q k
    else match k.took with
      | none => s
      | some n => match pr.ring.find? (fun r => r.num = n) with
        | some r => s.serveRingRead p x q k r
        | none => s.endEmpty p x q k (k.sending (s.core k.core)) k.pos
  else match k.att with
    | some t => s.serveAtt p x q k t
    | none => s.serveAccess p x q k

/-- Pairs of a context on a port, by QP. -/
def StackPort.qps (p : StackPort) (x : Nat) : List Nat :=
  (Table.keys p.pairs).filterMap (fun k => if k / 256 = x then some (k % 256) else none)

/-- The pair served next: round-robin in QP order, after the pair served last (R153). -/
def StackPort.nextPair? (p : StackPort) (x : Nat) : Option Nat :=
  let ready := (p.qps x).filter (fun q => (p.pair x q).next?.isSome)
  match p.lastQp.find? x with
  | some l => match ready.find? (fun q => decide (l < q)) with
    | some q => some q
    | none => ready.head?
  | none => ready.head?

/-- The port accesses nothing: not fitted, disabled, or in an engine reset (R139, R312). -/
def State.portServes (s : State) (p : Nat) : Bool := s.portUp p && !(s.port p).resetting && !s.engineDown (srcPort p)

/-- A slot of a context none of whose pairs has an access ready serves its oldest STK write: one atom of it. No order holds
between the two (R223); that the pairs come first is this model's choice (log 112). -/
def State.serveStk (s : State) (p x : Nat) : State :=
  match (s.port p).stkQ.find? (fun w => w.ctx = x) with
  | none => s
  | some w =>
    let n := 64 - w.off % 64
    let rest : List StkWrite := if w.data.length ≤ n then [] else [{ w with off := w.off + n, data := w.data.drop n }]
    (s.windowWrite x p w.off (w.data.take n)).modPort p (fun k => { k with stkQ := rest ++ k.stkQ.erase w })

/-- A slot comes round (R153). QREADs of channel-mode pairs that stand at their heads have taken what they are to have
(R148). -/
def State.serveSlot (s : State) (p slot : Nat) : State :=
  if !s.portServes p then s else
  let s := s.settlePort p
  let sp := s.port p
  match (if slot < 62 then sp.slots.find? slot else none) with
  | none => s
  | some x =>
    match sp.nextPair? x with
    | none => s.serveStk p x
    | some q =>
      match (sp.pair x q).next? with
      | none => s
      | some k =>
        (s.modPort p (fun t => { (t.touch s.tcb.now) with lastQp := t.lastQp.put x q })).servePacket p x q k

/-! ## Depths (Table 7.4, R145) -/

def Pair.rqd (p : Pair) : Nat := p.reqs.length
def Pair.rtd (p : Pair) : Nat :=
  if p.mode = 1 then (p.ring.filter RingPkt.available).length
  else (p.reqs.filter (fun k => k.read && k.att.isNone && !k.buf.isEmpty)).length

/-- A pair is busy while RQD or FILL is nonzero (R143). -/
def Pair.busy (p : Pair) : Bool := decide (p.rqd ≠ 0) || decide (p.fill ≠ 0)

/-- A depth watch's condition (Table 3.3, R145). -/
def Watch.test (w : Watch) (p : Pair) : Bool :=
  let d := if w.dir then p.rqd else p.rtd
  if w.geLe then decide (d ≤ w.n) else decide (w.n ≤ d)

/-! ## Flush (R150) -/

/-- A packet the port has started: bytes performed, a packet taken, or a ring write under way. -/
def QPacket.started (k : QPacket) : Bool := decide (0 < k.pos) || k.took.isSome

/-- Flush one packet: a QREAD receives the empty item from the first byte not yet sent in a line; a sequencer's read
receives it in the bytes it has not read, and its write writes no more (log 19). -/
def State.flushPacket (s : State) (p x q : Nat) (k : QPacket) : State :=
  match k.att with
  | some w =>
    (s.setPair p x q (((s.port p).pair x q).remove k)).attServed x w
      (k.buf ++ (List.range (w.len - k.buf.length)).map (fun n => emptyByte k.item (k.buf.length + n)))
  | none =>
    if k.read then s.endEmpty p x q k {} (if k.buf.isEmpty then k.pos else k.bufAt)
    else s.setPair p x q (((s.port p).pair x q).remove k)

/-- A flush acts on everything the port holds for the pair (R150). Where the ring's write point then stands is not
stated: it stays where it was (DESIGN CHOICE, log 99). -/
def State.flushPair (s : State) (p x q : Nat) : State :=
  let pr := (s.port p).pair x q
  let s1 := s.setPair p x q { pr with ring := [], wptr := pr.wptr, flushes := satAdd pr.flushes 1 }
  let s2 := pr.reqs.foldl (fun t k => t.flushPacket p x q k) s1
  let cut := (pr.reqs.filter QPacket.started).length
  s2.postCtx x 0x8202 (srcPort p) (256 * p + q)
    (2 ^ 16 * min (pr.reqs.length - cut) 0xFFFF + min cut 0xFFFF)

/-! ## Self-refresh (R157) -/

/-- The port whose engine digests shard i of a load; none for the host interface (Table 9.3). -/
def Load.engine (l : Load) (i : Nat) : Option Nat :=
  if l.source = 1 then some ((l.pairs.getD (i % l.pairs.length) (0, 0)).1)
  else if l.source = 2 then some (24 + i % 8)
  else none

/-- The load runs. -/
def Load.runs (l : Load) : Bool := !l.swap || l.waiting

/-- A host transfer under way on a window of the port: KIND 1, or KIND 2 to the context's own module (R282). -/
def State.xferOn (s : State) (p f : Nat) (d : Taken) : Bool :=
  (d.st == .running || d.st == .timedOut) && decide (d.op = 0x0B) && decide (fld (d.word 4) 8 4 = p) &&
    (decide (fld (d.word 4) 2 1 = 1) || (decide (fld (d.word 4) 2 1 = 2) &&
      (match s.resolve (f - 1) (d.word 11) with
        | .loc => true
        | _ => false)))

/-- The port holds no pending access: of its pairs, its page-table edits, host transfers and STK writes on it, loads and
re-checks that use its engine, an install of the library, and its window scrubs (R157). -/
def State.portIdle (s : State) (p : Nat) : Bool :=
  let sp := s.port p
  sp.pairs.all (fun e => e.2.reqs.isEmpty) && sp.stkQ.isEmpty && sp.scrubs.isEmpty && sp.engine.isNone &&
  sp.regions.all (fun r => r.edits.isEmpty && r.flipped.isNone) &&
  s.fns.all (fun e => !(e.2.xferq ++ e.2.bg).any (s.xferOn p e.1)) &&
  s.ctxs.all (fun e => e.2.wset.recheck.all (fun r => decide (r.shard % 24 ≠ p)) &&
    e.2.wset.load.all (fun l => !l.runs || !l.todo.any (fun i => l.engine i == some p))) &&
  (decide (p < 24) || s.mg.lib.all (fun e => e.2.complete))

/-- No context keeps tier A awake: none is RUNNING, FAULTED or SCRUBBING. -/
def State.tierAQuiet (s : State) : Bool :=
  s.liveCtxs.all (fun c => decide ((s.ctx c).st ≠ .running) && decide ((s.ctx c).st ≠ .faulted) &&
    decide ((s.ctx c).st ≠ .scrubbing))

/-- Words of a cyclic run of n atoms from atom a in a stack of `cap` atoms. -/
def patrolHit (cap a n w : Nat) : Bool := decide (cap ≤ n) || decide ((w / 8 + cap - a % cap) % cap < n)

/-- Atoms of the stack (Table 7.1). -/
def stackAtoms (p : Nat) : Nat := if p < 24 then 2 ^ 29 else 2 ^ 30

/-- Patrol scrub reads n atoms in the port's own slots (R155, R317). -/
def State.patrol (s : State) (p n : Nat) : State :=
  let sp := s.port p
  let cap := stackAtoms p
  let hits := sp.eccSingle.filter (patrolHit cap sp.patrolAt n)
  let bads := sp.eccDouble.filter (patrolHit cap sp.patrolAt n)
  let sp1 :=
    { sp with eccSingle := sp.eccSingle.filter (fun w => !hits.contains w), ce := satAdd sp.ce hits.length,
              patrol := sp.patrol + BitVec.ofNat 32 ((sp.patrolAt + n) / cap), patrolAt := (sp.patrolAt + n) % cap }
  bads.foldl (fun t w => let g := stackEccArg (8 * w); (t.portUe p (8 * w)).logFault 0x0A09 1 noCtx (srcPort p) g.1 g.2) (s.setPort p sp1)

/-- Every tier-A port leaves self-refresh (R156, R157). -/
def State.wakeTierA (s : State) : State :=
  (List.range 24).foldl (fun t p => if (t.port p).selfRef then t.modPort p (fun k => { k with selfRef := false, woken := false }) else t) s

end Sys2Proof.Machine
end

