-- ==== Sys2Proof/Machine/Data.lean ====
section
/-! DEFINITION. Data in motion: streams, mesh packets and notices, reductions, and the stack ports
(R55, R108 to R113, R126 to R133, R140 to R157). -/
namespace Sys2Proof.Machine

open Sys2Proof

/-- Streams of the core go on: its context runs, or drains (R248, R306). -/
def State.streamsGo (s : State) (i : Nat) : Bool :=
  match (s.core i).owner with
  | some x => (decide ((s.ctx x).st = .running) || decide ((s.ctx x).st = .quiesced)) && s.fs.clocked
  | none => false

/-- A stream leaves its slot and releases its ranges (R108, Table 3.9). -/
def Core.endStream (c : Core) (id : Nat) : Core :=
  { c with ld := c.ld.filter (fun r => r.id != id), st := c.st.filter (fun r => r.id != id),
           ranges := c.ranges.filter (fun e => e.owner != .stream id true && e.owner != .stream id false) }

/-- Count one more packet-complete notice of a pair (R149). -/
def State.queueNotice (s : State) (i : Nat) (r : StreamRec) : State :=
  let c := s.core i
  let k := 256 * dPort r.desc + dQp r.desc
  if c.qnotes.get k 0 < 255 then s.setCore i { c with qnotes := c.qnotes.put k (c.qnotes.get k 0 + 1) }
  else s.coreFault i 0x0104 k 0

/-- The index values of a stream's stack side, read with its source (R105, R140). -/
def stackIdxs (r : StreamRec) (c : Core) (n : Nat) : List Nat :=
  if (dDst r.desc).indexed then (List.range n).map (c.index (dDst r.desc) r.dstIH (dIw r.desc)) else []

/-- The source bytes of a QWRITE are handed to its request queue (R108, R140); `whole`: they are all of them. -/
def State.handData (s : State) (x : Nat) (i : Nat) (r : StreamRec) (bs : List Byte) (whole : Bool) : State :=
  let xs := stackIdxs r (s.core i) (bs.length / dElem r.desc)
  s.modPort (dPort r.desc) (fun k =>
    let pr := k.pair x (dQp r.desc)
    k.setPair x (dQp r.desc) { pr with reqs := pr.reqs.map (fun q =>
      if q.core = i ∧ q.s.id = r.id ∧ !q.read then { q with data := bs, idxs := xs, handed := whole } else q) })

/-- A stream makes its last scratchpad access (R108), or stops at a fault (R113). -/
def finishStream (i : Nat) (r : StreamRec) (s : State) : State :=
  let c := s.core i
  let x := c.owner.getD 0
  match r.op with
  | .gather | .scatter =>
    let o := copyElems r c
    (match o.2 with
     | some f => (s.setCore i o.1).stopStream i r.id f
     | none => s.setCore i (o.1.endStream r.id))
  | .qread =>
    if r.closed then (s.setCore i (c.endStream r.id)).queueNotice i r else s
  | .rread => if r.closed then s.setCore i (c.endStream r.id) else s
  | .qwrite =>
    let o := sourceBytes r c
    (match o.2 with
     | some f => ((s.setCore i (c.correctSource r)).handData x i r o.1 false).stopStream i r.id f
     | none => (s.setCore i ((c.correctSource r).endStream r.id)).handData x i r o.1 true)
  | .msend =>
    let o := sourceRuns r c
    (match o.2 with
     | some f => ((s.setCore i (c.correctSource r)).sendBytes x i r o.1 false).stopStream i r.id f
     | none => (s.setCore i ((c.correctSource r).endStream r.id)).sendBytes x i r o.1 true)

/-- STREAM_COMPLETE (R108). -/
def execStreamComplete (x : CoreId) (st : Bool) (id : Nat) (s : State) : Out :=
  atCore x s (fun i s =>
    let c := s.core i
    match (if st then c.st else c.ld).find? (fun r => r.id = id) with
    | some r => if r.dead || !s.streamsGo i then s else finishStream i r s
    | none => s)

/-- A packet is a write or a read reply on this channel. -/
def MeshPacket.lands (chan : BitVec 4) (p : MeshPacket) : Bool :=
  (decide (p.op = .write) || decide (p.op = .readReply)) && decide (p.chan = chan.toNat)

/-- MESH_PACKET_LAND (R120, R124, R126): the oldest packet of the pair on the virtual channel of CHAN, if it is one of that CHAN,
is written whole. -/
def execMeshPacketLand (src dst : CoreId) (chan : BitVec 4) (s : State) : Out :=
  if !inArray src then .fault .noSuchCore
  else atCore dst s (fun j s =>
    match s.oldestOn (coreIdx src) j (if chan.toNat < 12 then 0 else 2) (MeshPacket.lands chan) with
    | none => s
    | some p =>
      let s1 := s.takePacket p
      if (s1.core j).owner ≠ some p.ctx then s1.discard p
      else if p.op = .readReply then s1.landReply j p.sid p.first p.data p.last
      else s1.landWrite p)

/-- A notice goes to the oldest EXPECT of its tag, or is counted (R55). -/
def State.notice (s : State) (i : Nat) (tag : BitVec 3) : State :=
  let c := s.core i
  match c.ranges.find? (fun e => match e.owner with
    | .expect _ t => t == tag
    | _ => false) with
  | some e => s.setCore i { c with ranges := c.ranges.filter (fun k => k.owner != e.owner) }
  | none =>
    let n := c.unclaimed.get tag.toNat 0
    if n < 255 then s.setCore i { c with unclaimed := c.unclaimed.put tag.toNat (n + 1) }
    else s.coreFault i 0x0104 tag.toNat 0

/-- Take one due notice of a tag out of a list. -/
def dropTag (tag : BitVec 3) : List (BitVec 3) → List (BitVec 3)
  | [] => []
  | t :: ts => if t = tag then ts else t :: dropTag tag ts

/-- MESH_NOTICE (R55). -/
def execMeshNotice (x : CoreId) (tag : BitVec 3) (s : State) : Out :=
  atCore x s (fun i s =>
    let c := s.core i
    if c.due.contains tag then (s.setCore i { c with due := dropTag tag c.due }).notice i tag else s)

/-- The reply of a read request of this module (R117, R127). -/
def State.replyLocal (s : State) (p : MeshPacket) (bs : List Byte) : State :=
  let parts := cutRun 256 256 (bs.length + 1) p.off bs
  parts.zipIdx.foldl (fun t q =>
    t.inject { ctx := p.ctx, src := p.dst, dst := p.src, rank := p.rank, op := .readReply, chan := p.chan,
               off := q.1.1, len := q.1.2.length, last := decide (q.2 + 1 = parts.length), data := q.1.2,
               sid := p.sid, first := q.1.1 - p.off }) s

/-- The reply of a read request of another module (R119, R222). -/
def State.replyRemote (s : State) (p : MeshPacket) (h : EpPacket) (bs : List Byte) : State :=
  match s.attachFault p.ctx p.dst h.smod.toNat with
  | some f => s.ctxFault p.ctx f.1 f.2.1 f.2.2.1 f.2.2.2
  | none => s.pushEp p.ctx p.dst 0 { h with
    op := 4, hops := 63, dmod := h.smod, dctx := h.sctx, smod := h.dmod, sctx := h.dctx, srank := h.drank,
    drank := h.srank, length := BitVec.ofNat 13 bs.length, data := bs }

/-- RREAD_REQUEST (R120, R124, R127): the request is the oldest packet on its virtual channel; the target checks, the read, and
the reply. -/
def execRreadRequest (src dst : CoreId) (chan : BitVec 4) (s : State) : Out :=
  if !inArray src then .fault .noSuchCore
  else atCore dst s (fun j s =>
    match s.oldestOn (coreIdx src) j (if chan.toNat < 12 then 0 else 2) (fun p => decide (p.op = .readReq) && decide (p.chan = chan.toNat)) with
    | none => s
    | some p =>
      let s1 := s.takePacket p
      let c := s1.core j
      if c.owner ≠ some p.ctx then s1.discard p
      else if !windowOk c p p.len then s1.refuse p
      else
        let a := hByte (c.handle p.wh) + p.off
        match c.load a p.len with
        | .inr f => s1.dataFault j f
        | .inl bs =>
          let s2 := s1.setCore j (c.correct a p.len)
          match p.via with
          | none => s2.replyLocal p bs
          | some h => s2.replyRemote p h bs)

/-- A reduce-add waits: its key is not open and accumulators for its elements are not free (R133). -/
def redWaits (c : Core) (p : MeshPacket) : Bool :=
  windowOk c p p.data.length && !c.keys.any (fun k => k.matches p) &&
  decide (128 < c.redUsed + (redElems p).length)

/-- An earlier packet that waits at the same input holds this one back (R133). -/
def State.redBlocked (s : State) (p : MeshPacket) : Bool :=
  let side (q : MeshPacket) : Nat := s.inputSide (posOf q.src) (posOf q.dst)
  s.panel.flight.any (fun q => (s.core p.dst).redWait.contains q.num && decide (q.dst = p.dst) &&
    decide (q.num ≠ p.num) && decide (side q = side p))

/-- REDUCE_ADD_PACKET (R130). -/
def execReduceAddPacket (src dst : CoreId) (s : State) : Out :=
  if !inArray src then .fault .noSuchCore
  else atCore dst s (fun j s =>
    match s.oldestOn (coreIdx src) j 1 (fun p => decide (p.op = .reduceAdd)) with
    | none => s
    | some p =>
      let c := s.core j
      if c.owner ≠ some p.ctx then (s.takePacket p).discard p
      else if s.redBlocked p then s
      else if redWaits c p then
        s.setCore j { c with redWait := if c.redWait.contains p.num then c.redWait else c.redWait ++ [p.num] }
      else
        ((s.setCore j { c with redWait := c.redWait.filter (· != p.num) }).takePacket p).absorb p)

/-! ## Stack ports -/

/-- PORT_SLOT_SERVICE (R153). -/
def execPortSlotService (port : BitVec 5) (slot : BitVec 6) (s : State) : Out :=
  .next (s.serveSlot port.toNat slot.toNat)

/-- RETURN_LINE (R140): the oldest line for the core is written whole; one whose context owns the core no longer is
discarded and counted (R247). -/
def execReturnLine (port : BitVec 5) (x : CoreId) (s : State) : Out :=
  atCore x s (fun i s =>
    let sp := s.port port.toNat
    match sp.lines.find? (fun l => l.core = i) with
    | none => s
    | some l =>
      let s1 := s.setPort port.toNat { sp with lines := sp.lines.erase l }
      if (s.core i).owner = some l.ctx then s1.landReply i l.sid l.first l.data l.fin
      else s1.discardFlits l.ctx (1 + (l.data.length + 31) / 32))

/-- QLEV_ANSWER (R145): the port's answer that the condition held reaches the core. -/
def execQlevAnswer (x : CoreId) (s : State) : Out :=
  atCore x s (fun i s =>
    let c := s.core i
    match c.watch, c.owner with
    | some w, some o =>
      if w.test ((s.port w.port).pair o w.qp) then s.setCore i { c with watch := some { w with held := true } } else s
    | _, _ => s)

/-- QR_FLUSH (R150). -/
def execQrFlush (c : BitVec 6) (port : BitVec 5) (qp : BitVec 8) (s : State) : Out :=
  .next (if s.barLive && (s.port port.toNat).hasPair c.toNat qp.toNat then s.flushPair port.toNat c.toNat qp.toNat else s)

/-- PORT_REFRESH (R156): in the port's own slots, and never in self-refresh. -/
def execPortRefresh (port : BitVec 5) (s : State) : Out :=
  let sp := s.port port.toNat
  .next (if s.portServes port.toNat && decide (port.toNat < 24) && !sp.selfRef then
    s.setPort port.toNat { sp with refreshes := sp.refreshes + 1 } else s)

/-- PATROL_SCRUB (R155): in the port's own slots; a port in self-refresh is not woken (R157). -/
def execPatrolScrub (port : BitVec 5) (atoms : Nat) (s : State) : Out :=
  .next (if s.portServes port.toNat && !(s.port port.toNat).selfRef then s.patrol port.toNat atoms else s)

/-- SELF_REFRESH_ENTRY (R157): a port woken for an access returns after 1,000,000 tc without one. -/
def execSelfRefreshEntry (port : BitVec 5) (s : State) : Out :=
  let p := port.toNat
  let sp := s.port p
  .next (if s.portServes p && decide (p < 24) && !sp.selfRef && s.tierAQuiet && s.portIdle p then
    (if sp.woken then s.passTo (sp.idleSince + 1000000) else s).modPort p (fun k =>
      { k with selfRef := true, woken := false })
  else s)

end Sys2Proof.Machine
end

