-- ==== Sys2Proof/Machine/Attend.lean ====
section
/-! DEFINITION. The attention sequencer's commands: acceptance, what each member computes, the merge tree and the output
(R173, R180 to R184). -/
namespace Sys2Proof.Machine

open Sys2Proof

/-- ATTEND_ACCEPT (R173). -/
def execAttendAccept (pod : BitVec 8) (s : State) : Out :=
  atPod pod s (fun s =>
    match s.panel.seqs.find? pod.toNat with
    | some j => if j.accepted || !s.streamsGo j.core || !s.seqUp pod.toNat || s.engineDown (srcSeq pod.toNat) then s else s.accept pod.toNat j
    | none => s)

/-! ## What a member computes (R162, R180) -/

/-- MX format code of the query, key, value and P tiles (Table 8.2). -/
def kvMx (f : Nat) : Nat := if f = 4 then 0 else if f = 0 ∨ f = 2 then 2 else 3

/-- A stored tile as the engine reads it: scale bytes 0x7F are supplied for plain FP8 (R162). -/
def kvImage (f : Nat) (bs : List Byte) : List Byte := if f ≤ 1 then bs ++ List.replicate 16 0x7F else bs

/-- The sixteen vectors of a tile. -/
def tileVecs (fmt : Nat) (t : List Byte) : List (List Fp) := (List.range 16).map (tileVec fmt t)

/-- One MMA on decoded tiles: rows of 16 elements, and the flags. -/
def mmaVecs (addend : Option (List (List (BitVec 32)))) (as bs : List (List Fp)) :
    List (List (BitVec 32)) × BitVec 5 :=
  let rs := as.zipIdx.map (fun a => bs.zipIdx.map (fun b =>
    dotElem (addend.map (fun t => (t.getD a.2 []).getD b.2 0)) a.1 b.1))
  (rs.map (fun r => r.map (·.1)), rs.foldl (fun f r => r.foldl (fun g x => g ||| x.2) f) 0)

/-- A row of weights as elements 16u to 16u + 15 of a P vector, and its flags (R87, R180). -/
def pRow (f u : Nat) (ws : List (BitVec 32)) : List Fp × BitVec 5 :=
  let zero : Fp := .fin false 0 0
  let pad (xs : List Fp) (z : Fp) : List Fp :=
    if u = 0 then xs ++ List.replicate 16 z else List.replicate 16 z ++ xs
  if f = 4 then
    let rs := ws.map toBf16
    (pad (rs.map (fun r => decElem 0 r.1)) zero, rs.foldl (fun g r => g ||| r.2) 0)
  else
    let fmt := kvMx f
    let sc := blockScale fmt ws
    match sc.2.1 with
    | none => (List.replicate 32 .nan, sc.2.2)
    | some x =>
      let rs := ws.map (toElem fmt x)
      (pad (rs.map (fun r => scaleBy sc.1 (decElem fmt r.1))) (scaleBy sc.1 zero), rs.foldl (fun g r => g ||| r.2) sc.2.2)

/-- A head's query tile for chunk c; rows beyond the query rows are zero (R180). -/
def AttendJob.queryVecs (j : AttendJob) (head c : Nat) : List (List Fp) :=
  let fq := kvQuery (aFmt j.desc)
  let t := (j.query.drop ((head * (aHead j.desc / 32) + c) * fq)).take fq
  (List.range 16).map (fun r =>
    if r < attRows j.desc then tileVec (kvMx (aFmt j.desc)) t r else List.replicate 32 (.fin false 0 0))

/-- Scores of half u of a block: MMAZ, then chained MMAs (R180). -/
def AttendJob.scores (j : AttendJob) (head u : Nat) (part : List Byte) : List (List (BitVec 32)) × BitVec 5 :=
  let f := aFmt j.desc
  let n := aHead j.desc / 32
  (List.range n).foldl (fun (t : List (List (BitVec 32)) × BitVec 5) c =>
    let k := kvImage f ((part.drop ((u * n + c) * kvTile f)).take (kvTile f))
    let r := mmaVecs (if c = 0 then none else some t.1) (j.queryVecs head c) (tileVecs (kvMx f) k)
    (r.1, t.2 ||| r.2)) ([], 0)

/-- One half block of the walk of a member (R180). One with no visible lane changes no bit of the state; the spec does not
say whether its operations still raise flags, and they raise none (DESIGN CHOICE, log 101). -/
def AttendJob.half (j : AttendJob) (head b u : Nat) (part : List Byte) (st : Partial) : Partial :=
  if !j.visibleAny b (16 * u) 16 then st
  else
    let d := j.desc
    let f := aFmt d
    let rows := attRows d
    let sc := j.scores head u part
    let t0 := (List.range rows).map (fun r => (List.range 16).map (fun l =>
      if j.visible b (16 * u + l) r then (sc.1.getD r []).getD l 0 else negInf))
    let mx := t0.zipIdx.map (fun t => smaxRow (st.m.getD t.2 0) t.1)
    let ex := mx.map (fun r => r.2.2.1.map vExp2)
    let ws := ex.map (fun r => r.map (·.1))
    let sm := ws.zipIdx.map (fun w => ssumRow (st.s.getD w.2 0) ((mx.map (·.2.1)).getD w.2 0) w.1)
    let ps := ws.map (pRow f u)
    let pv := (List.range 16).map (fun r => if r < rows then (ps.getD r ([], 0)).1 else List.replicate 32 (.fin false 0 0))
    let acc := (List.range (aHead d / 16)).map (fun g =>
      mmaVecs none pv (tileVecs (kvMx f) (kvImage f ((part.drop ((aHead d / 16 + g) * kvTile f)).take (kvTile f)))))
    let os := (List.range rows).map (fun r => (List.range (aHead d)).map (fun n =>
      vFma ((st.o.getD r []).getD n 0) ((sm.getD r (0, 0, 0)).2.1)
        ((((acc.getD (n / 16) ([], 0)).1).getD r []).getD (n % 16) 0)))
    let fl (xs : List (BitVec 5)) : BitVec 5 := xs.foldl (· ||| ·) 0
    { m := mx.map (·.1), s := sm.map (·.1), o := os.map (fun r => r.map (·.1)),
      flags := st.flags ||| sc.2 ||| fl (mx.map (·.2.2.2)) ||| fl (ex.map (fun r => fl (r.map (·.2)))) |||
        fl (sm.map (·.2.2)) ||| fl (ps.map (·.2)) ||| fl (acc.map (·.2)) ||| fl (os.map (fun r => fl (r.map (·.2)))) }

/-- The start of a partial state. -/
def partialStart (d : List (BitVec 32)) : Partial :=
  { m := List.replicate (attRows d) negInf, s := List.replicate (attRows d) 0,
    o := List.replicate (attRows d) (List.replicate (aHead d) 0) }

/-- The partial state of member i of subteam `head`, from the head parts as its page reads found them (R180, R183). -/
def AttendJob.memberState (j : AttendJob) (head i : Nat) : Partial :=
  (j.share i).foldl (fun st b =>
    let part := j.pages.get (4096 * (head * j.ns + i) + b) []
    j.half head b 1 part (j.half head b 0 part st)) (partialStart j.desc)

/-- merge(a, b) of one row: (m, s, row of O) and flags (R181). -/
def mergeRow (am as_ : BitVec 32) (ao : List (BitVec 32)) (bm bs : BitVec 32) (bo : List (BitVec 32)) :
    BitVec 32 × BitVec 32 × List (BitVec 32) × BitVec 5 :=
  if bm = negInf then (am, as_, ao, 0)
  else if am = negInf then (bm, bs, bo, 0)
  else
    let mn := vMax am bm
    let pe := vSub am mn.1
    let p := vExp2 pe.1
    let qe := vSub bm mn.1
    let q := vExp2 qe.1
    let s1 := vMul as_ p.1
    let s2 := vFma bs q.1 s1.1
    let os := (ao.zip bo).map (fun o =>
      let x := vMul o.1 p.1
      let y := vFma o.2 q.1 x.1
      (y.1, x.2 ||| y.2))
    (mn.1, s2.1, os.map (·.1),
     os.foldl (fun f o => f ||| o.2) (mn.2 ||| pe.2 ||| p.2 ||| qe.2 ||| q.2 ||| s1.2 ||| s2.2))

def mergeStates (a b : Partial) : Partial :=
  let rs := a.m.zipIdx.map (fun m => mergeRow m.1 (a.s.getD m.2 0) (a.o.getD m.2 []) (b.m.getD m.2 0) (b.s.getD m.2 0) (b.o.getD m.2 []))
  { m := rs.map (·.1), s := rs.map (·.2.1), o := rs.map (·.2.2.1),
    flags := rs.foldl (fun f r => f ||| r.2.2.2) (a.flags ||| b.flags) }

/-- The members whose states member i merges, in order: i + 1, i + 2, i + 4, up to the step at which
it sends its own (R181). -/
def mergeFrom (ns i : Nat) : List Nat :=
  ((List.range 11).filter (fun k => decide (i % 2 ^ (k + 1) = 0) && decide (i + 2 ^ k < ns))).map (fun k => i + 2 ^ k)

/-- The output of a subteam: bytes at an offset from OOFF, and flags (R182). -/
def AttendJob.output (j : AttendJob) (st : Partial) : List Byte × BitVec 5 :=
  let d := j.desc
  let hd := aHead d
  let rc := st.s.zipIdx.map (fun x => if st.m.getD x.2 0 = negInf then ((0 : BitVec 32), (0 : BitVec 5)) else vRcp x.1)
  let os := (List.range 16).map (fun r =>
    if attRows d ≤ r ∨ st.m.getD r negInf = negInf then List.replicate hd ((0 : BitVec 32), (0 : BitVec 5))
    else (List.range hd).map (fun n => vMul ((st.o.getD r []).getD n 0) (rc.getD r (0, 0)).1))
  let lane (r n : Nat) : BitVec 32 × BitVec 5 := (os.getD r []).getD n (0, 0)
  let f1 := os.foldl (fun f r => r.foldl (fun g x => g ||| x.2) f) (rc.foldl (fun f x => f ||| x.2) st.flags)
  if aBf16 d then
    let rs := (List.range (hd / 32)).flatMap (fun c => (List.range 16).flatMap (fun r =>
      (List.range 32).map (fun k => toBf16 (lane r (32 * c + k)).1)))
    (rs.flatMap (fun x => leBytes 2 x.1), rs.foldl (fun f x => f ||| x.2) f1)
  else
    ((List.range (hd / 16)).flatMap (fun g => (List.range 16).flatMap (fun r =>
      (List.range 16).flatMap (fun l => leBytes 4 (lane r (16 * g + l)).1.toNat))), f1)

/-- A member's own program may use its engines again; what the sequencer left in its work range the
spec does not state (R175, R181; free values, log 12). -/
def State.releaseMember (s : State) (pod : Nat) (j : AttendJob) (m : Nat) : State :=
  let i := memberCore pod j.desc m
  let c := s.core i
  let n := workBytes j.desc
  let a := hByte (c.handle (aWh j.desc))
  let bs := (List.range n).map (fun k => BitVec.ofNat 8 (Config.freeValue (s.free + k)))
  let c1 := { (c.writeBytes a bs) with lent := false, ranges := c.ranges.filter (fun e => e.owner != .work pod) }
  let s1 := { (s.setCore i c1) with free := s.free + n }
  { s1 with panel := { s1.panel with seqs := s1.panel.seqs.put pod { j with lentCores := j.lentCores.filter (· != m) } } }

/-- Member m has read all its blocks. -/
def AttendJob.readDone (j : AttendJob) (m : Nat) : Bool :=
  j.todo.has m && (j.todo.get m []).isEmpty && j.flying.get m 0 == 0 && j.appends == 0

/-- ATTEND_MEMBER_RELEASE (R181): a member sends its state, or member 0 of a subteam writes its
output; then it is released. -/
def State.memberRelease (s : State) (pod m : Nat) (j : AttendJob) : State :=
  let i := m % j.ns
  let head := m / j.ns
  let base := head * j.ns
  let from_ := mergeFrom j.ns i
  if !(j.lentCores.contains m && j.readDone m && from_.all (fun k => j.sent.has (base + k))) then s
  else
    let st := from_.foldl (fun t k => mergeStates t (j.sent.get (base + k) {})) (j.memberState head i)
    let j1 := { j with sent := from_.foldl (fun t k => t.erase (base + k)) j.sent }
    if i ≠ 0 then s.releaseMember pod { j1 with sent := j1.sent.put m st } m
    else
      let o := j.output st
      let c := s.core j.core
      match c.store (j.oaddr + head * o.1.length) o.1 with
      | .inr f => s.dataFault j.core f
      | .inl k => (s.setCore j.core k).releaseMember pod { j1 with outs := j1.outs ++ [head], flags := j1.flags ||| o.2 } m

def execAttendMemberRelease (pod : BitVec 8) (member : Nat) (s : State) : Out :=
  atPod pod s (fun s =>
    match s.panel.seqs.find? pod.toNat with
    | some j => if j.accepted && s.streamsGo j.core && !s.engineDown (srcSeq pod.toNat) then s.memberRelease pod.toNat member j else s
    | none => s)

/-- ATTEND_COMPLETE (R182): every output is written and every member released. -/
def execAttendComplete (pod : BitVec 8) (s : State) : Out :=
  atPod pod s (fun s =>
    match s.panel.seqs.find? pod.toNat with
    | some j =>
      if j.accepted && s.streamsGo j.core && !s.engineDown (srcSeq pod.toNat) && j.lentCores.isEmpty && decide (j.outs.length = aHk j.desc) then
        let c := ((s.core j.core).releaseAttend j.id 2).raise j.flags
        let s1 := s.setCore j.core (if aNote j.desc then { c with due := c.due ++ [aTag j.desc] } else c)
        { s1 with panel := { s1.panel with seqs := s1.panel.seqs.erase pod.toNat } }
      else s
    | none => s)

/-- The packets of a pod's sequencer leave the pairs of a port. -/
def StackPort.dropAtt (k : StackPort) (pod : Nat) : StackPort :=
  { k with pairs := k.pairs.map (fun (e : Nat × Pair) =>
      (e.1, { e.2 with reqs := e.2.reqs.filter (fun q => !(q.att.map (fun w => w.pod == pod)).getD false) })) }

/-- An ATTEND is ended and its walk count returned (R248 CUT, R311, R312); its members are released. Its packets stand in
their pairs until these are flushed. -/
def State.leaveAttend (s : State) (pod : Nat) : State :=
  match s.panel.seqs.find? pod with
  | none => s
  | some j =>
    let s1 := s.endIf j
    let s2 := { s1 with panel := { s1.panel with seqs := s1.panel.seqs.erase pod } }
    j.lentCores.foldl (fun t m => t.modCore (memberCore pod j.desc m) (fun c =>
      { c with lent := false, ranges := c.ranges.filter (fun e => e.owner != .work pod) })) s2

/-- An ATTEND is ended and its packets are dropped. -/
def State.endAttend (s : State) (pod : Nat) : State :=
  let s1 := s.leaveAttend pod
  if s.panel.seqs.has pod then { s1 with ports := s1.ports.map (fun (e : Nat × StackPort) => (e.1, e.2.dropAtt pod)) } else s1

end Sys2Proof.Machine
end

