-- ==== Sys2Proof/Machine/Crypto.lean ====
section
/-! DEFINITION. The digests, checks and signatures the spec names by their standards: SHA-256 (FIPS
180-4), CRC-32C, and ECDSA verification on P-256 (R159, R189, R221, R344). -/
namespace Sys2Proof.Machine

open Sys2Proof

/-! ## SHA-256 (FIPS 180-4) -/

/-- The prime numbers below 312, of which there are 64. -/
def shaPrimes : List Nat :=
  (List.range 312).filter (fun n => decide (2 ≤ n) && ((List.range 18).drop 2).all (fun d => decide (n ≤ d) || decide (n % d ≠ 0)))

/-- The integer e-th root of v, bit by bit downwards, of k bits above those of r. -/
def rootBits (e v : Nat) : Nat → Nat → Nat
  | 0, r => r
  | k + 1, r => rootBits e v k (if (r + 2 ^ k) ^ e ≤ v then r + 2 ^ k else r)

/-- The first 32 bits of the fraction of the e-th root of p. -/
def rootFraction (e p : Nat) : BitVec 32 := BitVec.ofNat 32 (rootBits e (p * 2 ^ (32 * e)) 38 0)

/-- The round constants: fractions of the primes' cube roots (FIPS 180-4, 4.2.2). -/
def shaK : List (BitVec 32) := shaPrimes.map (rootFraction 3)

/-- The first hash value: fractions of the square roots of the first eight (FIPS 180-4, 5.3.3). -/
def shaInit : List (BitVec 32) := (shaPrimes.take 8).map (rootFraction 2)

/-- A big-endian value of bytes. -/
def beNat (bs : List Byte) : Nat := bs.foldl (fun n b => 256 * n + b.toNat) 0

/-- Big-endian bytes of a value. -/
def beBytes (n v : Nat) : List Byte := (leBytes n v).reverse

/-- The exclusive or of a word rotated right by each of these counts. -/
def rotations (ns : List Nat) (x : BitVec 32) : BitVec 32 := ns.foldl (fun y n => y ^^^ x.rotateRight n) 0

/-- The message schedule, newest word first, extended n times. -/
def shaExtend : Nat → List (BitVec 32) → List (BitVec 32)
  | 0, ws => ws
  | n + 1, ws =>
    let back (k : Nat) : BitVec 32 := ws.getD (k - 1) 0
    shaExtend n ((back 16 + back 7 + (rotations [7, 18] (back 15) ^^^ (back 15 >>> 3)) + (rotations [17, 19] (back 2) ^^^ (back 2 >>> 10))) :: ws)

/-- One round on the eight working variables, a to h in order; kw is the round's constant plus the schedule's word. -/
def shaRound (v : List (BitVec 32)) (kw : BitVec 32) : List (BitVec 32) :=
  let x (i : Nat) : BitVec 32 := v.getD i 0
  let choice := x 6 ^^^ (x 4 &&& (x 5 ^^^ x 6))
  let most := (x 0 &&& x 1) ||| (x 2 &&& (x 0 ||| x 1))
  let t := x 7 + kw + choice + rotations [6, 11, 25] (x 4)
  (t + most + rotations [2, 13, 22] (x 0)) :: (v.take 3 ++ (x 3 + t) :: (v.drop 4).take 3)

/-- One block of 64 bytes. -/
def shaBlock (h : List (BitVec 32)) (blk : List Byte) : List (BitVec 32) :=
  let w0 := (List.range 16).map (fun i => BitVec.ofNat 32 (beNat ((blk.drop (4 * i)).take 4)))
  let ws := (shaExtend 48 w0.reverse).reverse
  List.zipWith (· + ·) h ((List.zipWith (· + ·) shaK ws).foldl shaRound h)

/-- The blocks of a padded message. -/
def shaBlocks : Nat → List Byte → List (BitVec 32) → List (BitVec 32)
  | 0, _, h => h
  | n + 1, m, h => shaBlocks n (m.drop 64) (shaBlock h (m.take 64))

/-- SHA-256; the first byte of the digest is its most significant. -/
def sha256 (m : List Byte) : BitVec 256 :=
  let pad := (119 - m.length % 64) % 64
  let msg := m ++ (0x80 : Byte) :: (List.replicate pad 0 ++ beBytes 8 (8 * m.length))
  let h := shaBlocks (msg.length / 64) msg shaInit
  BitVec.ofNat 256 (h.foldl (fun n w => 2 ^ 32 * n + w.toNat) 0)

/-- The 32 bytes of a digest, and the digest in 32 bytes. -/
def digBytes (d : BitVec 256) : List Byte := beBytes 32 d.toNat
def digOf (bs : List Byte) : BitVec 256 := BitVec.ofNat 256 (beNat (bs.take 32))

/-! ## CRC-32C (reflected polynomial 0x82F63B78) -/

def crcBits : Nat → BitVec 32 → BitVec 32
  | 0, c => c
  | n + 1, c => crcBits n (if c.getLsbD 0 then c >>> 1 ^^^ 0x82F63B78#32 else c >>> 1)

def crc32c (bs : List Byte) : BitVec 32 :=
  ~~~(bs.foldl (fun (c : BitVec 32) b => crcBits 8 (c ^^^ b.setWidth 32)) 0xFFFFFFFF#32)

/-! ## ECDSA on P-256 -/

def p256p : Nat := 0xFFFFFFFF00000001000000000000000000000000FFFFFFFFFFFFFFFFFFFFFFFF
def p256n : Nat := 0xFFFFFFFF00000000FFFFFFFFFFFFFFFFBCE6FAADA7179E84F3B9CAC2FC632551
def p256b : Nat := 0x5AC635D8AA3A93E7B3EBBD55769886BC651D06B0CC53B0F63BCE3C3E27D2604B
def p256g : Nat × Nat :=
  (0x6B17D1F2E12C4247F8BCE6E563A440F277037D812DEB33A0F4A13945D898C296,
   0x4FE342E2FE1A7F9B8EE7EB4A7C0F9E162BCE33576B315ECECBB6406837BF51F5)

/-- x to the e modulo m, by the low k bits of e. -/
def powMod (m : Nat) : Nat → Nat → Nat → Nat → Nat
  | 0, _, _, acc => acc
  | k + 1, x, e, acc => powMod m k (x * x % m) (e / 2) (if e % 2 = 1 then acc * x % m else acc)

/-- The inverse modulo a prime. -/
def invMod (m x : Nat) : Nat := powMod m 256 (x % m) (m - 2) 1

/-- A point in Jacobian coordinates: x / z^2 and y / z^3; z is 0 at infinity. -/
structure EcPoint where
  x : Nat
  y : Nat
  z : Nat
  deriving DecidableEq, Repr

def EcPoint.inf : EcPoint := { x := 1, y := 1, z := 0 }
def EcPoint.affine (p : Nat × Nat) : EcPoint := { x := p.1, y := p.2, z := 1 }

/-- The difference of two residues. -/
def subMod (a b : Nat) : Nat := (a + (p256p - b % p256p)) % p256p

/-- Twice a point; the curve's a is -3. -/
def ecDouble (p : EcPoint) : EcPoint :=
  let d := p.z * p.z % p256p
  let g := p.y * p.y % p256p
  let b := p.x * g % p256p
  let a := 3 * (subMod p.x d * (p.x + d)) % p256p
  let x := subMod (a * a) (8 * b)
  { x := x, y := subMod (a * subMod (4 * b) x) (8 * (g * g)), z := 2 * (p.y * p.z) % p256p }

/-- The sum of two points. -/
def ecAdd (p q : EcPoint) : EcPoint :=
  if p.z = 0 then q
  else if q.z = 0 then p
  else
    let pz := p.z * p.z % p256p
    let qz := q.z * q.z % p256p
    let u := p.x * qz % p256p
    let v := p.y * (q.z * qz) % p256p
    let h := subMod (q.x * pz) u
    let r := subMod (q.y * (p.z * pz)) v
    if h = 0 then (if r = 0 then ecDouble p else EcPoint.inf)
    else
      let hh := h * h % p256p
      let w := u * hh % p256p
      let x := subMod (r * r) (h * hh + 2 * w)
      { x := x, y := subMod (r * subMod w x) (v * (h * hh)), z := h * (p.z * q.z) % p256p }

/-- k times a point, by the low n bits of k. -/
def ecMul : Nat → Nat → EcPoint → EcPoint → EcPoint
  | 0, _, _, acc => acc
  | n + 1, k, p, acc => ecMul n (k / 2) (ecDouble p) (if k % 2 = 1 then ecAdd acc p else acc)

/-- a times one point and b times another; none is the point at infinity. -/
def ecSum (a : Nat) (p : Nat × Nat) (b : Nat) (q : Nat × Nat) : Option (Nat × Nat) :=
  let r := ecAdd (ecMul 256 a (EcPoint.affine p) EcPoint.inf) (ecMul 256 b (EcPoint.affine q) EcPoint.inf)
  if r.z = 0 then none
  else
    let i := invMod p256p r.z
    some (r.x * (i * i) % p256p, r.y * (i * i * i) % p256p)

/-- A point of the curve. -/
def onCurve (x y : Nat) : Bool :=
  decide (x < p256p) && decide (y < p256p) &&
  decide (y * y % p256p = (x * x * x + (p256p - 3) * x + p256b) % p256p)

/-- ECDSA verification: public key (x, y), digest, signature (r, s). -/
def ecdsaOk (x y : Nat) (dig : BitVec 256) (r s : Nat) : Bool :=
  if !onCurve x y || decide (r = 0) || decide (p256n ≤ r) || decide (s = 0) || decide (p256n ≤ s) then false
  else
    let w := invMod p256n s
    let u1 := dig.toNat % p256n * w % p256n
    let u2 := r * w % p256n
    match ecSum u1 p256g u2 (x, y) with
    | none => false
    | some q => decide (q.1 % p256n = r)

/-! ## Keys and signatures (R342) -/

/-- The 64 bytes of a public key: X then Y, each little-endian (R342). -/
def keyBytes (x y : Nat) : List Byte := leBytes 32 x ++ leBytes 32 y

/-- The digest of a public key (R342). -/
def keyDigest (x y : Nat) : BitVec 256 := sha256 (keyBytes x y)

/-- A signature, r then s little-endian, verifies under the key in 64 bytes (R342, R344). -/
def sigOk (key : List Byte) (dig : BitVec 256) (sig : List Byte) : Bool :=
  decide (sig.length = 64) &&
  ecdsaOk (leNat (key.take 32)) (leNat ((key.drop 32).take 32)) dig (leNat (sig.take 32)) (leNat (sig.drop 32))

/-- The points of the curve at x: the square roots of x^3 - 3x + b, where there are any. -/
def pointsAt (x : Nat) : List (Nat × Nat) :=
  let y := powMod p256p 254 ((x * x * x + (p256p - 3) * x + p256b) % p256p) ((p256p + 1) / 4) 1
  [(x, y), (x, (p256p - y) % p256p)].filter (fun q => onCurve q.1 q.2)

/-- Every public key under which a signature verifies: (s R - e G) / r for each point R whose x is r
modulo n. -/
def signers (dig : BitVec 256) (r s : Nat) : List (Nat × Nat) :=
  if r = 0 ∨ p256n ≤ r ∨ s = 0 ∨ p256n ≤ s then []
  else
    let w := invMod p256n r
    let u1 := (p256n - dig.toNat % p256n) * w % p256n
    let u2 := s * w % p256n
    ((pointsAt r ++ (if r + p256n < p256p then pointsAt (r + p256n) else [])).filterMap (fun q =>
      ecSum u1 p256g u2 q)).filter (fun k => ecdsaOk k.1 k.2 dig r s)

/-- A signature verifies under a key whose digest is `signer` (R190, R348, R355): the digest alone is
held, and the key is one of those that the signature itself fixes (log 24). -/
def sigUnder (signer dig : BitVec 256) (sig : List Byte) : Bool :=
  decide (sig.length = 64) &&
  (signers dig (leNat (sig.take 32)) (leNat (sig.drop 32))).any (fun k => keyDigest k.1 k.2 == signer)

end Sys2Proof.Machine
end

