-- ==== Sys2Proof/Machine/Tick.lean ====
section
/-! DEFINITION. The tick of a context and what falls on it: commits, quiesce, resume, swaps, stretch,
overruns, publications, admission and results (R32 to R41, R64, R90, R200 to R208, R248, R249, R276
to R279, R387). -/
namespace Sys2Proof.Machine

open Sys2Proof

/-! ## Execution state (R50, R249, R311) -/

/-- The execution state as at start: what R249 lists, with the streams and waits of the core. -/
def Core.clearExec (c : Core) : Core :=
  { c with ctrs := [], cmps := [], bidx := 0, issuing := false, stopped := false, earliest := 0,
           pendTicks := 0, waitTick := false, latSlips := [], newFlags := 0, counted := none, flags := 0,
           acc := [], tile := [], vec := [], lenRow := 16, lenCol := 16, mxFree := 0, mxAcc := none,
           veFree := 0, tileFree := 0, moves := [], fetch := none, tested := none, regs := [], ranges := [], ld := [], st := [],
           unclaimed := [], due := [], qnotes := [], watch := none }

/-- At start the sticky flags, the slip counts and the idle count are clear too: they run from the context's
start (R63, R90). -/
def Core.startClear (c : Core) : Core :=
  { c.clearExec with sticky := 0, slip := 0, slipTotal := 0, idle := 0 }

/-- Pairs of a context on every port. -/
def State.ctxPairs (s : State) (c : Nat) : List (Nat × Nat) :=
  s.ports.flatMap (fun e => (e.2.qps c).map (fun q => (e.1, q)))

/-- End every ATTEND of a context and return its walk counts (R167). -/
def State.endWalks (s : State) (c : Nat) : State :=
  ((s.panel.seqs.filter (fun e => e.2.ctx == c)).map (·.1)).foldl State.leaveAttend s

/-- Flush every queue pair of a context (R150). -/
def State.flushCtx (s : State) (c : Nat) : State :=
  (s.ctxPairs c).foldl (fun t e => t.flushPair e.1 c e.2) s

/-- Streams of a core are abandoned. -/
def Core.dropStreams (c : Core) : Core :=
  { c with ld := [], st := [], ranges := c.ranges.filter (fun e =>
      match e.owner with
      | .stream _ _ => false
      | _ => true) }

/-! ## The commit (R9, R100, R101, R387) -/

/-- A written entry as it stands before the commit: only its LV fields change. -/
def lvEntry (old new : BitVec 128) : BitVec 128 :=
  BitVec.ofNat 128 (old.toNat / 2 ^ 114 * 2 ^ 114 + new.toNat % 2 ^ 114)

/-- GEN advances when a commit changes BASE, SIZE or DESC or sets VALID (R100). -/
def genEntry (old new : BitVec 128) : BitVec 128 :=
  let new := lvEntry old new
  if hBase old != hBase new || hSize old != hSize new || hDesc old != hDesc new || (hValid new && !hValid old) then
    BitVec.ofNat 128 (nextGen (hGen old) * 2 ^ 120 + new.toNat % 2 ^ 120)
  else new

/-- The pair that fails at one handle of a core (R101). -/
def pairFault (e : Nat → BitVec 128) (h : Nat) : Option Nat :=
  let x := e h
  if !hValid x then none
  else if hSize x < 1 ∨ 768 < hBase x + hSize x then some 1
  else if hWin x ∧ hRankHi x < hRankLo x then some 2
  else if hDesc x && (hWin x ||
      (List.range 64).any (fun k => decide (k ≠ h) && hValid (e k) &&
        decide (hBase (e k) < hBase x + hSize x) && decide (hBase x < hBase (e k) + hSize (e k))) ||
      decide (64 < ((List.range 64).filter (fun k => hValid (e k) && hDesc (e k))).foldl (fun n k => n + hSize (e k)) 0))
    then some 3
  else none

/-- The first failing handle of a core and its pair. -/
def handlesFault (e : Nat → BitVec 128) : Option (Nat × Nat) :=
  (List.range 64).findSome? (fun h => (pairFault e h).map (fun p => (h, p)))

/-- The descriptor store holds what the scratchpad holds in the bytes of a descriptor handle (R103). -/
def Core.mirror (c : Core) (e : BitVec 128) : Core :=
  if hValid e && hDesc e then { c with dstore := Cells.write 0 c.dstore (hByte e) (c.bytes (hByte e) (hBytes e)) } else c

/-- The entries of a core once the writes of the shadow set are in force; a handle that becomes a descriptor handle, or one
that is moved, has its bytes in both stores (R103). -/
def Core.afterWrites (c : Core) (ws : List (Nat × BitVec 128)) : Core :=
  let raw := ws.foldl (fun t w => t.setHandle w.1 (lvEntry (t.handle w.1) w.2)) c
  let new := ((ws.map (·.1)).eraseDups).foldl (fun t h => t.setHandle h (genEntry (c.handle h) (raw.handle h))) c
  ((ws.map (·.1)).eraseDups).foldl (fun t h => if new.handle h = c.handle h then t else t.mirror (new.handle h)) new

def Shadow.writesOf (w : Shadow) (k : Nat) : List (Nat × BitVec 128) :=
  (w.handles.filter (fun e => e.1 == k)).map (·.2)

def Shadow.cores (w : Shadow) : List Nat := ((w.handles.map (·.1)).eraseDups).mergeSort (fun a b => decide (a ≤ b))

/-- First failing core, in order of number, that is smallest cy, then smallest cx (R387). -/
def State.commitFault (s : State) (w : Shadow) : Option (Nat × Nat × Nat) :=
  w.cores.findSome? (fun k =>
    (handlesFault (fun h => ((s.core k).afterWrites (w.writesOf k)).handle h)).map (fun f => (k, f)))

/-- An LV write of a queue-pair record: 0 EMPTY, 1 CUT, 2 IDLE (Table 7.3). -/
def Pair.lvWrite (p : Pair) (what : BitVec 2) (v : BitVec 16) (idle : BitVec 32) : Pair :=
  if what = 0 then { p with empty := decide (v ≠ 0) }
  else if what = 1 then { p with cut := v }
  else { p with idle := idle }

/-- The slots a context holds on a port become those of a mask (Table 12.7). -/
def StackPort.grantSlots (p : StackPort) (c : Nat) (mask : BitVec 64) : StackPort :=
  let kept := p.slots.filter (fun e => e.2 != c)
  { p with slots := (List.range 62).foldl (fun t k => if mask.getLsbD k then t.put k c else t) kept }

/-- Descriptors staged for a context's next commit. -/
def State.stagedOf (s : State) (c : Nat) : List Taken :=
  (s.fn (c + 1)).ctlq.filter (fun d => d.st == .staged) ++
  (s.fn 0).ctlq.filter (fun d => d.st == .staged && decide (d.word 4 % 64 = c))

/-- CX_CRJ (Table 20.6). -/
def crjWord (k h pair : Nat) : BitVec 32 :=
  BitVec.ofNat 32 (pair * 2 ^ 30 + h * 2 ^ 24 + coreCx k * 2 ^ 9 + coreCy k)

/-- A swap is accepted and its resume tick has not come (R210). -/
def Context.inSwap (x : Context) : Bool :=
  x.wset.load.any (·.swap) || x.wset.resumeAt.isSome || x.wset.old.isSome

/-- A GAP committed during a swap comes into force (R210). -/
def WSet.takeGap (w : WSet) : WSet := { w with gap := w.gapNext.getD w.gap, gapNext := none }

/-- Put a checked shadow set in force. -/
def State.putShadow (s : State) (c : Nat) (w : Shadow) : State :=
  let s1 := s.modCores w.cores (fun k x => x.afterWrites (w.writesOf k))
  let s2 := w.pairs.foldl (fun t e =>
    if (t.port e.1).hasPair c e.2.1 then t.setPair e.1 c e.2.1 (((t.port e.1).pair c e.2.1).lvWrite e.2.2.1 e.2.2.2.1 e.2.2.2.2)
    else t) s1
  let s3 := w.slots.foldl (fun t e => t.modPort e.1 (fun p => p.grantSlots c e.2)) s2
  s3.modCtx c (fun x => { x with shadow := {}, lastCommit := BitVec.ofNat 32 x.fcount,
                                 wset := match w.gap with
      | some g => if x.inSwap then { x.wset with gapNext := some g } else { x.wset with gap := g }
      | none => x.wset })

/-- The commit point of a context (R387). -/
def State.commit (s : State) (c : Nat) : State :=
  let w := (s.ctx c).shadow
  let ds := s.stagedOf c
  if w = {} ∧ ds.isEmpty then s
  else
    match s.commitFault w with
    | none => ds.foldl (fun t d => t.complete d 0 0) (s.putShadow c w)
    | some (k, h, pair) =>
      let crj := crjWord k h pair
      let s1 := s.modCtx c (fun x => { x with shadow := {}, cfgst := x.cfgst ||| 4#3, crj := crj })
      ds.foldl (fun t d => t.complete d 0x0114 pair) (s1.postCtx c 0x8003 srcCtx crj.toNat ds.length)

/-! ## Quiesce and resume (R248, R249) -/

/-- The descriptor of a function that has been begun and is the one of `op`. -/
def State.runningOp (s : State) (f op : Nat) : Option Taken :=
  ((s.fn f).ctlq ++ (s.fn f).bg).find? (fun d => (d.st == .running || d.st == .timedOut) && decide (d.op = op))

/-- The state a quiesce ends in: a re-bind, a teardown and a partition reset scrub from then on
(Table 11.3, log 39). -/
def Quiesce.ends (q : Quiesce) : CtxState :=
  match q.why with
  | .rebind | .teardown | .partReset => .scrubbing
  | .desc | .job => .quiesced

/-- The context becomes QUIESCED, or SCRUBBING; a QUIESCE descriptor completes, whatever the quiesce has come to serve. -/
def State.quiesced (s : State) (c : Nat) (q : Quiesce) : State :=
  let s1 := s.modCtx c (fun x => { x with st := q.ends, cutq := q.cut, quiesce := none,
                                          rebindTo := x.rebindTo.map (fun r => (r.1, s.tcb.now)) })
  match s1.runningOp (c + 1) 0x09 with
  | some d => s1.complete d 0 0
  | none => s1

/-- CUT at tick Q: issue stops, streams are abandoned, walks ended, pairs flushed, microbatches end
CANCELLED (R248). An ATTEND ends before its pairs are flushed, so that no empty item reaches it. -/
def State.cutQuiesce (s : State) (c : Nat) : State :=
  let s1 := s.mapOwned c (fun _ k => { k.dropStreams with issuing := false })
  (((s1.endWalks c).flushCtx c).endBatches c 0x0004 0)

/-- The quiesce tick Q; `n` is its tick number. -/
def State.quiesceNow (s : State) (c : Nat) (q : Quiesce) (n : Nat) : State :=
  if q.cut then (s.cutQuiesce c).quiesced c q
  else s.modCtx c (fun x => { x with quiesce := some { q with q := some n } })

/-- Under DRAIN, stage k is held from tick Q + k, and the last one makes the context QUIESCED. -/
def State.drainStep (s : State) (c n : Nat) : State :=
  let x := s.ctx c
  match x.quiesce with
  | some q =>
    match q.q with
    | some t =>
      let held := ((List.range x.stages).filter (fun k => decide (t + k ≤ n) && !x.held.contains k))
      let s1 := s.modCtx c (fun y => { y with held := y.held ++ held })
      if t + x.stages ≤ n + 1 then s1.quiesced c q else s1
    | none => s
  | none => s

/-- The resume tick (R249, R386): tier A has left self-refresh (R157), held TICKs issue, or after CUT every core restarts at bundle 0. -/
def State.resumeNow (s : State) (c : Nat) : State :=
  let x := s.ctx c
  let s1 := s.wakeTierA.modCtx c (fun y => { y with
    st := .running, cutq := false, resumeAt := none, held := [],
    runPeriod := y.period, startAt := if y.period = y.runPeriod then y.startAt else s.tcb.now })
  let s2 := if x.cutq then s1.mapOwned c (fun _ k => { k.clearExec with issuing := true }) else s1
  match s2.runningOp (c + 1) 0x0A with
  | some d => s2.complete d 0 0
  | none => s2

/-! ## Swap (R205 to R208) -/

/-- End every microbatch in flight with EPOCH_MISMATCH: its record is due at tick n + S (R204, R206). One that has been
through every stage is in flight no longer. -/
def Context.cutBatches (x : Context) (n : Nat) : Context :=
  { x with batches := x.batches.map (fun b =>
      if b.ended.isSome || b.copying || decide (x.stages ≤ n - b.tick) then b else { b with ended := some (5, n - b.tick) }) }

/-- A re-check under way ends with no verdict, and its engine is free (R210). -/
def State.dropRecheck (s : State) (c : Nat) : State :=
  match (s.ctx c).wset.recheck with
  | none => s
  | some r =>
    (s.modPort (r.shard % 24) (fun k => if k.engine = some (c, r.shard) then { k with engine := none } else k)).modCtx c (fun x =>
      { x with wset := { x.wset with recheck := none } })

/-- The switch tick T of an accepted swap; `n` is its tick number, `frame` its frame number. A stage that an earlier swap
has released stays held, and an old set that still drains goes on (R205, R208). -/
def State.switchSwap (s : State) (c n frame : Nat) : State :=
  let s := s.dropRecheck c
  let x := s.ctx c
  match x.wset.load, x.wset.next with
  | some l, some (sh, root, ep) =>
    let all := l.cut || decide (x.st ≠ .running)
    let o : OldSet := { tTick := n, cut := all, epoch := x.wset.epoch, root := x.wset.root, shards := x.wset.shards, lvf := x.wset.lvf }
    let w := { x.wset with st := 1, epoch := ep, root := root, shards := sh, next := none, recheck := none,
                           lastStart := none, nextShard := 0, resumeAt := none, old := some (x.wset.old.getD o),
                           load := some { l with armed := false, waiting := true, tTick := n } }
    s.modCtx c (fun y =>
      let y1 := { y with wset := w, held := if all then List.range y.stages else if y.held.contains 0 then y.held else y.held ++ [0] }
      if l.cut then y1.cutBatches frame else y1)
  | _, _ => s

/-- Whether a swap waits for a switch tick at or before t. -/
def Context.swapDue (x : Context) (t : Nat) : Bool :=
  match x.wset.load with
  | some l => l.swap && l.armed && x.wset.next.isSome && decide (l.at_ ≤ t)
  | none => false

/-- Under DRAIN, stage k is released at tick T + k (R205). -/
def Context.releaseStages (x : Context) (n : Nat) : Context :=
  match x.wset.old with
  | some o =>
    if o.cut then x
    else { x with held := x.held ++ (List.range x.stages).filter (fun k => decide (o.tTick + k ≤ n) && !x.held.contains k) }
  | none => x

/-- The resume tick of a swap (R208): the held stages go on; BOUND and QUIESCED stay as R393 states. A GAP of R210 is in
force from it, and re-checks start after it. -/
def Context.swapResume (x : Context) : Context :=
  { x with wset := { x.wset.takeGap with resumeAt := none, freshAt := x.tickNo + 1 }, held := if x.st = .quiesced then x.held else [] }

/-! ## Stretch (R37, R39) -/

/-- A change of stretch is agreed: its event names the count and k (R39). It is posted when the count is
known to the module, as Table 16.6 shows (log 28). -/
def State.tellStretch (s : State) (c at_ old new : Nat) : State :=
  if new = 0 then s.postCtx c 0x8105 srcCtx (at_ % 2 ^ 32) (2 ^ old) else s.postCtx c 0x8104 srcCtx (at_ % 2 ^ 32) (2 ^ new)

/-- The agreed count of a stretch or restore: P_eff changes. -/
def State.stretchNow (s : State) (c : Nat) : State :=
  let x := s.ctx c
  match x.stretchTo with
  | none => s
  | some (at_, k) =>
    s.modCtx c (fun y => { y with stretch := k, stretchTo := none, stretchFor := y.stretchNext, stretchNext := 0, nextTick := max y.nextTick at_ })

/-- FRAME_BUDGET at its count (R37). -/
def State.budgetNow (s : State) (c : Nat) : State :=
  match (s.ctx c).budgetAt with
  | some b => (s.modCtx c (fun y => { y with budgetAt := none })).ctxFault c 0x0602 srcCtx b.2 0
  | none => s

/-! ## Overruns and publications (R40, R64, R65, R90) -/

/-- The core waits at its TICK with none pending: this tick lets it go on. -/
def Context.onTime (x : Context) (i : Nat) (k : Core) : Bool :=
  k.issuing && !k.stopped && k.waitTick && decide (k.pendTicks = 0) && x.coreOpen i

/-- The core has not reached its tick wait (R40, R52, R207). -/
def Context.overran (x : Context) (e : Nat × Core) : Bool :=
  e.2.issuing && !e.2.stopped && !x.coreHeld e.1 && !(e.2.waitTick && decide (e.2.pendTicks = 0))

/-- A tick finds overruns (R40). The pod its event names is that of the lowest-numbered core, row by row, that overran: the
spec names it the first overrunning pod and does not say in which order (DESIGN CHOICE, log 102). -/
def State.findOverruns (s : State) (c : Nat) : State :=
  let x := s.ctx c
  let late := (s.ownedCores c).filter x.overran
  match late with
  | [] => s
  | e :: _ =>
    let ks := late.filterMap (fun e => x.stage? e.1)
    let s1 := s.modCtx c (fun y => { y with overruns := satAdd y.overruns 1,
                                            batches := y.batches.map (fun b => if ks.contains (y.fcount - 1 - b.tick) then { b with late := true } else b) })
    s1.postCtx c 0x8107 srcCtx ((x.fcount - 1) % 2 ^ 32) (podOf e.1)

/-- The overruns of tick n are found once: R40 looks at the cores as the tick finds them, before what falls on it. -/
def State.lookOverruns (s : State) (c n : Nat) : State :=
  let x := s.ctx c
  let s1 := s.modCtx c (fun y => { y with lookedAt := n })
  if x.started && decide (1 < x.fcount) && decide (x.st = .running) && decide (x.lookedAt ≠ n) then s1.findOverruns c else s1

/-- The frame slips a core contributes to the publication, and its flags: of the frames it has latched since the last one,
and of the one it latches in this tick's cycle (R64, R90). -/
def Context.slipsOf (x : Context) (e : Nat × Core) : List Nat :=
  e.2.latSlips.map (·.toNat) ++ (if x.onTime e.1 e.2 then [e.2.slip.toNat] else [])
def Context.flagsOf (x : Context) (e : Nat × Core) : BitVec 5 :=
  e.2.newFlags ||| (if x.onTime e.1 e.2 then e.2.flags else 0)

/-- The publication of a tick after the first (R64, R65, R90): the sum of the slips latched, the largest one, and the core
that holds it. -/
def State.publish (s : State) (c : Nat) : State :=
  let x := s.ctx c
  let es := s.ownedCores c
  let sum := min (es.foldl (fun n e => n + (x.slipsOf e).sum) 0) (2 ^ 32 - 1)
  let big := es.foldl (fun m e => (x.slipsOf e).foldl max m) 0
  let top := if big = 0 then none else (es.find? (fun e => (x.slipsOf e).contains big)).map (·.1)
  let flags := es.foldl (fun f e => f ||| x.flagsOf e) 0
  let s1 := s.modCtx c (fun y => { y with slipSum := BitVec.ofNat 32 sum, slipMax := BitVec.ofNat 32 big, slipAt := top,
                                          numst := y.numst ||| flags,
                                          numfr := if y.numst = 0 ∧ flags ≠ 0 then BitVec.ofNat 32 y.fcount else y.numfr })
  let s2 := s1.mapOwned c (fun i k => { k with latSlips := [], newFlags := 0, counted := if x.onTime i k then some k.slip else k.counted })
  match top with
  | some i => if x.strict then s2.postCtx c 0x8108 (srcCore i) sum big else s2
  | none => s2

/-- The tick reaches every core: it restarts the phase, and is pending until a TICK takes it; cores of
a held stage and stopped cores take none. `fresh`: the tick starts the cores at bundle 0 (R33, R41,
R47, R94). -/
def State.deliverTick (s : State) (c : Nat) (fresh : Bool) : State :=
  let x := s.ctx c
  s.mapOwned c (fun i k =>
    if fresh then { k.restart with issuing := true, bidx := 0 }
    else if k.stopped || !k.issuing || x.coreHeld i then k.restart
    else { k.restart with pendTicks := k.pendTicks + 1 })

/-! ## Microbatches at a tick (R18, R204, R276 to R279) -/

/-- A descriptor's count has reached its TIMEOUT (R273). -/
def Taken.expired (d : Taken) : Bool := decide (d.word 1 ≤ d.ticks)

/-- A microbatch at the tick of frame n: a stage that does not serve its epoch ends it; at tick n + S
its result copy starts (R204, R279). -/
def Context.batchTick (x : Context) (b : Batch) : Batch :=
  let k := x.fcount - b.tick
  if b.ended.isSome || b.copying then b
  else if k < x.stages then (if x.stageServes k b.epoch then b else { b with ended := some (5, k) })
  else if k = x.stages ∧ !b.d.expired then { b with copying := true, numst := decide (x.numst ≠ 0) }
  else b

/-- Output slot of a microbatch (R279). -/
def Context.outSlot (x : Context) (seq : Nat) : Nat := (seq - 1) % (x.prog.map (fun p => p.out.n)).getD 1

/-- A copy whose slot's next user begins its last stage at this tick (R279). -/
def Context.overrunBy (x : Context) (b : Batch) : Bool :=
  b.copying && x.batches.any (fun e => decide (e.seq = b.seq + (x.prog.map (fun p => p.out.n)).getD 1) &&
    e.ended.isNone && decide (x.fcount - e.tick + 1 = x.stages))

/-- Results whose output slot is needed again end with OUTPUT_OVERRUN (R279). -/
def State.overrunTick (s : State) (c : Nat) : State :=
  let x := s.ctx c
  (x.batches.filter x.overrunBy).foldl (fun t b => t.endBatch c b 0x0008 (x.outSlot b.seq) false) s

/-- Stages, results and input slots at a tick. -/
def State.batchTicks (s : State) (c : Nat) : State :=
  let s1 := s.modCtx c (fun x =>
    let bs := x.batches.map x.batchTick
    { x with batches := bs,
             inBusy := x.inBusy.filter (fun k => !x.inFree.any (fun e => decide (e.1 = k) && decide (e.2 ≤ x.fcount))),
             inFree := x.inFree.filter (fun e => decide (x.fcount < e.2)) })
  let x := s1.ctx c
  (x.batches.filter (fun b => b.ended.isSome && decide (x.stages ≤ x.fcount - b.tick))).foldl
    (fun t b => t.endBatch c b 0 0 false) s1

/-- Microbatches may be admitted at this tick (R277). -/
def Context.admits (x : Context) : Bool :=
  decide (x.st = .running) && decide (x.wset.st = 2) && x.held.isEmpty && x.quiesce.all (fun q => q.q.isNone)

/-- The SUBMIT a tick admits: the oldest not timed out, if its fetch is complete (R277). -/
def State.admissible (s : State) (c : Nat) : Option Taken :=
  match (s.fn (c + 1)).admq.find? (fun d => !d.expired) with
  | some d => if (s.ctx c).admits && d.st == .fetched then some d else none
  | none => none

/-- Admission of one SUBMIT (R277, R203): it is stamped with the epoch. -/
def State.admitNow (s : State) (c : Nat) (d : Taken) : State :=
  let s1 := s.modFn (c + 1) (fun h => { h with admq := h.admq.filter (fun e => !e.same d) })
  s1.modCtx c (fun x => { x with admSeq := x.admSeq + 1,
                                 batches := x.batches ++ [{ seq := x.admSeq + 1, tick := x.fcount, epoch := x.wset.epoch, d := d }],
                                 inFree := match d.inSlot with
      | some k => x.inFree ++ [(k, x.fcount + 1)]
      | none => x.inFree })

/-- The 16 bytes of an admission line (R278). -/
def admissionLine (valid : Bool) (slot epoch seq : Nat) : List Byte :=
  leBytes 8 (bnat valid + slot % 65536 * 2 ^ 16 + epoch % 65536 * 2 ^ 32) ++ leBytes 8 seq

/-- The admission line at one stage-0 core (R278). -/
def State.lineAt (s : State) (c : Nat) (p : Program) (line : List Byte) (i : Nat) : State :=
  let k := s.core i
  let h := k.handle p.admH
  if !hValid h || hDesc h then s.ctxFault c 0x0201 (srcCore i) p.admH 0xFFFFFFFF
  else if !inBounds h p.admOff 16 then s.ctxFault c 0x0202 (srcCore i) p.admH p.admOff
  else
    match k.store (hByte h + p.admOff) line with
    | .inl k1 => s.setCore i { k1 with due := k1.due ++ [p.admTag] }
    | .inr f => s.dataFault i f

/-- The admission line at every stage-0 core of a RUNNING context (R278). SLOT of a line that admits
nothing is not stated: a free value (log 12). -/
def State.lines_ (s : State) (c : Nat) (d : Option Taken) : State :=
  match (s.ctx c).prog with
  | none => s
  | some p =>
    let x := s.ctx c
    let (slot, s1) := match d with
      | some d => (d.inSlot.getD 0, s)
      | none => (Config.freeValue s.free, { s with free := s.free + 1 })
    let line := admissionLine d.isSome slot x.wset.epoch x.admSeq
    ((s1.ownedCores c).filter (fun e => x.stage? e.1 == some 0)).foldl (fun t e => t.lineAt c p line e.1) s1

/-- A shard of a context asks for a digest engine: it is served if the engine is free and nothing that asked before it
waits, else it joins the queue (R192). -/
def StackPort.askEngine (k : StackPort) (a : Nat × Nat) : StackPort :=
  if k.engine.isNone && (k.engineQ.head?.all (fun e => e == a)) then
    { k with engine := some a, engineQ := k.engineQ.filter (fun e => e != a) }
  else if k.engineQ.contains a || k.engine == some a then k
  else { k with engineQ := k.engineQ ++ [a] }

/-- A shard still wants an engine it has asked for: its load has it to transfer, or it is being re-checked. -/
def State.wantsEngine (s : State) (a : Nat × Nat) : Bool :=
  (s.ctx a.1).wset.load.any (fun l => (!l.swap || l.waiting) && l.todo.contains a.2) || (s.ctx a.1).wset.recheck.any (fun r => r.shard == a.2)

/-- A shard asks for the engine of a port that serves (R192). -/
def State.askEngine (s : State) (p : Nat) (a : Nat × Nat) : State :=
  if s.portServes p then s.modPort p (fun k => { k with engineQ := k.engineQ.filter s.wantsEngine }.askEngine a) else s

/-- A re-check of the set may begin: the set is READY, no swap waits for its resume tick, and the resume tick is past
(R200, R210). -/
def Context.mayRecheck (x : Context) : Bool :=
  let w := x.wset
  let due := match w.lastStart with
    | some t => decide (t + w.gap.toNat ≤ x.tickNo)
    | none => true
  decide (w.st = 2) && decide (w.gap ≠ 0) && w.recheck.isNone && !w.shards.isEmpty && due && decide (x.st ≠ .scrubbing) &&
    w.resumeAt.isNone && !(decide (x.st = .running) && !x.held.isEmpty && x.quiesce.isNone) && decide (w.freshAt < x.tickNo)

/-- A re-check begins (R200); it asks for the engine of tier-A port i mod 24. -/
def State.startRecheck (s : State) (c : Nat) : State :=
  let x := s.ctx c
  let w := x.wset
  if x.mayRecheck then
    let i := w.nextShard % w.shards.length
    (s.modCtx c (fun y => { y with wset := { w with
      recheck := some { shard := i, tick := x.tickNo, tc := s.tcb.now },
      lastStart := some x.tickNo, nextShard := (w.nextShard + 1) % w.shards.length } })).askEngine (i % 24) (c, i)
  else s

/-! ## The tick -/

/-- Every descriptor taken before the tick counts it (R273). -/
def State.countTicks (s : State) (c : Nat) : State :=
  let up (ds : List Taken) : List Taken := ds.map (fun d => { d with ticks := d.ticks + 1 })
  let s1 := s.modFn (c + 1) (fun h => { h with admq := up h.admq, xferq := up h.xferq, ctlq := up h.ctlq, bg := up h.bg })
  s1.modCtx c (fun x => { x with batches := x.batches.map (fun (b : Batch) => { b with d := { b.d with ticks := b.d.ticks + 1 } }) })

/-- The count at which a context's next tick fires: a RESUME under a new PERIOD may come first (R386). -/
def Context.dueTick (x : Context) : Nat :=
  match x.resumeAt with
  | some r => if x.period ≠ x.runPeriod then min r x.nextTick else x.nextTick
  | none => x.nextTick

/-- What falls on the count of a tick before the tick itself acts: stretch, resume, quiesce, switch and
stage releases; `n` is the tick's number and `frame` its frame number. -/
def State.dueEvents (s : State) (c n frame : Nat) : State :=
  let t := s.tcb.now
  let due (a : Option Nat) : Bool := (a.map (fun v => decide (v ≤ t))).getD false
  let s := if due ((s.ctx c).stretchTo.map (·.1)) then s.stretchNow c else s
  let s := if due ((s.ctx c).budgetAt.map (·.1)) then s.budgetNow c else s
  let s := if due (s.ctx c).resumeAt && (s.ctx c).st == CtxState.quiesced then s.resumeNow c else s
  let s := if due (s.ctx c).wset.resumeAt then s.modCtx c Context.swapResume else s
  let s := match (s.ctx c).quiesce with
    | some q => if q.q.isNone && decide (q.at_ ≤ t) && (s.ctx c).st == CtxState.running then s.quiesceNow c q n else s
    | none => s
  let s := if (s.ctx c).swapDue t then s.switchSwap c n frame else s
  (s.modCtx c (fun x => x.releaseStages n)).drainStep c n

/-- A RUNNING or QUIESCED context at its tick (R18, R40, R64, R204, R277 to R279). -/
def State.frameTick (s : State) (c : Nat) (fresh : Bool) : State :=
  let s := if (s.ctx c).fcount ≤ 1 then s else s.publish c
  let s := if (s.ctx c).st = .running then s.deliverTick c fresh else s.mapOwned c (fun _ k => k.restart)
  let s := s.batchTicks c
  if (s.ctx c).st = .running then
    match s.admissible c with
    | some d => ((s.admitNow c d).overrunTick c).lines_ c (some d)
    | none => (s.overrunTick c).lines_ c none
  else s.overrunTick c

/-- A core of the context has three ticks pending (R41). -/
def State.runaway? (s : State) (c : Nat) : Option Nat :=
  ((s.ownedCores c).find? (fun e => decide (3 ≤ e.2.pendTicks))).map (·.1)

/-- FRAME_RUNAWAY (R41): issue stops on the whole context. -/
def State.runaway (s : State) (c : Nat) : State :=
  match (if (s.ctx c).st = .running then s.runaway? c else none) with
  | some i => s.ctxFault c 0x0601 (srcCore i) (((s.ctx c).fcount - 3) % 2 ^ 32) 0
  | none => s

/-- The tick of a context (R32). -/
def State.tick (s : State) (c : Nat) : State :=
  let s := s.runaway c
  let s := s.passTo (s.ctx c).dueTick
  let t := (s.ctx c).dueTick
  let n := (s.ctx c).tickNo + 1
  let frame := if (s.ctx c).started then (s.ctx c).fcount + 1 else (s.ctx c).fcount
  let cut := (s.ctx c).cutq
  let was := (s.ctx c).st
  let s := s.modCtx c (fun x => { x with fcount := frame })
  let s := s.lookOverruns c n
  let s := s.dueEvents c n frame
  let fresh := decide (frame = 1 ∧ (s.ctx c).started) || (cut && decide (was = .quiesced) && decide ((s.ctx c).st = .running))
  let s := s.modCtx c (fun x => { x with tickNo := n,
                                         nextTick := if x.started then t + x.eff else t + x.period })
  let s := (s.commit c).countTicks c
  let s := if (s.ctx c).started && (decide ((s.ctx c).st = .running) || decide ((s.ctx c).st = .quiesced)) then
      s.frameTick c fresh
    else s
  s.startRecheck c

/-- CONTEXT_TICK (R32). A context that is FREE has no tick. -/
def execContextTick (c : BitVec 6) (s : State) : Out :=
  .next (if (s.ctx c.toNat).st = .free then s else s.tick c.toNat)

/-- FRAME_RUNAWAY (R41). -/
def execFrameRunaway (c : BitVec 6) (s : State) : Out := .next (s.runaway c.toNat)

/-- A part of a tick that a command of its own does: its records carry the tick's number (R280), and
CONTEXT_TICK then counts the tick. -/
def State.underCount (s : State) (c : Nat) (f : State → State) : State :=
  let x := s.ctx c
  if x.started then
    (f (s.modCtx c (fun y => { y with fcount := x.fcount + 1 }))).modCtx c (fun y => { y with fcount := x.fcount })
  else f s

/-- QUIESCE_TICK (R248): the quiesce tick Q is reached; its tick follows as CONTEXT_TICK. -/
def execQuiesceTick (c : BitVec 6) (s : State) : Out :=
  .next (match (s.ctx c.toNat).quiesce with
    | some q =>
      if q.q.isNone && decide ((s.ctx c.toNat).st = .running) then
        let n := (s.ctx c.toNat).tickNo + 1
        (s.passTo q.at_).underCount c.toNat (fun t => ((t.lookOverruns c.toNat n).quiesceNow c.toNat q n).drainStep c.toNat n)
      else s
    | none => s)

/-- SWAP_SWITCH (R205): the switch tick T of an accepted swap; its tick follows as CONTEXT_TICK. -/
def execSwapSwitch (c : BitVec 6) (s : State) : Out :=
  let x := s.ctx c.toNat
  .next (match x.wset.load with
    | some l =>
      if x.swapDue l.at_ then
        (s.passTo l.at_).underCount c.toNat (fun t =>
          (t.lookOverruns c.toNat (x.tickNo + 1)).switchSwap c.toNat (x.tickNo + 1) (if x.started then x.fcount + 1 else x.fcount))
      else s
    | none => s)

/-- SWAP_RESUME (R208): the resume tick of a swap; its tick follows as CONTEXT_TICK. -/
def execSwapResume (c : BitVec 6) (s : State) : Out :=
  .next (match (s.ctx c.toNat).wset.resumeAt with
    | some t => (s.passTo t).modCtx c.toNat Context.swapResume
    | none => s)

/-- STRETCH_ON (R37): at the agreed count the period is stretched, or FRAME_BUDGET is raised. -/
def execStretchOn (c : BitVec 6) (s : State) : Out :=
  let x := s.ctx c.toNat
  .next (match x.stretchTo, x.budgetAt with
    | some (t, _ + 1), _ => (s.passTo t).stretchNow c.toNat
    | none, some b => (s.passTo b.1).budgetNow c.toNat
    | _, _ => s)

end Sys2Proof.Machine
end

