-- ==== Sys2Proof/Machine/Rings.lean ====
section
/-! DEFINITION. Host rings: doorbells, the tests of a descriptor, its taking and its timeout, inputs,
completion and result records (R19, R262 to R282, R323, R324). -/
namespace Sys2Proof.Machine

open Sys2Proof

/-! ## Configuration events (R388, Table 20.8) -/

/-- Space and offset of a register as ARG0 (Table 20.8). -/
def cfgArg (space off : Nat) : Nat := space * 2 ^ 30 + off % 2 ^ 30

/-- CFG_WWB (0x8001) or CFG_RANGE (0x8002) on a context's ring, or on the physical function's. -/
def State.cfgCtx (s : State) (c code space off v : Nat) : State := s.postCtx c code srcCtx (cfgArg space off) v
def State.cfgPf (s : State) (code space off v : Nat) : State := s.postPf code srcMgmt (cfgArg space off) v
/-- The same on the ring of function f. -/
def State.cfgFn (s : State) (f code space off v : Nat) : State :=
  if f = 0 then s.cfgPf code space off v else s.cfgCtx (f - 1) code space off v

/-! ## Ring control and doorbells (R265, R266) -/

/-- The ring block is busy (Table 20.7). -/
def HostFn.busy (h : HostFn) : Bool := h.enable || h.active

/-- Space and offset of the ring registers of a function (Table 12.2). -/
def ringSpace (f : Nat) : Nat := if f = 0 then 0 else 1
def ringOff (f : Nat) : Nat := if f = 0 then 0x81000 else 0x1000

/-- The largest MSI-X vector of a function (R261, R265). -/
def maxVec (f : Nat) : Nat := if f = 0 then 63 else 30

/-- A write of HI_RCTL (Table 12.3). -/
def State.rctlWrite (s : State) (f : Nat) (v : BitVec 32) : State :=
  let h := s.fn f
  let eq := fld v.toNat 21 16
  let cq := fld v.toNat 13 8
  let en := v.getLsbD 0
  let change := decide (eq ≠ h.eqVec) || decide (cq ≠ h.cqVec)
  let bad := (decide (eq ≠ h.eqVec) && decide (maxVec f < eq)) || (decide (cq ≠ h.cqVec) && decide (maxVec f < cq))
  let h1 := if h.busy then { h with wwb := h.wwb || change }
    else { h with eqVec := if eq ≤ maxVec f then eq else h.eqVec, cqVec := if cq ≤ maxVec f then cq else h.cqVec }
  let s1 := s.setFn f { h1 with enable := en, evlost := if en && !h.enable then 0 else h1.evlost }
  if h.busy && change then s1.cfgFn f 0x8001 (ringSpace f) (ringOff f + 0x18) v.toNat
  else if bad then s1.cfgFn f 0x8002 (ringSpace f) (ringOff f + 0x18) v.toNat
  else s1

/-- HI_RCTL_ENABLE (R265). -/
def execHiRctlEnable (fn : Nat) (v : BitVec 32) (s : State) : Out := atBar fn s (fun s => s.rctlWrite fn v)

/-- A doorbell value that would put the occupancy out of range is refused (R266). -/
def State.badDoorbell (s : State) (f ring : Nat) (v : BitVec 32) : State :=
  (s.modFn f (fun h => { h with baddb := true })).post f 0x8401 1 (f - 1) srcHost ring v.toNat

def State.dbSqt (s : State) (f : Nat) (v : BitVec 32) : State :=
  if (v - (s.fn f).sqh).toNat ≤ ringSize (s.fn f).sqLo then s.modFn f (fun h => { h with sqt := v })
  else s.badDoorbell f 0 v
def State.dbCqh (s : State) (f : Nat) (v : BitVec 32) : State :=
  if ((s.fn f).cqt - v).toNat ≤ ringSize (s.fn f).cqLo then s.modFn f (fun h => { h with cqh := v })
  else s.badDoorbell f 1 v
def State.dbEqh (s : State) (f : Nat) (v : BitVec 32) : State :=
  if ((s.fn f).eqt - v).toNat ≤ ringSize (s.fn f).eqLo then s.modFn f (fun h => { h with eqh := v })
  else s.badDoorbell f 2 v
/-- The commit doorbell; reserved on the physical function (Table 12.4). -/
def State.dbCommit (s : State) (f : Nat) (v : BitVec 32) : State :=
  if f = 0 then s else if v.getLsbD 0 then s.commit (f - 1) else s

/-- HI_DB_SQT (R266). -/
def execHiDbSqt (fn : Nat) (v : BitVec 32) (s : State) : Out := atBar fn s (fun s => s.dbSqt fn v)
/-- HI_DB_CQH (R266). -/
def execHiDbCqh (fn : Nat) (v : BitVec 32) (s : State) : Out := atBar fn s (fun s => s.dbCqh fn v)
/-- HI_DB_EQH (R266). -/
def execHiDbEqh (fn : Nat) (v : BitVec 32) (s : State) : Out := atBar fn s (fun s => s.dbEqh fn v)
/-- HI_DB_COMMIT (R387). -/
def execHiDbCommit (fn : Nat) (v : BitVec 32) (s : State) : Out := atBar fn s (fun s => s.dbCommit fn v)
/-- EVENT_LOST (R270): space has freed in a ring that has dropped events. -/
def execEventLost (fn : Nat) (s : State) : Out := atFn fn s (fun s => s.flushLost fn)
/-- HOST_RING_LOST (R262): a record write failed. -/
def execHostRingLost (fn : Nat) (s : State) : Out :=
  atFn fn s (fun s => (s.modFn fn (fun h => { h with enable := false, hosterr := true })).postPf 0x8403 srcHost fn 0)

/-! ## The tests of a descriptor (R272, R274) -/

def vfOps : List Nat := [1, 2, 3, 4, 5, 6, 7, 8, 9, 10, 11, 12]
def pfOps : List Nat := [0x20, 0x21, 0x22, 0x23, 0x24, 0x25, 0x26, 0x27, 0x28, 0x29, 0x2A, 0x2B, 0x36]
def managerOps : List Nat := [0x30, 0x31, 0x32, 0x33, 0x34, 0x35, 0x37, 0x38]

/-- The bits an operation lists in words 4 to 15 (Table 12.7). -/
def bodyMask (op : Nat) : List Nat :=
  let f := 0xFFFFFFFF
  if op = 0x01 then [f, f, f, f, f, f, f, f]
  else if op = 0x02 then [f, f, f, f, f, f]
  else if op = 0x03 then [f, f, 0x7FF, 0x3FF03FF, f]
  else if op = 0x04 then [0xFF01F3, 0xFF81FFFF, f, 0xFFFFFF, 0xFFFFF]
  else if op = 0x05 then [f, f, f, 0xFFFF0007, f, f, 0x1F, f, f, f]
  else if op = 0x06 then [f, f, f, 0xFFFF000B, f, f, 0x1F, f, f, f]
  else if op = 0x07 then [0x1F3, 0xFFFFFF, f, f, f, f]
  else if op = 0x09 then [1]
  else if op = 0x0B then [0x3F01F7, f, f, f, f, f, f, 0xFFFF, f, f]
  else if op = 0x0C then [0x3F000F, f, f, 0, f, f, f]
  else if op = 0x20 then [0x33F]
  else if op = 0x21 then [0x3F, 0xFFFF]
  else if op = 0x22 then [0x13F3F]
  else if op = 0x23 then [0x33F, f, f, f, f, 0x3F3F3F3F, 0x3F3F3F3F, 0x3F3F3F3F, 0x3F3F3F3F]
  else if op = 0x24 then [0x1F3F, f, 0xFFFF]
  else if op = 0x25 then [0x11F3F]
  else if op = 0x26 then [0xFFFF]
  else if op = 0x27 then [0x1F3F, 0, f, 0x3FFFFFFF]
  else if op = 0x28 then [f, f, f, 0, f, f]
  else if op = 0x29 then [f, f, f, f, f, f, f, f, f, f]
  else if op = 0x2A then [f, f, f, f, f, f, f, f]
  else if op = 0x2B then [7, f]
  else if op = 0x30 then [f, f, f, f, f, f]
  else if op = 0x33 then [0x1FFFF]
  else if op = 0x37 then [0x3FF]
  else if op = 0x38 then [f, 0, f, f]
  else if managerOps.contains op then [0xFFFF]
  else []

/-- Byte offset of the first unlisted bit that is set: that of its word, or of its byte in a list of
bytes. -/
def unlisted? (d : Taken) : Option Nat :=
  let head := 0x2FF + (if d.op = 1 then 0x100 else 0) + (if d.op = 6 then 0x400 else 0)
  if d.word 0 % 2 ^ 32 &&& (2 ^ 32 - 1 - head) ≠ 0 then some 0
  else
    let m := bodyMask d.op
    ((List.range 12).findSome? (fun k =>
      let bad := d.word (4 + k) &&& (2 ^ 32 - 1 - m.getD k 0)
      if bad = 0 then none
      else if d.op = 0x23 ∧ 5 ≤ k ∧ k ≤ 8 then some (16 + 4 * k + ((List.range 4).find? (fun b => fld bad (8 * b + 7) (8 * b) ≠ 0)).getD 0)
      else some (16 + 4 * k)))

/-- Column, row, width and height at word k of a descriptor. -/
def Taken.rect (d : Taken) (k : Nat) : Nat × Nat × Nat × Nat :=
  (d.word k % 65536, d.word k / 65536, d.word (k + 1) % 65536, d.word (k + 1) / 65536)

/-- A rectangle lies wholly in the context's partition (R272). -/
def Context.rectIn (x : Context) (r : Nat × Nat × Nat × Nat) : Bool :=
  match x.part with
  | some p => decide (1 ≤ r.2.2.1) && decide (1 ≤ r.2.2.2) && decide (r.1 + r.2.2.1 ≤ 40 * p.w) && decide (r.2.1 + r.2.2.2 ≤ 40 * p.h)
  | none => false

/-- The cores of a rectangle of a context, in row-major order. -/
def Context.rectCores (x : Context) (r : Nat × Nat × Nat × Nat) : List Nat :=
  (rectPlaces r.1 r.2.1 r.2.2.1 r.2.2.2).map (fun q => x.coreAt q.1 q.2)

/-- The context an operation of a function concerns: its own, or none on the physical function. -/
def Taken.ctxNo (d : Taken) : Nat := d.fn - 1

/-- Byte offsets of reserved values and of a rectangle outside the partition (R272). -/
def reservedAt (s : State) (d : Taken) : List Nat :=
  let w := d.word
  let bad (b : Bool) (off : Nat) : List Nat := if b then [off] else []
  let rect (k : Nat) : List Nat := bad (!(s.ctx d.ctxNo).rectIn (d.rect k)) (4 * k)
  let op := d.op
  if op = 0x01 then bad (decide (fld (w 0) 8 8 = 1) && decide (w 10 % 256 ≠ 0)) 0x28
  else if op = 0x03 then rect 4
  else if op = 0x04 then
    bad (decide (w 4 % 4 = 3)) 0x10 ++ bad (decide (w 4 % 4 ≠ 2) && decide (2 ≤ fld (w 5) 31 30)) 0x14
  else if op = 0x05 then
    bad (decide (fld (w 7) 1 0 = 3)) 0x1C ++ bad (decide (fld (w 7) 1 0 = 1) && decide (24 ≤ w 10 % 32)) 0x28
  else if op = 0x06 then
    bad (decide (fld (w 7) 1 0 = 3)) 0x1C ++ bad (decide (fld (w 7) 1 0 = 1) && decide (24 ≤ w 10 % 32)) 0x28
  else if op = 0x07 then bad (decide (w 4 % 4 = 3)) 0x10
  else if op = 0x0B then
    bad (decide (fld (w 4) 2 1 = 3) || (decide (fld (w 4) 2 1 = 2) && decide (w 4 % 2 = 1))) 0x10 ++
    (if fld (w 4) 2 1 = 0 then rect 5 else [])
  else if op = 0x0C then
    bad (decide (7 ≤ w 4 % 16)) 0x10 ++ (if [0, 1, 2, 6].contains (w 4 % 16) then rect 5 else [])
  else if op = 0x23 then bad (decide (16 < w 5)) 0x14
  else if op = 0x27 then bad (decide (w 7 / 2 ^ 30 ≠ 0)) 0x18
  else if op = 0x2B then
    let l := w 4 % 8
    bad (decide (5 ≤ l)) 0x10 ++
    bad (if l = 2 then decide (4 ≤ w 5 / 2 ^ 28) else if l = 1 ∨ l = 3 then decide (64 ≤ w 5) else decide (w 5 ≠ 0)) 0x14
  else []

/-- Tests 1 to 3 of R272: status and DETAIL of the first that fails. -/
def descTest (s : State) (d : Taken) : Option (Nat × Nat) :=
  let op := d.op
  if !(vfOps ++ pfOps ++ managerOps).contains op then some (0x0009, 0)
  else if (decide (d.fn = 0) && vfOps.contains op) || (decide (d.fn ≠ 0) && !vfOps.contains op) ||
      (managerOps.contains op && decide (s.ep.role ≠ 2)) || (decide (op = 0x08) && decide ((s.ctx d.ctxNo).job ≠ 0)) then some (0x000A, 0)
  else
    let offs := (unlisted? d).toList ++ (if d.word 1 = 0 then [4] else []) ++ reservedAt s d
    if offs.isEmpty then none else some (0x0009, offs.foldl min 0x3F)

/-! ## Taking (R267, R268) -/

/-- A free entry of the completion ring beyond those reserved (R267). -/
def HostFn.cqFree (h : HostFn) : Nat := ringSize h.cqLo - ((h.cqt - h.cqh).toNat + h.res.toNat)

/-- The physical function counts multiples of 1,000,000 tc as ticks (R273). -/
def State.pfTick (s : State) : Nat := s.tcb.now / 1000000

/-- The descriptor at the submission head. -/
def State.descAt (s : State) (f : Nat) : Taken :=
  let h := s.fn f
  let slot := h.sqh.toNat % ringSize h.sqLo
  let bs := s.hostRead (ringAddr h.sqLo h.sqHi + 64 * slot) 64
  { w := (List.range 16).map (fun k => BitVec.ofNat 32 (leNat ((bs.drop (4 * k)).take 4))),
    num := h.sqh.toNat, slot := slot, fn := f, ticks := if f = 0 then s.pfTick else 0 }

/-- Put a taken descriptor into its queue (R268). -/
def HostFn.enqueue (h : HostFn) (d : Taken) : HostFn :=
  if d.op = 0x01 then { h with admq := h.admq ++ [d] }
  else if d.op = 0x0B ∨ d.op = 0x0C then { h with xferq := h.xferq ++ [d] }
  else { h with ctlq := h.ctlq ++ [d] }

/-- What a PROGRAM_LOAD's checks will use of the module (R290). The grade, the stepping and the rest of the disabled-unit map
never change between module starts. -/
def State.seenBy (s : State) (c : Nat) : Seen :=
  let x := s.ctx c
  { part := x.part, wins := s.ports.filterMap (fun e => (e.2.wins.find? c).map (fun w => (e.1, w))),
    period := x.period, floor := x.floor, withdrawn := s.mg.withdrawn }

/-- DESCRIPTOR_TAKE (R267, R272). -/
def execDescriptorTake (fn : Nat) (s : State) : Out :=
  atFn fn s (fun s =>
    let h := s.fn fn
    if h.enable && !h.flr && decide (h.sqt ≠ h.sqh) && decide (0 < h.cqFree) then
      let d := s.descAt fn
      let s1 := s.setFn fn { h with sqh := h.sqh + 1, res := h.res + 1 }
      match descTest s1 d with
      | some (st, det) => s1.record d st det 0 (if d.op = 1 then (s1.ctx (fn - 1)).wset.lvf else 0) (s1.frameOf fn) false false
      | none => s1.modFn fn (fun h => h.enqueue (if d.op = 2 then { d with seen := some (s.seenBy (fn - 1)) } else d))
    else s)

/-- The first descriptor of the control queue, if it is an operation not yet begun. -/
def State.ctlHead (s : State) (f op : Nat) : Option Taken :=
  match (s.fn f).ctlq with
  | d :: _ => if d.st = .waiting ∧ d.op = op then some d else none
  | [] => none

/-- The same for the transfer queue. -/
def State.xferHead (s : State) (f op : Nat) : Option Taken :=
  match (s.fn f).xferq with
  | d :: _ => if d.st = .waiting ∧ d.op = op then some d else none
  | [] => none

/-- Set how far a descriptor has got. -/
def State.setSt (s : State) (d : Taken) (st : TakenSt) : State :=
  let up (l : List Taken) : List Taken := l.map (fun e => if e.same d then { e with st := st } else e)
  s.modFn d.fn (fun h => { h with admq := up h.admq, xferq := up h.xferq, ctlq := up h.ctlq, bg := up h.bg })

/-- An operation is accepted and goes on in the background; its queue goes on (R268). -/
def State.toBg (s : State) (d : Taken) (st : TakenSt) : State :=
  s.modFn d.fn (fun h => { h with ctlq := h.ctlq.filter (fun e => !e.same d), xferq := h.xferq.filter (fun e => !e.same d),
                                  bg := h.bg.filter (fun e => !e.same d) ++ [{ d with st := st }] })

/-- Complete with HOST_ABORT after `off` bytes (R262). -/
def State.hostAbort (s : State) (d : Taken) (off : Nat) : State :=
  let s1 := s.complete d 0x000B off
  { s1 with link := { s1.link with aborts := satAdd s1.link.aborts 1 } }

/-! ## Bytes in handles and windows (R103, R276, R282, R289) -/

/-- A host/debug write to a handle's bytes; a descriptor handle's store takes it too (R103). -/
def Core.hostStore (c : Core) (h off : Nat) (bs : List Byte) : Core ⊕ (Nat × Nat × Nat) :=
  let a := hByte (c.handle h) + off
  match c.store a bs with
  | .inr f => .inr f
  | .inl c1 => .inl (if hDesc (c.handle h) then { c1 with dstore := Cells.write 0 c1.dstore a bs } else c1)

/-- A core that the host interface's attachment core does not reach, or that does not reach it (R119): the fault of its
context. -/
def State.hostFault (s : State) (i : Nat) : State :=
  match (s.core i).owner with
  | some c => s.ctxFault c 0x0501 srcHost (1024 * coreCx i + coreCy i) 0
  | none => s
def State.hostReaches (s : State) (i : Nat) : Bool := s.reachable (attachPos 6) (posOf i) && s.reachable (posOf i) (attachPos 6)

/-- The same as a step of the machine; a fault is the context's (R112). -/
def State.turnStore (s : State) (i h off : Nat) (bs : List Byte) : State :=
  if bs.isEmpty then s
  else
    match (s.core i).hostStore h off bs with
    | .inl c => s.setCore i c
    | .inr f => s.dataFault i f

/-- The same for bytes that come from the host interface (R119). -/
def State.hostStore (s : State) (i h off : Nat) (bs : List Byte) : State :=
  if !bs.isEmpty && !s.hostReaches i then s.hostFault i else s.turnStore i h off bs

/-- Read a handle's bytes on one core for the host. -/
def State.handleRead (s : State) (i h off n : Nat) : List Byte ⊕ State :=
  if !s.hostReaches i then .inr (s.hostFault i)
  else
    match (s.core i).load (hByte ((s.core i).handle h) + off) n with
    | .inl bs => .inl bs
    | .inr f => .inr (s.dataFault i f)

/-- The errors that a read of a handle's bytes corrects (R112). -/
def State.handleUsed (s : State) (i h off n : Nat) : State := s.modCore i (fun k => k.correct (hByte (k.handle h) + off) n)

/-- The cores of an input or output area (R289). -/
def IoArea.places (a : IoArea) (x : Context) : List Nat := x.rectCores (a.x, a.y, a.w, a.h)

/-- Bytes of a slot on each core. -/
def IoArea.piece (a : IoArea) : Nat := a.size / (a.w * a.h)

/-- Write the first bytes of a slot (R276, R289). -/
def State.slotWrite (s : State) (c : Nat) (a : IoArea) (slot : Nat) (bs : List Byte) : State :=
  if a.kind = 0 then s.windowWrite c a.port (a.off + slot * a.size) bs
  else ((a.places (s.ctx c)).zipIdx).foldl (fun t e =>
    t.hostStore e.1 a.hd (a.off + slot * a.piece) ((bs.drop (e.2 * a.piece)).take a.piece)) s

/-- Read the first n bytes of a slot. -/
def State.slotRead (s : State) (c : Nat) (a : IoArea) (slot n : Nat) : List Byte ⊕ State :=
  if a.kind = 0 then s.windowRead c a.port (a.off + slot * a.size) n
  else ((a.places (s.ctx c)).zipIdx).foldl (fun (t : List Byte ⊕ State) e =>
    match t with
    | .inr u => .inr u
    | .inl bs =>
      let k := min a.piece (n - bs.length)
      if k = 0 then .inl bs
      else
        match s.handleRead e.1 a.hd (a.off + slot * a.piece) k with
        | .inl cs => .inl (bs ++ cs)
        | .inr u => .inr u) (.inl [])

/-- What a read of the first n bytes of a slot corrects and wakes. -/
def State.slotUsed (s : State) (c : Nat) (a : IoArea) (slot n : Nat) : State :=
  if a.kind = 0 then s.windowUsed c a.port (a.off + slot * a.size) n
  else ((a.places (s.ctx c)).zipIdx).foldl (fun t e =>
    t.handleUsed e.1 a.hd (a.off + slot * a.piece) (min a.piece (n - e.2 * a.piece))) s

/-! ## SUBMIT (R276) -/

/-- SUBMIT (R276): the oldest one not yet looked at is refused, or its fetch into the next slot begins. -/
def execSubmit (fn : Nat) (s : State) : Out :=
  atFn fn s (fun s =>
    let c := fn - 1
    let x := s.ctx c
    match (s.fn fn).admq.find? (fun d => d.st == .waiting) with
    | none => s
    | some d =>
      match x.prog with
      | none => s.completeSubmit d 0x0116 0
      | some p =>
        if d.word 6 = 0 ∨ p.inp.size < d.word 6 then s.completeSubmit d 0x0009 0x18
        else if d.word 7 = 0 ∨ p.out.size < d.word 7 then s.completeSubmit d 0x0009 0x1C
        else if x.inBusy.contains x.nextIn then s
        else
          let s1 := s.modCtx c (fun y => { y with inBusy := y.inBusy ++ [y.nextIn], nextIn := (y.nextIn + 1) % p.inp.n })
          s1.modFn fn (fun h => { h with admq := h.admq.map (fun e =>
            if e.same d then { e with st := .fetching, inSlot := some x.nextIn } else e) }))

/-- INPUT_FETCH_DONE (R276): the oldest fetch under way ends. -/
def execInputFetchDone (c : BitVec 6) (dma : Dma) (s : State) : Out :=
  let f := c.toNat + 1
  .next (match (s.fn f).admq.find? (fun d => d.st == .fetching), (s.ctx c.toNat).prog with
    | some d, some p =>
      match dma with
      | .abort off =>
        let s1 := s.completeSubmit d 0x000B off
        { s1 with link := { s1.link with aborts := satAdd s1.link.aborts 1 } }
      | .ok =>
        let bs := s.hostRead (d.dword 4) (d.word 6)
        let s1 := s.modFn f (fun h => { h with admq := h.admq.map (fun e =>
          if e.same d then { e with st := .fetched, digest := sha256 bs } else e) })
        s1.slotWrite c.toNat p.inp (d.inSlot.getD 0) bs
    | _, _ => s)

/-! ## Results (R19, R279 to R281, R323, R324) -/

/-- The disabled-unit map (Table 15.3). -/
def State.unitMap (s : State) : List Byte :=
  let up (l : List Nat) : List Nat := l.mergeSort (fun a b => decide (a ≤ b))
  let seqs := s.mg.seqOff.filter (fun p => !s.mg.withdrawn.contains p)
  let ports := (List.range 32).filter (fun p => s.fitted p && (s.port p).disabled)
  leBytes 2 1 ++ leBytes 4 s.mg.spare.length ++ leBytes 1 s.mg.withdrawn.length ++ leBytes 1 seqs.length ++
  leBytes 1 ports.length ++ List.replicate 7 0 ++
  (up s.mg.spare).flatMap (fun n => leBytes 4 (n % 1024 + 2 ^ 10 * (n / 1024))) ++
  (up s.mg.withdrawn).flatMap (leBytes 1) ++ (up seqs).flatMap (leBytes 1) ++ ports.flatMap (leBytes 1)

/-- MAPDIG (R324). -/
def State.mapDig (s : State) : BitVec 256 := sha256 s.unitMap

/-- Bytes 0x00 to 0xDF of the result record (Table 12.9). -/
def State.resultHead (s : State) (c : Nat) (b : Batch) (out : List Byte) : List Byte :=
  let x := s.ctx c
  leBytes 4 0x3152524A ++ leBytes 1 s.ident.grade.toNat ++ leBytes 1 s.ident.step.toNat ++ leBytes 2 b.epoch ++
  leBytes 8 (b.tick + x.stages) ++ leBytes 4 (x.wset.lvfOf b.epoch) ++ leBytes 1 (bnat b.late + 2 * bnat b.numst) ++
  List.replicate 3 0 ++ leBytes 8 s.sec.latch.ver.toNat ++ digBytes ((x.prog.map (·.digest)).getD 0) ++
  digBytes (x.wset.rootOf b.epoch) ++ digBytes b.d.digest ++ digBytes (sha256 out) ++ digBytes s.mapDig ++ List.replicate 32 0

/-- The 256 bytes of the result record (R281). -/
def State.resultRecord (s : State) (c : Nat) (b : Batch) (out : List Byte) : List Byte :=
  let h := s.resultHead c b out
  h ++ digBytes (sha256 h)

/-- The SUBMIT asks for a result record (Table 12.5). -/
def Taken.wantsResult (d : Taken) : Bool := decide (fld (d.word 0) 8 8 = 1)

/-- The copy of a microbatch's result ends well (R19, R279, R281). -/
def State.postResult (s : State) (c : Nat) (b : Batch) (out : List Byte) : State :=
  let s1 := s.hostWrite (b.d.dword 8) out
  let s2 := if b.d.wantsResult then s1.hostWrite (b.d.dword 10) (s1.resultRecord c b out) else s1
  s2.endBatch c b 0 0 b.d.wantsResult

/-- Two runs of bytes meet. -/
def runsMeet (a n b m : Nat) : Bool := decide (a < b + m) && decide (b < a + n)

/-- A queued QWRITE of an access-mode pair has still to write bytes of a window run. -/
def QPacket.writesIn (k : QPacket) (mode : BitVec 2) (i : Core) (off n : Nat) : Bool :=
  !k.read && k.att.isNone && decide (mode = 0) && (List.range k.s.count).any (fun e =>
    (k.side.indexed && k.idxs.isEmpty) || decide (k.elemOff i e < (off + n : Nat)) && decide ((off : Int) < k.elemOff i e + (dElem k.s.desc : Nat)))

/-- A stream that has not read its source yet, and will write bytes of handle h on one of these cores: an MSEND toward
them, or a SCATTER of theirs (R108). -/
def StreamRec.writesHandle (r : StreamRec) (own : Nat) (places : List Nat) (h : Nat) : Bool :=
  match r.op with
  | .msend => places.contains (640 * dCy r.desc + dCx r.desc) && decide (dWh r.desc = h)
  | .scatter => places.contains own && decide ((dDst r.desc).h = h)
  | _ => false

/-- Nothing that has been issued has still to write an output slot (R19). -/
def State.slotQuiet (s : State) (c : Nat) (a : IoArea) (slot : Nat) : Bool :=
  if a.kind = 0 then
    !(s.port a.port).pairs.any (fun e => decide (e.1 / 256 = c) &&
      e.2.reqs.any (fun k => k.writesIn e.2.mode (s.core k.core) (a.off + slot * a.size) a.size))
  else
    let ps := a.places (s.ctx c)
    !s.panel.flight.any (fun k => decide (k.ctx = c) && (k.op == .write || k.op == .reduceAdd) && ps.contains k.dst && decide (k.wh = a.hd) &&
      runsMeet k.off k.len (a.off + slot * a.piece) a.piece) &&
    !(s.ownedCores c).any (fun e => e.2.st.any (fun r => r.writesHandle e.1 ps a.hd))

/-- The last stage's work on a microbatch is over, so that its copy can start (R19): each of its cores has
stopped, waits at its TICK, or has gone on past tick n + S (R41), and its writes to the output slot have completed
(log 37). -/
def State.lastDone (s : State) (c : Nat) (b : Batch) : Bool :=
  let x := s.ctx c
  (s.ownedCores c).all (fun e => decide (x.stage? e.1 ≠ some (x.stages - 1)) || !e.2.issuing || e.2.stopped || e.2.waitTick ||
    decide (b.tick + x.stages + e.2.pendTicks ≤ x.fcount)) &&
  (x.prog.map (fun p => s.slotQuiet c p.out (x.outSlot b.seq))).getD true

/-- COMPLETION_POST (R19): the result copy of microbatch `seq` ends. -/
def execCompletionPost (c : BitVec 6) (seq : Nat) (dma : Dma) (s : State) : Out :=
  let x := s.ctx c.toNat
  .next (match x.batches.find? (fun b => decide (b.seq = seq) && b.copying && s.lastDone c.toNat b), x.prog with
    | some b, some p =>
      match dma with
      | .abort off =>
        let s1 := s.endBatch c.toNat b 0x000B off false
        { s1 with link := { s1.link with aborts := satAdd s1.link.aborts 1 } }
      | .ok =>
        match s.slotRead c.toNat p.out (x.outSlot seq) (b.d.word 7) with
        | .inl out => (s.slotUsed c.toNat p.out (x.outSlot seq) (b.d.word 7)).postResult c.toNat b out
        | .inr u => u
    | _, _ => s)

/-! ## Load ends (R196) -/

/-- Numbers of shards in a state, in ascending order. -/
def shardsIn (sh : List Shard) (st : ShardSt) : List Nat :=
  sh.zipIdx.filterMap (fun e => if e.1.st = st then some e.2 else none)

/-- WS_SHARD_LIST events: four numbers each, bit 15 set for MISSING (Table 14.11). -/
def State.listShards (s : State) (c : Nat) (ns : List Nat) : State :=
  (List.range ((ns.length + 3) / 4)).foldl (fun t k =>
    let g (j : Nat) : Nat := ns.getD (4 * k + j) 0xFFFF
    t.postCtx c 0x8301 srcCtx (g 0 + 65536 * g 1) (g 2 + 65536 * g 3)) s

/-- A load that is JOB reports to the manager (R209). -/
def State.reportLoad (s : State) (c : Nat) (l : Load) (failed : Option (List Nat)) : State :=
  if l.job then s.ctl (.loaded s.modIndex (s.ctx c).job failed) else s

/-- Every shard is GOOD, BAD or MISSING: the load ends (R196, R202, R208). The last-good frame is the frame
of the tick that the load's end precedes while the context runs, as in Table 9.9 (log 27). -/
def State.endLoad (s : State) (c : Nat) (l : Load) : State :=
  let x := s.ctx c
  let sh := x.wset.shards
  let frame := if x.st = .running then x.fcount + 1 else x.fcount
  if sh.all (fun h => h.st == .good) then
    let resumes := !x.held.isEmpty && x.st == .running
    let w := { x.wset with st := 2, load := none, shards := sh.map (fun (h : Shard) => { h with lastGood := frame }), old := none,
                           resumeAt := if resumes && !l.job then some x.nextTick else none }
    let s1 := s.modCtx c (fun y => { y with wset := if resumes then w else w.takeGap, held := if y.st = .bound then [] else y.held })
    (s1.complete l.d 0 0).reportLoad c l none
  else
    let bad := shardsIn sh .bad
    let miss := shardsIn sh .missing
    let s1 := s.modCtx c (fun y => { y with wset := { y.wset with st := 1, load := none } })
    let ns := ((bad ++ miss).mergeSort (fun a b => decide (a ≤ b))).map (fun n => if miss.contains n then n + 2 ^ 15 else n)
    ((s1.listShards c ns).complete l.d 0x020A (65536 * bad.length + miss.length)).reportLoad c l (some ns)

/-- The load has no shard left to transfer. -/
def Context.loadDone (x : Context) : Bool :=
  x.wset.shards.all (fun h => h.st != .absent && h.st != .arriving)

/-- The digest engines that serve a context are released (R159). -/
def State.freeEngines (s : State) (c : Nat) : State :=
  { s with ports := s.ports.map (fun (e : Nat × StackPort) =>
    if e.2.engine.any (fun g => g.1 == c) then (e.1, { e.2 with engine := none }) else e) }

/-- A load's timeout: every ABSENT or ARRIVING shard becomes MISSING (R196). -/
def State.timeoutLoad (s : State) (c : Nat) (l : Load) : State :=
  ((s.freeEngines c).modCtx c (fun y => { y with wset := { y.wset with shards := y.wset.shards.map (fun h =>
    if h.st = .absent ∨ h.st = .arriving then { h with st := .missing } else h) } })).endLoad c l

/-! ## Timeouts (R169, R196, R273, R292, R308) -/

/-- The counter at which a descriptor of the physical function has waited for its TIMEOUT (R273). -/
def Taken.pfDeadline (d : Taken) : Nat := (d.ticks + d.word 1) * 1000000

/-- The descriptor of a function that times out in a ring slot: one whose count has reached TIMEOUT, and on the physical
function, which counts by the clock, the one that does so first. -/
def State.descOf (s : State) (f slot : Nat) : Option Taken :=
  let h := s.fn f
  let ds := (h.admq ++ h.xferq ++ h.ctlq ++ h.bg).filter (fun d => decide (d.slot = slot) && d.st != .timedOut)
  if f = 0 then ds.foldl (fun (a : Option Taken) d => if a.any (fun e => decide (e.pfDeadline ≤ d.pfDeadline)) then a else some d) none
  else ds.find? (fun d => d.expired)

/-- A pending EDIT_PAGETABLE is ended: the region stays as the last flip left it (R169). -/
def State.dropEdit (s : State) (d : Taken) : State :=
  let p := fld (d.word 4) 8 4
  s.modPort p (fun k => { k with regions := k.regions.map (fun r =>
    if r.ctx = d.ctxNo ∧ r.base = 4096 * (d.word 5 % 2 ^ 24) then
      { r with edits := r.edits.filter (fun e => e.2 != d.num),
               flipped := r.flipped.filter (fun e => e.1 != d.num) }
    else r) })

/-- The effect of a timeout on an operation other than SUBMIT. -/
def State.timeoutOp (s : State) (d : Taken) : State :=
  let c := d.ctxNo
  match (if d.op = 0x05 ∨ d.op = 0x06 then (s.ctx c).wset.load else none) with
  | some l =>
    if l.d.same d && (!l.swap || l.waiting) then s.timeoutLoad c l
    else (s.record d 3 0 0 0 (s.frameOf d.fn) false false).toBg d .timedOut
  | none =>
    if d.st = .waiting then s.complete d 3 0
    else if d.op = 0x07 ∧ d.word 4 % 4 = 1 then (s.complete d 3 0).dropEdit d
    else (s.record d 3 0 0 0 (s.frameOf d.fn) false false).toBg d .timedOut

/-- DESCRIPTOR_TIMEOUT (R273): the count of the descriptor in ring slot `slot` has reached TIMEOUT. -/
def execDescriptorTimeout (fn slot : Nat) (s : State) : Out :=
  atFn fn s (fun s =>
    if fn = 0 then
      match s.descOf 0 slot with
      | some d => (s.passTo d.pfDeadline).timeoutOp d
      | none => s
    else
      match s.descOf fn slot with
      | some d =>
        if d.op = 0x01 then s.completeSubmit d 3 0
        else s.timeoutOp d
      | none =>
        match (s.ctx (fn - 1)).batches.find? (fun b => decide (b.d.slot = slot) && b.d.expired) with
        | some b => s.endBatch (fn - 1) b 3 0 false
        | none => s)

end Sys2Proof.Machine
end

