-- ==== Sys2Proof/Machine/Contexts.lean ====
section
/-! DEFINITION. Contexts: their descriptors from creation to teardown, partitions, windows, slots,
handles and queue pairs (R138, R142, R152, R241 to R256, R275, R296, R387). -/
namespace Sys2Proof.Machine

open Sys2Proof

/-! ## Start, quiesce, resume (R243, R248, R249, R296) -/

/-- A refusal: the descriptor completes with the status and changes nothing else. -/
def State.refuseCx (s : State) (d : Taken) (c : Nat) : State := s.complete d 0x0100 (s.ctx c).st.code

/-- What refuses a START or RESUME after the state: NO_PROGRAM, WS_NOT_READY, LD_BUDGET (Table 11.3). -/
def Context.startFault (x : Context) : Option (Nat × Nat) :=
  match x.prog with
  | none => some (0x0116, 0)
  | some p =>
    if x.wset.st ≠ 2 then some (0x020C, x.wset.st)
    else if budget x.period x.floor < p.d then some (0x000D, 0x000F)
    else none

/-- The context starts: its first tick is at `at_` (R32, R50, R69, R157). Input slots that earlier microbatches were to free
are free (R276). -/
def State.startCtx (s : State) (c at_ : Nat) : State :=
  let s1 := s.wakeTierA.modCtx c (fun x => { x with st := .running, started := true, fcount := 0, admSeq := 0,
                                                    startAt := at_, nextTick := at_, runPeriod := x.period, deaf := false, stretch := 0, held := [],
                                                    batches := [],
                                                    inBusy := x.inBusy.filter (fun k => !x.inFree.any (fun e => e.1 == k)), inFree := [],
                                                    floorSince := if s.fs.cur ≤ x.floor then some at_ else none })
  s1.mapOwned c (fun _ k => k.startClear)

/-- START (R243). -/
def execStart (fn : Nat) (s : State) : Out :=
  atFn fn s (fun s =>
    let c := fn - 1
    match s.ctlHead fn 0x08 with
    | none => s
    | some d =>
      if (s.ctx c).st ≠ .bound then s.refuseCx d c
      else match (s.ctx c).startFault with
        | some f => s.complete d f.1 f.2
        | none => (s.startCtx c (ceilMul s.tcb.now (s.ctx c).period)).complete d 0 0)

/-- A swap or load of the context is pending or running. -/
def Context.loading (x : Context) : Bool := x.wset.load.isSome

/-- QUIESCE (R248). A pending quiesce or swap refuses it with CX_STATE (log 20). -/
def execQuiesce (fn : Nat) (s : State) : Out :=
  atFn fn s (fun s =>
    let c := fn - 1
    let x := s.ctx c
    match s.ctlHead fn 0x09 with
    | none => s
    | some d =>
      if x.st ≠ .running then s.refuseCx d c
      else if x.job ≠ 0 then s.complete d 0x0108 0
      else if x.quiesce.isSome || ((x.wset.load.map (·.swap)).getD false) then s.refuseCx d c
      else (s.setSt d .running).modCtx c (fun y => { y with
        quiesce := some { cut := decide (d.word 4 % 2 = 1), at_ := y.nextTick, why := .desc } }))

/-- The resume tick of a RESUME accepted now (R249, R386). -/
def Context.resumeTick (x : Context) (now : Nat) : Nat :=
  if x.period = x.runPeriod then x.nextTick else (now / x.period + 1) * x.period

/-- RESUME (R249). -/
def execResume (fn : Nat) (s : State) : Out :=
  atFn fn s (fun s =>
    let c := fn - 1
    let x := s.ctx c
    match s.ctlHead fn 0x0A with
    | none => s
    | some d =>
      if x.st ≠ .quiesced then s.refuseCx d c
      else if x.job ≠ 0 then s.complete d 0x0108 0
      else match x.startFault with
        | some f => s.complete d f.1 f.2
        | none => (s.wakeTierA.setSt d .running).modCtx c (fun y => { y with resumeAt := some (y.resumeTick s.tcb.now) }))

/-! ## Partitions (R244 to R246) -/

/-- A pod is bound to a context or being scrubbed (R245). -/
def State.podTaken (s : State) (pod : Nat) : Bool :=
  s.liveCtxs.any (fun c => ((s.ctx c).part.map (fun r => r.hasPod pod)).getD false)

/-- The rectangle of CX_PART [15:0]. -/
def partOf (w : Nat) : Rect := { bx := w % 16, by_ := fld w 7 4, w := fld w 11 8 + 1, h := fld w 15 12 + 1 }

/-- What refuses a partition, in the order of R245; `own` is taken by its giver. -/
def State.partFault (s : State) (r : Rect) (own held : Bool) : Option Nat :=
  if 16 < r.bx + r.w ∨ 12 < r.by_ + r.h then some 0x0101
  else if !own && r.pods.any s.podTaken then some 0x0102
  else if r.pods.any (fun p => s.mg.withdrawn.contains p) then some 0x0103
  else if held then some 0x0104
  else none

/-- The handle entries of a core bound to a context: CTX is the context, none VALID, GEN kept (R250). -/
def Core.fence (k : Core) (c : Nat) : Core :=
  { ((List.range 64).foldl (fun t h => t.setHandle h (mkHandle (hGen (k.handle h)) c false false false 0 0 0 0 0)) k) with
    owner := some c }

/-- Step 7: the pods are the context's, which becomes BOUND (R245, R246, R250). -/
def State.bindTo (s : State) (c : Nat) (r : Rect) : State :=
  (s.modCores r.cores (fun _ k => k.fence c)).modCtx c (fun x => { x with st := .bound, part := some r, started := false,
                                                                          held := [] })

/-- The next count of a period after now. -/
def nextMul (now p : Nat) : Nat := (now / p + 1) * p

/-- CREATE_CONTEXT (R244). On an unknown part it is refused, with NOT_PERMITTED (R4, log 20). -/
def execCreateContext (s : State) : Out :=
  .next (match s.ctlHead 0 0x20 with
    | none => s
    | some d =>
      let c := d.word 4 % 64
      if (s.ctx c).st ≠ .free then s.refuseCx d c
      else if s.mg.unknownPart then s.complete d 0x000A 0
      else (s.setCtx c { st := .created, strict := decide (fld (d.word 4) 8 8 = 1), capture := decide (fld (d.word 4) 9 9 = 1),
                         nextTick := nextMul s.tcb.now 50000 }).complete d 0 0)

/-- BIND (R245). -/
def execBind (s : State) : Out :=
  .next (match s.ctlHead 0 0x21 with
    | none => s
    | some d =>
      let c := d.word 4 % 64
      let r := partOf (d.word 5)
      if (s.ctx c).st ≠ .created then s.refuseCx d c
      else match s.partFault r false (s.ctx c).part.isSome with
        | some st => s.complete d st 0
        | none => (s.bindTo c r).complete d 0 0)

/-! ## Taking a partition away (R250 to R252, R311) -/

/-- Shards that were ARRIVING become ABSENT; a swap that has not switched leaves the old set (R199). An old set still drains
only where the context goes on running, and a GAP that waited for the swap's resume tick is in force (R210). -/
def Context.dropLoad (x : Context) : Context :=
  { x with wset := { x.wset.takeGap with load := none, next := none, resumeAt := none, old := if x.st = .running then x.wset.old else none,
                                         shards := x.wset.shards.map (fun h => if h.st = .arriving then { h with st := .absent } else h) } }

/-- Abort the pending or running load or swap of a context: WS_ABORTED (R199). -/
def State.abortLoad (s : State) (c : Nat) : State :=
  match (s.ctx c).wset.load with
  | none => s
  | some l => ((s.freeEngines c).modCtx c Context.dropLoad).complete l.d 0x020B 0

/-- Epfin packets of a context under construction are discarded. -/
def State.dropEp (s : State) (c : Nat) : State :=
  { s with ep := { s.ep with streams := s.ep.streams.filter (fun e => e.ctx != c), reads := s.ep.reads.filter (fun e => e.ctx != c) } }

/-- Flits of a context in its partition's router buffers are purged: those of packets that its own cores sent. Packets that
come from outside the partition are still on their way to it, and are discarded and counted when they reach it (R247, R253;
DEDUCED, log 108). -/
def State.purgeFlits (s : State) (c : Nat) : State :=
  { s with panel := { s.panel with flight := s.panel.flight.filter (fun p => p.ctx != c || (s.core p.src).owner != some c) } }

/-- Delete every queue pair of a context. -/
def State.deletePairs (s : State) (c : Nat) : State :=
  { s with ports := s.ports.map (fun e => (e.1, { e.2 with pairs := e.2.pairs.filter (fun q => q.1 / 256 != c),
                                                           lastQp := e.2.lastQp.erase c })) }

/-- Host transfers into a context's handles end with NO_PARTITION (R282). -/
def State.endHandleXfers (s : State) (c : Nat) : State :=
  let f := c + 1
  (((s.fn f).xferq ++ (s.fn f).bg).filter (fun d => d.op == 0x0B && (d.st == .running || d.st == .timedOut) && fld (d.word 4) 2 1 == 0)).foldl
    (fun t d => t.complete d 0x000C 0) s

/-- What the scrub leaves of a core (Table 11.5): GEN of every handle advances; the self-test result
and the count of uncorrectable errors are the module start's. -/
def Core.scrub (k : Core) : Core :=
  let z : Core := { cyc := k.cyc, phase := k.phase, nextId := k.nextId, uncorr := k.uncorr, selfFail := k.selfFail }
  (List.range 64).foldl (fun t h => t.setHandle h (BitVec.ofNat 128 (nextGen (hGen (k.handle h)) * 2 ^ 120))) z

/-- Steps 4 and 5: owners cleared, flits purged, every core and sequencer scrubbed (R246, R251). -/
def State.scrubPart (s : State) (c : Nat) (r : Rect) : State :=
  let s1 := (s.purgeFlits c).modCores r.cores (fun _ k => k.scrub)
  { s1 with panel := { s1.panel with seqs := s1.panel.seqs.filter (fun e => !r.hasPod e.1) } }

/-- Every return line of a context that its ports have sent reaches its core, in order (R140, R150). -/
def State.landLines (s : State) (c : Nat) : State :=
  let s1 := { s with ports := s.ports.map (fun (e : Nat × StackPort) => (e.1, { e.2 with lines := e.2.lines.filter (fun l => l.ctx != c) })) }
  (s.ports.flatMap (fun e => e.2.lines.filter (fun l => l.ctx == c))).foldl (fun t l => t.landReply l.core l.sid l.first l.data l.fin) s1

/-- Step 2 and 3: stop and flush (R250); `keep` the pairs (R313). The lines of the flushed QREADs land before the streams are
gone, so that a capture holds their empty items (R150, R255). -/
def State.stopFlush (s : State) (c : Nat) (keep : Bool) : State :=
  let s1 := ((s.abortLoad c).dropRecheck c).dropEp c
  let s2 := s1.mapOwned c (fun _ k => { k with issuing := false })
  let s3 := (((s2.endWalks c).flushCtx c).landLines c).mapOwned c (fun _ k => k.dropStreams)
  let s4 := s3.endHandleXfers c
  if keep then s4 else s4.deletePairs c

/-- The k-th core of a pod, row by row. -/
def podCore (pod k : Nat) : Nat := 640 * (40 * (pod / 16) + k / 40) + (40 * (pod % 16) + k % 40)

/-- A pod whose verify failed is withdrawn, with its fault-log entry (R252). The entry names the core in SOURCE and the store in
ARG0, numbered as in Table 14.2: which core of the pod fails, where no self-test says it, and which store are free values (log
12). -/
def State.withdrawPod (s : State) (pod : Nat) : State :=
  let s1 := { s with mg := { s.mg with withdrawn := s.mg.withdrawn ++ [pod] }, free := s.free + 2 }
  let known : Option (Nat × Core) := (s.panel.cores.filter (fun e => e.2.selfFail && decide (podOf e.1 = pod))).head?
  let i : Nat := match known with
    | some e => e.1
    | none => podCore pod ((Config.freeValue s.free : Nat) % 1600)
  s1.logFault 0x0908 3 noCtx (srcCore i) (Config.freeValue (s.free + 1) % 3) 0

/-- SCRUB_POD_LIST events: up to eight pods each, 0xFF unused (Table 14.11). -/
def State.listPods (s : State) (ps : List Nat) : State :=
  (List.range ((ps.length + 7) / 8)).foldl (fun t k =>
    let g (j : Nat) : Nat := ps.getD (8 * k + j) 0xFF
    let w (a : Nat) : Nat := g a + 256 * g (a + 1) + 65536 * g (a + 2) + 2 ^ 24 * g (a + 3)
    t.postPf 0x8405 srcCtx (w 0) (w 4)) s

/-- The context gives up its partition and is CREATED, with no program and no set (R250). -/
def Context.unbound (x : Context) : Context :=
  { x with st := .created, part := none, prog := none, wset := { gap := x.wset.takeGap.gap }, started := false, held := [], quiesce := none,
           resumeAt := none, rebindTo := none, fault := none, pipIdle := false, resetting := none,
           inBusy := [], inFree := [], nextIn := 0, stretch := 0, stretchTo := none, budgetAt := none,
           shadow := { x.shadow with handles := [] } }

/-- The next tick of a context that has stopped being started (R273). -/
def State.restartTicks (s : State) (c : Nat) : State :=
  s.modCtx c (fun x => { x with nextTick := nextMul s.tcb.now x.period })

/-- The pods of a rectangle that fail the verify step: those an operand names, and those with a core
that failed its self-test (R252, R312). -/
def State.badPods (s : State) (r : Rect) (bad : List (BitVec 8)) : List Nat :=
  let self := (s.panel.cores.filter (fun e => e.2.selfFail)).map (fun e => podOf e.1)
  r.pods.filter (fun p => bad.contains (BitVec.ofNat 8 p) || self.contains p)

/-- A job of the context runs on some module (Table 11.3). -/
def State.jobRuns (s : State) (c : Nat) : Bool :=
  let x := s.ctx c
  decide (x.job ≠ 0) && (decide (x.st = .running) || decide ((s.job x.job).st = .running) || decide ((s.job x.job).st = .launching))

/-- The states that can give a partition. -/
def CtxState.gives : CtxState → Bool
  | .bound | .running | .quiesced | .faulted => true
  | _ => false

/-- Ask for a quiesce at the next tick under the policy named (R243). One that is pending takes that policy; a DRAIN that has
begun serves a request for DRAIN, and CUT ends it at the next tick. -/
def State.askQuiesce (s : State) (c : Nat) (cut : Bool) (why : QuiesceFor) : State :=
  s.modCtx c (fun x => { x with quiesce := some (match x.quiesce with
    | some q => if q.q.isSome && !cut then { q with why := why } else { cut := cut, at_ := if q.q.isSome then x.nextTick else q.at_, why := why }
    | none => { cut := cut, at_ := x.nextTick, why := why }) })

/-- REBIND (R250): accepted, and quiesced first where the giver is RUNNING; the giver is SCRUBBING from the
start of the re-bind clock (log 39). -/
def execRebind (s : State) : Out :=
  .next (match s.ctlHead 0 0x22 with
    | none => s
    | some d =>
      let a := d.word 4 % 64
      let b := fld (d.word 4) 13 8
      if !(s.ctx a).st.gives then s.refuseCx d a
      else if (s.ctx b).st ≠ .created then s.refuseCx d b
      else if s.jobRuns a then s.complete d 0x0108 0
      else match s.partFault ((s.ctx a).part.getD { bx := 0, by_ := 0, w := 1, h := 1 }) true (s.ctx b).part.isSome with
        | some st => s.complete d st 0
        | none =>
          let s1 := (s.setSt d .running).modCtx a (fun x => { x with rebindTo := some (b, s.tcb.now) })
          if (s.ctx a).st = .running then s1.askQuiesce a (decide (fld (d.word 4) 16 16 = 1)) .rebind
          else s1.modCtx a (fun x => { x with st := .scrubbing }))

/-- Steps 2 to 7 of a re-bind from a to b (R250 to R252). -/
def State.rebindSteps (s : State) (a b : Nat) (r : Rect) (bad : List Nat) (took : Nat) (d : Taken) : State :=
  let s1 := (s.stopFlush a false).scrubPart a r
  let s2 := (s1.modCtx a Context.unbound).restartTicks a
  if bad.isEmpty then
    ((s2.bindTo b r).modCtx b (fun x => { x with rebind := BitVec.ofNat 32 (min took (2 ^ 32 - 1)) })).complete d 0 0
  else ((bad.foldl State.withdrawPod s2).listPods bad).complete d 0x0105 bad.length

/-- REBIND_PROCEED (R250): the re-bind clock has started and the steps run. -/
def execRebindProceed (c : BitVec 6) (bad : List (BitVec 8)) (took : Nat) (s : State) : Out :=
  let a := c.toNat
  let mine := ((s.fn 0).ctlq ++ (s.fn 0).bg).find? (fun d => (d.st == .running || d.st == .timedOut) && decide (d.op = 0x22) && decide (d.word 4 % 64 = a))
  .next (match (s.ctx a).rebindTo, (s.ctx a).part, mine with
    | some (b, t0), some r, some d =>
      if (s.ctx a).st = .running then s
      else (s.passTo (t0 + took)).rebindSteps a b r (s.badPods r bad) took d
    | _, _, _ => s)

/-! ## Windows (R138, R256) -/

/-- Blocks of a port: 64 MiB each (Table 7.1). -/
def portBlocks (p : Nat) : Nat := if p < 24 then 512 else 1024

/-- A block belongs to a window. -/
def Window.has (w : Window) (b : Nat) : Bool := decide (w.base ≤ b) && decide (b < w.base + w.blocks)

/-- A block that no grant holds, that is neither bad nor worn, and is not the directory (R158, R193,
R317). -/
def StackPort.blockFree (k : StackPort) (p b : Nat) : Bool :=
  !(k.wins.any (fun e => e.2.has b)) && !(k.retained.any (fun e => e.2.has b)) && !k.bad.contains b &&
  !(k.scrubs.any (fun j => decide (j.base ≤ b) && decide (b < j.base + j.blocks))) &&
  (decide (p < 24) || (decide (b ≠ 0) && !k.libUsed.has b && decide (k.wear.get b 0 < 100000)))

/-- The lowest run of free blocks (log 20). -/
def StackPort.freeRun (k : StackPort) (p n : Nat) : Option Nat :=
  (List.range (portBlocks p + 1 - n)).find? (fun b => (List.range n).all (fun i => k.blockFree p (b + i)))

/-- WINDOW_GRANT (R256, R275). -/
def execWindowGrant (s : State) : Out :=
  .next (match s.ctlHead 0 0x24 with
    | none => s
    | some d =>
      let c := d.word 4 % 64
      let p := fld (d.word 4) 12 8
      let ret := d.word 6
      let k := s.port p
      if (s.ctx c).st = .free then s.refuseCx d c
      else if !s.portUp p then s.complete d 0x0110 p
      else if k.wins.has c then s.complete d 0x010B p
      else if ret ≠ 0 then
        match k.retained.find? ret with
        | none => s.complete d 0x0115 ret
        | some w => (s.setPort p { k with retained := k.retained.erase ret, wins := k.wins.put c w }).complete d 0 w.base
      else if d.word 5 = 0 then s.complete d 0x0009 0x14
      else match k.freeRun p (d.word 5) with
        | none => s.complete d 0x010A p
        | some b => (s.setPort p { k with wins := k.wins.put c { base := b, blocks := d.word 5 } }).complete d 0 b)

/-- The next 16-bit retention number that no retained window holds (R256); the numbers of 16 bits but 0, which in a WINDOW_GRANT
asks for new blocks (Table 12.7), are taken in turn (log 110). -/
def State.freshRet (s : State) : Nat :=
  let used := s.ports.flatMap (fun e => e.2.retained.map (·.1))
  (((List.range (used.length + 1)).map (fun k => (s.mg.nextRet - 1 + k) % 65535 + 1)).find? (fun n => !used.contains n)).getD 1

/-- A tier-A window becomes a retained window; answers its number (R256). -/
def State.retain (s : State) (c p : Nat) (w : Window) : State × Nat :=
  let n := s.freshRet
  (({ s with mg := { s.mg with nextRet := n % 65535 + 1 } }).modPort p (fun k =>
    { k with wins := k.wins.erase c, retained := k.retained.put n w }), n)

/-- A window scrub begins for the descriptor of index `num` (R256). -/
def State.scrubWindow (s : State) (c p : Nat) (w : Window) (num : Nat) : State :=
  s.modPort p (fun k => { (k.touch s.tcb.now) with wins := k.wins.erase c,
                                                   scrubs := k.scrubs ++ [{ base := w.base, blocks := w.blocks, num := some num }] })

/-- KIND 1 transfers on a window that is released end with WIN_ABSENT (R282). -/
def State.endWindowXfers (s : State) (c p : Nat) : State :=
  let f := c + 1
  (((s.fn f).xferq ++ (s.fn f).bg).filter (fun d => d.op == 0x0B && (d.st == .running || d.st == .timedOut) &&
    fld (d.word 4) 2 1 == 1 && fld (d.word 4) 8 4 == p)).foldl (fun t d => t.complete d 0x0117 p) s

/-- A descriptor waits for its window scrubs with the status it will have. -/
def State.awaitScrub (s : State) (d : Taken) (status detail : Nat) : State :=
  let s1 := s.setSt d .running
  { s1 with mg := { s1.mg with tearList := s1.mg.tearList ++ [(d, status, detail)] } }

/-- WINDOW_RELEASE (R256): the blocks follow the teardown rules for windows. -/
def execWindowRelease (s : State) : Out :=
  .next (match s.ctlHead 0 0x25 with
    | none => s
    | some d =>
      let c := d.word 4 % 64
      let p := fld (d.word 4) 12 8
      match (s.port p).wins.find? c with
      | none => s.complete d 0x0117 p
      | some w =>
        let s1 := s.endWindowXfers c p
        if 24 ≤ p then (s1.modPort p (fun k => { k with wins := k.wins.erase c })).complete d 0 0
        else if fld (d.word 4) 16 16 = 1 then (s1.scrubWindow c p w d.num).awaitScrub d 0 0
        else
          let r := s1.retain c p w
          (r.1.postPf 0x8404 (srcPort p) p r.2).complete d 0 0)

/-- The port that holds a retained window. -/
def State.retainedAt (s : State) (ret : Nat) : Option (Nat × Window) :=
  s.ports.findSome? (fun e => (e.2.retained.find? ret).map (fun w => (e.1, w)))

/-- RETAINED_FREE (R256). -/
def execRetainedFree (s : State) : Out :=
  .next (match s.ctlHead 0 0x26 with
    | none => s
    | some d =>
      match s.retainedAt (d.word 4 % 65536) with
      | none => s.complete d 0x0115 (d.word 4 % 65536)
      | some (p, w) =>
        (s.modPort p (fun k => { (k.touch s.tcb.now) with
          retained := k.retained.erase (d.word 4 % 65536),
          scrubs := k.scrubs ++ [{ base := w.base, blocks := w.blocks, num := some d.num }] })).awaitScrub d 0 0)

/-- A scrub of the descriptor of index n is still under way. -/
def State.scrubbing (s : State) (n : Nat) : Bool := s.ports.any (fun e => e.2.scrubs.any (fun j => j.num == some n))

/-- WINDOW_SCRUB_DONE (R256): the port's oldest window scrub ends; its blocks read as zeros and are
free, and descriptors whose scrubs are all done complete. -/
def execWindowScrubDone (port : BitVec 5) (s : State) : Out :=
  let p := port.toNat
  .next (match (s.port p).scrubs with
    | [] => s
    | j :: js =>
      let lo := j.base * blockBytes
      let hi := (j.base + j.blocks) * blockBytes
      let s1 := s.modPort p (fun k => { k with scrubs := js, mem := Cells.drop k.mem (fun a => decide (lo ≤ a) && decide (a < hi)),
                                               eccSingle := k.eccSingle.filter (fun w => !(decide (lo ≤ 8 * w) && decide (8 * w < hi))),
                                               eccDouble := k.eccDouble.filter (fun w => !(decide (lo ≤ 8 * w) && decide (8 * w < hi))) })
      let done := s1.mg.tearList.filter (fun e => !s1.scrubbing e.1.num)
      let s2 := { s1 with mg := { s1.mg with tearList := s1.mg.tearList.filter (fun e => s1.scrubbing e.1.num) } }
      done.foldl (fun t e => t.complete e.1 e.2.1 e.2.2) s2)

/-- SLOT_GRANT (R152, R387): staged for the context's next commit. -/
def execSlotGrant (s : State) : Out :=
  .next (match s.ctlHead 0 0x27 with
    | none => s
    | some d =>
      let c := d.word 4 % 64
      let p := fld (d.word 4) 12 8
      let mask : BitVec 64 := BitVec.ofNat 64 (d.dword 6)
      let other (k : Nat) : Bool := ((s.port p).slots.find? k).any (fun o => o != c) ||
        s.liveCtxs.any (fun o => decide (o ≠ c) && (s.ctx o).shadow.slots.any (fun w => w.1 == p && w.2.getLsbD k))
      if (s.ctx c).st = .free then s.refuseCx d c
      else if !s.portUp p then s.complete d 0x0110 p
      else match (List.range 62).find? (fun k => mask.getLsbD k && other k) with
        | some k => s.complete d 0x010C k
        | none => (s.setSt d .staged).modCtx c (fun x => { x with shadow := { x.shadow with slots := x.shadow.slots ++ [(p, mask)] } }))

/-! ## Handles and queue pairs (R100, R142, R143, R274, R275) -/

/-- The LV fields of a HANDLE descriptor, words w, w + 1 and w + 2 at bytes 0x18, 0x1C and 0x20. -/
def entryOf (a b r : Nat) : BitVec 128 :=
  mkHandle 0 0 (decide (fld a 6 6 = 1)) (decide (fld a 7 7 = 1)) (decide (fld a 8 8 = 1)) (fld a 10 9)
    (fld r 31 16) (fld r 15 0) (fld b 25 16) (fld b 9 0)

/-- HANDLE (R274, R387): the entries of the rectangle are written into the shadow set and staged. -/
def execHandle (fn : Nat) (s : State) : Out :=
  atFn fn s (fun s =>
    let c := fn - 1
    match s.ctlHead fn 0x03 with
    | none => s
    | some d =>
      let e := entryOf (d.word 6) (d.word 7) (d.word 8)
      let ws := ((s.ctx c).rectCores (d.rect 4)).map (fun k => (k, d.word 6 % 64, e))
      (s.setSt d .staged).modCtx c (fun x => { x with shadow := { x.shadow with handles := x.shadow.handles ++ ws } }))

/-- The head of the control queue, if it is a QUEUE with this ACT. -/
def State.queueHead (s : State) (f act : Nat) : Option Taken :=
  (s.ctlHead f 0x04).filter (fun d => decide (d.word 4 % 4 = act))

def Taken.qPort (d : Taken) : Nat := fld (d.word 4) 8 4
def Taken.qPair (d : Taken) : Nat := fld (d.word 4) 23 16

/-- A sticky bit of CX_CFGST, with its event (R385, R388). -/
def State.cfgSticky (s : State) (c bit code space off v : Nat) : State :=
  (s.modCtx c (fun x => { x with cfgst := x.cfgst ||| BitVec.ofNat 3 (2 ^ bit) })).cfgCtx c code space off v

/-- RQCAP in range (R143). -/
def rqcapOk (n : Nat) : Bool := decide (1 ≤ n) && decide (n ≤ 64)

/-- Space and offset of word k of a pair's record in the queue-status window (R143). -/
def recordOff (p q k : Nat) : Nat := 32 * (256 * p + q) + 4 * k

/-- QUEUE create (R142, R275). -/
def execQueueCreate (fn : Nat) (s : State) : Out :=
  atFn fn s (fun s =>
    let c := fn - 1
    match s.queueHead fn 0 with
    | none => s
    | some d =>
      let p := d.qPort
      let q := d.qPair
      let cfg := d.word 5
      let cap := fld cfg 29 23
      if (s.ctx c).st = .free then s.refuseCx d c
      else if !s.portUp p then s.complete d 0x0110 p
      else if (s.port p).hasPair c q then s.complete d 0x010D 0
      else
        let pr : Pair := { mode := bvf 2 cfg 31 30, rqcap := if rqcapOk cap then cap else 8, empty := decide (fld cfg 16 16 = 1),
                           cut := bvf 16 cfg 15 0, idle := BitVec.ofNat 32 (d.word 6),
                           rbase := BitVec.ofNat 24 (d.word 7), rsize := BitVec.ofNat 20 (d.word 8) }
        let s1 := s.setPair p c q pr
        (if rqcapOk cap then s1 else s1.cfgSticky c 1 0x8002 2 (recordOff p q 0) cfg).complete d 0 0)

/-- Words of a pair's record whose static fields a write would change (MODE and RQCAP, RBASE, RSIZE), with what was written. -/
def Pair.stChange (pr : Pair) (cfg rb rs : Nat) : List (Nat × Nat) :=
  (if bvf 2 cfg 31 30 ≠ pr.mode ∨ fld cfg 29 23 ≠ pr.rqcap then [(0, cfg)] else []) ++
  (if BitVec.ofNat 24 rb ≠ pr.rbase then [(2, rb)] else []) ++ (if BitVec.ofNat 20 rs ≠ pr.rsize then [(3, rs)] else [])

/-- LV writes of a QR_CFG image and an idle word. -/
def lvOf (p q cfg idle : Nat) : List (Nat × Nat × BitVec 2 × BitVec 16 × BitVec 32) :=
  [(p, q, 0, bvf 16 cfg 16 16, 0), (p, q, 1, bvf 16 cfg 15 0, 0), (p, q, 2, 0, BitVec.ofNat 32 idle)]

/-- QUEUE configure (R143, R275, R387): ST fields under R8, LV fields staged. -/
def execQueueConfigure (fn : Nat) (s : State) : Out :=
  atFn fn s (fun s =>
    let c := fn - 1
    match s.queueHead fn 1 with
    | none => s
    | some d =>
      let p := d.qPort
      let q := d.qPair
      let cfg := d.word 5
      let pr := (s.port p).pair c q
      if !s.portUp p then s.complete d 0x0110 p
      else if !(s.port p).hasPair c q then s.complete d 0x010E 0
      else
        let cap := fld cfg 29 23
        let s1 :=
          if pr.busy then
            (pr.stChange cfg (d.word 7) (d.word 8)).foldl
              (fun t f => (t.setPair p c q { pr with wwb := true }).cfgCtx c 0x8001 2 (recordOff p q f.1) f.2) s
          else
            let s2 := s.setPair p c q { pr with mode := bvf 2 cfg 31 30, rqcap := if rqcapOk cap then cap else pr.rqcap,
                                                rbase := BitVec.ofNat 24 (d.word 7), rsize := BitVec.ofNat 20 (d.word 8) }
            if rqcapOk cap then s2 else s2.cfgSticky c 1 0x8002 2 (recordOff p q 0) cfg
        (s1.setSt d .staged).modCtx c (fun x => { x with shadow := { x.shadow with
          pairs := x.shadow.pairs ++ lvOf p q cfg (d.word 6) } }))

/-- QUEUE delete (R275). -/
def execQueueDelete (fn : Nat) (s : State) : Out :=
  atFn fn s (fun s =>
    let c := fn - 1
    match s.queueHead fn 2 with
    | none => s
    | some d =>
      let p := d.qPort
      let q := d.qPair
      if !s.portUp p then s.complete d 0x0110 p
      else if !(s.port p).hasPair c q then s.complete d 0x010E 0
      else if ((s.port p).pair c q).busy then s.complete d 0x010F 0
      else (s.modPort p (fun k => { k with pairs := k.pairs.erase (pairKey c q) })).complete d 0 0)

/-! ## Teardown (R254, R255) -/

/-- The capture handles of a TEARDOWN (Table 12.7). -/
def Taken.captures (d : Taken) : List Nat :=
  (List.range (d.word 5)).map (fun j => fld (d.word (9 + j / 4)) (8 * (j % 4) + 5) (8 * (j % 4)))

/-- One capture record (R255, log 21): a 16-byte header and the handle's bytes. -/
def captureRecord (i h : Nat) (k : Core) : List Byte :=
  let e := k.handle h
  leBytes 2 (coreCx i) ++ leBytes 2 (coreCy i) ++ leBytes 1 h ++ leBytes 1 (hGen e) ++ leBytes 2 0 ++
  leBytes 4 (hBytes e) ++ leBytes 4 0 ++ k.bytes (hByte e) (hBytes e)

/-- The records of a capture, with the handle of each. -/
def State.captureList (s : State) (c : Nat) (hs : List Nat) : List (Nat × List Byte) :=
  (s.ctx c).cores.flatMap (fun i =>
    let k := s.core i
    (hs.filter (fun h => hValid (k.handle h))).map (fun h => (h, captureRecord i h k)))

/-- The records that fit, and the handle of the first that does not. -/
def fitRecords : Nat → List (Nat × List Byte) → List Byte × Option Nat
  | _, [] => ([], none)
  | room, r :: rs =>
    if room < r.2.length then ([], some r.1)
    else let t := fitRecords (room - r.2.length) rs; (r.2 ++ t.1, t.2)

/-- The capture of a TEARDOWN (R255): the status it leads to. -/
def State.capture (s : State) (c : Nat) (d : Taken) (dma : Dma) : State × Option (Nat × Nat) :=
  if d.word 5 = 0 then (s, none)
  else
    let f := fitRecords (d.word 8) (s.captureList c d.captures)
    match dma with
    | .abort off => ({ s with link := { s.link with aborts := satAdd s.link.aborts 1 } }, some (0x000B, off))
    | .ok => (s.hostWrite (d.dword 6) f.1, f.2.map (fun h => (0x0111, h)))

/-- Give up windows, slots and page-table regions of a context; tier-A windows are scrubbed, or
retained and numbered in the order of their ports (R170, R254, R256). -/
def State.dropStacks (s : State) (c : Nat) (scrub : Bool) (num : Nat) : State × List (Nat × Nat) :=
  let s1 := { s with ports := s.ports.map (fun (e : Nat × StackPort) => (e.1, { e.2 with
    slots := e.2.slots.filter (fun k => k.2 != c), stkQ := e.2.stkQ.filter (fun w => w.ctx != c), regions := e.2.regions.filter (fun r => r.ctx != c),
    wins := if 24 ≤ e.1 then e.2.wins.erase c else e.2.wins })) }
  (s1.ports.filter (fun (e : Nat × StackPort) => decide (e.1 < 24))).foldl (fun (t : State × List (Nat × Nat)) e =>
    match e.2.wins.find? c with
    | none => t
    | some w =>
      if scrub then (t.1.scrubWindow c e.1 w num, t.2)
      else
        let r := t.1.retain c e.1 w
        (r.1, t.2 ++ [(e.1, r.2)])) (s1, [])

/-- The function of a context is reset and its rings are emptied: no record is written for what it
had taken (R254, R263). -/
def State.resetFn (s : State) (f : Nat) : State := s.setFn f ({} : HostFn)

/-- The manager tells a job's other modules of entries that have changed (R257). -/
def State.tellRanks (s : State) (job : Nat) (ranks : List (Nat × BitVec 32)) : State :=
  ((s.job job).members.filter (fun m => some m.1 != s.modIndex?)).foldl (fun t m => t.ctl (.tables m.1 { job := job, ranks := ranks })) s

/-- The context leaves its job: its rank is made invalid on every module, by the manager where this is its module (R257). -/
def State.leaveJob (s : State) (c : Nat) : State :=
  let x := s.ctx c
  if x.job = 0 then s
  else
    let j := s.job x.job
    let s1 := if s.ep.role = 2 then s.setJob x.job { j with lost := j.lost ++ [x.rank] } else s
    let table := s1.ep.ranks.get x.job []
    let gone := table.get x.rank 0 &&& 0x7FFFFFFF#32
    let s2 := { s1 with ep := { s1.ep with ranks := s1.ep.ranks.put x.job (table.put x.rank gone) } }
    if s.ep.role = 2 then s2.tellRanks x.job [(x.rank, gone)] else s2.ctl (.jobSet s.modIndex x.job c x.rank)

/-- Steps 1 to 7 and the release of everything the context holds (R254). -/
def State.tear (s : State) (c : Nat) (d : Taken) (bad : List (BitVec 8)) (dma : Dma) : State :=
  let x := s.ctx c
  let a := match x.part with
    | none => ((s.flushCtx c).deletePairs c, none, [])
    | some r =>
      let s1 := s.stopFlush c false
      let cap := s1.capture c d dma
      let bs := s.badPods r bad
      ((bs.foldl State.withdrawPod (cap.1.scrubPart c r)).listPods bs, cap.2, bs)
  let ret := a.1.dropStacks c (decide (fld (d.word 4) 9 9 = 1)) d.num
  let s2 := (((ret.1.leaveJob c).resetFn (c + 1)).setCtx c ({} : Context))
  let st := if a.2.2 ≠ [] then (0x0105, a.2.2.length)
    else match a.2.1 with
      | some f => f
      | none => (0, (ret.2.head?.map (·.2)).getD 0)
  let s3 := (if st.1 = 0 then ret.2.drop 1 else ret.2).foldl (fun t r => t.postPf 0x8404 (srcPort r.1) r.1 r.2) s2
  if s3.scrubbing d.num then s3.awaitScrub d st.1 st.2 else s3.complete d st.1 st.2

/-- A TEARDOWN whose quiesce has ended and whose steps have not run; one that has timed out goes on (R273). -/
def State.tearReady (s : State) (d : Taken) : Bool :=
  (d.st == .running || d.st == .timedOut) && decide (d.op = 0x23) && (s.ctx (d.word 4 % 64)).st != .running &&
    (s.ctx (d.word 4 % 64)).st != .free &&
    !s.mg.tearList.any (fun e => e.1.same d)

/-- TEARDOWN (R254): a RUNNING context is first quiesced under the named policy; given again once it is
no longer RUNNING, the command performs the rest. -/
def execTeardown (bad : List (BitVec 8)) (dma : Dma) (s : State) : Out :=
  .next (match (s.ctlHead 0 0x23).or (((s.fn 0).ctlq ++ (s.fn 0).bg).find? s.tearReady) with
    | none => s
    | some d =>
      let c := d.word 4 % 64
      let st := (s.ctx c).st
      if s.tearReady d then s.tear c d bad dma
      else if st = .free ∨ st = .scrubbing then s.refuseCx d c
      else if d.word 5 ≠ 0 ∧ (s.ctx c).capture = false then s.complete d 0x0106 0
      else if s.jobRuns c then s.complete d 0x0108 0
      else if st = .running then (s.setSt d .running).askQuiesce c (decide (fld (d.word 4) 8 8 = 1)) .teardown
      else s.tear c d bad dma)

end Sys2Proof.Machine
end

