-- ==== Sys2Proof/Machine/Transfers.lean ====
section
/-! DEFINITION. Host transfers, debug reads and page-table edits (R164 to R170, R282, R283). -/
namespace Sys2Proof.Machine

open Sys2Proof

/-! ## Host transfers (R282) -/

def Taken.toHost (d : Taken) : Bool := decide (d.word 4 % 2 = 1)
def Taken.kind (d : Taken) : Nat := fld (d.word 4) 2 1
def Taken.port4 (d : Taken) : Nat := fld (d.word 4) 8 4
def Taken.hnd (d : Taken) : Nat := fld (d.word 4) 21 16
def Taken.xferLen (d : Taken) : Nat := d.word 10
def Taken.xferOff (d : Taken) : Nat := d.dword 12

/-- The sender of the packets of a host transfer: no core. -/
def noCore : Nat := 307200

/-- The packets of a KIND 2 transfer (R222, R223); their channel is 0 (log 22). -/
def State.sendStk (s : State) (c m x : Nat) (d : Taken) (bs : List Byte) : State :=
  let z : List (BitVec 32) := []
  (cutRun 4096 4096 (bs.length + 1) d.xferOff bs).foldl (fun t p =>
    t.pushEp c noCore d.num { s.epHeader c m x z with
      op := 0, drank := BitVec.ofNat 16 (d.word 11), stk := true, port := BitVec.ofNat 5 d.port4,
      length := BitVec.ofNat 13 p.2.length, woff := BitVec.ofNat 40 p.1, data := p.2 }) s

/-- The transfer's target is the context's window on a port of this module: KIND 1, or KIND 2 whose RANK is its own (R224). -/
def State.ownWindow (s : State) (c : Nat) (d : Taken) : Bool :=
  d.kind == 1 || (d.kind == 2 && (match s.resolve c (d.word 11) with
    | .loc => true
    | _ => false))

/-- A transfer that would write an owned region (R166). -/
def State.xferOwned (s : State) (c : Nat) (d : Taken) : Bool :=
  s.ownWindow c d && !d.toHost && (s.port d.port4).owned c d.xferOff d.xferLen

/-- What refuses a transfer when it starts: status and DETAIL. A write toward a tier-B port is refused whichever module it names;
the rest of a remote target is checked where it arrives (R223, R282). -/
def State.xferFault (s : State) (c : Nat) (d : Taken) : Option (Nat × Nat) :=
  let x := s.ctx c
  if d.kind = 0 then
    if x.part.isNone then some (0x000C, 0)
    else
      let r := d.rect 5
      if d.xferLen ≠ r.2.2.1 * r.2.2.2 * d.word 7 then some (0x0009, 0x28)
      else if (x.rectCores r).all (fun i => inBounds ((s.core i).handle d.hnd) d.xferOff (d.word 7)) then none
      else some (0x0009, 0x30)
  else if d.kind = 2 ∧ 24 ≤ d.port4 then some (0x000A, 0)
  else if s.ownWindow c d then
    if !(s.port d.port4).wins.has c then some (0x0117, d.port4)
    else if s.xferOwned c d then some (0x0302, 0)
    else if !d.toHost ∧ 24 ≤ d.port4 then some (0x000A, 0)
    else if ((s.port d.port4).addr? c (d.xferOff : Nat) d.xferLen).isNone then some (0x0009, 0x30)
    else none
  else
    match s.resolve c (d.word 11) with
    | .loc => none
    | .rem _ _ => none
    | _ => some (0x0009, 0x2C)

/-- HOST_XFER (R282): the transfer at the head of the transfer queue starts. -/
def execHostXfer (fn : Nat) (s : State) : Out :=
  atFn fn s (fun s =>
    match s.xferHead fn 0x0B with
    | none => s
    | some d =>
      match s.xferFault (fn - 1) d with
      | some f => s.complete d f.1 f.2
      | none =>
        let s1 := s.setSt d .running
        match (if d.kind = 2 then s.resolve (fn - 1) (d.word 11) else .loc) with
        | .rem m x => s1.sendStk (fn - 1) m x d (s.hostRead (d.dword 8) d.xferLen)
        | _ => s1)

/-- The transfer under way on a function. -/
def State.xferNow (s : State) (f : Nat) : Option Taken :=
  ((s.fn f).xferq ++ (s.fn f).bg).find? (fun d => (d.st == .running || d.st == .timedOut) && decide (d.op = 0x0B))

/-- Bytes to the module: the first bytes of the transfer reach their places; those of a remote window left as packets. -/
def State.moveIn (s : State) (c : Nat) (d : Taken) (bs : List Byte) : State :=
  if d.kind = 0 then
    ((s.ctx c).rectCores (d.rect 5)).zipIdx.foldl (fun t e =>
      t.hostStore e.1 d.hnd d.xferOff ((bs.drop (e.2 * d.word 7)).take (d.word 7))) s
  else if s.ownWindow c d then s.windowWrite c d.port4 d.xferOff bs
  else s

/-- Bytes to the host, or the state after an uncorrectable error. -/
def State.moveOut (s : State) (c : Nat) (d : Taken) : List Byte ⊕ State :=
  if d.kind = 0 then
    ((s.ctx c).rectCores (d.rect 5)).foldl (fun (t : List Byte ⊕ State) i =>
      match t with
      | .inr u => .inr u
      | .inl bs =>
        match s.handleRead i d.hnd d.xferOff (d.word 7) with
        | .inl k => .inl (bs ++ k)
        | .inr u => .inr u) (.inl [])
  else s.windowRead c d.port4 d.xferOff d.xferLen

/-- What the reads of a transfer to the host correct and wake. -/
def State.moveOutUsed (s : State) (c : Nat) (d : Taken) : State :=
  if d.kind = 0 then ((s.ctx c).rectCores (d.rect 5)).foldl (fun t i => t.handleUsed i d.hnd d.xferOff (d.word 7)) s
  else s.windowUsed c d.port4 d.xferOff d.xferLen

/-- A transfer that met an uncorrectable error delivers nothing; the status of its record is not
stated: a free value (log 12). -/
def State.xferEcc (s : State) (d : Taken) : State :=
  ({ s with free := s.free + 2 }).complete d (Config.freeValue s.free % 2 ^ 16) (Config.freeValue (s.free + 1) % 2 ^ 32)

/-- Packets of a transfer that have not been sent. -/
def State.unsent (s : State) (c : Nat) (d : Taken) : Bool :=
  s.ep.streams.any (fun e => decide (e.ctx = c) && decide (e.core = noCore) && decide (e.sid = d.num))

/-- HOST_XFER_DONE (R282): the transfer under way ends. For a remote window the command is the word that the far port has
written the last byte, which nothing that the spec describes carries back: it completes the transfer once every packet has
left (log 111). -/
def execHostXferDone (fn : Nat) (dma : Dma) (s : State) : Out :=
  atFn fn s (fun s =>
    let c := fn - 1
    match s.xferNow fn with
    | none => s
    | some d =>
      match dma with
      | .abort off =>
        let s1 := if d.toHost then
            match s.moveOut c d with
            | .inl bs => (s.moveOutUsed c d).hostWrite (d.dword 8) (bs.take off)
            | .inr u => u
          else s.moveIn c d ((s.hostRead (d.dword 8) d.xferLen).take off)
        let s2 := { s1 with ep := { s1.ep with streams := s1.ep.streams.filter (fun e =>
          !(decide (e.ctx = c) && decide (e.core = noCore) && decide (e.sid = d.num))) } }
        s2.hostAbort d off
      | .ok =>
        if s.xferOwned c d then s.complete d 0x0302 0
        else if d.toHost then
          match s.moveOut c d with
          | .inl bs => ((s.moveOutUsed c d).hostWrite (d.dword 8) bs).complete d 0 0
          | .inr u => u.xferEcc d
        else if s.unsent c d then s
        else (s.moveIn c d (s.hostRead (d.dword 8) d.xferLen)).complete d 0 0)

/-! ## Debug reads (R283) -/

/-- Ranks a job's table runs to (R224). -/
def rankCount (t : Table (BitVec 32)) : Nat := (t.map (·.1)).foldl (fun n k => max n (k + 1)) 0

/-- The record of a core, KIND 1 (R283). -/
def coreRecord (k : Core) : List Byte :=
  leBytes 4 k.slip.toNat ++ leBytes 8 k.slipTotal.toNat ++ leBytes 4 k.idle.toNat ++ leBytes 1 k.pendTicks ++
  leBytes 1 k.sticky.toNat ++ leBytes 4 k.correctable.toNat ++ leBytes 2 k.bidx.toNat ++ List.replicate 8 0

/-- The 64 handle entries of a core. -/
def handleImage (k : Core) : List Byte := (List.range 64).flatMap (fun h => leBytes 16 (k.handle h).toNat)

/-- The instruction store of a core. -/
def istoreImage (k : Core) : List Byte :=
  (Cells.read 0 k.istore 0 8192).flatMap (fun w => leBytes 4 w.toNat)

/-- The records of a debug read, or the state after an uncorrectable error. -/
def State.debugRecords (s : State) (c : Nat) (d : Taken) : List (List Byte) ⊕ State :=
  let x := s.ctx c
  let is := x.rectCores (d.rect 5)
  let kind := d.word 4 % 16
  if kind = 0 then
    is.foldl (fun (t : List (List Byte) ⊕ State) i =>
      match t with
      | .inr u => .inr u
      | .inl rs =>
        let h := (s.core i).handle d.hnd
        match s.handleRead i d.hnd 0 (if hValid h then hBytes h else 0) with
        | .inl bs => .inl (rs ++ [bs])
        | .inr u => .inr u) (.inl [])
  else if kind = 1 then .inl (is.map (fun i => coreRecord (s.core i)))
  else if kind = 2 then .inl (is.map (fun i => handleImage (s.core i)))
  else if kind = 3 then
    let t := s.ep.ranks.get x.job []
    .inl (if x.job = 0 then [] else (List.range (rankCount t)).map (fun r => leBytes 4 (t.get r 0).toNat))
  else if kind = 4 then
    .inl (if x.job = 0 then [] else (List.range 1024).map (fun m => [routeByte (s.ep.tables.get x.job []) m]))
  else if kind = 5 then .inl [leBytes 1 s.ep.bmask.toNat]
  else .inl (is.map (fun i => istoreImage (s.core i)))

/-- What a debug read corrects (R112): the handle's bytes of KIND 0. -/
def State.debugUsed (s : State) (c : Nat) (d : Taken) : State :=
  if d.word 4 % 16 = 0 then
    ((s.ctx c).rectCores (d.rect 5)).foldl (fun t i =>
      let h := (t.core i).handle d.hnd
      t.handleUsed i d.hnd 0 (if hValid h then hBytes h else 0)) s
  else s

/-- The whole records that fit in a length (R283). -/
def wholeRecords : Nat → List (List Byte) → List Byte
  | _, [] => []
  | room, r :: rs => if room < r.length then [] else r ++ wholeRecords (room - r.length) rs

/-- DEBUG_READ (R283). -/
def execDebugRead (fn : Nat) (dma : Dma) (s : State) : Out :=
  atFn fn s (fun s =>
    let c := fn - 1
    match s.xferHead fn 0x0C with
    | none => s
    | some d =>
      if [0, 1, 2, 6].contains (d.word 4 % 16) && (s.ctx c).part.isNone then s.complete d 0x000C 0
      else
        match s.debugRecords c d with
        | .inr u => u.xferEcc d
        | .inl rs =>
          let bs := wholeRecords d.xferLen rs
          let s := s.debugUsed c d
          match dma with
          | .abort off => (s.hostWrite (d.dword 8) (bs.take off)).hostAbort d off
          | .ok => (s.hostWrite (d.dword 8) bs).complete d 0 0)

/-! ## Page tables (R164 to R170) -/

/-- The head of the control queue, if it is an EDIT_PAGETABLE with this ACT. -/
def State.ptHead (s : State) (f act : Nat) : Option Taken :=
  (s.ctlHead f 0x07).filter (fun d => decide (d.word 4 % 4 = act))

def Taken.ptBase (d : Taken) : Nat := 4096 * (d.word 5 % 2 ^ 24)

/-- The region an EDIT_PAGETABLE names. -/
def State.ptRegion (s : State) (c : Nat) (d : Taken) : Option Region := (s.port d.port4).region? c d.ptBase

/-- Change a region of a port. -/
def State.modRegion (s : State) (p c base : Nat) (f : Region → Region) : State :=
  s.modPort p (fun k => { k with regions := k.regions.map (fun r => if r.ctx = c ∧ r.base = base then f r else r) })

/-- The conditions of R165. -/
def State.ptInitOk (s : State) (c : Nat) (d : Taken) (r : Region) : Bool :=
  let k := s.port d.port4
  s.portUp d.port4 && decide (d.port4 < 24) && (k.addr? c (r.base : Nat) r.bytes).isSome &&
  !k.owned c r.base r.bytes && decide (k.regions.length < 1024) && k.slots.any (fun e => e.2 == c)

/-- The first 64 bytes of a region (Table 8.3). -/
def ptHeader (r : Region) (sel flips : Nat) : List Byte :=
  leBytes 8 (sel + 2 ^ 16 * (flips % 2 ^ 32)) ++ leBytes 8 (r.layers + 2 ^ 16 * r.maxent + 2 ^ 32) ++ List.replicate 48 0

/-- EDIT_PAGETABLE INIT (R165). -/
def execEditPagetableInit (fn : Nat) (dma : Dma) (s : State) : Out :=
  atFn fn s (fun s =>
    let c := fn - 1
    match s.ptHead fn 0 with
    | none => s
    | some d =>
      let r : Region := { ctx := c, base := d.ptBase, layers := d.word 8, maxent := d.word 9 }
      if d.word 8 < 1 ∨ 1024 < d.word 8 then s.complete d 0x0009 0x20
      else if d.word 9 < 1 ∨ 65535 < d.word 9 then s.complete d 0x0009 0x24
      else if !s.ptInitOk c d r then s.complete d 0x0303 0
      else
        match dma with
        | .abort off => s.hostAbort d off
        | .ok =>
          let img := s.hostRead (d.dword 6) r.cs
          ((s.windowWrite c d.port4 r.base (ptHeader r 0 0 ++ img ++ img)).modPort d.port4 (fun k =>
            { k with regions := k.regions ++ [r] })).complete d 0 0)

/-- EDIT_PAGETABLE EDIT (R168): its list is read and it waits for its turn on the region. -/
def execEditPagetableEdit (fn : Nat) (dma : Dma) (s : State) : Out :=
  atFn fn s (fun s =>
    let c := fn - 1
    match s.ptHead fn 1 with
    | none => s
    | some d =>
      match s.ptRegion c d with
      | none => s.complete d 0x0303 0
      | some r =>
        if r.release.isSome then s.complete d 0x0303 0
        else
          match dma with
          | .abort off => s.hostAbort d off
          | .ok =>
            let n := d.word 8 + d.word 9
            let bs := s.hostRead (d.dword 6) (16 * n)
            let ws := (List.range (4 * n)).map (fun k => BitVec.ofNat 32 (leNat ((bs.drop (4 * k)).take 4)))
            let w (v : Nat) : BitVec 32 := BitVec.ofNat 32 v
            (s.modRegion d.port4 c d.ptBase (fun q =>
              { q with edits := q.edits ++ [(w (d.word 8) :: w (d.word 9) :: ws, d.num)] })).toBg d .accepted)

/-- Entry k of an EDIT list: index, expected GEN and the new entry. -/
def editAt (e : List (BitVec 32)) (k : Nat) : Nat × Nat × BitVec 64 :=
  let g (j : Nat) : Nat := (e.getD (2 + 4 * k + j) 0).toNat
  (g 0 % 2 ^ 16, fld (g 0) 23 16, BitVec.ofNat 64 (g 2 + 2 ^ 32 * g 3))

/-- Directory and page replacements of an EDIT list. -/
def editDirs (e : List (BitVec 32)) : List (Nat × Nat × BitVec 64) :=
  (List.range (e.getD 0 0).toNat).map (editAt e)
def editPages (e : List (BitVec 32)) : List (Nat × Nat × BitVec 64) :=
  (List.range (e.getD 1 0).toNat).map (fun k => editAt e ((e.getD 0 0).toNat + k))

/-- A page entry with another GEN. -/
def withGen (e : BitVec 64) (g : Nat) : BitVec 64 :=
  BitVec.ofNat 64 (e.toNat / 2 ^ 58 * 2 ^ 58 + g % 256 * 2 ^ 50 + e.toNat % 2 ^ 50)

/-- Put words of 64 bits into a table image. -/
def putEntries (img : List (BitVec 64)) (ws : List (Nat × BitVec 64)) : List (BitVec 64) :=
  ws.foldl (fun t w => t.set w.1 w.2) img

/-- The first page entry whose GEN is not the expected one (R168 step 2). -/
def genMismatch (r : Region) (img : List (BitVec 64)) (e : List (BitVec 32)) : Option Nat :=
  ((editPages e).find? (fun p => decide (p.1 < r.maxent) && decide (peGen (img.getD (r.layers + p.1) 0) ≠ p.2.1))).map (·.1)

/-- The table as edited (R168 step 4). -/
def editTable (r : Region) (img : List (BitVec 64)) (e : List (BitVec 32)) : List (BitVec 64) :=
  putEntries (putEntries img ((editDirs e).map (fun x => (x.1, x.2.2))))
    ((editPages e).map (fun x => (r.layers + x.1, withGen x.2.2 (peGen (img.getD (r.layers + x.1) 0) + 1))))

/-- A page lies clear of every owned region (R168 step 3). -/
def State.pageClear (s : State) (c : Nat) (e : BitVec 64) : Bool :=
  !(s.port (pePort e)).owned c (peBase e) (2 ^ peLog2 e)

/-- The first entry of an edited table that breaks Tables 8.4 and 8.5 or R168: a layer, or a page
entry's index (log 23). -/
def State.layoutFault (s : State) (r : Region) (img : List (BitVec 64)) (e : List (BitVec 32)) : Option Nat :=
  match (editDirs e).find? (fun x => decide (r.layers ≤ x.1)), (editPages e).find? (fun x => decide (r.maxent ≤ x.1)) with
  | some x, _ => some x.1
  | none, some x => some x.1
  | none, none =>
    match (List.range r.layers).find? (fun l => !deOk (img.getD l 0) r.maxent) with
    | some l => some l
    | none => (List.range r.maxent).find? (fun k =>
        let x := img.getD (r.layers + k) 0
        peValid x && !(peOk x && s.pageClear r.ctx x))

/-- The descriptor of index n a function holds in the background. -/
def State.bgDesc (s : State) (f n : Nat) : Option Taken := (s.fn f).bg.find? (fun d => decide (d.num = n))

/-- Complete the EDIT or RELEASE of index n of a context's function, if it is still held. -/
def State.completePt (s : State) (c n status detail : Nat) : State :=
  match s.bgDesc (c + 1) n with
  | some d => s.complete d status detail
  | none => s

/-- The oldest EDIT of a region is performed (R168). -/
def State.performEdit (s : State) (p : Nat) (r : Region) (e : List (BitVec 32)) (n : Nat) : State :=
  let k := s.port p
  let sel := k.sel r
  let off (c : Nat) : Nat := r.base + 64 + c * r.cs
  let drop (t : State) : State := t.modRegion p r.ctx r.base (fun q => { q with edits := q.edits.drop 1 })
  match s.windowRead r.ctx p (off sel) r.cs with
  | .inr u => u
  | .inl bs =>
    let img := (List.range (r.cs / 8)).map (fun i => BitVec.ofNat 64 (leNat ((bs.drop (8 * i)).take 8)))
    let s := s.windowUsed r.ctx p (off sel) r.cs
    match genMismatch r img e with
    | some i => (drop s).completePt r.ctx n 0x0300 i
    | none =>
      let new := editTable r img e
      match s.layoutFault r new e with
      | some i => (drop s).completePt r.ctx n 0x0301 i
      | none =>
        let flips := fld (k.word64 ((k.addr? r.ctx (r.base : Nat) 1).getD 0)).toNat 47 16
        let s1 := s.windowWrite r.ctx p (off (1 - sel)) (new.flatMap (fun x => leBytes 8 x.toNat))
        let s2 := s1.windowWrite r.ctx p r.base (leBytes 8 (1 - sel + 2 ^ 16 * ((flips + 1) % 2 ^ 32)))
        s2.modRegion p r.ctx r.base (fun q => { q with edits := q.edits.drop 1, flipped := some (n, sel) })

/-- Walks begun on a copy and not ended. -/
def Region.walks (r : Region) (c : Nat) : Nat := if c = 0 then r.walks0 else r.walks1

/-- PT_EDIT_PERFORM (R168): no walk reads the inactive copy, and the oldest EDIT is performed. -/
def execPtEditPerform (c : BitVec 6) (port : BitVec 5) (base : Nat) (s : State) : Out :=
  let p := port.toNat
  .next (match (s.port p).region? c.toNat base with
    | some r =>
      match r.edits with
      | e :: _ =>
        if r.flipped.isNone && decide (r.walks (1 - (s.port p).sel r) = 0) then s.performEdit p r e.1 e.2 else s
      | [] => s
    | none => s)

/-- PT_EDIT_COMPLETE (R169): the last walk on the old copy has ended. -/
def execPtEditComplete (c : BitVec 6) (port : BitVec 5) (base : Nat) (s : State) : Out :=
  let p := port.toNat
  .next (match (s.port p).region? c.toNat base with
    | some r =>
      match r.flipped with
      | some (n, old) =>
        if r.walks old = 0 then (s.modRegion p c.toNat base (fun q => { q with flipped := none })).completePt c.toNat n 0 0
        else s
      | none => s
    | none => s)

/-- A RELEASE can be performed: no walk is counted and no EDIT is pending (R170, log 23). -/
def Region.quiet (r : Region) : Bool :=
  decide (r.walks0 = 0) && decide (r.walks1 = 0) && r.edits.isEmpty && r.flipped.isNone

/-- Clear the owned mark; the bytes stay (R170). -/
def State.clearRegion (s : State) (p c base : Nat) : State :=
  s.modPort p (fun k => { k with regions := k.regions.filter (fun r => !(decide (r.ctx = c) && decide (r.base = base))) })

/-- The first region of a context with a RELEASE that can be performed: port, base, index. -/
def State.releasable (s : State) (c : Nat) : Option (Nat × Nat × Nat) :=
  s.ports.findSome? (fun e => e.2.regions.findSome? (fun r =>
    if r.ctx = c ∧ r.quiet then r.release.map (fun n => (e.1, r.base, n)) else none))

/-- EDIT_PAGETABLE RELEASE (R170): taken from the control queue and, where the walks have ended,
performed; given again, the oldest one that waited is performed. -/
def execEditPagetableRelease (fn : Nat) (s : State) : Out :=
  atFn fn s (fun s =>
    let c := fn - 1
    match s.ptHead fn 2 with
    | some d =>
      match s.ptRegion c d with
      | none => s.complete d 0x0303 0
      | some r =>
        if r.release.isSome then s.complete d 0x0303 0
        else if r.quiet then (s.clearRegion d.port4 c d.ptBase).complete d 0 0
        else (s.modRegion d.port4 c d.ptBase (fun q => { q with release := some d.num })).toBg d .accepted
    | none =>
      match s.releasable c with
      | some (p, base, n) => (s.clearRegion p c base).completePt c n 0 0
      | none => s)

end Sys2Proof.Machine
end

