-- ==== Sys2Proof/Machine/Weights.lean ====
section
/-! DEFINITION. Weight sets: manifests and their checks, loads and swaps, shards, re-checks, and the
tier-B library (R185 to R211, R325, R349, R393). -/
namespace Sys2Proof.Machine

open Sys2Proof

/-! ## Manifests (R185 to R190) -/

/-- A little-endian field of n bytes. -/
def leAt (m : List Byte) (off n : Nat) : Nat := leNat ((m.drop off).take n)

/-- Bytes [off, off + n) are zero. -/
def zeroBytes (m : List Byte) (off n : Nat) : Bool := ((m.drop off).take n).all (· == 0)

/-- A manifest as read (Tables 9.1 and 9.2). -/
structure Manifest where
  flags : Nat
  podw : Nat
  podh : Nat
  total : Nat
  root : BitVec 256
  prog : BitVec 256
  signer : BitVec 256
  shards : List Shard
  body : List Byte
  sig : List Byte
  deriving DecidableEq, Repr

/-- Shard entry i (Table 9.2). -/
def shardEntry (m : List Byte) (i : Nat) : Shard :=
  let e := (m.drop (0x100 + 64 * i)).take 64
  { digest := digOf e, len := leAt e 0x20 4, imgoff := leAt e 0x28 8, x := leAt e 0x30 2, y := leAt e 0x32 2,
    w := leAt e 0x34 2, h := leAt e 0x36 2, hd := leAt e 0x38 2, off := leAt e 0x3A 2, per := leAt e 0x3C 2 }

def parseManifest (m : List Byte) : Manifest :=
  let n := leAt m 8 4
  { flags := leAt m 6 2, podw := leAt m 0x0C 1, podh := leAt m 0x0D 1, total := leAt m 0x10 8,
    root := digOf (m.drop 0x20), prog := digOf (m.drop 0x40), signer := digOf (m.drop 0x60),
    shards := (List.range n).map (shardEntry m), body := m.take (0x100 + 64 * n),
    sig := (m.drop (0x100 + 64 * n)).take 64 }

/-- The header of a manifest of these bytes meets Table 9.1. -/
def headerOk (m : List Byte) : Bool :=
  let n := leAt m 8 4
  decide (leAt m 0 4 = 0x3153574A) && decide (leAt m 4 2 = 1) && decide (leAt m 6 2 < 2) && decide (1 ≤ n) &&
  decide (n ≤ 16384) && decide (m.length = 0x140 + 64 * n) && decide (1 ≤ leAt m 0x0C 1) && decide (leAt m 0x0C 1 ≤ 16) &&
  decide (1 ≤ leAt m 0x0D 1) && decide (leAt m 0x0D 1 ≤ 12) && zeroBytes m 0x0E 2 && zeroBytes m 0x18 8 && zeroBytes m 0x80 128

/-- Shard entry i is well formed (R186, Table 9.2). -/
def shardOk (m : List Byte) (g : Manifest) (i : Nat) : Bool :=
  let h := shardEntry m i
  let e := 0x100 + 64 * i
  decide (h.len % 64 = 0) && decide (64 ≤ h.len) && decide (h.len ≤ 67108864) && decide (h.imgoff % 4096 = 0) &&
  decide (1 ≤ h.w) && decide (1 ≤ h.h) && decide (h.hd < 64) && decide (h.off ≤ 3071) && decide (1 ≤ h.per) &&
  decide (h.per ≤ 3072) && zeroBytes m (e + 0x24) 4 && zeroBytes m (e + 0x3E) 2 &&
  decide (h.len = h.w * h.h * h.per * 64) && decide (h.x + h.w ≤ 40 * g.podw) && decide (h.y + h.h ≤ 40 * g.podh)

/-- The later of the first two entries whose image ranges overlap (R186). -/
def imageOverlap (sh : List Shard) : Option Nat :=
  let es := (sh.zipIdx).mergeSort (fun a b => decide (a.1.imgoff ≤ b.1.imgoff))
  ((es.zip (es.drop 1)).find? (fun p => decide (p.2.1.imgoff < p.1.1.imgoff + p.1.1.len))).map (fun p => max p.1.2 p.2.2)

/-- Item 1 of Table 9.5 without the repair list: DETAIL of the failure. -/
def formatFault (m : List Byte) : Option Nat :=
  let g := parseManifest m
  if !headerOk m then some 0
  else if g.total ≠ g.shards.foldl (fun n h => n + h.len) 0 then some 0
  else match (List.range g.shards.length).find? (fun i => !shardOk m g i) with
    | some i => some i
    | none => imageOverlap g.shards

/-- One level of the digest tree (R189). -/
def pairUp : List (BitVec 256) → List (BitVec 256)
  | a :: b :: t => sha256 (digBytes a ++ digBytes b) :: pairUp t
  | l => l

/-- The root of a tree of at most 2^n leaves (R189). -/
def merkle : Nat → List (BitVec 256) → BitVec 256
  | 0, l => l.headD 0
  | n + 1, l => match l with
    | [x] => x
    | l => merkle n (pairUp l)

/-- An enrolled owner key whose slot is not revoked (R349). -/
def State.trusts (s : State) (key : BitVec 256) : Bool :=
  s.sec.owners.any (fun e => e.2.enrolled && !e.2.revoked && e.2.key == key)

/-- Items 1 to 3 of Table 9.5: status and DETAIL. -/
def State.manifestFault (s : State) (m : List Byte) (reps : List Nat) : Option (Nat × Nat) :=
  let g := parseManifest m
  match formatFault m with
  | some i => some (0x0200, i)
  | none =>
    match reps.find? (fun k => decide (g.shards.length ≤ k)) with
    | some k => some (0x0200, k)
    | none =>
      if !(s.trusts g.signer && sigUnder g.signer (sha256 g.body) g.sig) then some (0x0201, 0)
      else if merkle 15 (g.shards.map (·.digest)) ≠ g.root then some (0x0202, 0)
      else none

/-! ## Placements (R187) -/

/-- The cores of a shard, n = 0 first. -/
def Context.shardCores (x : Context) (h : Shard) : List Nat := x.rectCores (h.x, h.y, h.w, h.h)

/-- A shard's placement is valid under the handle table in force. -/
def State.placementOk (s : State) (x : Context) (h : Shard) : Bool :=
  (x.shardCores h).all (fun i =>
    let e := (s.core i).handle h.hd
    hValid e && !hDesc e && decide (64 * h.off + 64 * h.per ≤ hBytes e))

/-- First scratchpad byte of a shard on a core. -/
def State.shardAt (s : State) (h : Shard) (i : Nat) : Nat := hByte ((s.core i).handle h.hd) + 64 * h.off

/-- Two shards place bytes on one scratchpad byte. -/
def State.shardsMeet (s : State) (x : Context) (a b : Shard) : Bool :=
  rectsMeet a.x a.y a.w a.h b.x b.y b.w b.h &&
  (x.shardCores a).any (fun i => (x.shardCores b).contains i &&
    decide (s.shardAt a i < s.shardAt b i + 64 * b.per) && decide (s.shardAt b i < s.shardAt a i + 64 * a.per))

/-- The first shard that meets a lower-numbered one (log 20). -/
def State.overlapFault (s : State) (x : Context) (sh : List Shard) : Option Nat :=
  (List.range sh.length).find? (fun j => (sh.take j).any (fun a => s.shardsMeet x a (sh.getD j {})))

/-! ## Acceptance (R192, R194, R198, R393) -/

def Taken.wsSource (d : Taken) : Nat := d.word 7 % 4
def Taken.wsRepair (d : Taken) : Bool := decide (d.op = 0x05) && decide (fld (d.word 7) 2 2 = 1)
def Taken.wsCut (d : Taken) : Bool := decide (fld (d.word 7) 3 3 = 1)
def Taken.wsEpoch (d : Taken) : Nat := d.word 7 / 65536
def Taken.wsJob (d : Taken) : Bool := decide (d.op = 0x06) && decide (fld (d.word 0) 10 10 = 1)
def Taken.wsCount (d : Taken) : Nat := d.word 10 % 32 + 1

/-- The staging list of a descriptor (Table 12.7): port and window offset of each pair. -/
def State.stagingPairs (s : State) (d : Taken) : List (Nat × Nat) :=
  if d.wsSource = 1 then
    let bs := s.hostRead (d.dword 8) (8 * d.wsCount)
    (List.range d.wsCount).map (fun k => (leAt bs (8 * k) 8 % 32, leAt bs (8 * k) 8 / 2 ^ 16))
  else []

/-- The repair list of a descriptor. -/
def State.repairList (s : State) (d : Taken) : List Nat :=
  if d.wsRepair then
    let bs := s.hostRead (d.dword 12) (2 * d.word 11)
    (List.range (d.word 11)).map (fun k => leAt bs (2 * k) 2)
  else []

/-- The port has a slot that no other context holds (R192). -/
def State.slotFor (s : State) (p c : Nat) : Bool :=
  (List.range 62).any (fun k => ((s.port p).slots.find? k).all (fun o => o == c))

/-- The library entry of a ROOT. -/
def State.libOf (s : State) (root : BitVec 256) : Option (Nat × LibEntry) := List.find? (fun e => e.2.root == root) s.mg.lib

/-- Item 9 of Table 9.5. -/
def State.sourceOk (s : State) (c : Nat) (d : Taken) (g : Manifest) : Bool :=
  if d.wsSource = 0 then true
  else if d.wsSource = 1 then
    (s.stagingPairs d).all (fun p => s.portUp p.1 && decide (p.1 < 24) && (s.port p.1).wins.has c && s.slotFor p.1 c)
  else
    s.hasSeqs && ((s.libOf g.root).map (fun e => e.2.complete && e.2.grants.getLsbD c)).getD false &&
    (List.range (min 8 g.shards.length)).all (fun j => s.portUp (24 + j) && s.slotFor (24 + j) c)

/-- Items 4 to 10 of Table 9.5: status and DETAIL. A set is in force from READY on (Table 9.7), so that the epoch of one that is
still LOADING may be named again (log 107). -/
def State.loadFault (s : State) (c : Nat) (d : Taken) (g : Manifest) : Option (Nat × Nat) :=
  let x := s.ctx c
  let w := x.wset
  if x.part.map (fun r => (r.w, r.h)) ≠ some (g.podw, g.podh) then some (0x0203, 0)
  else if !(x.prog.map (fun p => decide (g.prog = 0) || decide (g.prog = p.digest))).getD false then some (0x0204, 0)
  else
    match (List.range g.shards.length).find? (fun i => !s.placementOk x (g.shards.getD i {})) with
    | some i => some (0x0205, i)
    | none =>
      match s.overlapFault x g.shards with
      | some i => some (0x0206, i)
      | none =>
        let ep := if d.wsRepair then (w.st == 1 || w.st == 3) && w.root == g.root && w.epoch == d.wsEpoch
          else decide (1 ≤ d.wsEpoch) && (decide (w.st < 2) || decide (d.wsEpoch ≠ w.epoch))
        if !ep then some (0x0207, 0)
        else if !s.sourceOk c d g then some (0x0208, 0)
        else if w.load.isSome then some (0x0209, 0)
        else none

/-- The manifest of a descriptor. -/
def State.manifestOf (s : State) (d : Taken) : List Byte := s.hostRead (d.dword 4) (d.word 6)

/-- The load a descriptor starts. -/
def State.newLoad (s : State) (d : Taken) (g : Manifest) (todo : List Nat) : Load :=
  { d := d, source := d.wsSource, addr := d.dword 8, pairs := s.stagingPairs d,
    lib := ((s.libOf g.root).map (·.1)).getD 0, todo := todo }

/-- A load that has nothing left to transfer ends (R196). -/
def State.settle (s : State) (c : Nat) : State :=
  match (s.ctx c).wset.load with
  | some l => if (!l.swap || l.waiting) && l.todo.isEmpty && (s.ctx c).loadDone then s.endLoad c l else s
  | none => s

/-- Shards a repair transfers: those not GOOD, or the listed ones of them (R198). -/
def repairTodo (sh : List Shard) (reps : List Nat) : List Nat :=
  (List.range sh.length).filter (fun i => (sh.getD i {}).st != .good && (reps.isEmpty || reps.contains i))

/-- The shards a repair transfers take the entries of its manifest: ROOT binds their digests, and where they lie in the image
and in the cores is what this manifest says (R198). -/
def repairShards (sh new : List Shard) (todo : List Nat) : List Shard :=
  sh.zipIdx.map (fun e => if todo.contains e.2 then { new.getD e.2 e.1 with st := e.1.st, lastGood := e.1.lastGood } else e.1)

/-- An accepted load or repair (R195, R198). -/
def State.acceptLoad (s : State) (c : Nat) (d : Taken) (g : Manifest) : State :=
  let s := s.dropRecheck c
  let w := (s.ctx c).wset
  let todo := if d.wsRepair then repairTodo w.shards (s.repairList d) else List.range g.shards.length
  let w1 : WSet :=
    if d.wsRepair then { w with st := 1, shards := repairShards w.shards g.shards todo, load := some (s.newLoad d g todo) }
    else { w with st := 1, epoch := d.wsEpoch, root := g.root, shards := g.shards, lastStart := none, nextShard := 0,
                  load := some (s.newLoad d g todo) }
  ((s.toBg d .accepted).modCtx c (fun x => { x with wset := w1 })).settle c

/-- An accepted swap waits for its switch tick, or for the manager's exchange (R205, R209, R393). -/
def State.acceptSwap (s : State) (c : Nat) (d : Taken) (g : Manifest) : State :=
  let l := { s.newLoad d g (List.range g.shards.length) with
             swap := true, cut := d.wsCut, job := d.wsJob, armed := !d.wsJob, at_ := (s.ctx c).nextTick }
  (s.toBg d .accepted).modCtx c (fun x => { x with wset := { x.wset with
    load := some l, next := some (g.shards, g.root, d.wsEpoch) } })

/-- The checks of Table 9.5 and what follows an acceptance. -/
def State.wsetOp (s : State) (c : Nat) (d : Taken) (dma : Dma) (go : State → Manifest → State) : State :=
  match dma with
  | .abort off => s.hostAbort d off
  | .ok =>
    let m := s.manifestOf d
    match s.manifestFault m (s.repairList d) with
    | some f => s.complete d f.1 f.2
    | none =>
      match s.loadFault c d (parseManifest m) with
      | some f => s.complete d f.1 f.2
      | none => go s (parseManifest m)

/-- WSET_LOAD (R194, R198). -/
def execWsetLoad (fn : Nat) (dma : Dma) (s : State) : Out :=
  atFn fn s (fun s =>
    match s.ctlHead fn 0x05 with
    | none => s
    | some d => s.wsetOp (fn - 1) d dma (fun t g => t.acceptLoad (fn - 1) d g))

/-- WSET_SWAP (R205, R209, R393). -/
def execWsetSwap (fn : Nat) (dma : Dma) (s : State) : Out :=
  atFn fn s (fun s =>
    let c := fn - 1
    match s.ctlHead fn 0x06 with
    | none => s
    | some d =>
      let st := (s.ctx c).st
      if !d.wsJob && !(st == CtxState.bound || st == CtxState.running || st == CtxState.quiesced) then s.refuseCx d c
      else s.wsetOp c d dma (fun t g => t.acceptSwap c d g))

/-! ## Transfers of shards (R191, R195, R196, R207) -/

/-- The core waits at TICK, has stopped, or does not issue. -/
def State.parked (s : State) (x : Context) (k : Core) : Bool := decide (x.st ≠ .running) || !s.fs.clocked || !k.issuing || k.stopped || k.waitTick

/-- The stages of a shard are released and their cores wait (R207). A load or repair after a swap that failed leaves the stages
alone which the old set still drains. -/
def State.shardFree (s : State) (c : Nat) (l : Load) (h : Shard) : Bool :=
  let x := s.ctx c
  let ks := x.shardStages h
  (!l.swap && x.wset.old.isNone || ks.all x.held.contains) &&
  (s.ownedCores c).all (fun e => !((x.stage? e.1).map ks.contains).getD false || s.parked x e.2)

/-- A host load moves one shard at a time, the lowest-numbered one whose transfer may start (R191). -/
def State.hostTurn (s : State) (c : Nat) (l : Load) (i : Nat) : Bool :=
  let w := (s.ctx c).wset
  w.shards.all (fun h => h.st != .arriving) &&
  l.todo.all (fun k => decide (i ≤ k) || !s.shardFree c l (w.shards.getD k {}))

/-- Change shard i of a context's set. -/
def State.modShard (s : State) (c i : Nat) (f : Shard → Shard) : State :=
  s.modCtx c (fun x => { x with wset := { x.wset with shards := x.wset.shards.modify i f } })

/-- The transfer of shard i starts (R195). -/
def State.startShard (s : State) (c : Nat) (l : Load) (i : Nat) : State :=
  (s.modShard c i (fun h => { h with st := .arriving })).modCtx c (fun x => { x with wset := { x.wset with
    load := some { l with todo := l.todo.filter (· != i) } } })

/-- SHARD_TRANSFER_START (R192, R195, R207): a shard whose stages wait asks for its engine, and its transfer starts once the
engine is free and nothing that asked before it waits; given again, the command starts one that has asked. -/
def execShardTransferStart (c : BitVec 6) (i : Nat) (s : State) : Out :=
  let c := c.toNat
  .next (match (s.ctx c).wset.load with
    | none => s
    | some l =>
      if l.runs && l.todo.contains i && s.shardFree c l ((s.ctx c).wset.shards.getD i {}) then
        match l.engine i with
        | some p =>
          let s1 := s.askEngine p (c, i)
          if (s1.port p).engine = some (c, i) then (s1.modPort p (fun k => k.touch s.tcb.now)).startShard c l i else s1
        | none => if s.hostTurn c l i then s.startShard c l i else s
      else s)

/-- A stack read by firmware: the bytes up to the first uncorrectable word, and that word's byte. -/
def State.stackRead (s : State) (p a n : Nat) : List Byte × Option Nat :=
  match (s.port p).eccAt a n with
  | some w => ((s.port p).bytes a (w - a), some w)
  | none => ((s.port p).bytes a n, none)

/-- The bytes of shard i from its source; the second part says that a read failed, and where in a
stack an uncorrectable error stopped it: port and byte. -/
def State.shardBytes (s : State) (c : Nat) (l : Load) (h : Shard) (i : Nat) (dma : Dma) :
    List Byte × Bool × Option (Nat × Nat) :=
  if l.source = 1 then
    let e := l.pairs.getD (i % l.pairs.length) (0, 0)
    match (s.port e.1).addr? c ((e.2 + 67108864 * (i / l.pairs.length) : Nat) : Int) h.len with
    | none => ([], true, none)
    | some a => let r := s.stackRead e.1 a h.len; (r.1, r.2.isSome, r.2.map (fun w => (e.1, w)))
  else if l.source = 2 then
    let b := ((s.mg.lib.get l.lib {}).blocks.getD i (0, 0))
    let r := s.stackRead b.1 (b.2 * blockBytes) h.len
    (r.1, r.2.isSome, r.2.map (fun w => (b.1, w)))
  else
    match dma with
    | .ok => (s.hostRead (l.addr + h.imgoff) h.len, false, none)
    | .abort off => ((s.hostRead (l.addr + h.imgoff) h.len).take off, true, none)

/-- What the stack reads of shard i correct (R155). -/
def State.shardRead (s : State) (c : Nat) (l : Load) (h : Shard) (i : Nat) : State :=
  if l.source = 1 then
    let e := l.pairs.getD (i % l.pairs.length) (0, 0)
    s.windowUsed c e.1 (e.2 + 67108864 * (i / l.pairs.length)) h.len
  else if l.source = 2 then
    let b := ((s.mg.lib.get l.lib {}).blocks.getD i (0, 0))
    s.modPort b.1 (fun k => (k.touch s.tcb.now).correct (b.2 * blockBytes) h.len)
  else s

/-- Shard bytes reach their cores (R187), from the host interface or from a stack port. -/
def State.placeShard (s : State) (c : Nat) (l : Load) (h : Shard) (bs : List Byte) : State :=
  let put (t : State) : Nat → Nat → Nat → List Byte → State := if l.source = 0 then t.hostStore else t.turnStore
  ((s.ctx c).shardCores h).zipIdx.foldl (fun t e =>
    put t e.1 h.hd (64 * h.off) ((bs.drop (e.2 * h.per * 64)).take (h.per * 64))) s

/-- An engine serves no shard any more. -/
def State.freeEngine (s : State) (c i : Nat) : State :=
  { s with ports := s.ports.map (fun (e : Nat × StackPort) =>
    if e.2.engine = some (c, i) then (e.1, { e.2 with engine := none }) else e) }

/-- SHARD_VERDICT (R195, R196): the last byte of an ARRIVING shard has passed its engine. -/
def execShardVerdict (c : BitVec 6) (i : Nat) (dma : Dma) (s : State) : Out :=
  let c := c.toNat
  let h := (s.ctx c).wset.shards.getD i {}
  .next (match (s.ctx c).wset.load with
    | none => s
    | some l =>
      if h.st ≠ .arriving then s
      else
        let r := s.shardBytes c l h i dma
        let s := s.shardRead c l h i
        let s1 := match r.2.2 with
          | some (p, w) => let g := stackEccArg w; (s.portUe p w).logFault 0x0A08 1 c (srcPort p) g.1 g.2
          | none => s
        let good := !r.2.1 && decide (sha256 r.1 = h.digest)
        (((s1.placeShard c l h r.1).freeEngine c i).modShard c i (fun q =>
          { q with st := if good then .good else .bad })).settle c)

/-! ## Re-checks (R200, R201, R325) -/

/-- The bytes of a shard in its cores, or the core and the fault of an uncorrectable error. -/
def State.shardImage (s : State) (c : Nat) (h : Shard) : List Byte ⊕ (Nat × Nat × Nat × Nat) :=
  ((s.ctx c).shardCores h).foldl (fun (t : List Byte ⊕ (Nat × Nat × Nat × Nat)) i =>
    match t with
    | .inr f => .inr f
    | .inl bs =>
      match (s.core i).load (s.shardAt h i) (64 * h.per) with
      | .inl k => .inl (bs ++ k)
      | .inr f => .inr (i, f)) (.inl [])

/-- A re-check fails (R201). -/
def State.suspect (s : State) (c i : Nat) (ecc : Option (Nat × Nat × Nat × Nat)) : State :=
  let last := ((s.ctx c).wset.shards.getD i {}).lastGood
  let s1 := (s.modShard c i (fun h => { h with st := .bad })).modCtx c (fun x => { x with wset := { x.wset with st := 3 } })
  let s2 := (s1.endBatches c 0x0006 i).ctxFault c 0x0701 srcCtx i (last % 2 ^ 32)
  match ecc with
  | some f => s2.dataFault f.1 f.2
  | none => s2

/-- What the reads of a re-check correct (R112). -/
def State.shardUsed (s : State) (c : Nat) (h : Shard) : State :=
  ((s.ctx c).shardCores h).foldl (fun t i => t.modCore i (fun k => k.correct (s.shardAt h i) (64 * h.per))) s

/-- The verdict of a re-check (R200, R201). -/
def State.judge (s : State) (c i : Nat) : State :=
  let h := (s.ctx c).wset.shards.getD i {}
  let s1 := (s.dropRecheck c).shardUsed c h
  match s.shardImage c h with
  | .inr f => s1.suspect c i (some f)
  | .inl bs =>
    if sha256 bs = h.digest then s1.modShard c i (fun q => { q with lastGood := (s.ctx c).fcount })
    else s1.suspect c i none

/-- RECHECK_VERDICT (R192, R200, R201): at a tick after the re-check began, and only from its engine, for which it waits in the
order of asking. A set that is READY no longer gets no verdict. -/
def execRecheckVerdict (c : BitVec 6) (s : State) : Out :=
  let c := c.toNat
  .next (match (s.ctx c).wset.recheck with
    | none => s
    | some r =>
      if (s.ctx c).wset.st ≠ 2 then s.dropRecheck c
      else
        let s1 := s.askEngine (r.shard % 24) (c, r.shard)
        if (s1.port (r.shard % 24)).engine = some (c, r.shard) ∧ r.tick < (s.ctx c).tickNo then s1.judge c r.shard else s1)

/-- RECHECK_ABANDON (R325): no verdict within 200,000,000 tc; the same shard is next again. -/
def execRecheckAbandon (c : BitVec 6) (s : State) : Out :=
  let c := c.toNat
  .next (match (s.ctx c).wset.recheck with
    | none => s
    | some r => ((s.passTo (r.tc + 200000000)).dropRecheck c).modCtx c (fun y => { y with wset := { y.wset with nextShard := r.shard } }))

/-! ## The tier-B library (R193, R158) -/

/-- Shards of an entry on the j-th tier-B port. -/
def libNeed (n j : Nat) : Nat := (n + 7 - j) / 8

/-- A tier-B block that nothing holds, worn or not. -/
def StackPort.libFree (k : StackPort) (b : Nat) : Bool :=
  decide (b ≠ 0) && !k.libUsed.has b && !(k.wins.any (fun e => e.2.has b)) && !(k.retained.any (fun e => e.2.has b)) &&
  !k.bad.contains b && !(k.scrubs.any (fun j => decide (j.base ≤ b) && decide (b < j.base + j.blocks)))

/-- Free blocks of the j-th tier-B port, and those of them that are not worn out. -/
def State.libBlocks (s : State) (j : Nat) (fresh : Bool) : List Nat :=
  let k := s.port (24 + j)
  if !s.portUp (24 + j) then []
  else (List.range 1024).filter (fun b => k.libFree b && (!fresh || decide (k.wear.get b 0 < 100000)))

/-- What refuses an install after the manifest: status and port (Table 9.4). -/
def State.libFault (s : State) (g : Manifest) : Option (Nat × Nat) :=
  let short (fresh : Bool) : Option Nat :=
    (List.range 8).find? (fun j => decide ((s.libBlocks j fresh).length < libNeed g.shards.length j))
  match short false with
  | some j => some (0x0210, 24 + j)
  | none =>
    match short true with
    | some j => some (0x0211, 24 + j)
    | none => if (s.libOf g.root).isSome then some (0x0212, 0) else none

/-- The block of shard i: the lowest free ones in order (log 20). -/
def State.libPlace (s : State) (i : Nat) : Nat × Nat := (24 + i % 8, (s.libBlocks (i % 8) true).getD (i / 8) 0)

/-- LIBRARY_INSTALL (R193): accepted, and its entry is INSTALLING. -/
def execLibraryInstall (dma : Dma) (s : State) : Out :=
  .next (match s.ctlHead 0 0x28 with
    | none => s
    | some d =>
      if !s.hasSeqs then s.complete d 0x0208 0
      else
        match dma with
        | .abort off => s.hostAbort d off
        | .ok =>
          let m := s.manifestOf d
          let g := parseManifest m
          match s.manifestFault m [] with
          | some f => s.complete d f.1 f.2
          | none =>
            if g.flags % 2 = 0 then s.complete d 0x0200 0
            else
              match s.libFault g with
              | some f => s.complete d f.1 f.2
              | none =>
                let n := s.mg.nextLib
                let bs := (List.range g.shards.length).map s.libPlace
                let e : LibEntry := { root := g.root, shards := g.shards, blocks := bs, d := d, base := d.dword 8 }
                let s1 := bs.foldl (fun t b => t.modPort b.1 (fun k => { k with libUsed := k.libUsed.put b.2 n })) s
                let s2 := { s1 with mg := { s1.mg with lib := s1.mg.lib.put n e, nextLib := n + 1 } }
                s2.setSt d .running)

/-- An entry is deleted and its blocks are free; the bytes stay (R193). -/
def State.libDelete (s : State) (n : Nat) : State :=
  let s1 := { s with mg := { s.mg with lib := s.mg.lib.erase n } }
  { s1 with ports := s1.ports.map (fun (e : Nat × StackPort) => (e.1, { e.2 with libUsed := e.2.libUsed.filter (fun b => b.2 != n) })) }

/-- The shards of an entry are written to their blocks until `room` bytes have arrived; each block
begun counts a rewrite (R158, R193). -/
def State.libWrite (s : State) (e : LibEntry) (room : Nat) : State :=
  ((e.shards.zip e.blocks).foldl (fun (t : State × Nat) p =>
    if t.2 = 0 then t
    else
      let n := min p.1.len t.2
      let bs := s.hostRead (e.base + p.1.imgoff) n
      (t.1.modPort p.2.1 (fun k =>
        { (k.write (p.2.2 * blockBytes) bs) with wear := k.wear.put p.2.2 (k.wear.get p.2.2 0 + 1) }), t.2 - n)) (s, room)).1

/-- LIBRARY_INSTALL_DONE (R193): the shards of entry n have been written and digested. -/
def execLibraryInstallDone (n : Nat) (dma : Dma) (s : State) : Out :=
  .next (match s.mg.lib.find? n with
    | none => s
    | some e =>
      if e.complete then s
      else
        match dma with
        | .abort off => ((s.libWrite e off).libDelete n).hostAbort e.d off
        | .ok =>
          let s1 := s.libWrite e (e.shards.foldl (fun k h => k + h.len) 0)
          let bad := e.shards.filter (fun h => sha256 (s.hostRead (e.base + h.imgoff) h.len) ≠ h.digest)
          if bad.isEmpty then
            ({ s1 with mg := { s1.mg with lib := s1.mg.lib.put n { e with complete := true } } }).complete e.d 0 0
          else (s1.libDelete n).complete e.d 0x020A (65536 * bad.length))

/-- The ROOT of a LIBRARY_GRANT or LIBRARY_REMOVE. -/
def Taken.libRoot (d : Taken) : BitVec 256 := digOf ((List.range 8).flatMap (fun k => leBytes 4 (d.word (4 + k))))

/-- LIBRARY_GRANT (R193). -/
def execLibraryGrant (s : State) : Out :=
  .next (match s.ctlHead 0 0x29 with
    | none => s
    | some d =>
      if !s.hasSeqs then s.complete d 0x0208 0
      else
        match s.libOf d.libRoot with
        | none => s.complete d 0x0213 0
        | some (n, e) =>
          ({ s with mg := { s.mg with lib := s.mg.lib.put n { e with grants := BitVec.ofNat 64 (d.dword 12) } } }).complete d 0 0)

/-- A load reads entry n (R193). -/
def State.libReads (s : State) (n : Nat) : Bool :=
  s.liveCtxs.any (fun c => ((s.ctx c).wset.load.map (fun l => decide (l.source = 2) && decide (l.lib = n))).getD false)

/-- LIBRARY_REMOVE (R193). -/
def execLibraryRemove (s : State) : Out :=
  .next (match s.ctlHead 0 0x2A with
    | none => s
    | some d =>
      if !s.hasSeqs then s.complete d 0x0208 0
      else
        match s.libOf d.libRoot with
        | none => s.complete d 0x0213 0
        | some (n, e) =>
          if s.libReads n || !e.complete then s.complete d 0x0214 0 else (s.libDelete n).complete d 0 0)

end Sys2Proof.Machine
end

