-- ==== Sys2Proof/Machine/Loader.lean ====
section
/-! DEFINITION. The Stourn loader: the program image, the verifier's sixteen checks in their order, the
writing of an image, and its events (R285 to R298). -/
namespace Sys2Proof.Machine

open Sys2Proof

/-! ## The image (R286, R287) -/

/-- A section table entry (Table 13.2) with its index. -/
structure Sect where
  idx : Nat
  ty : Nat
  off : Nat
  len : Nat
  count : Nat
  deriving DecidableEq, Repr

def imgSects (m : List Byte) : List Sect :=
  (List.range (leAt m 0x10 2)).map (fun i =>
    let o := 0x80 + 16 * i
    { idx := i, ty := leAt m o 4, off := leAt m (o + 4) 4, len := leAt m (o + 8) 4, count := leAt m (o + 12) 4 })

/-- Sections of one type. -/
def sectsOf (m : List Byte) (ty : Nat) : List Sect := (imgSects m).filter (fun t => t.ty == ty)

/-- A CODE block: section, record, header, and the byte at which its bundles begin. -/
structure CodeRec where
  sect : Nat
  record : Nat
  blk : CodeBlk
  at_ : Nat
  deriving DecidableEq, Repr

/-- CODE blocks from byte `off`; a block that begins beyond the image ends the walk. -/
def codeRecs (m : List Byte) (sect : Nat) : Nat → Nat → Nat → List CodeRec
  | 0, _, _ => []
  | n + 1, k, off =>
    if m.length < off + 16 then []
    else
      { sect := sect, record := k, at_ := off + 16,
        blk := { x := leAt m off 2, y := leAt m (off + 2) 2, w := leAt m (off + 4) 2, h := leAt m (off + 6) 2,
                 nbund := leAt m (off + 8) 2, stage := leAt m (off + 10) 2 } } ::
      codeRecs m sect n (k + 1) (off + 16 + 32 * leAt m (off + 8) 2)

/-- A DATA block: section, record, rectangle, handle, offset, and where its bytes are. -/
structure DataRec where
  sect : Nat
  record : Nat
  rect : Nat × Nat × Nat × Nat
  hd : Nat
  off : Nat
  len : Nat
  at_ : Nat
  deriving DecidableEq, Repr

def dataRecs (m : List Byte) (sect : Nat) : Nat → Nat → Nat → List DataRec
  | 0, _, _ => []
  | n + 1, k, off =>
    if m.length < off + 24 then []
    else
      { sect := sect, record := k, rect := (leAt m off 2, leAt m (off + 2) 2, leAt m (off + 4) 2, leAt m (off + 6) 2),
        hd := leAt m (off + 8) 4, off := leAt m (off + 12) 4, len := leAt m (off + 16) 4, at_ := off + 24 } ::
      dataRecs m sect n (k + 1) (off + 24 + leAt m (off + 16) 4)

/-- A HANDLES record: section, record, rectangle, handle and entry. -/
structure HandleRec where
  sect : Nat
  record : Nat
  rect : Nat × Nat × Nat × Nat
  hd : Nat
  entry : BitVec 128
  deriving DecidableEq, Repr

def handleRecs (m : List Byte) (t : Sect) : List HandleRec :=
  (List.range t.count).map (fun k =>
    let o := t.off + 32 * k
    { sect := t.idx, record := k, rect := (leAt m o 2, leAt m (o + 2) 2, leAt m (o + 4) 2, leAt m (o + 6) 2),
      hd := leAt m (o + 8) 4 % 64, entry := entryOf (leAt m (o + 8) 4) (leAt m (o + 12) 4) (leAt m (o + 16) 4) })

def imgCode (m : List Byte) : List CodeRec := (sectsOf m 1).flatMap (fun t => codeRecs m t.idx t.count 0 t.off)
def imgHandles (m : List Byte) : List HandleRec := (sectsOf m 2).flatMap (handleRecs m)
def imgData (m : List Byte) : List DataRec := (sectsOf m 3).flatMap (fun t => dataRecs m t.idx t.count 0 t.off)

/-- An input or output area from byte o (Table 13.4). -/
def imgArea (m : List Byte) (o : Nat) : IoArea :=
  let a := leAt m o 4
  let n := leAt m (o + 0x18) 4
  { kind := a % 2, port := fld a 12 8, hd := fld a 21 16, x := leAt m (o + 4) 2, y := leAt m (o + 6) 2,
    w := leAt m (o + 8) 2, h := leAt m (o + 10) 2, off := leAt m (o + 0x10) 8, n := n % 256 + 1, size := n / 256 }

/-- Byte of the IO record. -/
def imgIo (m : List Byte) : Nat := ((sectsOf m 4).head?.map (·.off)).getD 0

/-- The program an image holds (R288, R293). -/
def imgProgram (m : List Byte) : Program :=
  let o := imgIo m
  { image := m, digest := sha256 m, toolid := digOf (m.drop 0x20), s := leAt m 0x0A 2, d := leAt m 0x0C 4,
    blocks := (imgCode m).map (·.blk), inp := imgArea m o, out := imgArea m (o + 0x1C),
    admH := leAt m (o + 0x38) 4 % 64, admTag := BitVec.ofNat 3 (fld (leAt m (o + 0x38) 4) 10 8), admOff := leAt m (o + 0x3C) 4 }

/-! ## Findings (R292) -/

/-- What a failing check names; a field that does not apply holds all ones. -/
structure Finding where
  reason : Nat
  sect : Nat := 0xFFFF
  record : Nat := 0xFFFF
  core : Option Nat := none
  slot : Nat := 7
  bundle : Nat := 0x3FF
  deriving DecidableEq, Repr

/-- The first finding of a list of places. -/
def firstFind {α : Type} (l : List α) (f : α → Option Finding) : Option Finding := l.findSome? f

/-! ## Checks 1 to 6 -/

def pow2Mask (v m : Nat) : Bool := decide (v &&& (2 ^ 32 - 1 - m) = 0)

/-- Check 3 on the header and the section table: fields and ranges. -/
def headFormat (m : List Byte) : Bool :=
  decide (leAt m 0 4 = 0x3149504A) && decide (leAt m 4 2 = 1) && decide (1 ≤ leAt m 7 1) && decide (leAt m 7 1 ≤ 3) &&
  decide (1 ≤ leAt m 8 1) && decide (leAt m 8 1 ≤ 16) && decide (1 ≤ leAt m 9 1) && decide (leAt m 9 1 ≤ 12) &&
  decide (1 ≤ leAt m 0x0A 2) && decide (leAt m 0x0A 2 ≤ 4096) && decide (1 ≤ leAt m 0x0C 4) &&
  decide (1 ≤ leAt m 0x10 2) && decide (leAt m 0x10 2 ≤ 4096) && zeroBytes m 0x12 2 && zeroBytes m 0x18 8 &&
  zeroBytes m 0x40 0x40 && decide (((sectsOf m 4).length) = 1)

/-- Records of a section end at its end (R287). -/
def recordsEnd (m : List Byte) (t : Sect) : Bool :=
  if t.ty = 1 then
    let rs := codeRecs m t.idx t.count 0 t.off
    decide (rs.length = t.count) && decide (rs.foldl (fun n r => n + 16 + 32 * r.blk.nbund) 0 = t.len)
  else if t.ty = 2 then decide (32 * t.count = t.len)
  else if t.ty = 3 then
    let rs := dataRecs m t.idx t.count 0 t.off
    decide (rs.length = t.count) && decide (rs.foldl (fun n r => n + 24 + r.len) 0 = t.len)
  else decide (t.count = 1) && decide (t.len = 64)

/-- Check 3 on one section. -/
def sectFormat (m : List Byte) (t : Sect) : Bool :=
  decide (1 ≤ t.ty) && decide (t.ty ≤ 4) && decide (t.off % 32 = 0) && decide (t.off + t.len ≤ m.length) &&
  decide (0x80 + 16 * leAt m 0x10 2 ≤ t.off) &&
  (imgSects m).all (fun u => decide (u.idx = t.idx) || decide (t.off + t.len ≤ u.off) || decide (u.off + u.len ≤ t.off)) &&
  recordsEnd m t

def codeFormat (m : List Byte) (r : CodeRec) : Bool :=
  decide (1 ≤ r.blk.w) && decide (1 ≤ r.blk.h) && decide (1 ≤ r.blk.nbund) && decide (r.blk.nbund ≤ 1024) &&
  decide (r.blk.stage < leAt m 0x0A 2) && zeroBytes m (r.at_ - 4) 4

def handleFormat (m : List Byte) (t : Sect) (k : Nat) : Bool :=
  let o := t.off + 32 * k
  decide (1 ≤ leAt m (o + 4) 2) && decide (1 ≤ leAt m (o + 6) 2) && pow2Mask (leAt m (o + 8) 4) 0x7FF &&
  pow2Mask (leAt m (o + 12) 4) 0x3FF03FF && zeroBytes m (o + 20) 12

def dataFormat (m : List Byte) (r : DataRec) : Bool :=
  decide (1 ≤ r.rect.2.2.1) && decide (1 ≤ r.rect.2.2.2) && decide (r.hd < 64) && zeroBytes m (r.at_ - 4) 4

/-- Reserved fields of an area (Table 13.4): the rectangle is zero in a window. -/
def areaFormat (m : List Byte) (o : Nat) : Bool :=
  let a := imgArea m o
  pow2Mask (leAt m o 4) 0x3F1F01 && zeroBytes m (o + 12) 4 &&
  (if a.kind = 0 then zeroBytes m (o + 4) 8 else decide (1 ≤ a.w) && decide (1 ≤ a.h))

def ioFormat (m : List Byte) : Bool :=
  areaFormat m (imgIo m) && areaFormat m (imgIo m + 0x1C) && pow2Mask (leAt m (imgIo m + 0x38) 4) 0x73F

/-- Check 3, LD_FORMAT. -/
def checkFormat (m : List Byte) : Option Finding :=
  if !headFormat m then some { reason := 3 }
  else
    (firstFind (imgSects m) (fun t => if sectFormat m t then none else some { reason := 3, sect := t.idx })).or
    ((firstFind (imgCode m) (fun r => if codeFormat m r then none else some { reason := 3, sect := r.sect, record := r.record })).or
    ((firstFind (sectsOf m 2) (fun t => firstFind (List.range t.count) (fun k =>
      if handleFormat m t k then none else some { reason := 3, sect := t.idx, record := k }))).or
    ((firstFind (imgData m) (fun r => if dataFormat m r then none else some { reason := 3, sect := r.sect, record := r.record })).or
    (if ioFormat m then none
     else some { reason := 3, sect := ((sectsOf m 4).head?.map (·.idx)).getD 0xFFFF, record := 0 }))))

/-- The section of the IO record. -/
def ioSect (m : List Byte) : Nat := ((sectsOf m 4).head?.map (·.idx)).getD 0xFFFF

def CodeBlk.rect (b : CodeBlk) : Nat × Nat × Nat × Nat := (b.x, b.y, b.w, b.h)

/-- Check 6, LD_LAYOUT. -/
def checkLayout (x : Context) (m : List Byte) : Option Finding :=
  let bad (r : Nat × Nat × Nat × Nat) (sect record : Nat) : Option Finding :=
    if x.rectIn r then none else some { reason := 6, sect := sect, record := record }
  let code := imgCode m
  let p := imgProgram m
  let area (a : IoArea) : Option Finding := if a.kind = 1 then bad (a.x, a.y, a.w, a.h) (ioSect m) 0 else none
  (firstFind code (fun r => bad r.blk.rect r.sect r.record)).or
  ((firstFind (imgHandles m) (fun r => bad r.rect r.sect r.record)).or
  ((firstFind (imgData m) (fun r => bad r.rect r.sect r.record)).or
  ((area p.inp).or ((area p.out).or
  ((firstFind code.zipIdx (fun r =>
    ((code.take r.2).findSome? (fun q =>
      if rectsMeet r.1.blk.x r.1.blk.y r.1.blk.w r.1.blk.h q.blk.x q.blk.y q.blk.w q.blk.h then
        some (x.coreAt (max r.1.blk.x q.blk.x) (max r.1.blk.y q.blk.y))
      else none)).map (fun i => { reason := 6, sect := r.1.sect, record := r.1.record, core := some i }))).or
  (if (List.range p.s).all (fun k => code.any (fun r => decide (r.blk.stage = k))) then none
   else some { reason := 6 }))))))

/-! ## The cores as the image leaves them -/

/-- A CODE block covers the place (R288). -/
def imgCovers (m : List Byte) (px py : Nat) : Bool := (imgCode m).any (fun r => inRect px py r.blk.x r.blk.y r.blk.w r.blk.h)

/-- The entries of the image on the core at a place: the last record of each handle (R287); none on a core that no CODE block
covers (R288). -/
def imgEntry (m : List Byte) (px py h : Nat) : Option (BitVec 128) :=
  let rs : List HandleRec := if imgCovers m px py then (imgHandles m).reverse else []
  (rs.find? (fun r => decide (r.hd = h) && inRect px py r.rect.1 r.rect.2.1 r.rect.2.2.1 r.rect.2.2.2)).map (·.entry)

/-- An entry made not VALID. -/
def unvalid (e : BitVec 128) : BitVec 128 := BitVec.ofNat 128 (e.toNat - 2 ^ 113 * fld e.toNat 113 113)

/-- The handle entries of the image put in force on a core: every other entry is not VALID (R288, R293,
R295). -/
def loadHandles (m : List Byte) (px py : Nat) (k : Core) : Core :=
  k.afterWrites ((List.range 64).map (fun h => (h, (imgEntry m px py h).getD (unvalid (k.handle h)))))

/-- One DATA block written on a core (R293). -/
def loadData (m : List Byte) (r : DataRec) (k : Core) : Core :=
  let bs := (m.drop r.at_).take r.len
  let a := hByte (k.handle r.hd) + r.off
  let k1 := k.writeBytes a bs
  if hDesc (k.handle r.hd) then { k1 with dstore := Cells.write 0 k1.dstore a bs } else k1

/-- A core with the handles and DATA blocks of the image, its counters at 0 (R290). -/
def imgCore (s : State) (x : Context) (m : List Byte) (i : Nat) : Core :=
  let q := (x.rel i).getD (0, 0)
  let k := loadHandles m q.1 q.2 { s.core i with ctrs := [] }
  ((imgData m).filter (fun r => inRect q.1 q.2 r.rect.1 r.rect.2.1 r.rect.2.2.1 r.rect.2.2.2)).foldl
    (fun t r => loadData m r t) k

/-- Bundle n of a CODE block. -/
def imgBundle (m : List Byte) (r : CodeRec) (n : Nat) : Bundle := decBundle (leAt m (r.at_ + 32 * n) 32)

/-- Every bundle of a CODE block, numbered. -/
def imgBundles (m : List Byte) (r : CodeRec) : List (Nat × Bundle) :=
  (List.range r.blk.nbund).map (fun n => (n, imgBundle m r n))

/-- The cores of a CODE block in row-major order. -/
def recCores (x : Context) (r : CodeRec) : List Nat := x.rectCores r.blk.rect

/-- Look at every bundle of every core of the image: block by block, core by core. -/
def eachBundle (s : State) (x : Context) (m : List Byte) (f : Nat → Core → Bundle → Option (Nat × Nat × Nat)) :
    Option Finding :=
  firstFind (imgCode m) (fun r =>
    let bs := imgBundles m r
    firstFind (recCores x r) (fun i =>
      let k := imgCore s x m i
      firstFind bs (fun b => (f i k b.2).map (fun g =>
        { reason := g.1, sect := r.sect, record := r.record, core := some i, slot := g.2.1,
          bundle := if g.2.2 = 1 then b.1 else 0x3FF }))))

/-! ## Checks 7 to 13 -/

/-- The branch target of a bundle. -/
def ScOp.target? : ScOp → Option (BitVec 10)
  | .jmp t => some t
  | .br _ _ t => some t
  | .loop _ _ _ t => some t
  | _ => none

/-- Check 7, LD_BUNDLE: it depends on no core, so it names the block's first. -/
def checkBundle (x : Context) (m : List Byte) : Option Finding :=
  firstFind (imgCode m) (fun r =>
    firstFind (imgBundles m r) (fun b =>
      let f (slot : Nat) : Finding :=
        { reason := 7, sect := r.sect, record := r.record, core := some (x.coreAt r.blk.x r.blk.y), slot := slot, bundle := b.1 }
      match b.2.illegal? with
      | some slot => some (f slot)
      | none => ((ScOp.target? b.2.sc).bind (fun t => if t.toNat < r.blk.nbund then none else some (f 0)))))

/-- The stream of an LD or ST slot with its descriptor, where its descriptor handle can be read. -/
def imgStream (k : Core) : LsOp → Option (StreamOp × StreamFields × List (BitVec 32))
  | .go o f =>
    let dh := k.handle f.dh.toNat
    if hValid dh && hDesc dh && inBounds dh (64 * f.di.toNat) 64 then some (o, f, k.streamDesc f) else none
  | _ => none

/-- The streams of a bundle with their slots. -/
def imgStreams (k : Core) (b : Bundle) : List (Nat × StreamOp × StreamFields × List (BitVec 32)) :=
  ((imgStream k b.ld).map (fun t => (3, t))).toList ++ ((imgStream k b.st).map (fun t => (4, t))).toList

/-- Check 8, LD_ABSENT. -/
def absentSlot (s : State) (i : Nat) (k : Core) (b : Bundle) : Option (Nat × Nat × Nat) :=
  match (imgStreams k b).find? (fun t => t.2.1.queue && !s.portUp (dPort t.2.2.2)) with
  | some t => some (8, t.1, 1)
  | none =>
    match b.sy with
    | .attend _ _ => if s.seqUp (podOf i) then none else some (8, 5, 1)
    | .qwait p _ => if s.portUp p.toNat then none else some (8, 5, 1)
    | .qlev p _ _ _ _ => if s.portUp p.toNat then none else some (8, 5, 1)
    | _ => none

/-- The descriptor handle of a stream slot is one, and the descriptor lies within it (R103). -/
def dhOk (k : Core) : LsOp → Bool
  | .go _ f => (imgStream k (.go .gather f)).isSome
  | _ => true

/-- Handles of a stream's sides: VALID, and no destination a descriptor handle (check 9). -/
def sidesOk (k : Core) (t : Nat × StreamOp × StreamFields × List (BitVec 32)) : Bool :=
  let d := t.2.2.2
  let sd := dSrc d
  let td := dDst d
  let v (h : Nat) (used : Bool) : Bool := !used || hValid (k.handle h)
  v sd.h t.2.1.srcLocal && v sd.ih sd.indexed && v td.h t.2.1.dstLocal && v td.ih td.indexed &&
  !(t.2.1.dstLocal && hDesc (k.handle td.h))

/-- The words of an ATTEND's descriptor. -/
def imgAttend (k : Core) : SyOp → Option (List (BitVec 32))
  | .attend h o =>
    let e := k.handle h.toNat
    if hValid e && hDesc e && inBounds e (256 * o.toNat) 128 then some (attendDesc k h o) else none
  | _ => none

/-- Check 9 on the SY slot. -/
def syHandlesOk (k : Core) (o : SyOp) : Bool :=
  match o with
  | .expect h o n _ => (checkRange k h.toNat (256 * o.toNat) (256 * n.toNat) true).isNone
  | .attend _ _ =>
    match imgAttend k o with
    | some d => !hDesc (k.handle (aOh d))
    | none => false
  | _ => true

/-- Check 9, LD_HANDLE, on a bundle. -/
def handleSlot (k : Core) (b : Bundle) : Option (Nat × Nat × Nat) :=
  if (veFault k b.ve).isNone && (mxFault k b.mx).isNone && dhOk k b.ld && dhOk k b.st &&
    (imgStreams k b).all (sidesOk k) && syHandlesOk k b.sy then none
  else some (9, 7, 0)

/-- Check 9 on the entries, the bundles and the DATA blocks. -/
def checkHandle (s : State) (x : Context) (m : List Byte) : Option Finding :=
  let bad (i : Nat) (sect record : Nat) : Finding := { reason := 9, sect := sect, record := record, core := some i }
  (firstFind (imgHandles m) (fun r => firstFind (x.rectCores r.rect) (fun i =>
    (handlesFault (fun h => (imgCore s x m i).handle h)).map (fun _ => bad i r.sect r.record)))).or
  ((eachBundle s x m (fun _ k b => handleSlot k b)).or
  (firstFind (imgData m) (fun r => firstFind (x.rectCores r.rect) (fun i =>
    if inBounds ((imgCore s x m i).handle r.hd) r.off r.len then none else some (bad i r.sect r.record)))))

/-- A stream's descriptor meets R104 to R106 and R129, with the counter term 0 (check 10). -/
def streamDescOk (k : Core) (t : Nat × StreamOp × StreamFields × List (BitVec 32)) : Bool :=
  let d := t.2.2.2
  let o := t.2.1
  let n := streamCount t.2.2.1 d
  let idx (e : Side) : Bool :=
    !e.indexed || (let r := e.idxRange (dIw d) n; (checkRange k e.ih r.1 r.2 false).isNone)
  descOk o d n false && descAligned o d 0 &&
  (!o.srcLocal || ((extentFault k (dSrc d).h (srcExtent d 0 n)).isNone && idx (dSrc d))) &&
  (!o.dstLocal || ((extentFault k (dDst d).h (dstExtent d 0 n)).isNone && idx (dDst d)))

/-- The handles and ranges of an ATTEND (R172, Table 8.8). -/
def attendRangesOk (k : Core) (d : List (BitVec 32)) : Bool :=
  hValid (k.handle (aQh d)) && hValid (k.handle (aOh d)) && (!aAppend d || hValid (k.handle (aAh d))) &&
  (checkRange k (aQh d) (aQoff d) (aQueryBytes d) false).isNone && (checkRange k (aOh d) (aOoff d) (aOutBytes d) false).isNone &&
  (!aAppend d || (checkRange k (aAh d) (aAoff d) (aAppendBytes d) false).isNone)

/-- Check 10, LD_DESC. -/
def descSlot (k : Core) (b : Bundle) : Option (Nat × Nat × Nat) :=
  if (imgStreams k b).all (streamDescOk k) && ((imgAttend k b.sy).map (fun d => attendOk d && attendRangesOk k d)).getD true then none
  else some (10, 7, 0)

/-- Check 11, LD_WINDOW. -/
def windowSlot (s : State) (c : Nat) (k : Core) (b : Bundle) : Option (Nat × Nat × Nat) :=
  if (imgStreams k b).all (fun t => !t.2.1.queue ||
    ((s.port (dPort t.2.2.2)).wins.has c && !(decide (t.2.1 = .qwrite) && decide (24 ≤ dPort t.2.2.2)))) then none
  else some (11, 7, 0)

/-- A remote descriptor resolves as local (R298). -/
def resolvesLocal (x : Context) (d : List (BitVec 32)) : Bool :=
  if x.job = 0 then decide (dRank d = 0) else decide (dRank d = x.rank)

/-- The remote descriptors of a bundle. -/
def imgRemotes (k : Core) (b : Bundle) : List (StreamFields × List (BitVec 32)) :=
  ((imgStreams k b).filter (fun t => decide (t.2.1 = .rread) || decide (t.2.1 = .msend))).map (fun t => (t.2.2.1, t.2.2.2))

/-- Check 12, LD_UNREACHABLE. -/
def reachSlot (s : State) (x : Context) (i : Nat) (k : Core) (b : Bundle) : Option (Nat × Nat × Nat) :=
  if (imgRemotes k b).all (fun t => !resolvesLocal x t.2 ||
    (decide (dCx t.2 < 640) && decide (dCy t.2 < 480) && x.hasCore (640 * dCy t.2 + dCx t.2) &&
     s.reachable (posOf i) (dCx t.2, dCy t.2))) then none
  else some (12, 7, 0)

/-- A generation list entry (Table 12.7). -/
def genOf (gens : List Nat) (d : List (BitVec 32)) : Option Nat :=
  (gens.find? (fun v => decide (fld v 15 0 = dRank d) && decide (fld v 25 16 = dCx d) && decide (fld v 34 26 = dCy d) &&
    decide (fld v 40 35 = dWh d))).map (fun v => fld v 48 41)

/-- Check 13, LD_REMOTE_GEN. -/
def genSlot (x : Context) (gens : List Nat) (k : Core) (b : Bundle) : Option (Nat × Nat × Nat) :=
  if (imgRemotes k b).all (fun t => resolvesLocal x t.2 || (genOf gens t.2).isSome) then none else some (13, 7, 0)

/-! ## Checks 14 to 16 and the verifier -/

/-- An area meets R289 and lies where it says. -/
def areaOk (s : State) (c : Nat) (x : Context) (m : List Byte) (a : IoArea) : Bool :=
  decide (a.off % 64 = 0) && decide (a.size % 64 = 0) &&
  (if a.kind = 0 then
    decide (a.port < 24) && s.portUp a.port && ((s.port a.port).addr? c (a.off : Nat) (a.n * a.size)).isSome
   else
    decide (a.size % (64 * a.w * a.h) = 0) &&
    (a.places x).all (fun i => inBounds ((imgCore s x m i).handle a.hd) a.off (a.n * a.piece)))

/-- Check 14, LD_IO. -/
def checkIo (s : State) (c : Nat) (x : Context) (m : List Byte) : Option Finding :=
  let p := imgProgram m
  let f : Finding := { reason := 14, sect := ioSect m, record := 0 }
  if !areaOk s c x m p.inp || !areaOk s c x m p.out || decide (p.admOff % 16 ≠ 0) then some f
  else firstFind (imgCode m) (fun r =>
    if r.blk.stage ≠ 0 then none
    else firstFind (recCores x r) (fun i =>
      let e := (imgCore s x m i).handle p.admH
      if hValid e && !hDesc e && inBounds e p.admOff 16 then none else some { f with core := some i }))

/-- A check that names no place in the image. -/
def only (b : Bool) (reason : Nat) : Option Finding := if b then none else some { reason := reason }

/-- Checks 1 to 5 of R290. -/
def checkHead (s : State) (x : Context) (len : Nat) (m : List Byte) : Option Finding :=
  firstFind [1, 2, 3, 4, 5] (fun n =>
    match n with
    | 1 => only (decide (x.st = .bound) && decide (x.wset.st = 0)) 1
    | 2 => only (decide (128 ≤ len) && decide (len ≤ 2 ^ 26) && decide (leAt m 0x14 4 = len)) 2
    | 3 => checkFormat m
    | 4 => only ((decide (s.ident.grade = 0x0A#8) && decide (leAt m 7 1 % 2 = 1)) ||
        (decide (s.ident.grade = 0x0E#8) && decide (fld (leAt m 7 1) 1 1 = 1))) 4
    | _ => only (decide (x.part.map (fun r => (r.w, r.h)) = some (leAt m 8 1, leAt m 9 1))) 5)

/-- Checks 6 to 13 of R290, each over the whole image before the next. -/
def checkBody (s : State) (c : Nat) (x : Context) (gens : List Nat) (m : List Byte) : Option Finding :=
  firstFind [6, 7, 8, 9, 10, 11, 12, 13] (fun n =>
    match n with
    | 6 => checkLayout x m
    | 7 => checkBundle x m
    | 9 => checkHandle s x m
    | _ => eachBundle s x m (fun i k b =>
        match n with
        | 8 => absentSlot s i k b
        | 10 => descSlot k b
        | 11 => windowSlot s c k b
        | 12 => reachSlot s x i k b
        | _ => genSlot x gens k b))

/-- Checks 14 to 16 of R290. -/
def checkTail (s : State) (c : Nat) (x : Context) (m : List Byte) : Option Finding :=
  firstFind [14, 15, 16] (fun n =>
    match n with
    | 14 => checkIo s c x m
    | 15 => only (decide (leAt m 0x0C 4 ≤ budget x.period x.floor)) 15
    | _ => only (!x.strict || decide (leAt m 6 1 = s.ident.lattab.toNat)) 16)

/-- The verifier (R290): the first check that fails. -/
def verify (s : State) (c : Nat) (len : Nat) (gens : List Nat) (m : List Byte) : Option Finding :=
  match checkHead s (s.ctx c) len m with
  | some f => some f
  | none =>
    match checkBody s c (s.ctx c) gens m with
    | some f => some f
    | none => checkTail s c (s.ctx c) m

/-! ## Writing the image (R293, R294, R298) -/

/-- WGEN of the remote descriptor of a bundle written on its core. -/
def writeGen (k : Core) (f : StreamFields) (g : Nat) : Core :=
  let a := hByte (k.handle f.dh.toNat) + 64 * f.di.toNat + 40
  let w := leNat (k.bytes a 4)
  let bs := leBytes 4 (w / 2 ^ 17 * 2 ^ 17 + g % 256 * 2 ^ 9 + w % 2 ^ 9)
  let k1 := k.writeBytes a bs
  { k1 with dstore := Cells.write 0 k1.dstore a bs }

/-- The generation of a remote descriptor: the target's, or that of the list (R298). -/
def remoteGen (s : State) (x : Context) (gens : List Nat) (d : List (BitVec 32)) : Nat :=
  if resolvesLocal x d then hGen ((s.core (640 * dCy d + dCx d)).handle (dWh d)) else (genOf gens d).getD 0

/-- The generations of every remote descriptor that a core's bundles name. -/
def State.loadGens (s : State) (x : Context) (m : List Byte) (gens : List Nat) (r : CodeRec) (i : Nat) : State :=
  let ts := (imgBundles m r).flatMap (fun b => imgRemotes (s.core i) b.2)
  s.modCore i (fun k => ts.foldl (fun t f => writeGen t f.1 (remoteGen s x gens f.2)) k)

/-- Instruction store words from bundle n on: TRAP in the SC slot (R46). -/
def trapFill (n : Nat) (is : Cells (BitVec 32)) : Cells (BitVec 32) :=
  (List.range (1024 - n)).foldl (fun t k => Cells.write 0 t (8 * (n + k)) (trapWord :: List.replicate 7 0)) is

/-- STOP in the SC slot (R52). -/
def stopWord : BitVec 32 := BitVec.ofNat 32 (7 * 2 ^ 27)

/-- The instruction store of a core that no CODE block covers (R288). -/
def stopStore : Cells (BitVec 32) := trapFill 1 (Cells.write 0 [] 0 [stopWord])

/-- The instruction store of a CODE block. -/
def blockStore (m : List Byte) (r : CodeRec) : Cells (BitVec 32) :=
  trapFill r.blk.nbund (Cells.write 0 [] 0 ((List.range (8 * r.blk.nbund)).map (fun k => BitVec.ofNat 32 (leAt m (r.at_ + 4 * k) 4))))

/-- Steps 1 to 4 on the cores of a list (R293). -/
def State.loadCores (s : State) (x : Context) (m : List Byte) (gens : List Nat) (is : List Nat) : State :=
  let s1 := s.modCores is (fun i k =>
    let q := (x.rel i).getD (0, 0)
    loadHandles m q.1 q.2 k)
  let s2 := (imgData m).foldl (fun t r => t.modCores ((x.rectCores r.rect).filter is.contains) (fun _ k => loadData m r k)) s1
  let s3 := (imgCode m).foldl (fun t r => ((recCores x r).filter is.contains).foldl (fun u i => u.loadGens x m gens r i) t) s2
  let s4 := s3.modCores is (fun _ k => { k with istore := stopStore })
  (imgCode m).foldl (fun t r => t.modCores ((recCores x r).filter is.contains) (fun _ k => { k with istore := blockStore m r })) s4

/-- The first n bytes of the DATA blocks, in section order. -/
def dataPart (m : List Byte) : Nat → List DataRec → List DataRec
  | _, [] => []
  | n, r :: rs => if n = 0 then [] else { r with len := min n r.len } :: dataPart m (n - r.len) rs

/-- The handle entries, the first n bytes of the DATA blocks and the generations of the first g CODE blocks are written. -/
def State.loadPart (s : State) (x : Context) (m : List Byte) (gens : List Nat) (n g : Nat) : State :=
  let s1 := s.modCores x.cores (fun i k =>
    let q := (x.rel i).getD (0, 0)
    loadHandles m q.1 q.2 k)
  let s2 := (dataPart m n (imgData m)).foldl (fun t r => t.modCores (x.rectCores r.rect) (fun _ k => loadData m r k)) s1
  ((imgCode m).take g).foldl (fun t r => (recCores x r).foldl (fun u i => u.loadGens x m gens r i) t) s2

/-- The whole image written (R293). -/
def State.loadImage (s : State) (c : Nat) (m : List Byte) (gens : List Nat) : State :=
  let x := s.ctx c
  (s.loadCores x m gens x.cores).modCtx c (fun y => { y with prog := some { imgProgram m with gens := gens }, nextIn := y.nextIn % (imgProgram m).inp.n })

/-- TIMEOUT has expired during the writes (R294): no program is left. -/
def State.loadExpired (s : State) (c : Nat) : State :=
  let x := s.ctx c
  (s.modCores x.cores (fun _ k =>
    { (List.range 64).foldl (fun t h =>
        t.setHandle h (BitVec.ofNat 128 (nextGen (hGen (t.handle h)) * 2 ^ 120 + (unvalid (t.handle h)).toNat % 2 ^ 120))) k with
      istore := stopStore })).modCtx c (fun y => { y with prog := none })

/-- The module as the checks see it: as it was when the descriptor was taken (R290). -/
def State.asTaken (s : State) (c : Nat) (d : Taken) : State :=
  match d.seen with
  | none => s
  | some n =>
    let s1 := s.modCtx c (fun x => { x with part := n.part, period := n.period, floor := n.floor })
    { s1 with mg := { s1.mg with withdrawn := n.withdrawn },
              ports := s1.ports.map (fun (e : Nat × StackPort) => (e.1, { e.2 with
                wins := match n.wins.find? (fun w => w.1 == e.1) with
                  | some w => e.2.wins.put c w.2
                  | none => e.2.wins.erase c })) }

/-- LOADER_FIND (R292, Table 14.11). -/
def State.loaderFind (s : State) (c : Nat) (f : Finding) : State :=
  s.postCtx c 0x8303 ((f.core.map srcCore).getD srcCtx) (65536 * min f.sect 0xFFFF + f.reason)
    (65536 * min f.record 0xFFFF + 8192 * f.slot + f.bundle)

/-- LOADER_WARN (R291). -/
def State.loaderWarn (s : State) (c : Nat) (m : List Byte) : State :=
  if leAt m 6 1 = s.ident.lattab.toNat then s
  else s.postCtx c 0x8302 srcCtx (leAt m 6 1) s.ident.lattab.toNat

/-- TIMEOUT has expired on an image that passes every check. How far the loader had got is not stated: a free value says it,
0 while it was still checking, so that nothing is written (R292), else the writes of steps 1 to 3 that it had done (R294, log
12). The stores of step 4 are overwritten in any case. -/
def State.loadTimeout (s : State) (c : Nat) (m : List Byte) (gens : List Nat) : State :=
  let data := (imgData m).foldl (fun n r => n + r.len) 0
  let v := Config.freeValue s.free % (data + (imgCode m).length + 2)
  let s1 := { s with free := s.free + 1 }
  if v = 0 then s1 else ((s1.loaderWarn c m).loadPart (s.ctx c) m gens (v - 1) (v - 1 - data)).loadExpired c

/-- The generation list of a descriptor. -/
def State.genList (s : State) (d : Taken) : List Nat :=
  let bs := s.hostRead (d.dword 8) (8 * d.word 7)
  (List.range (d.word 7)).map (fun k => leAt bs (8 * k) 8)

/-- PROGRAM_LOAD (R285, R290 to R295). Performed on a descriptor whose count has reached TIMEOUT, the time has run out during the
checks (R292) or the writes (R294). -/
def execProgramLoad (fn : Nat) (dma : Dma) (s : State) : Out :=
  atFn fn s (fun s =>
    let c := fn - 1
    match s.ctlHead fn 0x02 with
    | none => s
    | some d =>
      match dma with
      | .abort off => s.hostAbort d off
      | .ok =>
        let m := s.hostRead (d.dword 4) (d.word 6)
        let gens := s.genList d
        match verify (s.asTaken c d) c (d.word 6) gens m with
        | some f => if d.expired then s.complete d 3 0 else (s.loaderFind c f).complete d 0x000D f.reason
        | none =>
          if d.expired then (s.loadTimeout c m gens).complete d 3 0
          else ((s.loaderWarn c m).loadImage c m gens).complete d 0 0)

end Sys2Proof.Machine
end

