-- ==== Sys2Proof/Machine/Links.lean ====
section
/-! DEFINITION. Epfin links: ports and their states, routes, codeword groups, replay and credit, and
packets sent, forwarded and received (R212 to R234). -/
namespace Sys2Proof

/-! ## Packets (R221, R225, R226, R229) -/

/-- The 28 bytes of a header before its CRC (Table 10.6), with the given HOPS. -/
def EpPacket.head (k : EpPacket) (hops : Nat) : List Byte :=
  leBytes 4 (k.op.toNat + 16 * k.chan.toNat + 256 * k.length.toNat + 2 ^ 21 * k.tag.toNat + 2 ^ 24 * k.rfmt.toNat + 2 ^ 26 * hops) ++
  leBytes 4 (k.dmod.toNat + 2 ^ 10 * k.dctx.toNat + 2 ^ 16 * k.smod.toNat + 2 ^ 26 * k.sctx.toNat) ++
  leBytes 2 k.job.toNat ++ leBytes 2 k.srank.toNat ++ leBytes 2 k.drank.toNat ++ leBytes 2 k.seq.toNat ++
  leBytes 4 (k.cx.toNat + 2 ^ 10 * k.cy.toNat + 2 ^ 19 * k.wh.toNat + 2 ^ 25 * k.port.toNat + 2 ^ 30 * bnat k.stk) ++
  leBytes 2 k.rcount.toNat ++ leBytes 1 k.wgen.toNat ++ leBytes 1 (k.woff.toNat / 2 ^ 32) ++ leBytes 4 k.woff.toNat

/-- CRC-32C with HOPS taken as zero (Table 10.6). -/
def EpPacket.crcOf (k : EpPacket) : BitVec 32 := Machine.crc32c (k.head 0 ++ k.data)

/-- The bytes of a packet. -/
def EpPacket.bytes (k : EpPacket) : List Byte := k.head k.hops.toNat ++ leBytes 4 k.crc.toNat ++ k.data

/-- The stream of packets a SEQ counts (R229). -/
def EpPacket.flow (k : EpPacket) : Nat := ((k.job.toNat * 65536 + k.srank.toNat) * 65536 + k.drank.toNat) * 16 + k.chan.toNat

/-- The packet is well formed and its CRC holds (R221, R229). -/
def EpPacket.sound (k : EpPacket) : Bool :=
  !k.resv && decide (k.op.toNat ≤ 5) && decide (k.length.toNat ≤ 4096) && decide (k.crc = k.crcOf)

/-- EP_PSTAT.CABLE (Table 10.10). -/
def CableClass.code : CableClass → Nat
  | .none => 0 | .passive => 1 | .active => 2 | .optical => 3 | .unsupported => 4

end Sys2Proof

namespace Sys2Proof.Machine

open Sys2Proof

/-! ## Pips (R215, Table 10.11) -/

/-- Pips 0 and 32 carry control traffic. -/
def controlPip (k : Nat) : Bool := decide (k = 0) || decide (k = 32)
def pipOwner (t : Table Nat) (k : Nat) : Nat := if controlPip k then 0xFFFF else t.get k 0

/-- Pips of a job in a table. -/
def pipsOf (t : Table Nat) (job : Nat) : List Nat := (List.range 64).filter (fun k => decide (pipOwner t k = job))

/-- A job holds pips on the port (Table 20.7). -/
def EpPort.busy (p : EpPort) : Bool := p.pipTx.any (fun e => e.2 != 0) || p.pipRx.any (fun e => e.2 != 0)

/-- OWNCHK of an owner (Table 10.3). -/
def ownChk (owner : Nat) : Nat := if owner = 0xFFFF then 0xFF else owner % 256

/-! ## Reports to the manager (R217, R319) -/

/-- A condition of this module that its manager is told of. -/
def State.tellManager (s : State) (code cls ctx source arg0 arg1 : Nat) : State :=
  if s.ep.role = 0 then s else s.ctl (.report s.modIndex code cls ctx source arg0 arg1)

/-- The state of a link is lost: replay, credit and partial packets with it. -/
def EpPort.drop (p : EpPort) (st : Nat) (now : Nat) : EpPort :=
  { p with st := st, lanes := 0, nbrOk := false, nbr := none, rxPip := none, nakOwner := [], nakSend := none, replay := [],
           tries := [], credit := [], sent := [], freed := [], txPip := [], rxBytes := [], txq := [], retryAt := now, reserve := false,
           cutDone := false }

/-- A port leaves UP (R217): LINK_DOWN for the manager, and a fault-log entry. -/
def State.leaveUp (s : State) (p st : Nat) : State :=
  let s1 := (s.modEpPort p (fun k => k.drop st s.tcb.now)).logFault 0x0A01 3 noCtx (srcEp p) p st
  if s.ep.role = 2 then
    ({ s1 with ep := { s1.ep with downs := s1.ep.downs ++ [(s.modIndex, p)] } }).postPf 0x8601 (srcMod s.modIndex) s.modIndex (p + 16 * st)
  else if s.ep.role = 1 then s1.ctl (.linkDown s.modIndex p st)
  else s1

/-- A port is put in a state from whichever it is in. -/
def State.portTo (s : State) (p st : Nat) : State :=
  if (s.epPort p).st = 3 then s.leaveUp p st else s.modEpPort p (fun k => k.drop st s.tcb.now)

/-- A supported cable is present, the cage is on and ENABLE is 1: a DOWN port trains (Table 10.4). -/
def EpPort.mayTrain (p : EpPort) : Bool :=
  decide (p.st = 0) && p.caged && p.enable && decide (1 ≤ p.cable) && decide (p.cable ≤ 3)

def State.tryTrain (s : State) (p : Nat) : State :=
  if (s.epPort p).mayTrain then s.modEpPort p (fun k => { k with st := 1, retryAt := s.tcb.now }) else s

/-- The class of the cable in the cage is read (R213). -/
def State.readCable (s : State) (p : Nat) : State :=
  let k := s.epPort p
  let s1 := if k.plugged = k.cable ∧ k.plugged ≠ 0 then s else s.portTo p 0
  (s1.modEpPort p (fun e => { e with cable := e.plugged })).tryTrain p

/-- CABLE_CHANGE (R213, R217). -/
def execCableChange (port : BitVec 3) (cable : CableClass) (s : State) : Out :=
  atEp port s (fun s =>
    let p := port.toNat
    let s1 := s.modEpPort p (fun k => { k with plugged := CableClass.code cable })
    if (s.epPort p).caged then s1.readCable p else s1)

/-- CAGE_OVERCURRENT (R361). -/
def execCageOvercurrent (port : BitVec 3) (s : State) : Out :=
  atEp port s (fun s =>
    let p := port.toNat
    (s.portTo p 0).modEpPort p (fun k => { k with caged := false, cable := 4 }))

/-- LINK_TRAINED (R217): TRAINING to ALIGNING. -/
def execLinkTrained (port : BitVec 3) (s : State) : Out :=
  atEp port s (fun s =>
    s.modEpPort port.toNat (fun k => if k.st = 1 then { k with st := 2, lanes := 0xFF, retryAt := s.tcb.now } else k))

/-- Training limit: 500 ms copper, 2 s optical (Table 10.4). -/
def EpPort.trainLimit (p : EpPort) : Nat := if p.cable = 3 then 2000000000 else 500000000

/-- LINK_TRAINING_TIMEOUT (R217): TRAINING to DOWN. -/
def execLinkTrainingTimeout (port : BitVec 3) (s : State) : Out :=
  atEp port s (fun s =>
    let p := port.toNat
    let k := s.epPort p
    if k.st = 1 then
      let s1 := s.passTo (k.retryAt + k.trainLimit)
      s1.modEpPort p (fun e => e.drop 0 s1.tcb.now)
    else s)

/-- LINK_TRAINING_RETRY (R217): a DOWN port trains again after 10 s. -/
def execLinkTrainingRetry (port : BitVec 3) (s : State) : Out :=
  atEp port s (fun s =>
    let p := port.toNat
    if (s.epPort p).mayTrain then (s.passTo ((s.epPort p).retryAt + 10000000000)).tryTrain p else s)

/-- LINK_ALIGNED (R217): ALIGNING to UP; a FAULTED link that has retrained is UP again once the manager's cut-out has completed,
unused until it is readmitted. -/
def execLinkAligned (port : BitVec 3) (nbr : BitVec 10) (nport : BitVec 3) (delay : BitVec 16) (s : State) : Out :=
  atEp port s (fun s =>
    s.modEpPort port.toNat (fun k =>
      if k.st = 2 ∨ (k.st = 4 ∧ k.cutDone = true) then
        { k with st := 3, lanes := 0xFF, nbrOk := true, nbr := some (nbr.toNat, nport.toNat), delay := delay, reserve := decide (k.st = 4) }
      else k))

/-- LINK_ALIGN_TIMEOUT (R217): ALIGNING to TRAINING after 10 ms. -/
def execLinkAlignTimeout (port : BitVec 3) (s : State) : Out :=
  atEp port s (fun s =>
    let p := port.toNat
    let k := s.epPort p
    if k.st = 2 then
      let s1 := s.passTo (k.retryAt + 10000000)
      s1.modEpPort p (fun e => { e.drop 1 s1.tcb.now with lanes := 0 })
    else s)

/-- LINK_DOWN (R217): a lane loses lock and the port leaves UP. -/
def execLinkDown (port : BitVec 3) (lanes : BitVec 8) (s : State) : Out :=
  atEp port s (fun s =>
    let p := port.toNat
    if (s.epPort p).st = 3 then (s.leaveUp p 4).modEpPort p (fun k => { k with lanes := lanes }) else s)

/-! ## Codeword groups (R215, R216, R227, R228) -/

/-- Why a receiver drops a group: its codewords (R227), its PIP, its owner check, its KIND (R216), or bytes beyond the buffer that
R228 reserves, which no transmitter within its credit sends (log 113). -/
inductive GroupFault where
  | uncorr | pip | owner | kind | room
  deriving DecidableEq, Repr

/-- Bytes of buffer that a receiver reserves for a job: one group a pip and round, twice, and one more (R228). -/
def bufferOf (t : Table Nat) (job : Nat) : Nat := (2 * (pipsOf t job).length + 1) * 5120

/-- The data of a group is the next of its owner's stream: a later group of an owner that waits for a resend is not (R227). -/
def EpPort.takesData (p : EpPort) (g : Group) : Bool :=
  let o := pipOwner p.pipRx g.pip.toNat
  decide (o ≠ 0) && (g.kind == 3 || (g.kind == 0 && !p.nakOwner.has o))

def EpPort.groupFault (p : EpPort) (g : Group) : Option GroupFault :=
  if g.uncorr ≠ 0 then some .uncorr
  else if (p.rxPip.map (fun k => (k + 1) % 64)).any (fun k => decide (k ≠ g.pip.toNat)) then some .pip
  else if g.ownchk.toNat ≠ ownChk (pipOwner p.pipRx g.pip.toNat) then some .owner
  else if pipOwner p.pipRx g.pip.toNat = 0 ∧ g.kind = 0 then some .kind
  else if p.takesData g && decide (bufferOf p.pipRx (pipOwner p.pipRx g.pip.toNat) < (p.rxBytes.get (pipOwner p.pipRx g.pip.toNat) []).length + g.data.length) then
    some .room
  else none

/-- The pip a received group stands in: the next of the round, where its own number cannot be trusted. -/
def EpPort.groupPip (p : EpPort) (g : Group) : Nat :=
  match p.rxPip with
  | some k => (k + 1) % 64
  | none => g.pip.toNat

/-- A group is dropped: its owner waits for the resend, and its pip goes back with NAK. EP_FECU counts its uncorrectable
codewords, or all eight where R216 drops it (Table 10.10). -/
def EpPort.dropGroup (p : EpPort) (g : Group) : EpPort :=
  let k := p.groupPip g
  { p with uncorr := satAdd p.uncorr (if g.uncorr = 0 then 8 else g.uncorr), corr := satAdd p.corr g.corrected, rxPip := some k,
           nakSend := some k, nakOwner := p.nakOwner.put (pipOwner p.pipRx k) k }

/-- The control field of a group is taken (R227, R228). -/
def EpPort.takeControl (p : EpPort) (g : Group) : EpPort :=
  let c := p.credit.get g.cjob.toNat 0
  { p with corr := satAdd p.corr g.corrected,
           credit := if g.cjob = 0 then p.credit else p.credit.put g.cjob.toNat (c + (g.credit.toNat + 65536 - c % 65536) % 65536),
           tries := if g.nak then p.tries else p.tries.erase g.ackpip.toNat }

/-- Bytes under a key; a key without bytes is not listed. -/
def putBytes (t : Table (List Byte)) (k : Nat) (bs : List Byte) : Table (List Byte) := if bs.isEmpty then t.erase k else t.put k bs

/-- The data of a group joins its owner's stream (R227). What a group leaves of its 5,120 bytes is free at once. -/
def EpPort.takeData (p : EpPort) (g : Group) : EpPort :=
  let o := pipOwner p.pipRx g.pip.toNat
  let p1 := { p with rxPip := some g.pip.toNat }
  if p1.takesData g then
    { p1 with nakOwner := p1.nakOwner.erase o, rxBytes := putBytes p1.rxBytes o (p1.rxBytes.get o [] ++ g.data),
              freed := p1.freed.put o (p1.freed.get o 0 + (5120 - g.data.length)) }
  else p1

/-- Groups of the owner of a pip that are still held, from that pip to the last sent, in their order (R227). -/
def EpPort.heldFrom (p : EpPort) (k : Nat) : List Nat :=
  let o := pipOwner p.pipTx k
  let last := p.txPip.get o k
  ((List.range ((last + 64 - k) % 64 + 1)).map (fun n => (k + n) % 64)).filter (fun q => decide (pipOwner p.pipTx q = o) && p.replay.has q)

/-- The pip of a job after the one it used last. -/
def EpPort.nextPip (p : EpPort) (job : Nat) : Option Nat :=
  let ps := pipsOf p.pipTx job
  match p.txPip.find? job with
  | some l => (List.find? (fun k => decide (l < k)) ps).or ps.head?
  | none => ps.head?

/-- The group that leaves in a pip (Table 10.3): what has to be NAKed goes with it, and the credit of one job. -/
def EpPort.groupAt (p : EpPort) (k kind cjob : Nat) (data : List Byte) : Group :=
  { uncorr := 0, corrected := 0, pip := BitVec.ofNat 6 k, ownchk := BitVec.ofNat 8 (ownChk (pipOwner p.pipTx k)), kind := BitVec.ofNat 2 kind,
    ackpip := BitVec.ofNat 6 ((p.nakSend.or p.rxPip).getD 0), nak := p.nakSend.isSome, cjob := BitVec.ofNat 16 cjob,
    credit := if cjob = 0 then 0 else BitVec.ofNat 16 (p.freed.get cjob 0 / 640), data := data }

/-- A group of a job has left in a pip, and is kept for replay (R227); `n` resends have failed. -/
def EpPort.sentIn (p : EpPort) (job k n : Nat) (data : List Byte) : EpPort :=
  { p with nakSend := none, lastTx := k, txPip := p.txPip.put job k, replay := p.replay.put k data,
           tries := if n = 0 then p.tries.erase k else p.tries.put k n }

/-- The receiver's buffer and the credit it has returned let the job send a group more (R228). -/
def EpPort.hasCredit (p : EpPort) (job : Nat) : Bool :=
  decide (0 < (pipsOf p.pipTx job).length) && decide (p.sent.get job 0 + 5120 ≤ bufferOf p.pipTx job + 640 * p.credit.get job 0)

/-- Bytes of a job leave in the job's next pips, as far as its credit goes (R215, R218, R228). Bytes wait for no others: the last
group may carry fewer than 5,120, and takes the credit of a whole one (log 62). -/
def EpPort.cutGroups (job : Nat) : Nat → EpPort × List Group → EpPort × List Group
  | 0, t => t
  | n + 1, t =>
    let q := t.1.txq.get job []
    match (if q.isEmpty || !t.1.hasCredit job then none else t.1.nextPip job) with
    | none => t
    | some k =>
      let p1 := { t.1 with txq := putBytes t.1.txq job (q.drop 5120), sent := t.1.sent.put job (t.1.sent.get job 0 + 5120) }
      EpPort.cutGroups job n (p1.sentIn job k 0 (q.take 5120), t.2 ++ [t.1.groupAt k 0 0 (q.take 5120)])

/-- The held groups of pips leave again in the job's next pips, with KIND 3 (R227). -/
def EpPort.resend (job : Nat) : List Nat → EpPort × List Group → EpPort × List Group
  | [], t => t
  | q :: qs, t =>
    match t.1.nextPip job with
    | none => t
    | some k =>
      let d := t.1.replay.get q []
      let n := t.1.tries.get q 0
      let p1 := { t.1 with replay := t.1.replay.erase q, tries := t.1.tries.erase q, resent := satAdd t.1.resent 1 }
      EpPort.resend job qs (p1.sentIn job k (n + 1) d, t.2 ++ [t.1.groupAt k 3 0 d])

/-- Groups leave by a port. With TEST 1 they come back to its own receiver (Table 10.10). -/
def State.emit (s : State) (p : Nat) (r : EpPort × List Group) : State :=
  if r.1.test = 1 then s.setEpPort p (r.2.foldl (fun (k : EpPort) g => if (k.groupFault g).isSome then k.dropGroup g else (k.takeControl g).takeData g) r.1)
  else { (s.setEpPort p r.1) with ep := { (s.setEpPort p r.1).ep with out := s.ep.out ++ r.2.map (fun g => (p, g)) } }

/-- A port that carries a job's packets. -/
def State.carries (s : State) (p : Nat) : Bool :=
  decide (p < 6) && decide ((s.epPort p).st = 3) && !(s.epPort p).reserve && decide ((s.epPort p).test = 0) && !s.engineDown (srcEp p)

/-- What a job's bytes at a port can send now (R218, R228). -/
def State.pump (s : State) (p job : Nat) : State :=
  let k := s.epPort p
  if s.carries p && !(k.txq.get job []).isEmpty then s.emit p (EpPort.cutGroups job ((k.txq.get job []).length / 5120 + 1) (k, [])) else s

/-- An idle group leaves in the next pip, with the NAK that waits and the credit of a job (R227, R228). The idle groups that carry
neither are not listed among the groups sent (log 114). -/
def State.sendIdle (s : State) (p cjob : Nat) : State :=
  let k := s.epPort p
  if k.st = 3 ∧ k.test ≠ 2 ∧ s.engineDown (srcEp p) = false then
    let q := (k.lastTx + 1) % 64
    s.emit p ({ k with nakSend := none, lastTx := q }, [k.groupAt q 1 cjob []])
  else s

/-- The owner check fails: PIPMISMATCH, LINK_PIPS and its fault-log entry (R216, R390). -/
def State.linkPips (s : State) (p k : Nat) : State :=
  let s1 := (s.modEpPort p (fun e => { e with pipMis := true })).logFault 0x0A0B 1 noCtx (srcEp p) p k
  if s.ep.role = 2 then s1.postPf 0x8602 (srcMod s.modIndex) s.modIndex (p + 256 * k)
  else if s.ep.role = 1 then s1.ctl (.linkPips s.modIndex p k)
  else s1

/-- CODEWORD_GROUP_RX (R216, R227, R228). A port under test does not receive from its link. Credit that comes back lets the job's
bytes go on, and a dropped group is NAKed in the next group sent. -/
def execCodewordGroupRx (port : BitVec 3) (g : Group) (s : State) : Out :=
  atEp port s (fun s =>
    let p := port.toNat
    let k := s.epPort p
    if k.st ≠ 3 ∨ k.test ≠ 0 then s
    else match k.groupFault g with
      | none => (s.setEpPort p ((k.takeControl g).takeData g)).pump p g.cjob.toNat
      | some .owner => ((s.setEpPort p (k.dropGroup g)).linkPips p (k.groupPip g)).sendIdle p 0
      | some _ => (s.setEpPort p (k.dropGroup g)).sendIdle p 0)

/-- REPLAY_RESEND (R227): the far end's NAK names a pip; its owner's groups from there on leave again, before any new bytes. At
the ninth time for a group the port is FAULTED. -/
def execReplayResend (port : BitVec 3) (pip : BitVec 6) (s : State) : Out :=
  atEp port s (fun s =>
    let p := port.toNat
    let k := s.epPort p
    if k.st ≠ 3 ∨ (k.heldFrom pip.toNat).isEmpty then s
    else if 8 ≤ k.tries.get pip.toNat 0 then (s.leaveUp p 4).modEpPort p (fun e => { e with exhaust := true })
    else s.emit p (EpPort.resend (pipOwner k.pipTx pip.toNat) (k.heldFrom pip.toNat) (k, [])))

/-- Bytes of a job are to leave by a port. -/
def State.sendOut (s : State) (p job : Nat) (bs : List Byte) : State :=
  (s.modEpPort p (fun k => { k with txq := putBytes k.txq job (k.txq.get job [] ++ bs) })).pump p job

/-- The job may begin a packet at the port: the port carries, nothing of the job waits there, and it holds pips and credit. -/
def State.freeTo (s : State) (p job : Nat) : Bool :=
  s.carries p && ((s.epPort p).txq.get job []).isEmpty && (s.epPort p).hasCredit job

/-- EPFIN_PACKET_TX (R222): the n-th packet that waits is sent, unless an earlier one of its flow
waits, its context is FAULTED and its pips carry idle codewords (R306), its port does not carry, or
credit lacks. -/
def execEpfinPacketTx (n : Nat) (s : State) : Out :=
  .next (match s.ep.streams[n]? with
    | none => s
    | some e =>
      let k := e.pkt
      let p := s.nextPort k.job.toNat k.dmod.toNat
      if (s.ep.streams.take n).any (fun q => q.pkt.flow == k.flow) then s
      else if (s.ctx e.ctx).pipIdle || !s.freeTo p k.job.toNat then s
      else
        let q := s.ep.txSeq.get k.flow 0
        let k1 := { k with hops := 63, seq := BitVec.ofNat 16 q }
        let s1 := { s with ep := { s.ep with streams := s.ep.streams.eraseIdx n, txSeq := s.ep.txSeq.put k.flow ((q + 1) % 65536) } }
        s1.sendOut p k.job.toNat { k1 with crc := k1.crcOf }.bytes)

/-- The bytes of a packet that has been read leave its owner's stream at the port, and the space goes back as credit (R228). -/
def State.takeBytes (s : State) (p : Nat) (k : EpPacket) : State :=
  let e := s.epPort p
  let j := k.job.toNat
  let q := e.rxBytes.get j []
  if k.bytes.isPrefixOf q then
    let f := e.freed.get j 0 + k.bytes.length
    let s1 := s.setEpPort p { e with rxBytes := putBytes e.rxBytes j (q.drop k.bytes.length), freed := e.freed.put j f }
    if j = 0xFFFF then s1 else s1.sendIdle p j
  else s

/-- A packet that can go no further (R226): EPFIN_LOOP in the fault log, and a report. -/
def State.loopDrop (s : State) (p : Nat) : State :=
  (s.logFault 0x0A03 1 noCtx (srcEp p) 0 0).tellManager 0x0A03 1 noCtx (srcEp p) 0 0

/-- A transit packet (R218, R226, R234): its bytes join its job's at the outbound port, and wait there for pips and credit. One
whose port is not UP is lost with its route (R237). Its CRC is its destination's to check: the bytes have gone on before it is
known (R218; DEDUCED, log 115). -/
def State.forward (s : State) (p : Nat) (k : EpPacket) : State :=
  let q := s.nextPort k.job.toNat k.dmod.toNat
  if k.hops = 0 ∨ 6 ≤ q then s.loopDrop p
  else if (s.epPort q).st = 3 then s.sendOut q k.job.toNat { k with hops := k.hops - 1 }.bytes
  else s

/-- EPFIN_FORWARD (R218). An isolated module forwards nothing (R219). -/
def execEpfinForward (port : BitVec 3) (pkt : EpPacket) (s : State) : Out :=
  atEp port s (fun s =>
    if (s.epPort port.toNat).st ≠ 3 ∨ s.modIndex? = none ∨ s.modIndex? = some pkt.dmod.toNat ∨ s.ep.req = 1 then s
    else (s.takeBytes port.toNat pkt).forward port.toNat pkt)

/-- Check 3 of R225: DCTX holds a partition and belongs to JOB (R247). -/
def State.epCtxOk (s : State) (k : EpPacket) : Bool :=
  let x := s.ctx k.dctx.toNat
  decide (x.st ≠ .free) && x.part.isSome && decide (x.job = k.job.toNat) && decide (x.job ≠ 0)

/-- An STK write (R223, R166): accepted, it waits at the stack port for its context's slots. The port is reached from the
attachment core (R119). -/
def State.stkWrite (s : State) (p : Nat) (k : EpPacket) : State :=
  let c := k.dctx.toNat
  let q := k.port.toNat
  let off := k.woff.toNat
  let arg := off / 64 % 2 ^ 32
  let a := attachPos p
  match (if q < 24 then (s.port q).addr? c (off : Nat) k.data.length else none) with
  | none => s.ctxFault c 0x0304 (srcEp p) q arg
  | some _ =>
    if (s.port q).owned c off k.data.length then s.ctxFault c 0x0305 (srcEp p) q arg
    else if (s.portEntry (640 * a.2 + a.1) q).isNone then
      let b := (portEntries s.mg.startMap.1 q).headD (0, 0)
      s.ctxFault c 0x0501 (srcEp p) (1024 * b.1 + b.2) 0
    else if k.data.isEmpty then s
    else s.modPort q (fun e => { (e.touch s.tcb.now) with stkQ := e.stkQ ++ [{ ctx := c, off := off, data := k.data }] })

/-- The mesh packets of a packet that has arrived (R119, R232): from the attachment core of the port. -/
def State.enterPanel (s : State) (p : Nat) (k : EpPacket) : State :=
  let c := k.dctx.toNat
  let a := attachPos p
  let base : MeshPacket := { ctx := c, src := 640 * a.2 + a.1, dst := 640 * k.cy.toNat + k.cx.toNat, rank := k.srank.toNat,
                             chan := k.chan.toNat, wh := k.wh.toNat, wgen := k.wgen.toNat, tag := k.tag, rfmt := k.rfmt,
                             rcount := k.rcount.toNat }
  if !s.reachable a (k.cx.toNat, k.cy.toNat) then s.ctxFault c 0x0501 (srcEp p) (1024 * k.cx.toNat + k.cy.toNat) 0
  else if k.op = 3 then s.inject { base with op := .readReq, off := k.woff.toNat, len := k.length.toNat, via := some k }
  else
    let red := decide (k.op = 2)
    let parts := cutRun 256 (if red then min 256 (128 * rSize k.rfmt.toNat) else 256) (k.data.length + 1) k.woff.toNat k.data
    parts.zipIdx.foldl (fun t q => t.inject { base with
      op := if red then .reduceAdd else .write, off := q.1.1, len := q.1.2.length, data := q.1.2,
      last := decide (k.op = 1) && decide (q.2 + 1 = parts.length) }) s

/-- A read-reply goes to the requester's handle (R222, R230): it answers the oldest request of its
rank and channel. -/
def State.epReply (s : State) (p : Nat) (k : EpPacket) : State :=
  let c := k.dctx.toNat
  let a := attachPos p
  match s.ep.reads.find? (fun r => decide (r.ctx = c) && decide (r.drank = k.srank.toNat) && decide (r.chan = k.chan.toNat)) with
  | none => s
  | some r =>
    let s1 := { s with ep := { s.ep with reads := s.ep.reads.erase r } }
    let parts := cutRun 256 256 (k.data.length + 1) k.woff.toNat k.data
    if !s.reachable a (posOf r.core) then s1.ctxFault c 0x0501 (srcEp p) (1024 * coreCx r.core + coreCy r.core) 0
    else parts.zipIdx.foldl (fun t q => t.inject
      { ctx := c, src := 640 * a.2 + a.1, dst := r.core, rank := k.srank.toNat, op := .readReply, chan := k.chan.toNat,
        off := q.1.1, len := q.1.2.length, data := q.1.2, sid := r.sid, first := r.first + (q.1.1 - k.woff.toNat),
        last := r.last && decide (q.2 + 1 = parts.length) }) s1

/-- A destination that no core has, or that lies outside the context's partition (R118, R119). -/
def State.epTargetOk (s : State) (k : EpPacket) : Bool :=
  decide (k.cx.toNat < 640) && decide (k.cy.toNat < 480) && (s.ctx k.dctx.toNat).hasCore (640 * k.cy.toNat + k.cx.toNat)

/-- A packet that has passed every check enters the panel or the stack (R223, R225, R232). -/
def State.deliverEp (s : State) (p : Nat) (k : EpPacket) : State :=
  let c := k.dctx.toNat
  let x := s.ctx c
  if x.deaf then s.modCtx c (fun y => { y with discard := satAdd y.discard (1 + (k.data.length + 31) / 32) })
  else if k.stk then (if k.op = 0 then s.stkWrite p k else s)
  else if k.op = 4 then s.epReply p k
  else if !s.epTargetOk k then
    s.ctxFault c 0x0206 (srcCore (640 * k.cy.toNat + k.cx.toNat)) (refusedArg k.wh.toNat k.woff.toNat) k.srank.toNat
  else s.enterPanel p k

/-- The checks of a destination interface (R225, R229); a packet for another module is forwarded as it is (R234). -/
def State.receiveEp (s : State) (p : Nat) (k : EpPacket) : State :=
  let c := k.dctx.toNat
  if s.modIndex? ≠ some k.dmod.toNat then (if s.ep.req = 1 then s else s.forward p k)
  else if !k.sound then
    if (s.ctx c).st = .free then s else s.ctxFault c 0x0505 (srcEp p) k.smod.toNat k.seq.toNat
  else if k.op = 5 then s
  else if !s.epCtxOk k then (s.logFault 0x0A02 1 noCtx (srcEp p) 0 0).tellManager 0x0A02 1 noCtx (srcEp p) 0 0
  else if s.ep.rxSeq.get k.flow 0 ≠ k.seq.toNat then s.ctxFault c 0x0506 (srcEp p) k.smod.toNat k.seq.toNat
  else ({ s with ep := { s.ep with rxSeq := s.ep.rxSeq.put k.flow ((k.seq.toNat + 1) % 65536) } }).deliverEp p k

/-- EPFIN_PACKET_RX (R225). -/
def execEpfinPacketRx (port : BitVec 3) (pkt : EpPacket) (s : State) : Out :=
  atEp port s (fun s =>
    if (s.epPort port.toNat).st ≠ 3 ∨ s.modIndex? = none then s
    else (s.takeBytes port.toNat pkt).receiveEp port.toNat pkt)

end Sys2Proof.Machine
end

