-- ==== Sys2Proof/Machine/Exchange.lean ====
section
/-! DEFINITION. Exchanges at an agreed count: PREPARE, merged replies, GO, NOGO, ABORT, START, and the
stretch of a period (R37 to R44, R209, R210, R235, R258, R284). -/
namespace Sys2Proof.Machine

open Sys2Proof

/-! ## The tests of a module (R42, R44) -/

/-- The context of this module that is a member of a job (R224, R257). -/
def State.jobCtx (s : State) (job : Nat) : Option Nat :=
  (s.liveCtxs.find? (fun c => decide ((s.ctx c).job = job))).or
    ((s.ep.ranks.get job []).findSome? (fun e =>
      if fld e.2.toNat 31 31 = 1 ∧ some (fld e.2.toNat 9 0) = s.modIndex? then some (fld e.2.toNat 21 16) else none))

/-- A context takes part in a re-bind. -/
def State.rebinding (s : State) (c : Nat) : Bool :=
  (s.ctx c).rebindTo.isSome || s.liveCtxs.any (fun a => (s.ctx a).rebindTo.any (fun r => r.1 == c))

/-- A JOB swap has switched, its set is READY, and the context waits for the resume count (R209). -/
def Context.swapWaits (x : Context) : Bool :=
  decide (x.st = .running) && decide (x.wset.st = 2) && x.wset.load.isNone && !x.held.isEmpty && x.quiesce.isNone

/-- The context is in the state the exchange needs (NOT_BOUND). A resume that names an epoch is the
resume count of a job swap (R209). -/
def Context.exState (x : Context) (m : PrepareMsg) : Bool :=
  match m.kind with
  | .launch => decide (x.st = .bound)
  | .stretch | .restore | .quiesce => decide (x.st = .running)
  | .resume => decide (x.st = .quiesced) || (decide (m.epoch ≠ 0) && x.swapWaits)
  | .swap => decide (x.st = .running) || decide (x.st = .quiesced)
  | .tables => true

/-- The module holds an accepted JOB swap with that epoch and policy (R209). -/
def Context.holdsSwap (x : Context) (m : PrepareMsg) : Bool :=
  match x.wset.load, x.wset.next with
  | some l, some n => l.job && l.swap && decide (n.2.2 = m.epoch.toNat) && l.cut == m.cut
  | _, _ => false

/-- The conditions of R42 after the state, in order. -/
def State.prepareFault (s : State) (x : Context) (m : PrepareMsg) : Option Nat :=
  if (x.prog.map (fun p => p.digest)) ≠ some m.prog then some 2
  else if x.wset.st ≠ 2 ∨ x.wset.root ≠ m.wset then some 3
  else if x.period ≠ m.period ∨ x.floor ≠ m.floor then some 4
  else if (x.prog.map (fun p => decide (budget x.period x.floor < p.d))).getD false then some 5
  else if !s.tcb.lock || !s.tcb.synced || s.tcb.holdover then some 6
  else if m.cross && !s.alignedNow then some 7
  else if m.kind = .swap ∧ x.holdsSwap m = false then some 0x0A
  else none

/-- The module's own answer for its context: none is ACK, else the reason (Table 2.5). -/
def State.exAnswer (s : State) (c : Nat) (m : PrepareMsg) : Option Nat :=
  let x := s.ctx c
  if x.job ≠ m.job.toNat ∨ x.part.isNone ∨ s.rebinding c ∨ x.exState m = false then some 1 else s.prepareFault x m

/-- LOCK, SYNCED or, across racks, ALIGNED is lost (R43). -/
def State.timeLost (s : State) (cross : Bool) : Bool := !s.tcb.lock || !s.tcb.synced || (cross && !s.alignedNow)

/-- A job has members in two racks: a rack is an X ring, the modules of one Y and Z (R30). -/
def State.crossJob (s : State) (job : Nat) : Bool :=
  let ms := (s.ep.ranks.get job []).filterMap (fun e => if fld e.2.toNat 31 31 = 1 then some (fld e.2.toNat 9 0) else none) ++
    (s.job job).members.map (·.1)
  ms.any (fun a => ms.any (fun b => decide (a / 8 ≠ b / 8)))

/-- An exchange is open at the module (R210): it ends with the second merged reply, or an ABORT. -/
def Exchange.open_ (e : Exchange) : Bool := !(e.go && e.replied)
def State.exBusy (s : State) : Bool := s.ep.ex.any Exchange.open_

def State.setEx (s : State) (e : Option Exchange) : State := { s with ep := { s.ep with ex := e } }

/-- Ports to the children in the control tree (R235). -/
def State.children (s : State) (arrival : Nat) : List Nat :=
  (List.range 6).filter (fun p => s.ep.bmask.getLsbD p && decide (p ≠ arrival))

/-- The NAK of the lower module index (R235). -/
def firstNak : Option (Nat × Nat) → Option (Nat × Nat) → Option (Nat × Nat)
  | none, b => b
  | a, none => a
  | some a, some b => if a.1 ≤ b.1 then some a else some b

/-- Children that have not answered are NO_REPLY (R235). A manager takes no NO_REPLY from a module that it has declared failed
(log 106). -/
def State.missing (s : State) (e : Exchange) : Option (Nat × Nat) :=
  let counts (n : Nat × Nat) : Bool := decide (n.2 ≠ 9) || !s.ep.failedMods.contains n.1
  ((e.waiting.map (fun p => (s.ep.nextMod s.modIndex p, 9))).filter counts).foldl (fun n q => firstNak n (some q)) (e.nak.filter counts)

/-- A worker that has lost its manager answers no exchange (R220). -/
def State.respond (s : State) (m : CtlMsg) : State := if s.ep.mgrLost then s else s.ctl m

/-- The module's own answer is in: to PREPARE, or to the count. -/
def Exchange.ownIn (e : Exchange) : Bool := !e.go || decide (e.ctx = 64) || !e.acked || decide (0 < e.started)

/-- A worker sends its merged reply once every answer is in (R235, R220). -/
def State.tryReply (s : State) (e : Exchange) : State :=
  if e.manager || e.replied || !e.waiting.isEmpty || !e.ownIn || s.ep.mgrLost then s.setEx (some e)
  else (s.setEx (some { e with replied := true })).ctl (.merged e.upPort e.acks e.nak)

/-! ## PREPARE (R42, R44, R210) -/

/-- The exchange a PREPARE opens. -/
def State.newEx (s : State) (m : PrepareMsg) (manager : Bool) (d : Option Taken) : Exchange :=
  let c := if m.kind = .tables then none else s.jobCtx m.job.toNat
  let ans := if m.kind = .tables then some none else c.map (fun k => s.exAnswer k m)
  let up := if manager then 6 else m.port.toNat
  { kind := m.kind, job := m.job.toNat, ctx := c.getD 64, at_ := m.at_, k := m.k, cross := m.cross, manager := manager,
    acked := decide (ans = some none), acks := if ans = some none then 1 else 0,
    nak := match ans with
      | some (some r) => some (s.modIndex, r)
      | _ => none
    waiting := s.children up, upPort := up, deadline := m.at_ - 1100000, cut := m.cut, epoch := m.epoch.toNat,
    period := m.period, floor := m.floor, prog := m.prog, wset := m.wset,
    prevK := (s.ctx (c.getD 64)).stretch, d := d }

/-- A broadcast goes on to the children (R235); an isolated module forwards nothing (R219). -/
def State.spread (s : State) (arrival : Nat) (m : CtlMsg) : State := if (s.children arrival).isEmpty || s.ep.req == 1 then s else s.ctl m

/-- The merged reply of an exchange that the module only passes on (R235): its own answer is EXCHANGE_BUSY (R44). -/
def State.tryRelay (s : State) (e : Exchange) : State :=
  let put (e : Exchange) : State := { s with ep := { s.ep with relay := some e } }
  if e.replied || !e.waiting.isEmpty || s.ep.mgrLost then put e
  else (put { e with replied := true }).ctl (.merged e.upPort e.acks e.nak)

/-- The part a busy module has in an exchange. -/
def Exchange.busy (e : Exchange) (m : Nat) : Exchange := { e with ctx := 64, acked := false, acks := 0, nak := some (m, 8) }

/-- PREPARE (R42). A worker without a manager answers no exchange (R220). -/
def execPrepare (p : PrepareMsg) (s : State) : Out :=
  .next (if s.ep.role ≠ 1 ∨ s.ep.mgrLost ∨ 6 ≤ p.port.toNat then s
    else if s.exBusy then (s.spread p.port.toNat (.prepare p)).tryRelay ((s.newEx p false none).busy s.modIndex)
    else (s.spread p.port.toNat (.prepare p)).tryReply (s.newEx p false none))

/-- The manager opens an exchange: PREPARE goes out, and its own member is tested (R42). -/
def State.openExchange (s : State) (m : PrepareMsg) (d : Option Taken) : State :=
  (s.spread 6 (.prepare m)).setEx (some (s.newEx m true d))

/-- The deadline of a module's merged reply has come: what is missing is NO_REPLY (R235). -/
def State.closeReply (s : State) (e : Exchange) : Exchange :=
  { e with waiting := [], nak := s.missing e, acked := e.acked && (!e.go || decide (0 < e.started)) }

/-- A child's reply is merged (R235). -/
def Exchange.merge (e : Exchange) (r : MergedMsg) : Exchange :=
  { e with waiting := e.waiting.filter (· != r.port.toNat), acks := e.acks + r.acks,
           nak := firstNak e.nak (r.nak.map (fun n => (n.1.toNat, n.2.toNat))) }

/-- The exchange waits for this reply, or (6, 7) for its own deadline. -/
def Exchange.awaits (e : Exchange) (port : Nat) : Bool :=
  if 6 ≤ port then !e.manager && !e.replied else e.waiting.contains port

/-- MERGED_REPLY (R235): a child's reply; port 6 or 7 stands for the module's own deadline. -/
def execMergedReply (r : MergedMsg) (s : State) : Out :=
  let p := r.port.toNat
  .next (match s.ep.ex.filter (fun e => e.awaits p), s.ep.relay.filter (fun e => e.awaits p) with
    | some e, _ => if 6 ≤ p then (s.passTo e.deadline).tryReply (s.closeReply e) else s.tryReply (e.merge r)
    | none, some e => if 6 ≤ p then (s.passTo e.deadline).tryRelay (s.closeReply e) else s.tryRelay (e.merge r)
    | none, none => s)

/-! ## GO, the count, ABORT (R42, R43) -/

/-- What GO makes of the member's context at the agreed count. -/
def Context.takeGo (x : Context) (e : Exchange) : Context :=
  match e.kind with
  | .launch => x
  | .stretch => { x with stretchTo := some (e.at_, e.k) }
  | .restore => { x with stretchTo := some (e.at_, 0) }
  | .quiesce => { x with quiesce := some { cut := e.cut, at_ := e.at_, why := .job } }
  | .resume =>
    if e.epoch = 0 then { x with resumeAt := some e.at_ }
    else if x.swapWaits then { x with wset := { x.wset with resumeAt := some e.at_ } }
    else x
  | .swap => { x with wset := { x.wset with load := x.wset.load.map (fun l => { l with armed := true, at_ := e.at_ }) } }
  | .tables => x

/-- GO of a stretch or restore posts its event (R39). -/
def State.tellGo (s : State) (e : Exchange) : State :=
  match e.kind with
  | .stretch => s.tellStretch e.ctx e.at_ e.prevK e.k
  | .restore => s.tellStretch e.ctx e.at_ e.prevK 0
  | _ => s

/-- The second phase begins: STARTs and NOGOs are collected as the ACKs were. -/
def State.holdGo (s : State) (e : Exchange) : State :=
  let e1 := { e with go := true, replied := false, acks := 0, nak := none, waiting := s.children e.upPort, started := 0,
                     deadline := e.at_ + 900000 }
  let s1 := if e.ctx < 64 then (s.modCtx e.ctx (fun x => x.takeGo e)).tellGo e else s
  (s1.spread e.upPort (.go e.job e.ctx)).setEx (some e1)

/-- The exchange is the one that a control message for context c means. -/
def Exchange.of (e : Exchange) (c : Nat) : Bool := decide (e.ctx = c) || decide (e.ctx = 64)

/-- GO (R42). -/
def execGo (c : BitVec 6) (s : State) : Out :=
  .next (match s.ep.ex with
    | none => s
    | some e =>
      if e.of c.toNat && !e.manager && !e.go && e.replied && e.nak.isNone && decide (s.tcb.now ≤ e.at_ - 200000) then s.holdGo e
      else s)

/-- What GO had set for the count is taken back. -/
def Context.dropGo (x : Context) (e : Exchange) : Context :=
  match e.kind with
  | .launch => x
  | .stretch | .restore =>
    if x.stretchTo.isSome then { x with stretchTo := none, stretchNext := 0 } else { x with stretch := e.prevK, stretchNext := 0 }
  | .quiesce => { x with quiesce := x.quiesce.filter (fun q => q.why != .job || q.q.isSome) }
  | .resume => if e.epoch = 0 then { x with resumeAt := none } else { x with wset := { x.wset with resumeAt := none } }
  | .swap => { x with wset := { x.wset with load := x.wset.load.map (fun l => { l with armed := false }) } }
  | .tables => x

/-- A stretch that is aborted after GO leaves the previous period in force (R43); the change that its
event had announced is taken back by another (R39, log 28). -/
def State.unstretch (s : State) (e : Exchange) : State :=
  (s.modCtx e.ctx (fun x => x.dropGo e)).tellStretch e.ctx s.tcb.now (if e.kind = .stretch then e.k else 0) e.prevK

/-- What GO had set at this module is taken back. -/
def State.undoGo (s : State) (e : Exchange) : State :=
  if e.kind = .stretch ∨ e.kind = .restore then s.unstretch e else s.modCtx e.ctx (fun x => x.dropGo e)

/-- The module will not act at the count: NOGO (R43). -/
def State.nogo (s : State) (e : Exchange) : State :=
  let s1 := if e.go && decide (e.ctx < 64) then s.undoGo e else s
  let e1 := { e with acked := false, nak := firstNak e.nak (some (s.modIndex, 0x0B)), go := true, replied := false,
                     waiting := if e.go then e.waiting else s.children e.upPort, deadline := e.at_ + 900000 }
  if e.manager then s1.setEx (some e1) else (s1.respond (.nogo s.modIndex e.job 0x0B)).tryReply e1

/-- NOGO (R43): at L - 200,000 a module that acknowledged holds no GO, or has lost its time since. -/
def execNogo (c : BitVec 6) (s : State) : Out :=
  .next (match s.ep.ex with
    | none => s
    | some e =>
      if e.of c.toNat && e.acked && decide (e.started = 0) && !(e.go && e.replied) then
        let s1 := s.passTo (e.at_ - 200000)
        if (!e.go && !e.manager) || e.lost || s1.timeLost e.cross then s1.nogo e else s1
      else s)

/-- SEQ counts start from 0 at launch (R229); the flow of a packet holds JOB above bit 36. -/
def State.dropSeq (s : State) (job : Nat) : State :=
  let off (t : Table Nat) : Table Nat := t.filter (fun e => e.1 / 2 ^ 36 != job)
  { s with ep := { s.ep with txSeq := off s.ep.txSeq, rxSeq := off s.ep.rxSeq } }

/-- JOB_QUIESCE and JOB_RESUME complete with OK at their agreed count (R284, log 104); a resume that ends a swap is JOB_SWAP's. -/
def State.reachCount (s : State) (e : Exchange) : State :=
  let st : JobSt := if e.kind = .quiesce then .quiesced else if (s.job e.job).st = .swapping true then .quiesced else .running
  match e.d with
  | some d =>
    if e.kind = .quiesce ∨ e.kind = .resume then
      ((s.setEx (some { e with d := none })).setJob e.job { s.job e.job with st := st }).complete d 0 0
    else s.setEx (some e)
  | none => s.setEx (some e)

/-- LAUNCH_COUNT (R42, R43): at the agreed count a module that holds GO acts and sends START. -/
def execLaunchCount (c : BitVec 6) (s : State) : Out :=
  .next (match s.ep.ex with
    | none => s
    | some e =>
      if decide (e.ctx = c.toNat) && e.acked && e.go && decide (e.started = 0) then
        let s1 := s.passTo e.at_
        if e.lost || s1.timeLost e.cross || (decide (e.kind = .launch) && decide ((s1.ctx e.ctx).st ≠ .bound)) then s1.nogo e
        else
          let s2 := if e.kind = .launch then (s1.dropSeq e.job).startCtx e.ctx e.at_ else s1
          let e1 := { e with started := 1, acks := e.acks + 1 }
          if e.manager then s2.reachCount e1 else (s2.respond (.start s.modIndex e.job)).tryReply e1
      else s)

/-- A context that an aborted launch had started stops and is BOUND again (R43). -/
def State.stopLaunched (s : State) (c : Nat) (at_ m reason : Nat) : State :=
  let s1 := (s.cutQuiesce c).mapOwned c (fun _ k => k.clearExec)
  (s1.modCtx c (fun x => { x with st := .bound, started := false, held := [] })).postCtx c 0x8106 srcCtx (at_ % 2 ^ 32) (m * 2 ^ 16 + reason)

/-- What ABORT does to this module's member (R43, R209). -/
def State.abortMember (s : State) (e : Exchange) (m reason : Nat) : State :=
  if 64 ≤ e.ctx then s
  else
    match e.kind with
    | .launch => if 0 < e.started ∧ (s.ctx e.ctx).st = .running then s.stopLaunched e.ctx e.at_ m reason else s
    | .swap => if (s.ctx e.ctx).wset.next.isSome then s.abortLoad e.ctx else s
    | _ =>
      if e.go && e.acked then s.undoGo e
      else if e.go then s
      else s.modCtx e.ctx (fun x => { x with stretchNext := 0 })

/-- The table changes that wait for the count of an aborted exchange never take effect (R231). -/
def State.dropChanges (s : State) (e : Exchange) : State :=
  if e.kind = .launch ∨ e.kind = .tables then
    { s with ep := { s.ep with changes := s.ep.changes.filter (fun c => c.at_ != e.at_) } }
  else s

/-- ABORT reaches a module (R43). -/
def State.abortEx (s : State) (e : Exchange) (m reason : Nat) : State :=
  ((((s.abortMember e m reason).dropChanges e).spread e.upPort (.abort e.job e.ctx m reason))).setEx none

/-- An exchange that the module only passes on is aborted. -/
def State.abortRelay (s : State) (c m reason : Nat) : State :=
  match s.ep.relay with
  | none => s
  | some e => { s.spread e.upPort (.abort e.job c m reason) with ep := { (s.spread e.upPort (.abort e.job c m reason)).ep with relay := none } }

/-- ABORT (R43). -/
def execAbort (c : BitVec 6) (m : BitVec 10) (reason : BitVec 16) (s : State) : Out :=
  .next (match s.ep.ex.filter (fun e => e.of c.toNat && !e.manager) with
    | some e => s.abortEx e m.toNat reason.toNat
    | none => s.abortRelay c.toNat m.toNat reason.toNat)

/-! ## The manager's decisions (R42, R284) -/

/-- DETAIL of ABORTED: the first NAK. -/
def nakDetail (n : Nat × Nat) : Nat := n.1 * 2 ^ 16 + n.2

/-- What a job does while an exchange of it is open, and after it. -/
def State.jobTo (s : State) (job : Nat) (st : JobSt) : State := s.setJob job { s.job job with st := st }

/-- The state a job falls back to when its exchange aborts. -/
def Exchange.jobBefore (e : Exchange) (st : JobSt) : JobSt :=
  match e.kind with
  | .launch => .idle
  | .quiesce => .running
  | .resume => if e.epoch = 0 then .quiesced else st
  | .stretch | .restore | .swap | .tables => st

/-! ## Table changes (R231) -/

/-- A worker, or the manager itself, takes a change: rank tables and membership at once, the rest at its
agreed count. A rank whose member has left is lost to the manager's job, and the manager tells the job's other modules (R257). -/
def State.takeChange (s : State) (c : TableChange) : State :=
  let s1 := if c.ranks.isEmpty then s
    else { s with ep := { s.ep with ranks := s.ep.ranks.put c.job (c.ranks.foldl (fun (t : Table (BitVec 32)) r => t.put r.1 r.2) (s.ep.ranks.get c.job [])) } }
  let s2 := match c.member with
    | some m => s1.modCtx m.1 (fun x => { x with job := c.job, rank := m.2 })
    | none => s1
  let gone := (c.ranks.filter (fun r => !r.2.getLsbD 31)).map (·.1)
  let s3 := if decide (s.ep.role = 2) && Table.has s2.ep.jobs c.job && !gone.isEmpty then
      (s2.setJob c.job { s2.job c.job with lost := (s2.job c.job).lost ++ gone }).tellRanks c.job (c.ranks.filter (fun r => !r.2.getLsbD 31))
    else s2
  if c.at_ = 0 then s3 else { s3 with ep := { s3.ep with changes := s3.ep.changes ++ [c] } }

/-- The manager sends a change to a module. -/
def State.sendChange (s : State) (m : Nat) (c : TableChange) : State :=
  if some m = s.modIndex? then s.takeChange c else s.ctl (.tables m c)

/-- The exchange of the oldest table changes that wait begins, once no other is open (R231, R210): each module is sent its
part with the count, and PREPARE goes out. -/
def State.openTables (s : State) : State :=
  match s.ep.tableQ with
  | [] => s
  | l :: _ =>
    if s.exBusy then s
    else
      let at_ := ceilMul (s.tcb.now + 2000000) 1
      (l.2.foldl (fun t e => t.sendChange e.1 { e.2 with at_ := at_ }) s).openExchange
        { kind := .tables, job := 0xFFFF, ctx := 0, at_ := at_, k := 0, period := 0, floor := 0, prog := 0, wset := 0, cross := false,
          cut := false, epoch := 0, port := 6 } none

/-- Changes join those that wait for an exchange of their own; `d` is the descriptor that completes with OK and a DETAIL once
that exchange has ended (R284). -/
def State.queueTables (s : State) (d : Option (Taken × Nat)) (l : List (Nat × TableChange)) : State :=
  ({ s with ep := { s.ep with tableQ := s.ep.tableQ ++ [(d, l)] } }).openTables

/-- The exchange of the oldest table changes has ended on every module. -/
def State.tablesDone (s : State) : State :=
  let s1 := { s with ep := { s.ep with tableQ := s.ep.tableQ.drop 1 } }
  match s.ep.tableQ.head?.bind (·.1) with
  | some d => s1.complete d.1 0 d.2
  | none => s1

/-- A launch that aborts leaves its job's pips and routes as they were (R231). -/
def State.undoTables (s : State) (e : Exchange) : State :=
  match e.undo with
  | some u => ({ s with ep := { s.ep with linkPips := u.2 } }).setJob e.job { s.job e.job with ovr := u.1 }
  | none => s

/-- The manager aborts: ABORT goes out and its descriptor completes ABORTED (R42). Table changes are then sent again under a
new count (log 106). -/
def State.managerAbort (s : State) (e : Exchange) (n : Nat × Nat) : State :=
  let s1 := s.abortEx e n.1 n.2
  let s2 := if e.kind = .tables then s1 else (s1.undoTables e).jobTo e.job (e.jobBefore (s.job e.job).st)
  (match e.d with
    | some d => s2.complete d 2 (nakDetail n)
    | none => s2).openTables

/-- EXCHANGE_DECISION (R42): at L - 1,000,000 the manager sends GO, or ABORT. -/
def execExchangeDecision (s : State) : Out :=
  .next (match s.ep.ex with
    | none => s
    | some e =>
      if !e.manager || e.go then s
      else
        let s1 := s.passTo (e.at_ - 1000000)
        match s1.missing e with
        | some n => s1.managerAbort e n
        | none => s1.holdGo e)

/-- The exchange has ended well on every member (R284): the status of its descriptor. A job swap goes
on until every module has reported LOADED and the resume count has passed. -/
def State.exchangeDone (s : State) (e : Exchange) : State :=
  let s1 := s.setEx none
  (match e.kind with
  | .launch =>
    let s2 := s1.setJob e.job { s.job e.job with st := .running, k := 0, askers := [] }
    match e.d with
    | some d => s2.complete d 1 0
    | none => s2
  | .quiesce | .resume => s1
  | .stretch => s1.setJob e.job { s.job e.job with k := e.k }
  | .restore => s1.setJob e.job { s.job e.job with k := 0, askers := [] }
  | .swap => s1.jobTo e.job (.swapping (decide ((s.job e.job).st = JobSt.quiesced) || decide ((s.job e.job).st = JobSt.swapping true)))
  | .tables => s1.tablesDone).openTables

/-- START_COLLECTION_DEADLINE (R42): at L + 1,000,000. A manager whose module holds no member has no LAUNCH_COUNT: its
JOB_QUIESCE or JOB_RESUME completes at the count by this command, which is then given again. -/
def execStartCollectionDeadline (s : State) : Out :=
  .next (match s.ep.ex with
    | none => s
    | some e =>
      if !e.manager || !e.go then s
      else if e.ctx = 64 ∧ e.d.isSome ∧ e.nak.isNone ∧ (e.kind = .quiesce ∨ e.kind = .resume) then (s.passTo e.at_).reachCount e
      else
        let s1 := s.passTo (e.at_ + 1000000)
        let own := if e.ctx < 64 ∧ e.started = 0 then some (s.modIndex, 0x0B) else none
        match firstNak own (s1.missing e) with
        | some n => s1.managerAbort e n
        | none => s1.exchangeDone e)

/-! ## PREPARE of a job (R42) -/

/-- The count of an exchange: the first multiple of n at least 2,000,000 tc ahead. -/
def State.agreed (s : State) (n : Nat) : Nat := ceilMul (s.tcb.now + 2000000) n

/-- The PREPARE of a job, from the manager's own member. Where the manager's module holds no member,
the spec does not say where it takes these from: free values (log 12). -/
def State.jobPrepare (s : State) (kind : ExKind) (job k : Nat) (unit : Nat → Nat) (cut : Bool) (epoch : Nat) : PrepareMsg × State :=
  match s.jobCtx job with
  | some c =>
    let x := s.ctx c
    ({ kind := kind, job := BitVec.ofNat 16 job, ctx := BitVec.ofNat 6 c, at_ := s.agreed (unit x.period), k := k, period := x.period,
       floor := x.floor, prog := (x.prog.map (·.digest)).getD 0, wset := x.wset.root,
       cross := s.crossJob job, cut := cut, epoch := BitVec.ofNat 16 epoch, port := 6 }, s)
  | none =>
    let v (i : Nat) : Nat := Config.freeValue (s.free + i)
    ({ kind := kind, job := BitVec.ofNat 16 job, ctx := 0, at_ := s.agreed (unit (v 0)), k := k, period := v 0, floor := v 1,
       prog := BitVec.ofNat 256 (v 2), wset := BitVec.ofNat 256 (v 3), cross := s.crossJob job, cut := cut,
       epoch := BitVec.ofNat 16 epoch, port := 6 }, { s with free := s.free + 4 })

/-! ## Stretch (R37 to R39) -/

/-- The exponent of the stretch factor: the least k of 2 to 2,048 that makes room for D at the step. -/
def stretchK (p d step : Nat) : Option Nat :=
  (List.range 11).map (· + 1) |>.find? (fun n => decide (d ≤ budget (2 ^ n * p) step) && decide (2 ^ n * p ≤ 10000000))

/-- A stretch or restore of a context of no job, at a count of this module. -/
def State.ownStretch (s : State) (c k unit : Nat) : State :=
  (s.modCtx c (fun y => { y with stretchTo := some (s.agreed unit, k) })).tellStretch c (s.agreed unit) (s.ctx c).stretch k

/-- The exchange of a job's stretch or restore (R37, R39), once no other is open. -/
def State.jobStretch (s : State) (id : Nat) (kind : ExKind) (k unit : Nat) : State :=
  if s.exBusy then s
  else
    let m := s.jobPrepare kind id k (fun _ => unit) false 0
    m.2.openExchange m.1 none

/-- FRAME_BUDGET at a count, on every member of a job (R37). -/
def State.jobBudget (s : State) (id at_ stp : Nat) : State :=
  (s.job id).members.foldl (fun t q =>
    if some q.1 = t.modIndex? then t.modCtx q.2 (fun y => { y with budgetAt := some (at_, stp) }) else t.ctl (.budget q.1 q.2 at_ stp)) s

/-- The manager acts on the request of a module for a stretch (R37): `p` and `d` are PERIOD and D of the job's context. -/
def State.takeAsk (s : State) (m id p d stp : Nat) : State :=
  match stretchK p d stp with
  | none => s.jobBudget id (s.agreed p) stp
  | some k =>
    let j := s.job id
    let s1 := s.setJob id { j with askers := (j.askers ++ [m]).eraseDups, per := p }
    if k ≤ j.k then s1 else s1.jobStretch id .stretch k (2 ^ k * p)

/-- STRETCH_REQUEST (R37): a required step lies beyond the FLOOR of a running context. The worker of a ring set asks its
manager; the manager receives the requests of its workers. -/
def execStretchRequest (c : BitVec 6) (stp : StretchNeed) (s : State) : Out :=
  let c := c.toNat
  let x := s.ctx c
  .next (match stp, x.prog with
    | .worker stp a, _ =>
      if s.ep.role = 2 ∧ s.ep.jobs.has a.job.toNat then s.takeAsk a.mod.toNat a.job.toNat a.period a.d stp.toNat else s
    | .own _, none => s
    | .own stp, some p =>
      if x.st ≠ .running ∨ stp.toNat ≤ x.floor ∨ x.stretchTo.isSome then s
      else
        let s1 := s.modCtx c (fun y => { y with stretchNext := stp.toNat })
        if x.job ≠ 0 ∧ s.ep.role = 1 then s1.ctl (.askStretch s.modIndex x.job x.period p.d stp.toNat)
        else match stretchK x.period p.d stp.toNat with
        | none =>
          if x.job ≠ 0 ∧ s.ep.role = 2 then s.jobBudget x.job (s.agreed x.period) stp.toNat
          else s.modCtx c (fun y => { y with budgetAt := some (s.agreed x.period, stp.toNat) })
        | some k =>
          if k = x.stretch then s
          else if x.job ≠ 0 ∧ s.ep.role = 2 then s1.takeAsk s.modIndex x.job x.period p.d stp.toNat
          else s1.ownStretch c k (2 ^ k * x.period))

/-- The manager learns that a module whose limit forced a stretch has held a step at or below FLOOR for the time of R39;
once every such module has, the restore begins. -/
def State.takeHeld (s : State) (m id : Nat) : State :=
  let j := s.job id
  let rest := j.askers.filter (· != m)
  let s1 := s.setJob id { j with askers := rest }
  if rest.isEmpty && decide (j.k ≠ 0) then s1.jobStretch id .restore 0 (2 ^ j.k * j.per) else s1

/-- The stretch of a context ends: at the count of the restore the period is restored; once the hold of R39 has passed the
restore is asked for. -/
def State.stretchEnds (s : State) (c : Nat) : State :=
  let x := s.ctx c
  match x.stretchTo, x.floorSince with
  | some (t, 0), _ => (s.passTo t).stretchNow c
  | none, some h =>
    if x.stretch = 0 then s
    else
      let s1 := s.passTo (h + 1000000000)
      if x.job ≠ 0 ∧ s.ep.role = 1 then s1.ctl (.stepHeld s.modIndex x.job)
      else if x.job ≠ 0 ∧ s.ep.role = 2 then s1.takeHeld s.modIndex x.job
      else s1.ownStretch c 0 x.eff
  | _, _ => s

/-- STRETCH_OFF (R39): once a step at or below FLOOR has been held for 1,000,000,000 tc the manager
chooses a restore count; at that count the period is restored. A worker reports to its manager, which receives the report. -/
def execStretchOff (c : StretchEnd) (s : State) : Out :=
  .next (match c with
    | .worker m job => if s.ep.role = 2 ∧ s.ep.jobs.has job.toNat then s.takeHeld m.toNat job.toNat else s
    | .own c => s.stretchEnds c.toNat)

end Sys2Proof.Machine
end

