-- ==== Sys2Proof/Machine/Resets.lean ====
section
/-! DEFINITION. The reset ladder: context, engine and partition resets, FLR, engine faults, the module
reset and the loss of power (R263, R300, R309 to R317). -/
namespace Sys2Proof.Machine

open Sys2Proof

/-! ## Engines and the work on them (R302, R312, Table 14.7) -/

def srcKind (source : Nat) : Nat := source / 2 ^ 28
def srcNum (source : Nat) : Nat := source % 2 ^ 28
/-- The core that a SOURCE of KIND 3 names. -/
def srcCoreIdx (source : Nat) : Nat := 640 * (srcNum source / 1024) + srcNum source % 1024

/-- Pips of the context's job on an Epfin port. -/
def State.jobPips (s : State) (c p : Nat) : Bool :=
  let j := (s.ctx c).job
  decide (j ≠ 0) && ((s.epPort p).pipTx.any (fun e => e.2 == j) || (s.epPort p).pipRx.any (fun e => e.2 == j))

/-- A context with work on an engine (R312). -/
def State.workOn (s : State) (c source : Nat) : Bool :=
  let n := srcNum source
  match srcKind source with
  | 0 => (s.port n).pairs.any (fun e => decide (e.1 / 256 = c) && !e.2.reqs.isEmpty)
  | 1 => (s.panel.seqs.find? n).any (fun j => decide (j.ctx = c) && j.accepted)
  | 2 => s.jobPips c n
  | _ => (s.ctx c).hasCore (srcCoreIdx source)

/-- A context that holds resources on an engine (Table 14.11). -/
def State.holdsOn (s : State) (c source : Nat) : Bool :=
  let n := srcNum source
  match srcKind source with
  | 0 => (s.port n).pairs.any (fun e => decide (e.1 / 256 = c)) || (s.port n).wins.has c || (s.port n).slots.any (fun e => e.2 == c)
  | 1 => ((s.ctx c).part.map (fun r => r.hasPod n)).getD false
  | 2 => s.jobPips c n
  | _ => (s.ctx c).hasCore (srcCoreIdx source)

/-- Every context with work on an engine takes a context fault whose ARG0 is its SOURCE. -/
def State.faultWorkers (s : State) (source code : Nat) : State :=
  (s.liveCtxs.filter (fun c => s.workOn c source)).foldl (fun t c => t.ctxFault c code source source 0) s

/-- ENGINE_FAULT (R300, Table 14.1). -/
def execEngineFault (source : BitVec 32) (s : State) : Out :=
  .next (if s.engineDown source.toNat then s
    else
      let s1 := { s with mg := { s.mg with engFaults := s.mg.engFaults ++ [source] } }
      let s2 := (s1.post 0 0x0803 3 0 source.toNat source.toNat 0).logFault 0x0803 3 noCtx source.toNat source.toNat 0
      (s2.faultWorkers source.toNat 0x0803).tellManager 0x0803 3 noCtx source.toNat source.toNat 0)

/-! ## RESET descriptors (R310) -/

def Taken.level (d : Taken) : Nat := d.word 4 % 8

/-- The RESET that waits at the head of the physical function's control queue. -/
def State.resetHead (s : State) (ls : List Nat) : Option Taken := (s.ctlHead 0 0x2B).filter (fun d => ls.contains d.level)

/-- A RESET of a level that has begun. -/
def State.resetRunning (s : State) (level : Nat) : Option Taken :=
  ((s.fn 0).ctlq ++ (s.fn 0).bg).find? (fun d => (d.st == .running || d.st == .timedOut) && decide (d.op = 0x2B) && decide (d.level = level))

/-- A reset of the same target is in progress: RESET_BUSY. -/
def State.resetBusy (s : State) (d : Taken) (level : Nat) : State := s.complete d 0x0113 level

/-! ## Context reset (R311) -/

/-- A launch exchange is open for the context: NOGO, or NAK where no answer has gone (Table 14.9). -/
def State.dropLaunch (s : State) (c : Nat) : State :=
  match s.ep.ex with
  | none => s
  | some e =>
    if e.ctx ≠ c ∨ e.kind ≠ .launch ∨ e.open_ = false ∨ e.acked = false then s
    else if !e.go && (e.manager || !e.replied) then
      s.setEx (some { e with acked := false, acks := e.acks - 1, nak := firstNak e.nak (some (s.modIndex, 1)) })
    else s.nogo e

/-- The first engine that is stopped by a fault or in its reset and has work of the context. -/
def State.stuckOn (s : State) (c : Nat) : Option Nat :=
  ((s.mg.engFaults.map (·.toNat)) ++ s.mg.resets.map (fun r => r.1.toNat)).find? (fun n => decide (srcKind n < 3) && s.workOn c n)

/-- Steps 1 to n of a context reset. -/
def State.resetSteps (s : State) (c n : Nat) : State :=
  let s := if 1 ≤ n then (s.abortLoad c).modCtx c Context.dropLoad else s
  let s := if 2 ≤ n then s.flushCtx c else s
  let s := if 3 ≤ n then s.endWalks c else s
  let s := if 4 ≤ n then ((s.dropEp c).purgeFlits c).mapOwned c (fun _ k => { k with keys := [], redWait := [] }) else s
  let s := if 5 ≤ n then s.mapOwned c (fun _ k => k.clearExec) else s
  if 6 ≤ n then
    (s.modCtx c (fun x => { x with
      st := .bound, fault := none, started := false, held := [], quiesce := none, resumeAt := none, pipIdle := false,
      deaf := true, batches := [], inBusy := x.inBusy.filter (fun k => !x.inFree.any (fun e => e.1 == k)), inFree := [],
      stretch := 0, stretchTo := none, budgetAt := none })).restartTicks c
  else s

/-- A core of the partition has failed its self-test (R312). -/
def State.selfFailed (s : State) (c : Nat) : Bool := (s.ctx c).cores.any (fun i => (s.core i).selfFail)

/-- The reset ends: status and DETAIL of its descriptor. -/
def State.finishReset (s : State) (c : Nat) : State × Nat × Nat :=
  let s1 := s.modCtx c (fun x => { x with resetting := none })
  if s.selfFailed c then
    ((s1.resetSteps c 5).modCtx c (fun x => { x with st := .faulted, deaf := true }), 0x0105, (s.badPods ((s.ctx c).part.getD { bx := 0, by_ := 0, w := 1, h := 1 }) []).length)
  else (s1.resetSteps c 6, 0, 0)

/-- A RUNNING or QUIESCED context takes HOST_RESET (R311). -/
def State.hostReset (s : State) (c : Nat) : State :=
  if (s.ctx c).st = .running ∨ (s.ctx c).st = .quiesced then s.ctxFault c 0x0801 srcCtx 0 0 else s

/-- The states a context reset applies to. -/
def CtxState.resets : CtxState → Bool
  | .bound | .running | .quiesced | .faulted => true
  | _ => false

/-- A context reset begins, and goes on to its end unless it waits on an engine. -/
def State.beginReset (s : State) (c : Nat) : State :=
  ((s.dropLaunch c).hostReset c).modCtx c (fun x => { x with resetting := some 1 })

/-- CONTEXT_RESET (R311): given again while it waits on an engine, it resumes (Table 14.9). -/
def execContextReset (s : State) : Out :=
  .next (match s.resetHead [1], s.resetRunning 1 with
    | some d, _ =>
      let c := d.word 5 % 64
      if (s.ctx c).st.resets = false then s.refuseCx d c
      else match (s.ctx c).resetting with
        | some l => s.resetBusy d l
        | none =>
          let s1 := (s.setSt d .running).beginReset c
          if (s1.stuckOn c).isSome then s1
          else let r := s1.finishReset c; r.1.complete d r.2.1 r.2.2
    | none, some d =>
      let c := d.word 5 % 64
      if (s.stuckOn c).isSome ∨ (s.ctx c).resetting ≠ some 1 then s
      else let r := s.finishReset c; r.1.complete d r.2.1 r.2.2
    | none, none => s)

/-- Steps that end before the one that waits on an engine of a KIND (R311). -/
def stepsBefore (kind : Nat) : Nat := if kind ≤ 1 then 2 else if kind = 2 then 3 else 4

/-- A reset that an engine does not let end: the context stays FAULTED (R311). -/
def State.hungReset (s : State) (c source : Nat) : State :=
  (s.resetSteps c (stepsBefore (srcKind source))).modCtx c (fun x => { x with resetting := none })

/-- ENGINE_HUNG (R311): the context reset of c, waiting or just taken, ends after 1,000,000 tc. -/
def execEngineHung (c : BitVec 6) (source : BitVec 32) (s : State) : Out :=
  let n := c.toNat
  .next (match ((s.resetHead [1]).or (s.resetRunning 1)).filter (fun d => decide (d.word 5 % 64 = n)) with
    | none => s
    | some d =>
      if (s.ctx n).st.resets = false then s
      else
        let s1 := if d.st = .waiting then (s.setSt d .running).beginReset n else s
        (s1.hungReset n source.toNat).complete d 0x0112 source.toNat)

/-! ## Function level reset (R263) -/

/-- SUBMITs that are not admitted are withdrawn and free their input slots; no record is due for what
was taken. -/
def State.flrRings (s : State) (c : Nat) : State :=
  let f := c + 1
  let h := s.fn f
  let mute (l : List Taken) : List Taken := l.map (fun d => { d with mute := true })
  let slots := h.admq.filterMap (·.inSlot)
  (s.setFn f { h with enable := false, sqh := h.sqt, flr := true, admq := [], res := h.res - BitVec.ofNat 32 h.admq.length,
                      xferq := mute h.xferq, ctlq := mute h.ctlq, bg := mute h.bg }).modCtx c (fun x => { x with
    inBusy := x.inBusy.filter (fun k => !slots.contains k), batches := x.batches.map (fun (b : Batch) => { b with d := { b.d with mute := true } }) })

/-- FLR (R263): the rings stop and a context reset begins. -/
def execFlr (c : BitVec 6) (s : State) : Out :=
  let n := c.toNat
  .next (if (s.fn (n + 1)).flr then s
    else
      let s1 := s.flrRings n
      if (s1.ctx n).st.resets && (s1.ctx n).resetting.isNone then s1.beginReset n else s1)

/-- FLR_DONE (R263, R311): the reset has ended, or `hung` names the engine that did not let it. -/
def execFlrDone (c : BitVec 6) (hung : Option (BitVec 32)) (s : State) : Out :=
  let n := c.toNat
  .next (if !(s.fn (n + 1)).flr then s
    else
      let s1 := s.modFn (n + 1) (fun h => { h with flr := false })
      let mine := decide ((s.ctx n).resetting = some 1)
      match hung with
      | some e => (if mine then s1.hungReset n e.toNat else s1).postPf 0x8406 e.toNat (n + 1) 0x0112
      | none => (if mine then (s1.finishReset n).1 else s1).postPf 0x8406 srcHost (n + 1) 0)

/-! ## Engine reset (R312) -/

/-- What refuses the TARGET of an engine reset: no such unit (log 20). -/
def State.targetFault (s : State) (source : Nat) : Option (Nat × Nat) :=
  let n := srcNum source
  match srcKind source with
  | 0 => if 32 ≤ n then some (9, 0x14) else if s.portUp n then none else some (0x0110, n)
  | 1 => if n < 192 ∧ s.hasSeqs then none else some (9, 0x14)
  | 2 => if n < 6 then none else some (9, 0x14)
  | _ => if n % 1024 < 640 ∧ n / 1024 < 480 then none else some (9, 0x14)

/-- Sequencers with page reads or a region on a port. -/
def State.seqsOn (s : State) (p : Nat) : List Nat :=
  let reads := (s.port p).pairs.flatMap (fun e => e.2.reqs.filterMap (fun k => k.att.map (·.pod)))
  (s.panel.seqs.filter (fun e => e.2.accepted && (reads.contains e.1 ||
    (e.2.walking && (s.port p).regions.any (fun r => decide (r.ctx = e.2.ctx) && decide (0 < r.walks0 + r.walks1)))))).map (·.1)

/-- The context and shard that a port's digest engine is loading. -/
def State.shardOn (s : State) (p : Nat) : Option (Nat × Nat) :=
  (s.port p).engine.filter (fun g => ((s.ctx g.1).wset.shards.getD g.2 {}).st == .arriving)

/-- The shard that a port's digest engine is loading becomes BAD; a re-check on it ends with no verdict, and its shard is next
again. -/
def State.stopEngine (s : State) (p : Nat) : State :=
  match (s.port p).engine with
  | none => s
  | some (c, i) =>
    if ((s.ctx c).wset.shards.getD i {}).st = .arriving then
      (s.modPort p (fun k => { k with engine := none })).modShard c i (fun h => { h with st := .bad })
    else if (s.ctx c).wset.recheck.any (fun r => r.shard == i) then
      (s.dropRecheck c).modCtx c (fun x => { x with wset := { x.wset with nextShard := i } })
    else s.modPort p (fun k => { k with engine := none })

/-- What the reset of a memory port removes (Table 14.7); STK writes that wait for a slot go with the unfinished packets. -/
def State.resetPort (s : State) (p : Nat) : State :=
  let s1 := (s.seqsOn p).foldl State.endAttend s
  let s2 := ((s1.port p).pairs.map (·.1)).foldl (fun t k => t.flushPair p (k / 256) (k % 256)) s1
  s2.modPort p (fun k => { k with stkQ := [], resetting := true, selfRef := true })

/-- Shards with bytes on a core become ABSENT and the set LOADING. -/
def State.loseShards (s : State) (c i : Nat) : State :=
  let x := s.ctx c
  let hit := (List.range x.wset.shards.length).filter (fun k => (x.shardCores (x.wset.shards.getD k {})).contains i)
  if hit.isEmpty then s
  else (hit.foldl (fun t k => t.modShard c k (fun h => { h with st := .absent })) s).modCtx c (fun y => { y with wset := { y.wset with st := 1 } })

/-- What the reset of a core removes: its stores and state are scrubbed; its router stays the
context's (Table 14.7). -/
def State.resetCore (s : State) (i : Nat) : State :=
  let k := s.core i
  match k.owner with
  | some c => (s.setCore i { k.scrub with owner := some c, keys := k.keys, redWait := k.redWait }).loseShards c i
  | none => s.setCore i k.scrub

/-- The effects of Table 14.7 on the engine itself. -/
def State.resetEngine (s : State) (source : Nat) : State :=
  let n := srcNum source
  match srcKind source with
  | 0 => s.resetPort n
  | 1 => if (s.panel.seqs.find? n).any (fun j => j.accepted) then s.endAttend n else s
  | 2 => (s.portTo n 0).tryTrain n
  | _ => s.resetCore (srcCoreIdx source)

/-- Contexts that an engine reset reaches: those with work on the engine, and one whose shard the port's digest engine is loading
(R199, R312). -/
def State.reachedBy (s : State) (source : Nat) : List Nat :=
  s.liveCtxs.filter (fun c => s.workOn c source || (decide (srcKind source = 0) && (s.shardOn (srcNum source)).any (fun g => g.1 == c)))

/-- An engine reset begins (R199, R312): the fault, the end of what the port's engine does, the end of loads and swaps, and what
Table 14.7 removes. -/
def State.beginEngineReset (s : State) (source : Nat) : State :=
  let s1 := s.faultWorkers source 0x0802
  let s2 := if srcKind source = 0 then s1.stopEngine (srcNum source) else s1
  ((s.reachedBy source).foldl State.abortLoad s2).resetEngine source

/-- ENGINE_RESET (R312). -/
def execEngineReset (s : State) : Out :=
  .next (match s.resetHead [2] with
    | none => s
    | some d =>
      let src := d.word 5
      match s.targetFault src with
      | some f => s.complete d f.1 f.2
      | none =>
        if s.mg.resets.any (fun r => decide (r.1.toNat = src)) then s.resetBusy d 2
        else
          let s2 := (s.setSt d .running).beginEngineReset src
          { s2 with mg := { s2.mg with resets := s2.mg.resets ++ [(BitVec.ofNat 32 src, d)],
                                       resetHit := s2.mg.resetHit.put src (s.liveCtxs.filter (fun c => s.workOn c src)),
                                       engFaults := s2.mg.engFaults.filter (fun e => decide (e.toNat ≠ src)) } })

/-- A core that passes its self-test is rewritten from the loader's copy of the image; one that fails
is retired (R312). -/
def State.coreBack (s : State) (i : Nat) (good : Bool) : State :=
  if !good then (s.modCore i (fun k => { k with selfFail := true })).retire i
  else
    match (s.core i).owner with
    | none => s
    | some c =>
      let s1 := s.modCore i (fun k => k.fence c)
      match (s.ctx c).prog with
      | some p => s1.loadCores (s1.ctx c) p.image p.gens [i]
      | none => s1

/-- The engine serves again. -/
def State.engineBack (s : State) (source : Nat) (good : Bool) : State :=
  match srcKind source with
  | 0 => s.modPort (srcNum source) (fun k => { k with resetting := false, selfRef := false, woken := false })
  | 3 => s.coreBack (srcCoreIdx source) good
  | _ => s

/-- ENGINE_RESET_DONE (R312): event 0x8501 to the PF and to every holder that did not take ENGINE_RESET;
`good` is the self-test of a core. -/
def execEngineResetDone (source : BitVec 32) (good : Bool) (s : State) : Out :=
  .next (match List.find? (fun r => r.1 == source) s.mg.resets with
    | none => s
    | some r =>
      let hit := s.mg.resetHit.get source.toNat []
      let s1 := { s with mg := { s.mg with resets := s.mg.resets.filter (fun e => e.1 != source),
                                           resetHit := s.mg.resetHit.erase source.toNat } }
      let s2 := s1.engineBack source.toNat good
      let s3 := (s2.liveCtxs.filter (fun c => s2.holdsOn c source.toNat && !hit.contains c)).foldl (fun t c => t.postCtx c 0x8501 source.toNat 0 0) s2
      (s3.postPf 0x8501 source.toNat 0 0).complete r.2 0 0)

/-! ## Partition reset (R313) -/

/-- Steps 2 to 6, and step 7 for the same context. -/
def State.partSteps (s : State) (c : Nat) (r : Rect) (bad : List Nat) (d : Taken) : State :=
  let s1 := ((s.stopFlush c true).endBatches c 4 0).scrubPart c r
  let s2 := (s1.modCtx c (fun x => { x.unbound with batches := [] })).restartTicks c
  if bad.isEmpty then (s2.bindTo c r).complete d 0 0
  else ((bad.foldl State.withdrawPod s2).listPods bad).complete d 0x0105 bad.length

/-- PARTITION_RESET (R313): a RUNNING context is first quiesced under CUT; given again once it is no
longer RUNNING, the command performs the rest. -/
def execPartitionReset (bad : List (BitVec 8)) (s : State) : Out :=
  .next (match s.resetHead [3], s.resetRunning 3 with
    | some d, _ =>
      let c := d.word 5 % 64
      if (s.ctx c).st.resets = false then s.refuseCx d c
      else match (s.ctx c).resetting, (s.ctx c).part with
        | some l, _ => s.resetBusy d l
        | none, none => s.refuseCx d c
        | none, some r =>
          let s1 := s.dropLaunch c
          if (s.ctx c).st = .running then
            ((s1.setSt d .running).askQuiesce c true .partReset).modCtx c (fun x => { x with resetting := some 3 })
          else s1.partSteps c r (s1.badPods r bad) d
    | none, some d =>
      let c := d.word 5 % 64
      match (s.ctx c).part with
      | some r => if (s.ctx c).st = .running ∨ (s.ctx c).resetting ≠ some 3 then s else s.partSteps c r (s.badPods r bad) d
      | none => s
    | none, none => s)

/-! ## Module reset (R314) -/

/-- Every tier-A window of a context becomes a retained window, with its fault-log entry. -/
def State.retainCtx (s : State) (c : Nat) : State :=
  (List.range 24).foldl (fun t p =>
    match (t.port p).wins.find? c with
    | some w => let r := t.retain c p w; r.1.logFault 0x0A04 2 c (srcPort p) p r.2
    | none => t) s

def State.retainAll (s : State) : State := s.liveCtxs.foldl State.retainCtx s

/-- What a module reset leaves of a port: its stack, and the scrubs of blocks that no window holds. -/
def StackPort.afterReset (k : StackPort) (p : Nat) : StackPort :=
  { mem := k.mem, bad := k.bad, wear := k.wear, retained := k.retained, libUsed := k.libUsed, eccSingle := k.eccSingle,
    eccDouble := k.eccDouble, scrubs := k.scrubs.map (fun j => { j with num := none }), disabled := k.disabled, selfRef := decide (p < 24) }

/-- What it leaves of a core until stage SCRUB: its stores. -/
def Core.afterReset (k : Core) : Core :=
  { k.startClear with owner := none, keys := [], redWait := [], lent := false, uncorr := 0, selfFail := false }

/-- What it leaves of the management block. -/
def Mgmt.afterReset (g : Mgmt) (cause now : Nat) : Mgmt :=
  { rstCause := BitVec.ofNat 8 cause, rstCnt := satAdd g.rstCnt 1, logNext := g.logNext, logAck := g.logAck, sumOnly := g.sumOnly, log := g.log,
    sums := g.sums, flashLog := g.flashLog, powerUpStart := false, startTc := now, dogAt := now, retired := g.retired,
    factoryRetired := g.factoryRetired, spare := g.spare, withdrawn := g.withdrawn, seqOff := g.seqOff, lib := g.lib,
    nextLib := g.nextLib, nextRet := g.nextRet, modReset := g.modReset + 1, supplyFail := g.supplyFail }

/-- What it leaves of the identity block: fuses, flash, and the record of an unlock. -/
def Security.afterReset (x : Security) : Security :=
  { svn := x.svn, owners := x.owners, flash := x.flash, flashBad := x.flashBad, latch := x.latch, forceRecovery := x.forceRecovery,
    unlockedEver := x.unlockedEver, challenge := x.challenge }

/-- The Epfin ports that are UP leave it, with their reports (R217, R314). -/
def State.portsDown (s : State) : State :=
  (List.range 6).foldl (fun t p => if (t.epPort p).st = 3 then t.leaveUp p 0 else t) s

/-- A module reset (R314), for each cause of Table 14.5; nothing while no power is on. -/
def State.moduleReset (s : State) (cause : Nat) : State :=
  if !s.mg.powered then s
  else
    let r := s.retainAll.portsDown
    { ident := r.ident, tcb := { r.tcb with parent := none },
      fs := { changes := r.fs.changes, forces := r.fs.forces, timeTc := r.fs.timeTc, xskewEdges := r.fs.xskewEdges,
              coreRails := r.fs.coreRails, alert := r.fs.tripHold, tripHold := r.fs.tripHold },
      panel := { cores := r.panel.cores.map (fun e => (e.1, e.2.afterReset)), nextNum := r.panel.nextNum },
      ports := r.ports.map (fun e => (e.1, e.2.afterReset e.1)),
      link := { r.link with badwr := 0, aborts := 0 },
      ep := { ports := r.ep.ports.map (fun e => (e.1, { plugged := e.2.plugged })), out := r.ep.out, ctl := r.ep.ctl },
      mg := r.mg.afterReset cause r.tcb.now, sec := r.sec.afterReset, mon := { out := r.mon.out }, smb := r.smb, lines := r.lines,
      free := r.free, pending := r.pending }

/-- MODULE_RESET (R310, R314): RESET of LEVEL 0 or 4; no record is written. -/
def execModuleReset (s : State) : Out :=
  .next (match s.resetHead [0, 4] with
    | some _ => s.moduleReset 1
    | none => s)

/-- MG_RESET (R314, R346): over BAR0 or the management window; other values are ignored. -/
def execMgReset (window : Bool) (v : BitVec 32) (s : State) : Out :=
  .next (if v = 0xA5A50004#32 ∧ s.link.perst = false ∧ (window ∨ s.sec.inRecovery = false) then s.moduleReset 2 else s)

/-- WATCHDOG (R309): it runs out 1,000,000,000 tc after it was last restarted. -/
def execWatchdog (s : State) : Out :=
  .next (if !s.mg.powered then s
    else ((s.passTo (s.mg.dogAt + 1000000000)).logFault 0x0902 4 noCtx srcMgmt 0 0).moduleReset 5)

/-- SMBUS_RESET (R365). -/
def execSmbusReset (v : BitVec 32) (s : State) : Out := .next (if v = 0xA5A50004#32 then s.moduleReset 3 else s)

/-- MG_FLOGACK (Table 14.5): a write below the old value or above NEXT is ignored. -/
def State.flogAck (s : State) (v : Nat) : State :=
  if v < s.mg.logAck ∨ s.mg.logNext < v then s else { s with mg := { s.mg with logAck := v } }

/-- MG_FLOGACK (Table 14.5, R360). -/
def execMgFlogack (v : BitVec 32) (s : State) : Out := .next (if s.barLive then s.flogAck v.toNat else s)

/-! ## Loss of power (R315) -/

/-- What a power cycle keeps of a port: a tier-B stack and its directory. -/
def StackPort.afterPower (k : StackPort) (p : Nat) : StackPort :=
  if p < 24 then {}
  else { mem := k.mem, wear := k.wear, libUsed := k.libUsed, eccSingle := k.eccSingle, eccDouble := k.eccDouble }

/-- Power is lost (R315): what flash, fuses and the tier-B stacks hold is kept, with the lines and the
host's own memory; a new challenge will be drawn at power-up. -/
def State.powerOff (s : State) : State :=
  { ident := s.ident,
    ports := s.ports.map (fun e => (e.1, e.2.afterPower e.1)),
    link := { mem := s.link.mem, msix := s.link.msix, perst := s.link.perst },
    ep := { ports := s.ep.ports.map (fun e => (e.1, { plugged := e.2.plugged })), out := s.ep.out, ctl := s.ep.ctl },
    mg := { powered := false, flashLog := s.mg.flashLog, retired := s.mg.retired, factoryRetired := s.mg.factoryRetired, lib := s.mg.lib,
            nextLib := s.mg.nextLib },
    sec := { svn := s.sec.svn, owners := s.sec.owners, flash := s.sec.flash, flashBad := s.sec.flashBad, forceRecovery := s.sec.forceRecovery, challenge := s.free },
    mon := { out := s.mon.out }, lines := s.lines, free := s.free + 1, pending := s.pending }

end Sys2Proof.Machine
end

