-- ==== Sys2Proof/Machine/Start.lean ====
section
/-! DEFINITION. From power to ready: the lines, the start stages, the boot ROM's checks and recovery
(R11, R12, R16, R115, R339 to R348, R357 to R372). -/
namespace Sys2Proof.Machine

open Sys2Proof

/-! ## The boot ROM (R343 to R345) -/

/-- The checks of R344 on an image, in order: the code of the first that fails (Table 17.4). -/
def State.imageCheck (s : State) (m : List Byte) : Option Nat :=
  let len := leAt m 0x0C 4
  let n := 0x80 + len
  if leAt m 0 4 ≠ 0x3157464A ∨ leAt m 4 2 ≠ 1 ∨ 2 ≤ leAt m 6 2 ∨ zeroBytes m 0x18 8 = false ∨ zeroBytes m 0x60 32 = false ∨
      len % 64 ≠ 0 ∨ 8388352 < len ∨ m.length < n + 64 then some 1
  else if keyDigest (leAt m 0x20 32) (leAt m 0x40 32) ≠ Config.fwKey then some 2
  else if leAt m 8 4 < s.sec.svn then some 3
  else if !sigOk ((m.drop 0x20).take 64) (sha256 (m.take n)) ((m.drop n).take 64) then some 4
  else none

/-- The check of the flash: a write that failed leaves an image that fails check 1 or check 4, which of
them is a free value (R345). -/
def State.flashCheck (s : State) : Option Nat × State :=
  if s.sec.flashBad then (some (if Config.freeValue s.free % 2 = 0 then 1 else 4), { s with free := s.free + 1 })
  else (s.imageCheck s.sec.flash, s)

/-- Hand-off (R344, R345): the latch is written, and the fused SVN may rise. -/
def State.handOff (s : State) : State :=
  let m := s.sec.flash
  let n := 0x80 + leAt m 0x0C 4
  let svn := if leAt m 6 2 % 2 = 1 then max s.sec.svn (min (leAt m 8 4) 64) else s.sec.svn
  { s with sec := { s.sec with latch := { digest := sha256 (m.take n), ver := BitVec.ofNat 64 (leAt m 0x10 8) }, svn := svn,
                               inRecovery := false, rcvState := 0, rcvCode := 0 } }

/-- The ROM enters recovery (R346). -/
def State.enterRecovery (s : State) (code : Nat) : State :=
  { s with sec := { s.sec with inRecovery := true, forceRecovery := false, rcvState := 1, rcvCode := BitVec.ofNat 8 code,
                               throughRecovery := true } }

/-- The ROM checks and boots the image in flash, or rejects it (R344). -/
def State.boot (s : State) : State :=
  let r := s.flashCheck
  match r.1 with
  | none => r.2.handOff
  | some code => (r.2.logFault 0x0905 4 noCtx srcMgmt code 0).enterRecovery code

/-! ## Recovery (R346 to R348) -/

/-- The reset into recovery (R346). -/
def State.toRecovery (s : State) : State :=
  let s1 := s.moduleReset 2
  { s1 with sec := { s1.sec with forceRecovery := true } }

/-- RECOVERY_ENTER (R346): the first key of MG_RECOVER, in the management window. -/
def execRecoveryEnter (v : BitVec 32) (s : State) : Out :=
  .next (if v = 0xA5A50005#32 ∧ s.mg.powered ∧ s.link.perst = false then s.toRecovery else s)

/-- A transfer ends with a code; recovery goes on. -/
def State.rcvFail (s : State) (code : Nat) : State := { s with sec := { s.sec with rcvState := 1, rcvCode := BitVec.ofNat 8 code } }

/-- A firmware image has been read (R347). -/
def State.rcvImage (s : State) (m : List Byte) (len : Nat) (flashOk : Bool) : State :=
  if len ≠ 0x80 + leAt m 0x0C 4 + 64 then s.rcvFail 1
  else match s.imageCheck m with
    | some code => s.rcvFail code
    | none =>
      if flashOk then ({ s with sec := { s.sec with flash := m, flashBad := false } }).handOff
      else ({ s with sec := { s.sec with flash := Config.damagedFlash s.free, flashBad := true }, free := s.free + 1 }).rcvFail 5

/-- An owner slot holds a key that may sign. -/
def Owner.live (o : Owner) : Bool := o.enrolled && !o.revoked

/-- What ends an owner record (R348): its code, or the owners after it. -/
def State.ownerRecord (s : State) (m : List Byte) : Nat ⊕ Table Owner :=
  let slot := leAt m 4 1
  let op := leAt m 5 1
  let o := s.sec.owners.get slot {}
  let signer := digOf (m.drop 0x48)
  let bare := zeroBytes m 0x48 96
  let good := sigUnder signer (sha256 (m.take 0x68)) ((m.drop 0x68).take 64)
  let known := s.sec.owners.any (fun e => e.2.live && e.2.key == signer)
  let other := s.sec.owners.any (fun e => e.2.live && e.2.key == signer && decide (e.1 ≠ slot))
  if leAt m 0 4 ≠ 0x31454F4A ∨ 4 ≤ slot ∨ 2 ≤ op ∨ zeroBytes m 6 2 = false then .inl 1
  else if op = 0 then
    if o.enrolled || o.revoked then .inl 7
    else if decide (slot = 0) && bare && s.sec.owners.all (fun e => !e.2.enrolled) then
      .inr (s.sec.owners.put 0 { key := sha256 ((m.drop 8).take 64), enrolled := true })
    else if !known then .inl 2
    else if !good then .inl 4
    else .inr (s.sec.owners.put slot { key := sha256 ((m.drop 8).take 64), enrolled := true })
  else if zeroBytes m 8 64 = false then .inl 1
  else if !known then .inl 2
  else if !other then .inl 7
  else if !good then .inl 4
  else .inr (s.sec.owners.put slot { o with revoked := true })

/-- RECOVERY_TRANSFER (R347, R348): the second key of MG_RECOVER, in recovery only. -/
def execRecoveryTransfer (dma : Dma) (flashOk : Bool) (s : State) : Out :=
  .next (if !s.sec.inRecovery || decide (s.sec.rcvState ≠ 1) then s
    else
      match dma with
      | .abort _ => ({ s with link := { s.link with aborts := satAdd s.link.aborts 1 } }).rcvFail 6
      | .ok =>
        let len := s.sec.rcvLen.toNat
        let m := s.hostRead (2 ^ 32 * s.sec.rcvHi.toNat + s.sec.rcvLo.toNat / 64 * 64) len
        if s.sec.rcvKind then
          if len ≠ 0xA8 then s.rcvFail 1
          else match s.ownerRecord m with
            | .inl code => s.rcvFail code
            | .inr os => ({ s with sec := { s.sec with owners := os } }).boot
        else s.rcvImage m len flashOk)

/-! ## Disabled units at a start (R11, R12, R115, R252, R357) -/

/-- A pod is withdrawn, with its fault-log entry. -/
def State.withdraw (s : State) (pod : Nat) : State :=
  if s.mg.withdrawn.contains pod then s
  else ({ s with mg := { s.mg with withdrawn := s.mg.withdrawn ++ [pod] } }).logFault 0x0907 3 noCtx srcMgmt pod 0

/-- The four pods of a field (R10). -/
def fieldPods (f : Nat) : List Nat :=
  let x := 2 * (f % 8)
  let y := 2 * (f / 8)
  [16 * y + x, 16 * y + x + 1, 16 * (y + 1) + x, 16 * (y + 1) + x + 1]

/-- Rows of fields with more than four retired cores: field column and row. -/
def overRows (spare : List Nat) : List (Nat × Nat) :=
  ((spare.map (fun n => (n % 1024 / 84, n / 1024))).eraseDups).filter (fun r =>
    decide (4 < (spare.filter (fun n => decide (n / 1024 = r.2) && decide (n % 1024 / 84 = r.1))).length))

/-- The pods that adjoin a failing link of a field edge, one on each side (R115). -/
def edgePods (e : Nat) : List Nat :=
  let fx := e / 2 % 64 % 8
  let fy := e / 2 % 64 / 8
  if e < 128 then [16 * (2 * fy + e % 2) + 2 * fx + 1, 16 * (2 * fy + e % 2) + 2 * fx + 2]
  else [16 * (2 * fy + 1) + 2 * fx + e % 2, 16 * (2 * fy + 2) + 2 * fx + e % 2]

/-! ## The stages (R366 to R369) -/

def State.setMg (s : State) (f : Mgmt → Mgmt) : State := { s with mg := f s.mg }

/-- Converters switch off with SUPPLY_FAIL (R331, R357); the panel stays unpowered. -/
def State.supplyFail (s : State) (arg0 arg1 : Nat) : State :=
  let s1 := (s.setMg (fun g => { g with supplyFail := true })).logFault 0x0904 4 noCtx srcMgmt arg0 arg1
  { s1 with fs := { s1.fs with coreRails := false, clocked := false } }

/-- The sensors hold the start at the temperature gate (R368): readings in 0.1 degrees. -/
def State.gateHot (s : State) : Bool :=
  s.tel.tfield.any (fun e => decide (850 < e.2.toInt)) || s.tel.tstack.any (fun e => decide (e.2 ≠ 0x8000#16) && decide (800 < e.2.toInt))

/-- Stage RAILS raises the rails and switches the cages on (R357, R361, R368). -/
def State.raiseRails (s : State) (rails : List (BitVec 6)) : State :=
  let s1 := { s with fs := { s.fs with coreRails := true, clocked := true, cur := 0, tripHold := false, alert := false },
                     mg := { s.mg with withdrawn := [] } }
  let s2 := (rails.flatMap (fun f => fieldPods f.toNat)).foldl State.withdraw s1
  (List.range 6).foldl (fun t p => (t.modEpPort p (fun k => { k with caged := true })).readCable p) s2

/-- A core that fails self-test: its entry names the core at the logical position it had under the map
of the last start (19, worked example); an idle spare has none, and SOURCE is a free value (log 12). -/
def State.retireTested (s : State) (spare : List Nat) (n : Nat) : State :=
  let y := n / 1024
  let fx := n % 1024 / 84
  let lx := ((List.range (n % 1024 % 84)).filter (fun k => !spare.contains (1024 * y + 84 * fx + k))).length
  if lx < 80 then s.retireNo n (srcCore (640 * y + 80 * fx + lx))
  else s.draw.2.retireNo n (Config.freeValue s.draw.1)

/-- Stage SELFTEST (R11, R12). -/
def State.selfTest (s : State) (cores : List Nat) : State :=
  let s1 := cores.foldl (fun t n => t.retireTested s.mg.spare n) s
  let spare := (s1.mg.factoryRetired ++ s1.mg.retired).eraseDups
  let s2 := s1.setMg (fun g => { g with spare := spare })
  ((overRows spare).flatMap (fun r => let y := r.2 / 40; [16 * y + 2 * r.1, 16 * y + 2 * r.1 + 1])).foldl State.withdraw s2

/-- Stage CROSSINGS (R115). -/
def State.trainCrossings (s : State) (edges : List (BitVec 8)) : State :=
  let s1 := (edges.flatMap (fun e => edgePods e.toNat)).foldl State.withdraw s
  let n := ((edges.map (fun e => e.toNat / 2)).eraseDups).length
  { s1 with mg := { s1.mg with trained := true, failedEdges := BitVec.ofNat 8 n }, fs := { s1.fs with xskewEdges := [] } }

/-- Ports of the disabled-unit map. -/
def State.deadPorts (s : State) : List Nat := (List.range 32).filter (fun p => s.fitted p && (s.port p).disabled)

/-- Stage DISTANCE (R16, R119, R134). -/
def State.buildDistance (s : State) : State :=
  s.setMg (fun g => { g with distValid := true, distBuilt := s.tcb.now, distDig := BitVec.ofNat 128 (s.mapDig.toNat / 2 ^ 128),
                             startMap := (g.spare, g.withdrawn, g.seqOff, s.deadPorts) })

/-- Stage SCRUB (R251, R252, R314): every store and register of every core is at its reset value, GEN
of a handle entry included (R389, log 35). -/
def State.scrubPanel (s : State) (pods : List (BitVec 8)) : State :=
  (pods.map (·.toNat)).foldl State.withdrawPod { s with panel := { nextNum := s.panel.nextNum } }

/-- Stage STACKS (R193, R369). -/
def State.trainStacks (s : State) (ports : List (BitVec 5)) : State :=
  let s1 := (List.range 32).foldl (fun t p =>
    if !t.fitted p then t
    else if ports.contains (BitVec.ofNat 5 p) then
      (t.modPort p (fun k => { k with trained := false, disabled := true })).logFault 0x0909 3 noCtx (srcPort p) p 0
    else t.modPort p (fun k => { k with trained := true, disabled := false, selfRef := false })) s
  ((s1.mg.lib.filter (fun e => !e.2.complete)).map (·.1)).foldl State.libDelete s1

/-- Stage HOST (R4, R370). -/
def State.hostReady (s : State) : State :=
  let s1 := s.setMg (fun g => { g with ready := true, unknownPart := !s.knownPart })
  if s.knownPart then s1 else s1.logFault 0x0901 4 noCtx srcMgmt 0 0

/-- Stage k ends and the next begins (R366). -/
def State.endStage (s : State) (k : Nat) (us : BitVec 32) : State :=
  s.setMg (fun g => { g with stTime := g.stTime.put k us, stage := if k < 9 then k + 1 else 9 })

/-- What stage k does, or none where it does not end (R367, R368, R370). -/
def State.stageDo (s : State) (k : Nat) (r : StageResult) : State × Bool :=
  match k with
  | 0 => if r.fail48 && s.mg.powerUpStart then (s.supplyFail 0 0, false) else (s, true)
  | 1 =>
    if !s.lines.modRstN then (s, false)
    else if s.sec.forceRecovery then (s.enterRecovery 0, false)
    else let t := s.boot; (t, !t.sec.inRecovery)
  | 2 => (s, s.tcb.lock || s.mg.refWait)
  | 3 =>
    if (s.gateHot || s.fs.tripHold) && !s.mg.gateOpen then (s.setMg (fun g => { g with stoppedGate := true }), false)
    else (s.raiseRails r.rails, true)
  | 4 => (s.selfTest r.cores, true)
  | 5 => (s.trainCrossings r.edges, true)
  | 6 => (s.buildDistance, true)
  | 7 => (s.scrubPanel r.pods, true)
  | 8 => (s.trainStacks r.ports, true)
  | _ => (s.hostReady, true)

/-- A start is under way. -/
def State.starting (s : State) : Bool := s.mg.powered && !s.mg.ready && !s.mg.supplyFail && !s.sec.inRecovery

/-- MODULE_START_STAGE (R366): the stage in progress ends. `us` counts from the start point; at a
power-up the counter is 0 at the end of stage REFERENCE (R21, log 3). -/
def execModuleStartStage (r : StageResult) (s : State) : Out :=
  .next (if !s.starting then s
    else
      let s0 := if !s.mg.powerUpStart then s.passTo (s.mg.startTc + 1000 * r.us.toNat)
        else if 2 < s.mg.stage then s.passTo (1000 * (r.us.toNat - (s.mg.stTime.get 2 0).toNat)) else s
      let t := s0.stageDo s.mg.stage r
      if t.2 then t.1.endStage s.mg.stage r.us else t.1)

/-- REF_ABSENT (R367): no lock when the wait of stage REFERENCE ends. -/
def execRefAbsent (s : State) : Out :=
  .next (if !s.starting || decide (s.mg.stage ≠ 2) || s.tcb.lock || s.mg.refWait then s
    else
      let s1 := (s.setMg (fun g => { g with refWait := true })).logFault 0x090D 1 noCtx srcMgmt 0 0
      { s1 with tcb := { s1.tcb with running := true, holdover := true, refLost := true, holdStart := s1.tcb.now } })

/-- TEMPERATURE_GATE_CLEAR (R368): the sensors are below the gate; stage RAILS goes on. -/
def execTemperatureGateClear (s : State) : Out :=
  .next (if s.mg.stoppedGate then
    { s with mg := { s.mg with stoppedGate := false, gateOpen := true }, fs := { s.fs with tripHold := false, alert := false } }
  else s)

/-! ## Lines and power (R315, R360, R364) -/

/-- An assertion of PERST# (R360). -/
def State.assertPerst (s : State) : State :=
  let s1 := if s.mg.ready then s.moduleReset 4 else s
  { s1 with link := { s1.link with perst := true, cfgServed := false } }

/-- PERST (R360). -/
def execPerst (s : State) : Out := .next (if s.link.perst then s else s.assertPerst)

/-- The link trains; at which rate and width, and whether in FLIT mode, are free values (R261, log 12). -/
def State.trainHost (s : State) : State :=
  if s.link.up then s
  else
    { s with free := s.free + 3,
             link := { s.link with up := true, rate := BitVec.ofNat 4 (Config.freeValue s.free % 6 + 1),
                                   width := BitVec.ofNat 4 (Config.freeValue (s.free + 1) % 4),
                                   flit := decide (Config.freeValue (s.free + 2) % 2 = 1) } }

/-- PERST_DEASSERT (R360): configuration space is served from then on, once power is good. -/
def execPerstDeassert (s : State) : Out :=
  let s1 := { s with link := { s.link with perst := false, cfgServed := s.mg.powered } }
  .next (if s1.mg.powered then s1.trainHost else s1)

/-- HOST_LINK_DOWN (R354, R360): an assertion of PERST#; the stream keys are lost. -/
def execHostLinkDown (s : State) : Out :=
  let s1 := s.assertPerst
  .next { s1 with link := { s1.link with up := false, flit := false, rate := 0, width := 0, keyed := 0, insecure := 0, ideKeys := [] } }

/-- PWR_EN_RISE (R357, R364): a power-up begins, with the input present and within its limits. -/
def execPwrEnRise (s : State) : Out :=
  .next (if s.mg.powered then { s with lines := { s.lines with pwrEn := true } }
    else
      let s1 := { s with lines := { s.lines with pwrEn := true, input := true },
                         mg := { s.mg with powered := true, powerUpStart := true, stage := 0, startTc := 0 },
                         link := { s.link with cfgServed := !s.link.perst } }
      if s1.link.perst then s1 else s1.trainHost)

/-- PWR_EN_FALL (R364, R315). -/
def execPwrEnFall (s : State) : Out :=
  let s1 := s.powerOff
  .next { s1 with lines := { s1.lines with pwrEn := false, lowPosted := false, highPosted := false } }

/-- INPUT_POWER_LOSS (R315). -/
def execInputPowerLoss (s : State) : Out :=
  let s1 := s.powerOff
  .next { s1 with lines := { s1.lines with input := false, lowPosted := false, highPosted := false } }

/-- MOD_RST_N (R364): low for 10 us. -/
def execModRstN (s : State) : Out :=
  let s1 := s.moduleReset 4
  .next { s1 with lines := { s1.lines with modRstN := false } }

/-- MOD_RST_N_RELEASE (R364): the start goes on from the entry to stage ROM. -/
def execModRstNRelease (s : State) : Out := .next { s with lines := { s.lines with modRstN := true } }

end Sys2Proof.Machine
end

