-- ==== Sys2Proof/Machine/Time.lean ====
section
/-! DEFINITION. The time counter: lock, pulses, holdover, slewing, alignment, its latched reads, and the
count that passes when no command waits (R20 to R31, R259, R327). -/
namespace Sys2Proof.Machine

open Sys2Proof

def State.setTcb (s : State) (f : TimeBlock → TimeBlock) : State := { s with tcb := f s.tcb }

/-! ## Lock and pulses (R21, R22, R27) -/

/-- REFERENCE_LOCK (R21): the counter runs from then on. In holdover the return of the reference is
REFERENCE_RETURN. -/
def execReferenceLock (s : State) : Out :=
  .next (if !s.mg.powered || s.tcb.holdover then s else s.setTcb (fun t => { t with lock := true, running := true }))

/-- Distance of a count from the nearest multiple of 1,000,000,000. -/
def pulseDiff (now : Nat) : Int :=
  let r := now % 1000000000
  if r ≤ 500000000 then (r : Int) else (r : Int) - 1000000000

/-- A sync pulse loads the armed counter; no load while a context exists (R27). -/
def State.loadCounter (s : State) : State :=
  s.setTcb (fun t => { t with now := t.sec.toNat * 1000000000, synced := true, arm := false, holdover := false })

/-- A later pulse is compared with the second boundary (R21). -/
def State.checkPulse (s : State) : State :=
  let d := pulseDiff s.tcb.now
  if d.natAbs ≤ 2 then s
  else
    ((s.setTcb (fun t => { t with pulseErr := true })).postAll 0x8101 srcMgmt (s.tcb.now % 2 ^ 32) (BitVec.ofInt 32 d).toNat).logFault
      0x090E 1 noCtx srcMgmt 0 0

/-- SYNC_PULSE (R21, R27): the armed load where no context exists, else the comparison. -/
def execSyncPulse (s : State) : Out :=
  .next (if !s.tcb.lock then s
    else if s.tcb.arm && !s.anyCtx then s.loadCounter
    else if s.tcb.synced then s.checkPulse
    else s)

/-! ## Holdover (R24, R25) -/

/-- LOCK, or ALIGNED where `align`, is lost: an exchange that this module has acknowledged remembers it (R43). -/
def State.loseTime (s : State) (align : Bool) : State :=
  { s with ep := { s.ep with ex := s.ep.ex.map (fun e => { e with lost := e.lost || (e.acked && (!align || e.cross)) }) } }

/-- TC_HOLDOVER (R24): the reference disappears. A loss while HOLDOVER still stands (R25) is one more; its holdover has
lasted since it was set. -/
def execTcHoldover (s : State) : Out :=
  .next (if !s.tcb.lock then s
    else
      (((s.loseTime false).setTcb (fun t =>
        { t with holdover := true, refLost := true, lock := false, holdStart := if t.holdover then t.holdStart else t.now })).postAll 0x8102 srcMgmt
        (s.tcb.now % 2 ^ 32) 0).logFault 0x090F 1 noCtx srcMgmt 0 0)

/-- A job has members on more than one module. -/
def State.spansModules (s : State) (job : Nat) : Bool :=
  decide (job ≠ 0) && decide (1 < (((s.ep.ranks.get job []).map (fun e => fld e.2.toNat 9 0)).eraseDups).length)

/-- TIME_LOST (R24): 100,000,000 tc of holdover have passed. -/
def execTimeLost (s : State) : Out :=
  .next (if !s.tcb.holdover then s
    else
      let s1 := s.passTo (s.tcb.holdStart + 100000000)
      (s1.liveCtxs.filter (fun c => s1.spansModules (s1.ctx c).job)).foldl (fun t c =>
        t.ctxFault c 0x0603 srcMgmt ((t.tcb.now - t.tcb.holdStart) / 1000000) 0) s1)

/-- REFERENCE_RETURN (R25): `off` is how far the counter is ahead. Up to 10,000 tc HOLDOVER clears at the return; whether it
waits for the end of the slew the spec does not say (DESIGN CHOICE, log 103). -/
def execReferenceReturn (off : Int) (s : State) : Out :=
  .next (if !s.tcb.holdover || s.tcb.lock then s
    else s.setTcb (fun t =>
      if off.natAbs ≤ 10000 then { t with lock := true, holdover := false, slewLeft := -off } else { t with lock := true }))

/-! ## Slewing (R26, R27) -/

/-- COUNTER_SLEW (R26): the counter advances by two counts, or by zero, in place of one. -/
def execCounterSlew (s : State) : Out :=
  .next (if s.tcb.slewLeft = 0 then s
    else
      let s1 := match s.tcb.lastSlew with
        | some l => s.passTo (l + 100000)
        | none => s
      if 0 < s.tcb.slewLeft then
        (s1.passTo (s1.tcb.now + 2)).setTcb (fun t => { t with slewLeft := t.slewLeft - 1, lastSlew := some t.now })
      else s1.setTcb (fun t => { t with slewLeft := t.slewLeft + 1, lastSlew := some t.now }))

/-! ## Alignment across racks (R28 to R30) -/

/-- ALIGNED as R29 gives it for a module with a parent: the frequency and the averaged offset hold. -/
def TimeBlock.inStep (t : TimeBlock) : Bool := t.freqOk && t.avgDone && decide (t.offset.toInt.natAbs ≤ 128)

/-- ALIGNED clears while cross-rack contexts run: TC_DRIFT, and a report (R30). -/
def State.drifted (s : State) : State :=
  let cs := s.liveCtxs.filter (fun c => decide ((s.ctx c).st = .running) && s.crossJob (s.ctx c).job)
  cs.foldl (fun t c =>
    (t.postCtx c 0x8103 srcMgmt t.tcb.offset.toNat t.tcb.ferr.toNat).ctl (.drift t.modIndex c)) s

/-- ALIGNED follows its conditions on a module with a parent. -/
def State.realign (s : State) : State :=
  let now := s.tcb.inStep
  let s1 := s.setTcb (fun t => { t with aligned := now })
  if s.tcb.aligned && !now then (s1.loseTime true).drifted else s1

/-- An average of 1,024 exchanges is complete: TC_OFFSET, and one step or a slew (R28). -/
def State.takeOffset (s : State) (sum : Int) : State :=
  let s1 := s.setTcb (fun t => { t with exchN := 0, exchSum := 0, avgDone := true, offset := BitVec.ofInt 32 (sum / 128) })
  let whole := sum / 2048
  let s2 :=
    if !s.anyCtx && !s.tcb.stepped then s1.setTcb (fun t => { t with now := ((t.now : Int) + whole).toNat, stepped := true })
    else s1.setTcb (fun t => { t with slewLeft := whole })
  s2.realign

/-- TIME_TREE_EXCHANGE (R28): t1 and t4 at this module, t2 and t3 at its parent. -/
def execTimeTreeExchange (t1 t2 t3 t4 : Nat) (s : State) : Out :=
  .next (if s.tcb.parent.isNone then s
    else
      let sum := s.tcb.exchSum + (((t2 : Int) - t1) - ((t4 : Int) - t3))
      if s.tcb.exchN + 1 < 1024 then s.setTcb (fun t => { t with exchN := t.exchN + 1, exchSum := sum }) else s.takeOffset sum)

/-- FERR_MEASURE (R29): the error over a window of 1,000,000,000 tc, in 0.01 ppm. -/
def execFerrMeasure (err : BitVec 16) (s : State) : Out :=
  .next (if s.tcb.parent.isNone then s
    else
      let s1 := s.passTo (s.tcb.ferrStart + 1000000000)
      (s1.setTcb (fun t => { t with ferrStart := t.now, ferr := err, freqOk := decide (err.toInt.natAbs ≤ 50) })).realign)

/-- TIME_DRIFT (R259) at the manager: 1,000,000,000 tc after the report of worker m; given again when
its ALIGNED is set. -/
def execTimeDrift (m : BitVec 10) (aligned : Bool) (s : State) : Out :=
  let k := m.toNat
  let off (n : List Nat) : List Nat := n.filter (· != k)
  .next (if s.ep.role ≠ 2 then s
    else if aligned then { s with ep := { s.ep with drift := s.ep.drift.erase k, noCross := off s.ep.noCross } }
    else match s.ep.drift.find? k with
      | none => s
      | some d =>
        let s1 := s.passTo (d.1 + 1000000000)
        let s2 := { s1 with ep := { s1.ep with drift := s1.ep.drift.erase k, noCross := off s1.ep.noCross ++ [k] } }
        let js := (s2.ep.jobs.filter (fun e => s2.crossJob e.1 && e.2.members.any (fun q => q.1 == k)))
        js.foldl (fun t e => (e.2.members.foldl (fun t q =>
          if some q.1 = t.modIndex? then t.ctxFault q.2 0x0604 srcMgmt k d.2 else t.ctl (.raise q.1 q.2 0x0604 k d.2)) t).jobTo e.1 .idle) s2)

/-! ## Latched reads (R23, R32) -/

/-- The number of an access path; each keeps its own latch (R23, R365). -/
def pathNo : Path → Nat
  | .bar0 => 0
  | .vf c => 1 + c
  | .window => 65
  | .smbus => 66
  | .monitor => 67

/-- The path answers: a host path through BAR0 only once READY is set (R360). -/
def State.pathLive (s : State) (p : Path) : Bool :=
  match p with
  | .bar0 => s.barLive
  | .vf _ => s.barLive
  | .window => !s.link.perst && s.mg.powered
  | .smbus => s.mg.powered
  | .monitor => s.mg.powered

def State.readOut (s : State) (v : BitVec 32) : State := { s with smb := { s.smb with readback := v } }

/-- The read of TC_NOW_LO latches the upper half (R23). -/
def State.latchNow (s : State) (p : Path) : State :=
  s.setTcb (fun t => { t with latches := t.latches.put (pathNo p) (BitVec.ofNat 32 (t.now / 2 ^ 32)) })

/-- TC_NOW_LO_READ (R23). -/
def execTcNowLoRead (path : Path) (s : State) : Out :=
  .next (if s.pathLive path then (s.latchNow path).readOut (BitVec.ofNat 32 s.tcb.now) else s.readOut 0)

/-- The read of CX_FCOUNT_LO latches the upper half (R32, Table 2.2). -/
def State.latchFcount (s : State) (p : Path) (c : Nat) : State :=
  s.modCtx c (fun x => { x with fcLatch := x.fcLatch.put (pathNo p) (BitVec.ofNat 32 (x.fcount / 2 ^ 32)) })

/-- CX_FCOUNT_LO_READ (Table 2.2). -/
def execCxFcountLoRead (path : Path) (c : BitVec 6) (s : State) : Out :=
  .next (if s.pathLive path then (s.latchFcount path c.toNat).readOut (BitVec.ofNat 32 (s.ctx c.toNat).fcount) else s.readOut 0)

/-! ## The count that passes when no command waits (R20, R327, log 4) -/

/-- Core cycles of one count, in units of 1/312,500,000: the step, less its triangular down-spread of
0.5 % over 31,250 tc (R327). -/
def State.cyclePart (s : State) : Nat :=
  let t := s.tcb.now % 31250
  stepFreq s.fs.cur * (3125000 - min t (31250 - t))

/-- The rotation goes on in every router, whatever its core does (R94, R121, R246). -/
def State.rotate (s : State) (old : State) : State :=
  { s with panel := { s.panel with
      cores := s.panel.cores.map (fun (e : Nat × Core) => (e.1, { e.2 with phase := ((old.core e.1).phase + 1) % 8 })),
      phase := (old.panel.phase + 1) % 8 } }

/-- One core cycle: every core that issues fetches its bundle and tries to issue it (R47), and every phase goes on. -/
def State.coreCycle (s : State) : State :=
  ((s.panel.cores.map (·.1)).foldl (fun t i =>
    if t.coreLive i then tryIssue false i (decBundle ((t.core i).bundleBits (t.core i).bidx.toNat)) t else t) s).rotate s

def State.coreCycles : Nat → State → State
  | 0, s => s
  | n + 1, s => State.coreCycles n s.coreCycle

/-- One count of the counter, with the core cycles that begin in it. -/
def State.idleCount (s : State) : State :=
  if !s.tcb.running || !s.mg.powered then s
  else
    let a := s.tcb.cycAcc + (if s.fs.clocked then s.cyclePart else 0)
    let s1 := (s.passTo (s.tcb.now + 1)).setTcb (fun t => { t with cycAcc := a % 312500000 })
    State.coreCycles (a / 312500000) s1

end Sys2Proof.Machine
end

