-- ==== Sys2Proof/Machine/Manager.lean ====
section
/-! DEFINITION. The manager of a ring set: routes, detours, pip plans, formation, jobs, failures and
reshaping, and what its workers receive from it (R219, R220, R226, R231 to R239, R257 to R259, R284,
R306, R319). -/
namespace Sys2Proof.Machine

open Sys2Proof

/-! ## Routes (R226, R237, R238) -/

/-- A link direction: the sending module and its port. -/
abbrev Hop := Nat × Nat

/-- A dimension of size 1 uses no link. -/
def Epfin.hasLink (e : Epfin) (p : Nat) : Bool := decide (1 < e.size (p / 2))

/-- The module index lies in the shape. -/
def Epfin.isMod (e : Epfin) (m : Nat) : Bool :=
  decide (m < 1024) && (List.range 3).all (fun d => decide (modAxis m d < e.size d))

def Epfin.allMods (e : Epfin) : List Nat := (List.range 1024).filter e.isMod

/-- Modules of the ring set in service, but for one. -/
def Epfin.workers (e : Epfin) (mgr : Nat) : List Nat := e.allMods.filter (fun m => m != mgr && !e.failedMods.contains m)

/-- The same link seen from its other end. -/
def Epfin.back (e : Epfin) (h : Hop) : Hop := (e.nextMod h.1 h.2, farPort h.2)

/-- A link direction that has failed, or that touches a failed module. -/
def Epfin.deadHop (e : Epfin) (h : Hop) : Bool :=
  e.failedMods.contains h.1 || e.failedMods.contains (e.nextMod h.1 h.2) || e.failedLinks.contains h

/-- The dimension-order route (R226). -/
def Epfin.dimRoute (e : Epfin) : Nat → Nat → Nat → List Hop
  | 0, _, _ => []
  | n + 1, a, b => if e.dimPort a b = 6 then [] else (a, e.dimPort a b) :: e.dimRoute n (e.nextMod a (e.dimPort a b)) b

/-- The hops from a module through ports. -/
def Epfin.hops (e : Epfin) : Nat → List Nat → List Hop
  | _, [] => []
  | a, p :: ps => (a, p) :: e.hops (e.nextMod a p) ps

/-- Ports that leave dimension d: the next dimension in the order X, Y, Z wrapping, + then -, then the
remaining one (R238). -/
def Epfin.sides (e : Epfin) (d : Nat) : List Nat :=
  [2 * ((d + 1) % 3), 2 * ((d + 1) % 3) + 1, 2 * ((d + 2) % 3), 2 * ((d + 2) % 3) + 1].filter e.hasLink

/-- The detours of R238 around the failure met through port p, in the order they are tried. Where the
route turns at a failed module, to port r, it turns before it (log 29). -/
def Epfin.ways (e : Epfin) (p : Nat) (modFailed : Bool) (turn : Option Nat) : List (List Nat) :=
  match turn with
  | none => (e.sides (p / 2)).map (fun q => [q] ++ List.replicate (1 + bnat modFailed) p ++ [farPort q])
  | some r => [r, p] :: ((e.sides (p / 2)).filter (fun q => decide (q / 2 ≠ r / 2))).map (fun q => [q, p, r, farPort q])

/-- A route with its failed parts replaced by detours; none where one has no detour. -/
def Epfin.mend (e : Epfin) : Nat → List Hop → Option (List Hop)
  | 0, _ => none
  | _ + 1, [] => some []
  | n + 1, h :: t =>
    if !e.deadHop h then (e.mend n t).map (h :: ·)
    else
      let modF := e.failedMods.contains (e.nextMod h.1 h.2)
      if e.failedMods.contains h.1 || (modF && t.isEmpty) then none
      else
        let turn := if modF then (t.head?.filter (fun g => g.2 != h.2)).map (·.2) else none
        match ((e.ways h.2 modF turn).map (e.hops h.1)).find? (fun w => w.all (fun g => !e.deadHop g)) with
        | none => none
        | some w => (e.mend n (t.drop (bnat modF))).map (w ++ ·)

/-- The route of a pair: at most 20 hops (R237). -/
def Epfin.route (e : Epfin) (a b : Nat) : Option (List Hop) :=
  (e.mend 40 (e.dimRoute 20 a b)).filter (fun r => decide (r.length ≤ 20))

/-- Overrides of a routing table: module, DMOD, port. -/
abbrev Overrides := List (Nat × Nat × Nat)

/-- Where a route leaves dimension order (R238). -/
def Epfin.overridesOf (e : Epfin) (r : List Hop) (b : Nat) : Overrides :=
  r.filterMap (fun h => if e.dimPort h.1 b = h.2 then none else some (h.1, b, h.2))

/-- Overrides joined with new ones, which win. -/
def joinOvr (new old : Overrides) : Overrides := new ++ old.filter (fun o => !new.any (fun q => q.1 == o.1 && q.2.1 == o.2.1))

/-- The port toward b at a. -/
def Epfin.portFor (e : Epfin) (ov : Overrides) (a b : Nat) : Nat :=
  match List.find? (fun o => o.1 == a && o.2.1 == b) ov with
  | some o => o.2.2
  | none => e.dimPort a b

/-- The path that the tables give, of at most n hops. -/
def Epfin.walk (e : Epfin) (ov : Overrides) : Nat → Nat → Nat → Option (List Hop)
  | 0, a, b => if a = b then some [] else none
  | n + 1, a, b =>
    if a = b then some []
    else (e.walk ov n (e.nextMod a (e.portFor ov a b)) b).map ((a, e.portFor ov a b) :: ·)

/-- The live path of a pair under its tables. -/
def Epfin.pairRoute (e : Epfin) (ov : Overrides) (a b : Nat) : Option (List Hop) :=
  (e.walk ov 20 a b).filter (fun r => r.all (fun h => !e.deadHop h))

/-! ## Pip plans (R233) -/

/-- The 62 pips of a link direction that can be allotted. -/
def grantable : List Nat := (List.range 64).filter (fun k => !controlPip k)

/-- Pips of a link direction with their owners, by 8 x module + port. -/
abbrev LinkPips := Table (List (Nat × Nat))

def linkKey (h : Hop) : Nat := 8 * h.1 + h.2

/-- Allot n pips of a link direction to a job: the lowest free ones (log 20); none where it is short. -/
def allotHop (id n : Nat) (t : LinkPips) (h : Hop) : Option LinkPips :=
  let l := t.get (linkKey h) []
  let free := grantable.filter (fun p => !l.any (fun e => e.1 == p))
  if free.length < n then none else some (t.put (linkKey h) (l ++ (free.take n).map (fun p => (p, id))))

/-- Allot on every hop of a route, or name the first short link. -/
def allotRoute (id n : Nat) : List Hop → LinkPips → Hop ⊕ LinkPips
  | [], t => .inr t
  | h :: hs, t =>
    match allotHop id n t h with
    | none => .inl h
    | some u => allotRoute id n hs u

/-- The module of a rank. -/
def Job.modOf (j : Job) (r : Nat) : Nat := (j.members.getD r (0, 0)).1

/-- The overrides of a job, every pair on its own route. -/
def Epfin.jobOverrides (e : Epfin) (j : Job) : Overrides :=
  j.plan.foldl (fun ov q =>
    match e.route (j.modOf q.1) (j.modOf q.2.1) with
    | some r => joinOvr ov (e.overridesOf r (j.modOf q.2.1))
    | none => ov) []

/-- The link at which a pair without a detour is cut. -/
def Epfin.deadEnd (e : Epfin) (a b : Nat) : Hop := ((e.dimRoute 20 a b).find? e.deadHop).getD (a, e.dimPort a b)

/-- Lay every pair of a plan on its route, or name the first short link (R233). -/
def Epfin.layPairs (e : Epfin) (id : Nat) (j : Job) (ov : Overrides) : List (Nat × Nat × Nat) → LinkPips → Hop ⊕ LinkPips
  | [], t => .inr t
  | q :: qs, t =>
    match e.pairRoute ov (j.modOf q.1) (j.modOf q.2.1) with
    | none => .inl (e.deadEnd (j.modOf q.1) (j.modOf q.2.1))
    | some r =>
      match allotRoute id q.2.2 r t with
      | .inl h => .inl h
      | .inr u => e.layPairs id j ov qs u

/-- The pips of a job are freed. -/
def freePips (t : LinkPips) (id : Nat) : LinkPips :=
  (t.map (fun (e : Nat × List (Nat × Nat)) => (e.1, e.2.filter (fun q => q.2 != id)))).filter (fun e => !e.2.isEmpty)

/-- DETAIL of PIP_SHORT (Table 12.6). -/
def hopDetail (h : Hop) : Nat := h.1 * 2 ^ 16 + h.2

/-! ## Table changes (R231, R235, R237) -/

/-- Pips of a job on a link direction. -/
def jobOn (t : LinkPips) (id : Nat) (h : Hop) : List Nat := ((t.get (linkKey h) []).filter (fun q => q.2 == id)).map (·.1)

/-- What one module's tables hold of a job. -/
def Epfin.changeFor (e : Epfin) (id at_ : Nat) (ov : Overrides) (m : Nat) : TableChange :=
  { at_ := at_, job := id,
    routes := ov.filterMap (fun o => if o.1 = m then some (o.2.1, BitVec.ofNat 8 o.2.2) else none),
    tx := (List.range 6).flatMap (fun p => (jobOn e.linkPips id (m, p)).map (fun k => (p, k, id))),
    rx := ((List.range 6).filter e.hasLink).flatMap (fun p => (jobOn e.linkPips id (e.back (m, p))).map (fun k => (p, k, id))) }

/-- Modules on whose links a job holds pips. -/
def Epfin.pipMods (e : Epfin) (t : LinkPips) (id : Nat) : List Nat :=
  t.flatMap (fun k => if k.2.any (fun q => q.2 == id) then [k.1 / 8, e.nextMod (k.1 / 8) (k.1 % 8)] else [])

/-- The pip tables of a port without a job's pips, and with those it is given. -/
def EpPort.setPips (k : EpPort) (id : Nat) (tx rx : List (Nat × Nat)) : EpPort :=
  let put (t : Table Nat) (l : List (Nat × Nat)) : Table Nat := l.foldl (fun (u : Table Nat) q => u.put q.1 q.2) (t.filter (fun q => q.2 != id))
  { k with pipTx := put k.pipTx tx, pipRx := put k.pipRx rx }

/-- The pips a change gives a port. -/
def pipsAt (l : List (Nat × Nat × Nat)) (p : Nat) : List (Nat × Nat) := l.filterMap (fun e => if e.1 = p then some e.2 else none)

/-- The job is no longer known: its tables are deleted and CX_JOB of its member is cleared (R257). -/
def State.forgetJob (s : State) (id : Nat) : State :=
  let s1 := (s.liveCtxs.filter (fun c => decide ((s.ctx c).job = id))).foldl (fun t c => t.modCtx c (fun x => { x with job := 0, rank := 0 })) s
  { s1 with ep := { s1.ep with tables := s1.ep.tables.erase id, ranks := s1.ep.ranks.erase id } }

/-- This module's ports of the link or of the whole module (port 7) that is cut out. -/
def Epfin.cutPorts (e : Epfin) (me m p : Nat) : List Nat :=
  if p = 7 then (List.range 6).filter (fun q => e.hasLink q && decide (e.nextMod me q = m))
  else if me = m then [p]
  else if e.nextMod m p = me then [farPort p]
  else []

/-- A cut-out has completed (R217, R237, R239): its count, its bit and its event; a FAULTED port of what is cut out may come up
again. -/
def State.noteCut (s : State) (q : Nat × Nat × Bool) : State :=
  let s1 := (s.ep.cutPorts s.modIndex q.1 q.2.1).foldl (fun t p => t.modEpPort p (fun k => { k with cutDone := decide (k.st = 4) })) s
  ({ s1 with ep := { s1.ep with cuts := satAdd s1.ep.cuts 1, cut := true } }).postPf (if q.2.2 then 0x8607 else 0x8606) (srcMod q.1) q.1 q.2.1

/-- A change takes effect. -/
def State.applyChange (s : State) (c : TableChange) : State :=
  let tbl : Cells Byte := c.routes.foldl (fun t r => Cells.set 7 t r.1 r.2) []
  let s1 : State :=
    if c.job = 0xFFFF then { s with ep := { s.ep with control := tbl } }
    else if c.job = 0 then s
    else
      (List.range 6).foldl (fun (t : State) p => t.modEpPort p (fun k => k.setPips c.job (pipsAt c.tx p) (pipsAt c.rx p)))
        ({ s with ep := { s.ep with tables := s.ep.tables.put c.job tbl } })
  let s2 := match c.bmask with
    | some b => { s1 with ep := { s1.ep with bmask := b } }
    | none => s1
  let s3 := c.ports.foldl (fun t p => t.modEpPort p (fun k => { k with reserve := false })) s2
  let s4 := if c.ends then s3.forgetJob c.job else s3
  match c.cutOut with
  | some q => s4.noteCut q
  | none => s4

/-- TABLE_CHANGE (R231): a change reaches the module, or (none) the oldest waiting one takes effect at
the round boundary after its agreed count. -/
def execTableChange (t : Option TableChange) (s : State) : Out :=
  .next (if s.ep.role = 0 then s
    else match t, s.ep.changes with
      | some c, _ => s.takeChange c
      | none, c :: cs => (({ s with ep := { s.ep with changes := cs } }).passTo c.at_).applyChange c
      | none, [] => s)

/-! ## Control routes and the broadcast tree (R235, R236) -/

/-- Overrides of the control table: routes from the manager to every worker and back. -/
def Epfin.ctlOverrides (e : Epfin) (mgr : Nat) : Overrides :=
  (e.workers mgr).foldl (fun ov w =>
    let o1 := ((e.route mgr w).map (fun r => joinOvr ov (e.overridesOf r w))).getD ov
    ((e.route w mgr).map (fun r => joinOvr o1 (e.overridesOf r mgr))).getD o1) []

/-- The links of the control tree. -/
def Epfin.tree (e : Epfin) (ov : Overrides) (mgr : Nat) : List Hop := (e.workers mgr).flatMap (fun w => (e.walk ov 20 mgr w).getD [])

/-- A module's broadcast mask. -/
def treeMask (t : List Hop) (m : Nat) : BitVec 6 :=
  BitVec.ofNat 6 (((List.range 6).filter (fun p => t.contains (m, p))).foldl (fun a p => a + 2 ^ p) 0)

/-- Workers that no control route of at most 20 hops reaches. -/
def Epfin.unreachable (e : Epfin) (mgr : Nat) : List Nat :=
  (e.workers mgr).filter (fun w => (e.route mgr w).isNone || (e.route w mgr).isNone)

/-- The control table and mask of a module. -/
def ctlChange (at_ : Nat) (ov : Overrides) (t : List Hop) (m : Nat) : TableChange :=
  { at_ := at_, job := 0xFFFF, routes := ov.filterMap (fun o => if o.1 = m then some (o.2.1, BitVec.ofNat 8 o.2.2) else none),
    bmask := some (treeMask t m) }

/-- The control tables of every module in service, each with what it completes. -/
def State.controlParts (s : State) (f : Nat → TableChange → TableChange) : List (Nat × TableChange) :=
  let ov := s.ep.ctlOverrides s.modIndex
  let t := s.ep.tree ov s.modIndex
  (s.modIndex :: s.ep.workers s.modIndex).map (fun m => (m, f m (ctlChange 0 ov t m)))

/-! ## Formation (R219, R220) -/

/-- The first port that step 4 of R219 finds wrong. -/
def Epfin.miswired (e : Epfin) (found : List FoundMod) : Option Hop :=
  (e.allMods.flatMap (fun m => (List.range 6).map (fun p => (m, p)))).find? (fun h =>
    e.hasLink h.2 && !(((found.find? (fun f => decide (f.idx.toNat = h.1))).map (·.links)).getD []).any (fun l =>
      decide (l.1.toNat = h.2) && decide (l.2.1.toNat = e.nextMod h.1 h.2) && decide (l.2.2.toNat = farPort h.2)))

/-- The parent port in the time tree: a Y or Z port toward the root rack, the manager's X ring. -/
def Epfin.treeParent (e : Epfin) (m : Nat) : Option Nat := if m < 8 then none else some (e.dimPort m (m % 8))

/-- What the manager writes to a module it adopts (R219 step 5). -/
def Epfin.adoptFor (e : Epfin) (ov : Overrides) (t : List Hop) (mgr m : Nat) : AdoptMsg :=
  { x := BitVec.ofNat 3 (modAxis m 0), y := BitVec.ofNat 3 (modAxis m 1), z := BitVec.ofNat 4 (modAxis m 2), rsid := e.rsid,
    nx1 := e.nx1, ny1 := e.ny1, nz1 := e.nz1,
    control := ov.filterMap (fun o => if o.1 = m then some (BitVec.ofNat 10 o.2.1, BitVec.ofNat 8 o.2.2) else none),
    bmask := treeMask t m, parent := (e.treeParent m).map (BitVec.ofNat 3), port := BitVec.ofNat 3 6, mgr := BitVec.ofNat 10 mgr }

/-- Every job of the ring set ends on this module (R220). -/
def State.endJobs (s : State) : State :=
  let s1 := s.liveCtxs.foldl (fun t c => t.modCtx c (fun x => { x with job := 0, rank := 0 })) s
  { s1 with ep := { s1.ep with
      tables := [], ranks := [], txSeq := [], rxSeq := [], jobs := [], changes := [], ex := none, relay := none, tableQ := [],
      linkPips := [],
      ports := s1.ep.ports.map (fun (e : Nat × EpPort) => (e.1, { e.2 with pipTx := [], pipRx := [] })) } }

/-- A module adopts its neighbours through its ports that are UP (R219 step 3), but for the one through which it was adopted. -/
def State.adoptOn (s : State) (arrival mgr : Nat) : State :=
  ((List.range 6).filter (fun p => decide ((s.epPort p).st = 3) && decide (p ≠ arrival))).foldl (fun t p => t.ctl (.adoptNext p mgr)) s

/-- The manager writes its own seconds value into TC_SEC of workers by control messages and then sets ARM (R22): as its own ARM is
set, and, while that is set, as it adopts a module (log 116). -/
def State.tellTime (s : State) (ms : List Nat) : State :=
  if s.tcb.arm then ms.foldl (fun t m => t.ctl (.setTime m t.tcb.sec)) s else s

/-- The module becomes manager at (0, 0, 0), checks the wiring, and writes every module (R219 steps 3 to
5). RSID is a free value. -/
def State.form (s : State) (found : List FoundMod) : State :=
  let e := { s.ep with role := 2, coord := some (0, 0, 0), formed := false, mgrLost := false, failedMods := [], failedLinks := [],
                       shape := shapeOf s.ep.nx1 s.ep.ny1 s.ep.nz1, downs := [], drift := [], noCross := [], ex := none, relay := none,
                       tableQ := [], beaconAt := s.tcb.now,
                       rsid := BitVec.ofNat 16 (Config.freeValue s.free) }
  let s1 : State := ({ s with ep := e, free := s.free + 1 }).adoptOn 6 0
  match e.miswired found with
  | some h => s1.postPf 0x8603 (srcMod h.1) h.1 h.2
  | none =>
    let t := e.tree [] 0
    let s2 : State := { s1 with
      ep := { s1.ep with formed := true, control := [], bmask := treeMask t 0, beats := (e.workers 0).map (fun m => (m, s.tcb.now)) },
      tcb := s1.tcb.setParent none }
    ((e.workers 0).foldl (fun u m => u.ctl (.adopt m (e.adoptFor [] t 0 m))) s2).tellTime (e.workers 0)

/-- A write of EP_ROLE.REQ (R219, R240, R385, R388). -/
def State.writeReq (s : State) (v : BitVec 2) (found : List FoundMod) : State :=
  if v = s.ep.req then s
  else if s.anyCtx then ({ s with ep := { s.ep with wwb := true } }).cfgPf 0x8001 0 0x5000 v.toNat
  else if v = 3 then s.cfgPf 0x8002 0 0x5000 v.toNat
  else
    let s1 := { s with ep := { s.ep with req := v } }
    if v = 2 then s1.form found
    else if s.ep.role = 2 ∧ s.ep.formed = false then { s1 with ep := { s1.ep with role := 0, coord := none } }
    else s1

/-- RING_FORMATION (R219): a write of EP_ROLE.REQ, with the modules that the procedure finds. -/
def execRingFormation (v : BitVec 2) (found : List FoundMod) (s : State) : Out := atBar 0 s (fun s => s.writeReq v found)

/-- A member of a job is RUNNING or QUIESCED on this module (R220). -/
def State.jobBusy (s : State) : Bool :=
  s.liveCtxs.any (fun c => decide ((s.ctx c).job ≠ 0) && (decide ((s.ctx c).st = .running) || decide ((s.ctx c).st = .quiesced)))

/-- The module takes the coordinate, tables and time tree of its manager. -/
def State.adopted (s : State) (a : AdoptMsg) : State :=
  let s1 := s.endJobs
  { s1 with
    ep := { s1.ep with
      role := 1, coord := some (a.x.toNat, a.y.toNat, a.z.toNat), rsid := a.rsid, nx1 := a.nx1, ny1 := a.ny1, nz1 := a.nz1,
      shape := shapeOf a.nx1 a.ny1 a.nz1,
      control := a.control.foldl (fun (t : Cells Byte) r => Cells.set 7 t r.1.toNat r.2) [], bmask := a.bmask, formed := true, mgrLost := false,
      beaconAt := s1.tcb.now },
    tcb := s1.tcb.setParent (a.parent.map (·.toNat)) }

/-- ADOPTION (R219, R220): an adoption message reaches the module through a port that is UP. -/
def execAdoption (a : AdoptMsg) (s : State) : Out :=
  .next (if (s.epPort a.port.toNat).st ≠ 3 ∨ s.ep.req = 1 then s
    else if s.ep.role = 2 ∨ s.ep.req = 2 then s.postPf 0x8604 (srcEp a.port.toNat) a.mgr.toNat a.port.toNat
    else if (s.ep.role = 0 ∧ s.anyCtx) ∨ s.jobBusy then s
    else (s.adopted a).adoptOn a.port.toNat a.mgr.toNat)

/-- MANAGER_TAKE (R220): it waits while a member of a job is RUNNING or QUIESCED on a module to be
adopted. Where the wiring fails, NOT_PERMITTED (log 20). -/
def execManagerTake (found : List FoundMod) (s : State) : Out :=
  .next (match s.ctlHead 0 0x36 with
    | none => s
    | some d =>
      if s.jobBusy || found.any (·.running) then s
      else
        let s1 := (s.endJobs).form found
        s1.complete d (if s1.ep.formed then 0 else 0x000A) 0)

/-! ## Beacons and heartbeats (R220) -/

/-- BEACON (R220, R235): the manager sends one every 1,000,000 tc; a worker receives it and passes it on to its children. -/
def execBeacon (s : State) : Out :=
  .next (if s.ep.role = 2 then
      let s1 := s.passTo (s.ep.beaconAt + 1000000)
      let s2 := { s1 with ep := { s1.ep with beaconAt := s1.tcb.now } }
      s2.spread 6 (.beacon s2.tcb.now)
    else if s.ep.role = 1 then ({ s with ep := { s.ep with beaconAt := s.tcb.now } }).spread 6 (.beacon s.tcb.now)
    else s)

/-- HEARTBEAT (R220): a worker sends one every 1,000,000 tc; the manager receives that of module m. -/
def execHeartbeat (m : BitVec 10) (s : State) : Out :=
  .next (if s.ep.role = 1 then
      let s1 := match s.ep.beats.find? s.modIndex with
        | some t => s.passTo (t + 1000000)
        | none => s
      ({ s1 with ep := { s1.ep with beats := s1.ep.beats.put s1.modIndex s1.tcb.now } }).ctl (.heartbeat s1.modIndex s1.tcb.now)
    else if s.ep.role = 2 then { s with ep := { s.ep with beats := s.ep.beats.put m.toNat s.tcb.now } }
    else s)

/-- MANAGER_LOST (R220): three beacons are missed. -/
def execManagerLost (s : State) : Out :=
  .next (if s.ep.role ≠ 1 ∨ s.ep.mgrLost then s
    else
      let s1 := s.passTo (s.ep.beaconAt + 3000000)
      ({ s1 with ep := { s1.ep with mgrLost := true } }).postAll 0x8605 srcMgmt (s.ep.beaconAt % 2 ^ 32) 0)

/-! ## Jobs (R257, R258, R284) -/

/-- The next job identifier that is free, from 0x0001 to 0xFFFE. -/
def freshJob (jobs : Table Job) : Nat → Nat → Nat
  | 0, j => j
  | n + 1, j => if jobs.has j then freshJob jobs n (j % 0xFFFE + 1) else j

/-- Members, module and context, in rank order. -/
def State.rankList (s : State) (d : Taken) : List (Nat × Nat) :=
  (List.range (d.word 4)).map (fun k => let w := leNat (s.hostRead (d.dword 6 + 4 * k) 4); (w % 1024, fld w 21 16))

/-- The plan: SRANK, DRANK and PIPS of each pair. -/
def State.planList (s : State) (d : Taken) : List (Nat × Nat × Nat) :=
  (List.range (d.word 5)).map (fun k => let w := leNat (s.hostRead (d.dword 8 + 8 * k) 8); (w % 65536, fld w 31 16, fld w 37 32))

/-- Modules that hold tables of a job, those that only carry it in transit included (R226). -/
def Epfin.tableMods (e : Epfin) (id : Nat) (j : Job) : List Nat := (j.members.map (·.1) ++ e.pipMods e.linkPips id ++ j.ovr.map (·.1)).eraseDups

/-- Jobs but for one whose tables a module holds: at most 256 in all (R226). -/
def Epfin.tablesOn (e : Epfin) (id m : Nat) : Nat := (e.jobs.filter (fun (q : Nat × Job) => q.1 != id && (e.tableMods q.1 q.2).contains m)).length

/-- Rank entries that a module holds: at most 131,072 in all (R224). -/
def Epfin.entriesOn (e : Epfin) (m : Nat) : Nat :=
  ((e.jobs.filter (fun (q : Nat × Job) => q.2.members.any (fun k => k.1 == m))).map (fun (q : Nat × Job) => q.2.members.length)).sum

/-- The first link direction of a job that touches a module which has no room for its routing table. -/
def Epfin.noTable (e : Epfin) (id : Nat) : Option Hop :=
  ((e.linkPips.filter (fun k => k.2.any (fun q => q.2 == id))).map (fun k => (k.1 / 8, k.1 % 8))).find? (fun h =>
    decide (256 ≤ e.tablesOn id h.1) || decide (256 ≤ e.tablesOn id (e.nextMod h.1 h.2)))

/-- A rank that fails the manager's check (R257), or whose module has no room for the job's tables (R224, R226, log 79); `bad`
are those that other modules refuse. -/
def State.rankFails (s : State) (l : List (Nat × Nat)) (bad : List Nat) (r : Nat) : Bool :=
  let q := l.getD r (0, 0)
  let x := s.ctx q.2
  let own := decide (some q.1 = s.modIndex?) &&
    !((decide (x.st = .created) || decide (x.st = .bound)) && decide (x.job = 0))
  own || bad.contains r || !s.ep.isMod q.1 || s.ep.failedMods.contains q.1 || (l.take r).any (fun e => e.1 == q.1) ||
    decide (131072 < s.ep.entriesOn q.1 + l.length) || decide (256 ≤ s.ep.tablesOn 0 q.1)

/-- A plan entry that names no pair of ranks, or no pips. -/
def badPair (n : Nat) (q : Nat × Nat × Nat) : Bool :=
  decide (n ≤ q.1) || decide (n ≤ q.2.1) || decide (q.1 = q.2.1) || decide (q.2.2 = 0) || decide (62 < q.2.2)

/-- The rank table of a job on module m (R224). -/
def Job.rankTable (j : Job) (m : Nat) : List (Nat × BitVec 32) :=
  j.members.zipIdx.map (fun e =>
    (e.2, BitVec.ofNat 32 (2 ^ 31 + 2 ^ 30 * bnat (j.plan.any (fun q => decide (j.modOf q.1 = m) && decide (q.2.1 = e.2))) +
      e.1.2 * 2 ^ 16 + e.1.1)))

/-- The tables of a job for every module concerned. -/
def State.jobParts (s : State) (id : Nat) (j : Job) (more : List Nat) (f : TableChange → TableChange) : List (Nat × TableChange) :=
  ((s.ep.tableMods id j ++ more).eraseDups.filter (fun m => !s.ep.failedMods.contains m)).map (fun m => (m, f (s.ep.changeFor id 0 j.ovr m)))

/-- A job's plan is laid afresh: the manager's books and the tables to send, or the first short link (R231, R233). -/
def State.layJob (s : State) (id : Nat) (j : Job) : Hop ⊕ (State × List (Nat × TableChange)) :=
  let ov := s.ep.jobOverrides j
  match s.ep.layPairs id j ov j.plan (freePips s.ep.linkPips id) with
  | .inl h => .inl h
  | .inr t =>
    let old := s.ep.pipMods s.ep.linkPips id ++ j.ovr.map (·.1)
    let j1 := { j with ovr := ov, short := none }
    let s1 := ({ s with ep := { s.ep with linkPips := t } }).setJob id j1
    match s1.ep.noTable id with
    | some h => .inl h
    | none => .inr (s1, s1.jobParts id j1 old (fun c => c))

/-- The members' rank tables and CX_JOB, which a new job writes at once (R257). -/
def State.sendRanks (s : State) (id : Nat) (j : Job) : State :=
  j.members.zipIdx.foldl (fun t e => t.sendChange e.1.1 { at_ := 0, job := id, ranks := j.rankTable e.1.1, member := some (e.1.2, e.2) }) s

/-- The manager checks and creates a job (R257). -/
def State.createJob (s : State) (d : Taken) (bad : List Nat) : State :=
  let n := d.word 4
  let l := s.rankList d
  let plan := s.planList d
  if n = 0 ∨ 65536 < n then s.complete d 0x0009 0x10
  else match (List.range n).find? (s.rankFails l bad) with
    | some r => s.complete d 0x0107 r
    | none =>
      if plan.any (badPair n) then s.complete d 0x0009 0x20
      else
        let id := freshJob s.ep.jobs s.ep.jobs.length s.ep.nextJob
        let j : Job := { members := l, plan := plan }
        match s.layJob id j with
        | .inl h => s.complete d 0x0109 (hopDetail h)
        | .inr t =>
          let t1 := ({ t.1 with ep := { t.1.ep with nextJob := id % 0xFFFE + 1 } }).sendRanks id j
          (t1.setSt d .running).queueTables (some (d, id)) t.2

/-- JOB_CREATE (R257, R233): it completes once the exchange of its tables has ended (R231, R284). -/
def execJobCreate (dma : Dma) (bad : List Nat) (s : State) : Out :=
  .next (match s.ctlHead 0 0x30 with
    | none => s
    | some d =>
      if s.ep.role ≠ 2 then s.complete d 0x000A 0
      else match dma with
        | .abort off => s.hostAbort d off
        | .ok => s.createJob d bad)

/-- A manager descriptor that names a job (Table 12.5): an unknown one is DESC_FORMAT (log 20). -/
def State.jobCmd (s : State) (op : Nat) (f : Taken → Nat → State) : State :=
  match s.ctlHead 0 op with
  | none => s
  | some d =>
    if s.ep.role ≠ 2 then s.complete d 0x000A 0
    else if s.ep.jobs.has (d.word 4 % 65536) then f d (d.word 4 % 65536)
    else s.complete d 0x0009 0x10

/-- A member runs. -/
def JobSt.runs : JobSt → Bool
  | .idle | .quiesced => false
  | _ => true

/-- JOB_END (R257): a job that runs is refused with JOB_EXCHANGE (log 20); it completes once the exchange of its tables has ended
(R231, R284). -/
def execJobEnd (s : State) : Out :=
  .next (s.jobCmd 0x31 (fun d id =>
    let j := s.job id
    let own := (s.jobCtx id).any (fun c => decide ((s.ctx c).st = .running))
    if j.st.runs || own then s.complete d 0x0108 0
    else
      let mods := s.ep.tableMods id j
      let s1 := { s with ep := { s.ep with linkPips := freePips s.ep.linkPips id, jobs := s.ep.jobs.erase id } }
      (s1.setSt d .running).queueTables (some (d, 0)) (s1.jobParts id { j with ovr := [] } mods (fun c => { c with ends := true }))))

/-- The lowest module index of a job. -/
def Job.firstMod (j : Job) : Nat := match j.members with
  | [] => 0
  | q :: qs => qs.foldl (fun a e => min a e.1) q.1

/-- An exchange that cannot open: another is open at the manager, or no member is in the state it needs;
the reason of the first NAK (R44). -/
def State.noExchange (s : State) (j : Job) (fit : Bool) : Option (Nat × Nat) :=
  if s.exBusy then some (s.modIndex, 8) else if fit then none else some (j.firstMod, 1)

/-- JOB_LAUNCH (R42, R231, R259): the job's tables change at the launch count, by the launch's own exchange. -/
def execJobLaunch (s : State) : Out :=
  .next (s.jobCmd 0x32 (fun d id =>
    let j := s.job id
    match j.lost, s.noExchange j (decide (j.st = .idle)) with
    | r :: _, _ => s.complete d 0x0107 r
    | [], some n => s.complete d 2 (nakDetail n)
    | [], none =>
      match (if s.crossJob id then j.members.find? (fun q => s.ep.noCross.contains q.1) else none), j.short with
      | some q, _ => s.complete d 2 (nakDetail (q.1, 7))
      | none, some h => (s.setJob id { j with short := none }).complete d 0x0109 (hopDetail h)
      | none, none =>
        match s.layJob id j with
        | .inl h => s.complete d 0x0109 (hopDetail h)
        | .inr t =>
          let m := ((t.1.jobTo id .launching).setSt d .running).jobPrepare .launch id 0 (fun p => p) false 0
          let t1 := (t.2.foldl (fun u e => u.sendChange e.1 { e.2 with at_ := m.1.at_ }) m.2).openExchange m.1 (some d)
          t1.setEx (t1.ep.ex.map (fun e => { e with undo := some (j.ovr, s.ep.linkPips) }))))

/-- The exchange of a descriptor: PREPARE goes out, or it completes ABORTED. -/
def State.jobExchange (s : State) (d : Taken) (id : Nat) (kind : ExKind) (fit cut : Bool) (epoch : Nat) (st : JobSt) : State :=
  match s.noExchange (s.job id) fit with
  | some n => s.complete d 2 (nakDetail n)
  | none =>
    let m := ((s.jobTo id st).setSt d .running).jobPrepare kind id 0 (fun p => p) cut epoch
    m.2.openExchange m.1 (some d)

/-- JOB_QUIESCE (R258). -/
def execJobQuiesce (s : State) : Out :=
  .next (s.jobCmd 0x33 (fun d id =>
    s.jobExchange d id .quiesce (decide ((s.job id).st = .running)) (decide (fld (d.word 4) 16 16 = 1)) 0 .quiescing))

/-- JOB_RESUME (R258). -/
def execJobResume (s : State) : Out :=
  .next (s.jobCmd 0x34 (fun d id => s.jobExchange d id .resume (decide ((s.job id).st = .quiesced)) false 0 .resuming))

/-- States of a job that a swap meets: RUNNING or QUIESCED, or one whose last swap ended LOADING. -/
def JobSt.swaps : JobSt → Bool
  | .running | .quiesced | .swapping _ => true
  | _ => false

/-- Epoch and policy of a job swap: those of the manager's own held swap; where its module holds none,
the spec does not say whence: a free value (log 12). -/
def State.swapOf (s : State) (id : Nat) : (Nat × Bool) × State :=
  match (s.jobCtx id).bind (fun c => (s.ctx c).wset.load.bind (fun l => (s.ctx c).wset.next.map (fun n => (n.2.2, l.cut)))) with
  | some q => (q, s)
  | none => ((Config.freeValue s.free % 65536, decide (Config.freeValue (s.free + 1) % 2 = 1)), { s with free := s.free + 2 })

/-- JOB_SWAP (R209). -/
def execJobSwap (s : State) : Out :=
  .next (s.jobCmd 0x35 (fun d id =>
    let q := s.swapOf id
    let j := q.2.job id
    (q.2.setJob id { j with loaded := [], epoch := q.1.1 }).jobExchange d id .swap j.st.swaps q.1.2 q.1.1 j.st))

/-- The JOB_SWAP that waits for its modules. -/
def State.swapDesc (s : State) (id : Nat) : Option Taken :=
  ((s.fn 0).ctlq ++ (s.fn 0).bg).find? (fun d => d.st == .running && decide (d.op = 0x35) && decide (d.word 4 % 65536 = id))

/-- SWAP_LOADED_REPORT (R209): module m reports LOADED, or FAILED with its list of BAD and MISSING shards, whose counts are the
DETAIL of WS_SHARDS. The resume exchange waits while another is open; the command is then given again. -/
def execSwapLoadedReport (job : BitVec 16) (m : BitVec 10) (failed : Option (List (BitVec 16))) (s : State) : Out :=
  let id := job.toNat
  let j := s.job id
  .next (if s.ep.role ≠ 2 ∨ !(decide (j.st = .swapping true) || decide (j.st = .swapping false)) then s
    else match failed with
      | some f =>
        match s.swapDesc id with
        | some d =>
          let miss := (f.filter (fun n => n.getLsbD 15)).length
          s.complete d 0x020A (65536 * (f.length - miss) + miss)
        | none => s
      | none =>
        let l := (j.loaded ++ [m.toNat]).eraseDups
        let s1 := s.setJob id { j with loaded := l }
        if s1.exBusy || !j.members.all (fun q => l.contains q.1) then s1
        else
          let p := s1.jobPrepare .resume id 0 (fun t => t) false j.epoch
          p.2.openExchange p.1 (s.swapDesc id))

/-! ## Failures and reshaping (R237 to R239) -/

/-- A context fault on a member, wherever it is. -/
def State.raiseAt (s : State) (q : Nat × Nat) (code source a0 a1 : Nat) : State :=
  if some q.1 = s.modIndex? then s.ctxFault q.2 code source a0 a1 else s.ctl (.raise q.1 q.2 code a0 a1)

/-- Every member of a job takes a context fault, and the job no longer runs. -/
def State.raiseJob (s : State) (id code source a0 : Nat) : State :=
  ((s.job id).members.foldl (fun t q => t.raiseAt q code source a0 0) s).jobTo id .idle

/-- Link directions into and out of a module. -/
def Epfin.modHops (e : Epfin) (m : Nat) : List Hop := ((List.range 6).filter e.hasLink).flatMap (fun p => [(m, p), e.back (m, p)])

/-- A pair of a job after a failure: its pips on the links it keeps stay, and the detour's are added, or
the pair is unreachable (R237 step 4). -/
def Epfin.rePair (old new : Epfin) (id : Nat) (j : Job) (a : Overrides × LinkPips × Option Hop) (q : Nat × Nat × Nat) :
    Overrides × LinkPips × Option Hop :=
  let u := j.modOf q.1
  let v := j.modOf q.2.1
  match old.walk j.ovr 20 u v with
  | none => a
  | some r0 =>
    if !r0.any new.deadHop then a
    else match new.route u v with
      | none => (a.1, a.2.1, a.2.2.or (r0.find? new.deadHop))
      | some r =>
        match allotRoute id q.2.2 (r.filter (fun h => !r0.contains h)) a.2.1 with
        | .inl h => (a.1, a.2.1, a.2.2.or (some h))
        | .inr t => (joinOvr (new.overridesOf r v) a.1, t, a.2.2)

/-- A job of step 2 is laid on its detours, and its tables are to go out. -/
def State.reJob (s : State) (old : Epfin) (id : Nat) : State × List (Nat × TableChange) :=
  let j := s.job id
  let a := j.plan.foldl (old.rePair s.ep id j) (j.ovr, s.ep.linkPips, none)
  let j1 := { j with ovr := a.1, short := a.2.2 }
  let t := ({ s with ep := { s.ep with linkPips := a.2.1 } }).setJob id j1
  (t, t.jobParts id j1 (old.pipMods old.linkPips id) (fun c => c))

/-- The manager declares modules failed or excluded, or a link failed, and acts in the order of R237. A
worker whose control routes are cut goes with them (R235). -/
def State.declare (s : State) (ms0 : List Nat) (link : Option Hop) (excluded : Bool) : State :=
  let e0 := s.ep
  let links := (link.map (fun h => [h, e0.back h])).getD []
  let mark (ms : List Nat) : Epfin := { e0 with failedMods := e0.failedMods ++ ms, failedLinks := e0.failedLinks ++ links }
  let ms := ms0 ++ (mark ms0).unreachable s.modIndex
  let lostHops := ms.flatMap e0.modHops ++ links
  let ids := e0.jobs.map (·.1)
  let hitMod (id : Nat) : Option Nat := ms.find? (fun m => (s.job id).members.any (fun q => q.1 == m))
  let hitHop (id : Nat) : Option Hop := lostHops.find? (fun h => !(jobOn e0.linkPips id h).isEmpty)
  let first := ids.filter (fun id => (hitMod id).isSome)
  let second := ids.filter (fun id => (hitMod id).isNone && (hitHop id).isSome)
  let s1 := first.foldl (fun t id => t.raiseJob id 0x0507 (srcMod ((hitMod id).getD 0)) ((hitMod id).getD 0)) s
  let s2 := second.foldl (fun t id =>
    let h := (hitHop id).getD (0, 0)
    t.raiseJob id 0x0508 (srcMod h.1) (h.1 * 8 + h.2)) s1
  let pips : LinkPips := e0.linkPips.filter (fun k => !lostHops.contains (k.1 / 8, k.1 % 8))
  let s3 := { s2 with ep := { s2.ep with failedMods := e0.failedMods ++ ms, failedLinks := e0.failedLinks ++ links, linkPips := pips } }
  let s4 := second.foldl (fun (t : State × List (Nat × TableChange)) id => let r := t.1.reJob e0 id; (r.1, t.2 ++ r.2)) (s3, [])
  let lost := first.flatMap (fun id => s4.1.jobParts id (s4.1.job id) (e0.pipMods e0.linkPips id) (fun c => c))
  let items := ms.map (fun m => (m, 7, excluded)) ++ (link.map (fun h => [(h.1, h.2, excluded)])).getD []
  let cuts := items.flatMap (fun q => s4.1.controlParts (fun _ c => { c with cutOut := some q }))
  if cuts.isEmpty then s4.1 else s4.1.queueTables none (s4.2 ++ lost ++ cuts)

/-- A report names the link at h, seen from either end. -/
def Epfin.sameLink (e : Epfin) (h g : Hop) : Bool := g == h || g == e.back h

/-- Reports of ports leaving UP that no failure yet declared explains. -/
def Epfin.newDowns (e : Epfin) : List Hop := e.downs.filter (fun h => !e.deadHop h)

/-- A neighbour has reported a port toward module m leaving UP (R237). -/
def Epfin.downToward (e : Epfin) (m : Nat) : Bool := e.newDowns.any (fun h => decide (h.1 ≠ m) && e.hasLink h.2 && decide (e.nextMod h.1 h.2 = m))

/-- Only this link of its two modules has left UP (R237). -/
def Epfin.onlyDown (e : Epfin) (h : Hop) : Bool :=
  e.newDowns.any (e.sameLink h) &&
  e.newDowns.all (fun g => e.sameLink h g || !([g.1, e.nextMod g.1 g.2].any (fun m => decide (m = h.1) || decide (m = e.nextMod h.1 h.2))))

/-- MODULE_FAILED (R237): module m, when a neighbour has reported a port toward it leaving UP, or else when three of its
heartbeats have been missed; or only its link through a port, when only that link has left UP. -/
def execModuleFailed (m : BitVec 10) (link : Option (BitVec 3)) (s : State) : Out :=
  let k := m.toNat
  .next (if s.ep.role ≠ 2 ∨ s.ep.isMod k = false ∨ s.ep.failedMods.contains k then s
    else match link with
      | none =>
        if k = s.modIndex then s
        else if s.ep.downToward k then s.declare [k] none false
        else (s.passTo (s.ep.beats.get k s.ep.beaconAt + 3000000)).declare [k] none false
      | some p =>
        if 6 ≤ p.toNat ∨ s.ep.hasLink p.toNat = false ∨ s.ep.failedLinks.contains (k, p.toNat) ∨ s.ep.onlyDown (k, p.toNat) = false then s
        else s.declare [] (some (k, p.toNat)) false)

/-- EXCLUDE (R239): a list that names no other module of the ring set is DESC_FORMAT (log 20). -/
def execExclude (dma : Dma) (s : State) : Out :=
  .next (match s.ctlHead 0 0x38 with
    | none => s
    | some d =>
      if s.ep.role ≠ 2 then s.complete d 0x000A 0
      else match dma with
        | .abort off => s.hostAbort d off
        | .ok =>
          let ms := ((List.range (d.word 4)).map (fun k => leNat (s.hostRead (d.dword 6 + 2 * k) 2))).eraseDups
          if ms.any (fun m => !s.ep.isMod m || m == s.modIndex) then s.complete d 0x0009 0x18
          else (s.declare (ms.filter (fun m => !s.ep.failedMods.contains m)) none true).complete d 0 0)

/-- A module is readmitted: dimension-order control routes are restored, and its links take pips again
(R239). It is adopted again, for a reset takes its coordinate (R314). -/
def State.readmit (s : State) (m : Nat) : State :=
  let e := s.ep
  let was := e.failedMods.contains m
  let s1 := { s with ep := { e with failedMods := e.failedMods.filter (· != m),
                                    failedLinks := e.failedLinks.filter (fun h => h.1 != m && e.nextMod h.1 h.2 != m),
                                    downs := e.downs.filter (fun h => h.1 != m && e.nextMod h.1 h.2 != m), beats := e.beats.put m s.tcb.now,
                                    jobs := e.jobs.map (fun (j : Nat × Job) => (j.1, { j.2 with short := none })) } }
  let ov := s1.ep.ctlOverrides s.modIndex
  let t := s1.ep.tree ov s.modIndex
  let s2 := if was then (s1.ctl (.adopt m (s1.ep.adoptFor ov t s.modIndex m))).tellTime [m] else s1
  s2.queueTables none (s2.controlParts (fun w c =>
    { c with ports := (List.range 6).filter (fun p => e.hasLink p && (w == m || e.nextMod w p == m)) }))

/-- READMIT (R239): `bad` is a port that the check of step 4 finds wrong. -/
def execReadmit (bad : Option (BitVec 3)) (s : State) : Out :=
  .next (match s.ctlHead 0 0x37 with
    | none => s
    | some d =>
      let m := d.word 4 % 1024
      if s.ep.role ≠ 2 then s.complete d 0x000A 0
      else if s.ep.isMod m = false then s.complete d 0x0009 0x10
      else match bad with
        | some p => (s.postPf 0x8603 (srcMod m) m p.toNat).complete d 0x000A 0
        | none => (s.readmit m).complete d 0 0)

/-! ## Fault reports (R306, R319) -/

/-- The job of a context of module m. -/
def State.jobAt (s : State) (m c : Nat) : Option Nat :=
  (List.find? (fun (e : Nat × Job) => e.2.members.any (fun q => decide (q.1 = m) && decide (q.2 = c))) s.ep.jobs).map (·.1)

/-- Context faults that the manager itself raises on every member: no member is told of them again. -/
def managerFaults : List Nat := [0x0507, 0x0508, 0x0509, 0x0604]

/-- MEMBER_FAULT on every other member of the job (R306). -/
def State.tellMembers (s : State) (m c code : Nat) : State :=
  match s.jobAt m c with
  | none => s
  | some id =>
    (((s.job id).members.filter (fun q => q.1 != m)).foldl (fun t q =>
      if some q.1 = t.modIndex? then t.ctxFault q.2 0x0509 (srcMod m) m code else t.ctl (.memberFault q.1 q.2 m code)) s).jobTo id .idle

/-- The report enters the manager's own log, and FAULT_REPORT is posted (R319). -/
def State.logReport (s : State) (m code cls c source a0 a1 : Nat) : State :=
  let seq := s.mg.logNext
  (s.logAs m code cls (if cls = 2 then c else noCtx) source a0 a1).postPf 0x8502 (srcMod m) (code + 2 ^ 16 * cls + 2 ^ 24 * c) seq

/-- FAULT_REPORT (R319): a context fault, an engine fault, a port leaving UP, a failed owner check or
TC_DRIFT of a module. -/
def execFaultReport (m : BitVec 10) (code : BitVec 16) (cls : BitVec 3) (c : BitVec 6) (source arg0 arg1 : BitVec 32) (s : State) : Out :=
  let k := m.toNat
  let v := code.toNat
  .next (if s.ep.role ≠ 2 then s
    else if v = 0x8103 then
      if s.ep.drift.has k then s else { s with ep := { s.ep with drift := s.ep.drift.put k (s.tcb.now, arg0.toNat) } }
    else
      let s1 := if k = s.modIndex then s else s.logReport k v cls.toNat c.toNat source.toNat arg0.toNat arg1.toNat
      let s2 :=
        if k = s.modIndex then s1
        else if v = 0x0A01 then
          ({ s1 with ep := { s1.ep with downs := s1.ep.downs ++ [(k, arg0.toNat % 8)] } }).postPf 0x8601 (srcMod k) k (arg0.toNat % 8 + 16 * (arg1.toNat % 8))
        else if v = 0x0A0B then s1.postPf 0x8602 (srcMod k) k (arg0.toNat % 8 + 256 * (arg1.toNat % 64))
        else s1
      if cls = 2 ∧ managerFaults.contains v = false then s2.tellMembers k c.toNat v else s2)

/-- MEMBER_FAULT (R306): the manager's message reaches a member's module. A fault that the manager raises itself is raised with its
own code (R237, R259); FRAME_BUDGET is raised at its count (R37). -/
def execMemberFault (c : BitVec 6) (m : BitVec 10) (code : MemberCode) (s : State) : Out :=
  .next (if (s.ctx c.toNat).job = 0 then s
    else match code with
      | .member v => s.ctxFault c.toNat 0x0509 (srcMod m.toNat) m.toNat v.toNat
      | .manager v a b =>
        if v = 0x0602#16 then s.modCtx c.toNat (fun x => { x with budgetAt := some (a, b) })
        else s.ctxFault c.toNat v.toNat (srcMod m.toNat) (a % 2 ^ 32) (b % 2 ^ 32))

end Sys2Proof.Machine
end

