-- ==== Sys2Proof/Machine/Power.lean ====
section
/-! DEFINITION. Frequency steps, forced steps, voltage loops, power, heat and the input supply (R36, R327
to R338, R357). -/
namespace Sys2Proof.Machine

open Sys2Proof

def State.setFs (s : State) (f : FreqBlock → FreqBlock) : State := { s with fs := f s.fs }

/-! ## Step changes (R328, R332) -/

/-- The clock runs at a step: each context notes since when it is at or below its FLOOR (R39). -/
def State.atStep (s : State) (n : Nat) : State :=
  let s1 := s.setFs (fun f => { f with cur := n, changes := if n = f.cur then f.changes else satAdd f.changes 1 })
  s1.liveCtxs.foldl (fun t c => t.modCtx c (fun x =>
    { x with floorSince := if n ≤ x.floor then x.floorSince.or (some t.tcb.now) else none })) s1

/-- A step change is asked for: one in progress is waited for (R328). -/
def FreqBlock.ask (f : FreqBlock) (n : Nat) : FreqBlock :=
  match f.changing with
  | some _ => { f with waiting := some n }
  | none => if n = f.cur then f else { f with changing := some n }

/-- STEP_CHANGE (R328): the change in progress ends at the new step, and a waiting one begins. -/
def execStepChange (stp : BitVec 3) (s : State) : Out :=
  .next (match s.fs.changing with
    | none => s
    | some n =>
      if n ≠ stp.toNat then s
      else (s.atStep n).setFs (fun f =>
        let g := { f with changing := none, waiting := none }
        match f.waiting with
        | some w => g.ask w
        | none => g))

/-! ## The required steps (R332, R334, Tables 16.1 and 16.2) -/

/-- Pmax of a step in units of 100 W (Table 16.2). -/
def pmax (n : Nat) : Nat := [300, 270, 242, 216, 192, 170, 130, 96].getD n 96

/-- The FLOOR that firmware keeps for a context (R332). -/
def Context.keptFloor (x : Context) : Nat := if x.stretch = 0 then x.floor else max x.floor x.stretchFor

/-- The smallest FLOOR among running contexts; 7 where none runs. -/
def State.floorLimit (s : State) : Nat :=
  (s.liveCtxs.filter (fun c => decide ((s.ctx c).st = .running))).foldl (fun m c => min m (s.ctx c).keptFloor) 7

def FreqBlock.req (f : FreqBlock) : Nat := max f.sPow f.sTherm

/-- The step to be applied: s_req, but no slower than the FLOORs allow. -/
def State.target (s : State) : Nat := min s.fs.req s.floorLimit

/-- Firmware samples every sensor (R334); an unfitted stack reads 0x8000. -/
def State.sample (s : State) (v : Sensors) : State :=
  let put (l : List (BitVec 16)) : Table (BitVec 16) := l.zipIdx.map (fun e => (e.2, e.1))
  { s with tel :=
      { tfield := put (v.tfield.take 48), vfield := (v.vfield.take 48).zipIdx.map (fun e => (e.2, e.1)),
        tstack := ((List.range 32).map (fun p => (p, if s.fitted p then v.tstack.getD p 0 else 0x8000#16))),
        pin := v.pin, vin := v.vin, inlet := v.inlet, outlet := v.outlet } }

/-- Readings of the fields, and of the fitted stacks, in 0.1 degrees. -/
def State.fieldTemps (s : State) : List Int := s.tel.tfield.map (fun e => e.2.toInt)
def State.stackTemps (s : State) : List Int := (s.tel.tstack.filter (fun e => s.fitted e.1)).map (fun e => e.2.toInt)

/-- The counter since which a condition holds without a break. -/
def since (old : Option Nat) (now : Nat) (holds : Bool) : Option Nat := if holds then old.or (some now) else none

/-- The condition has held for n counts. -/
def heldFor (a : Option Nat) (now n : Nat) : Bool := a.any (fun t => decide (t + n ≤ now))

/-- s_pow by Table 16.1. The slower condition is seen to hold over the 10,000,000 tc before a step, as in
Table 16.6 (log 30). -/
def FreqBlock.evalPow (f : FreqBlock) (now pin : Nat) : FreqBlock :=
  let slow := since f.powSlower now (decide (100 * f.pcap.toNat < pin))
  let fast := since f.powFaster now (decide (0 < f.sPow) && decide (pin * pmax (f.sPow - 1) ≤ 100 * f.pcap.toNat * pmax f.cur))
  if heldFor slow now 10000000 then { f with sPow := min 7 (f.sPow + 1), powSlower := some now, powFaster := none }
  else if heldFor fast now 1000000000 then { f with sPow := f.sPow - 1, powSlower := slow, powFaster := none }
  else { f with powSlower := slow, powFaster := fast }

/-- s_therm by Table 16.1. -/
def FreqBlock.evalTherm (f : FreqBlock) (now : Nat) (hot cool : Bool) : FreqBlock :=
  let runs := if hot then f.hotRuns + 1 else 0
  let fast := since f.thermFaster now (decide (0 < f.sTherm) && cool)
  if 10 ≤ runs then { f with sTherm := min 7 (f.sTherm + 1), hotRuns := 0, thermFaster := none }
  else if heldFor fast now 1000000000 then { f with sTherm := f.sTherm - 1, hotRuns := runs, thermFaster := none }
  else { f with hotRuns := runs, thermFaster := fast }

/-- The coolant readings of an evaluation (R337). -/
def State.evalCoolant (s : State) : State :=
  let hot := decide (400 < s.tel.inlet.toInt) || decide (600 < s.tel.outlet.toInt)
  let n := if hot then s.fs.coolHot + 1 else 0
  let s1 := s.setFs (fun f => { f with coolHot := n, coolOkSince := since f.coolOkSince s.tcb.now (f.coolPosted && !hot) })
  if 10 ≤ n ∧ s.fs.coolPosted = false then
    (s1.setFs (fun f => { f with coolPosted := true })).postPf 0x8701 srcMgmt s.tel.inlet.toNat s.tel.outlet.toNat
  else s1

/-- The sensors and the input power have left every condition of a forced step (R333). -/
def State.forceClear (s : State) : Bool :=
  s.fieldTemps.all (fun t => decide (t < 1080)) && s.stackTemps.all (fun t => decide (t < 1000)) && decide (s.tel.pin.toNat ≤ 31500)

/-- The step follows the required steps: one slower at most once every 10,000,000 tc, and held at the
smallest FLOOR (R332). -/
def State.applyReq (s : State) : State :=
  let s1 := s.setFs (fun f => { f with holdFloor := decide (s.floorLimit < f.req) })
  let now := s.tcb.now
  if s.fs.cur < s.target then
    if s.fs.lastSlower.all (fun t => decide (t + 10000000 ≤ now)) then
      s1.setFs (fun f => { f.ask (f.cur + 1) with lastSlower := some now })
    else s1
  else if s.target < s.fs.cur then s1.setFs (fun f => f.ask s.target)
  else s1

/-- The input voltage is back within its limits: an excursion ends (Table 18.2). -/
def State.endExcursion (s : State) : State :=
  let v := s.tel.vin.toNat
  { s with lines := { s.lines with lowPosted := s.lines.lowPosted && decide (v < 3200), highPosted := s.lines.highPosted && decide (4100 < v) } }

/-- STEP_EVALUATION (R332, R334): every 1,000,000 tc. Setpoints raised since the last one have returned
(R330). -/
def execStepEvaluation (v : Sensors) (s : State) : Out :=
  .next (if !s.mg.powered then s
    else
      let s0 := s.passTo (s.fs.lastEval + 1000000)
      let s1 := ((s0.setFs (fun f => { f with lastEval := s0.tcb.now, boost := [], fastLoop := [] })).sample v).endExcursion
      if !s1.mg.ready then s1
      else
        let s2 := s1.evalCoolant
        let now := s2.tcb.now
        let hot := s2.fieldTemps.any (fun t => decide (950 ≤ t)) || s2.stackTemps.any (fun t => decide (900 ≤ t))
        let cool := s2.fieldTemps.all (fun t => decide (t ≤ 880)) && s2.stackTemps.all (fun t => decide (t ≤ 830))
        let s3 := s2.setFs (fun f => (f.evalPow now v.pin.toNat).evalTherm now hot cool)
        if s3.fs.forced then s3.setFs (fun f => { f with clearSince := since f.clearSince now s3.forceClear })
        else s3.applyReq)

/-! ## Forced steps (R333) -/

/-- Codes of the conditions (Table 14.11). -/
def ForcedCond.code : ForcedCond → Nat
  | .fieldSensor => 1 | .stackSensor => 2 | .inputPower => 3 | .crossingSkew => 4 | .railVoltage => 5

/-- A condition of R333 takes the clock to step 7: the waiting change is cancelled, and where a forced
step is already in force only its cause is noted. -/
def State.force (s : State) (code at_ : Nat) : State :=
  let s0 := s.setFs (fun f => { f with fSkew := f.fSkew || code == 4, fSupply := f.fSupply || code == 3 || code == 5, clearSince := none })
  if s.fs.forced then s0
  else
    let s1 := (s0.atStep 7).setFs (fun f => { f with forced := true, changing := none, waiting := none, forces := satAdd f.forces 1, alert := true })
    (s1.postAll 0x8109 srcMgmt code at_).logFault 0x090C 1 noCtx srcMgmt code 0

/-- FORCED_STEP (R333). -/
def execForcedStep (cond : ForcedCond) (at_ : BitVec 32) (s : State) : Out :=
  .next (if s.fs.clocked then s.force (ForcedCond.code cond) at_.toNat else s)

/-- FORCED_STEP_RELEASE (R333): every condition has stayed clear for 10,000,000 tc. -/
def execForcedStepRelease (s : State) : Out :=
  .next (match s.fs.clearSince with
    | none => s
    | some t =>
      if !s.fs.forced then s
      else
        let s1 := (s.passTo (t + 10000000)).setFs (fun f =>
          { f with forced := false, fSkew := false, fSupply := false, clearSince := none, alert := f.tripHold,
                   holdFloor := decide (s.floorLimit < f.req) })
        s1.setFs (fun f => f.ask s1.target))

/-- XSKEW (R329): a crossing's skew has drifted; its edge is retrained at the next start. -/
def execXskew (edge : BitVec 32) (s : State) : Out :=
  .next (if s.fs.clocked then
      ((s.force 4 edge.toNat).setFs (fun f => { f with xskewEdges := f.xskewEdges ++ [edge.toNat] })).logFault 0x090A 3 noCtx srcMgmt edge.toNat 0
    else s)

/-! ## Voltage loops and the supply (R330, R331, R357) -/

/-- VOLTAGE_DROOP (R330): the setpoint is raised by up to 30 mV: by how much is a free value. -/
def execVoltageDroop (field : BitVec 6) (mv : Nat) (s : State) : Out :=
  atField field s (fun s =>
    if s.fs.clocked ∧ 15 < mv then
      ({ s with free := s.free + 1 }).setFs (fun f =>
        { f with boost := f.boost.put field.toNat (Config.freeValue s.free % 31), fastLoop := (f.fastLoop ++ [field.toNat]).eraseDups })
    else s)

/-- VDROOP (R331): the rail stays below Vmin of the current step. -/
def execVdroop (field : BitVec 6) (s : State) : Out :=
  atField field s (fun s =>
    if s.fs.clocked then (s.force 5 field.toNat).logFault 0x090B 3 noCtx srcMgmt field.toNat 0 else s)

/-- SUPPLY_FAIL (R331, R357): a rail below Vmin(7), or the input outside its limits for 1 ms. -/
def execSupplyFail (cause : SupplyCause) (s : State) : Out :=
  .next (match cause with
    | .railLow f => if s.fs.coreRails ∧ f.toNat < 48 then s.supplyFail 0 0 else s
    | _ => if s.mg.powered ∧ s.mg.supplyFail = false then s.supplyFail 0 0 else s)

/-- SUPPLY_HIGH (R357): the input has been between 410 and 420 V for 10 ms; once per excursion. -/
def execSupplyHigh (v : BitVec 16) (s : State) : Out :=
  .next (if s.mg.powered ∧ 4100 < v.toNat ∧ v.toNat ≤ 4200 ∧ s.lines.highPosted = false then
      ({ s with tel := { s.tel with vin := v }, lines := { s.lines with highPosted := true } }).postPf 0x8704 srcMgmt v.toNat 0
    else s)

/-- SUPPLY_LOW (R357): the input has been between 300 and 320 V for 10 ms; once per excursion. -/
def execSupplyLow (v : BitVec 16) (s : State) : Out :=
  .next (if s.mg.powered ∧ 3000 ≤ v.toNat ∧ v.toNat < 3200 ∧ s.lines.lowPosted = false then
      ({ s with tel := { s.tel with vin := v }, lines := { s.lines with lowPosted := true } }).postPf 0x8703 srcMgmt v.toNat 0
    else s)

/-! ## Trip and coolant (R335, R337) -/

/-- The trip threshold of a sensor in 0.1 degrees: fields are 0 to 47, stack p is 48 + p (log 31). -/
def tripAt (sensor : Nat) : Int := if sensor < 48 then 1150 else 1050

/-- THERMAL_TRIP (R335): clocks and transfers stop, tier A refreshes itself, and a module reset with cause
6 follows. -/
def execThermalTrip (sensor : BitVec 32) (reading : BitVec 16) (s : State) : Out :=
  .next (if !s.mg.powered || decide (80 ≤ sensor.toNat) || decide (reading.toInt < tripAt sensor.toNat) then s
    else
      let s1 := (s.setFs (fun f => { f with tripHold := true, alert := true, clocked := false })).logFault 0x0903 4 noCtx srcMgmt sensor.toNat 0
      s1.moduleReset 6)

/-- COOLANT_OK (R337): both readings have been back within limits for 1,000,000,000 tc. -/
def execCoolantOk (s : State) : Out :=
  .next (match s.fs.coolOkSince with
    | none => s
    | some t =>
      if !s.fs.coolPosted then s
      else
        let s1 := (s.passTo (t + 1000000000)).setFs (fun f => { f with coolPosted := false, coolOkSince := none })
        s1.postPf 0x8702 srcMgmt s.tel.inlet.toNat s.tel.outlet.toNat)

/-! ## The power cap (R338, R365) -/

/-- A value written to FS_PCAP, or CFG_RANGE (R388). -/
def State.writePcap (s : State) (cap v : Nat) : State :=
  if 96 ≤ cap ∧ cap ≤ 300 then s.setFs (fun f => { f with pcap := BitVec.ofNat 9 cap }) else s.cfgPf 0x8002 0 0x2004 v

/-- FS_PCAP (R338). -/
def execFsPcap (v : BitVec 32) (s : State) : Out := atBar 0 s (fun s => s.writePcap (v.toNat % 512) v.toNat)

/-- SMBUS_PCAP (R365). -/
def execSmbusPcap (v : BitVec 16) (s : State) : Out := .next (if s.mg.powered then s.writePcap v.toNat v.toNat else s)

end Sys2Proof.Machine
end

