-- ==== Sys2Proof/Machine/Registers.lean ====
section
/-! DEFINITION. The registers: what each word of BAR0, of the queue-status window and of the management
window reads, and what a write does to it (R5 to R9, R134, R135, R143, R305, R365, R379 to R391). -/
namespace Sys2Proof.Machine

open Sys2Proof

/-! ## The distance table (R134, R135) -/

/-- Where a pod enters destination d, with the entry cost (R135). A pod uses its own lane (log 32). -/
def destEntries (spare : List Nat) (pod d : Nat) : List Pos × Nat :=
  if d < 32 then (portEntries spare d ++ (if lanePort pod = some d then [laneRouter spare pod] else []), 2)
  else ([attachPos (d - 32)], 0)

/-- The cores of a pod. -/
def podCores (pod : Nat) : List Pos :=
  (List.range 40).flatMap (fun y => (List.range 40).map (fun x => (40 * (pod % 16) + x, 40 * (pod / 16) + y)))

/-- MIN and MAX of an entry as one word; 0xFFFF (twice) where R135 gives 0xFFFF (log 32). -/
def State.distEntry (s : State) (pod d : Nat) : Nat :=
  let e := destEntries s.mg.startMap.1 pod d
  let core (a : Pos) : Option Nat :=
    ((e.1.filter (s.reachable a)).map (fun b => pathCycles a b + e.2)).foldl (fun m v => some (match m with
      | none => v
      | some w => min v w)) none
  if (d < 32 ∧ s.fitted d = false) ∨ s.startWithdrawn.contains pod then 0xFFFFFFFF
  else match (podCores pod).filterMap core with
    | [] => 0xFFFFFFFF
    | v :: vs => vs.foldl min v + 65536 * vs.foldl max v

/-- A word of the distance table (Table 6.6). -/
def State.distWord (s : State) (off : Nat) : Nat :=
  if !s.mg.distValid ∨ 0x7840 ≤ off then 0
  else if 0x40 ≤ off then s.distEntry ((off - 0x40) / 4 / 40) ((off - 0x40) / 4 % 40)
  else if off = 0 then 1 + 3 * 2 ^ 16 + 40 * 2 ^ 24
  else if off = 4 then 192 + 4 * 2 ^ 16
  else if off = 8 then s.mg.distBuilt % 2 ^ 32
  else if off = 12 then s.mg.distBuilt / 2 ^ 32 % 2 ^ 32
  else if off < 0x20 then leNat (((digBytes (BitVec.ofNat 256 (s.mg.distDig.toNat * 2 ^ 128))).drop (off - 0x10)).take 4)
  else 0

/-! ## Register blocks -/

/-- Bits from low to high, each at its place. -/
def bits (l : List (Nat × Bool)) : Nat := (l.map (fun b => bnat b.2 * 2 ^ b.1)).foldl (· + ·) 0

/-- The TC_ registers (Table 2.1) by offset in their block, as a path reads them. -/
def State.tcWord (s : State) (p : Path) (off : Nat) : Nat :=
  let t := s.tcb
  let root := s.timeRoot
  if off = 0 then t.now % 2 ^ 32
  else if off = 4 then (t.latches.get (pathNo p) 0).toNat
  else if off = 8 then bnat t.arm
  else if off = 12 then t.sec.toNat
  else if off = 16 then
    bits [(0, t.lock), (1, t.synced), (2, s.alignedNow), (3, t.holdover), (4, root || t.freqOk),
      (8, t.pulseErr), (9, t.refLost), (10, t.wwb)]
  else if off = 20 then (if root then 0 else t.offset.toNat)
  else if off = 24 then (if root then 0 else t.ferr.toNat)
  else 0

/-- The FS_ registers (Table 16.3). -/
def State.fsWord (s : State) (off : Nat) : Nat :=
  let f := s.fs
  if off = 0 then
    f.cur + bits [(3, f.changing.isSome), (8, f.forced), (9, f.fSkew), (10, f.fSupply), (17, decide (0 < f.sTherm)), (18, decide (0 < f.sPow)),
      (19, f.holdFloor)] + 16 * f.req
  else if off = 4 then f.pcap.toNat
  else if off = 8 then f.changes.toNat
  else if off = 12 then f.forces.toNat
  else if 16 ≤ off ∧ off < 48 then min (2 ^ 32 - 1) (f.timeTc.get ((off - 16) / 4) 0 / 1000000)
  else 0

/-- MG_PODOWN of a pod (Table 11.8). -/
def State.podOwn (s : State) (pod : Nat) : Nat :=
  match s.liveCtxs.find? (fun c => ((s.ctx c).part.map (fun r => r.hasPod pod)).getD false) with
  | some c => (if (s.ctx c).st = .scrubbing then 0x80 else 0x40) + c
  | none => if s.mg.withdrawn.contains pod then 0xC0 else 0

/-- Four bytes as a word. -/
def word4 (f : Nat → Nat) (i : Nat) : Nat := f i + 2 ^ 8 * f (i + 1) + 2 ^ 16 * f (i + 2) + 2 ^ 24 * f (i + 3)

/-- MG_START (Table 18.10). -/
def State.startWord (s : State) : Nat :=
  bits [(0, s.mg.ready), (1, s.mg.stoppedGate), (2, s.mg.refWait)] + 256 * s.mg.stage

/-- The management registers by BAR0 offset (Table 20.2). -/
def State.mgWord (s : State) (off : Nat) : Nat :=
  let g := s.mg
  if off = 0x3004 then g.rstCause.toNat
  else if off = 0x3008 then g.rstCnt.toNat
  else if off = 0x3010 then g.logNext % 2 ^ 32
  else if off = 0x3014 then g.logAck % 2 ^ 32
  else if off = 0x3018 then bnat g.sumOnly
  else if off = 0x3020 then s.startWord
  else if off = 0x3040 then bits [(0, g.trained), (1, g.distValid)] + 3 * 16 + 2 ^ 16 * g.failedEdges.toNat
  else if off = 0x3044 then (if g.distValid then 0x7840 else 0)
  else if 0x3080 ≤ off ∧ off ≤ 0x30A4 then (g.stTime.get ((off - 0x3080) / 4) 0).toNat
  else if 0x3100 ≤ off ∧ off < 0x31C0 then word4 s.podOwn (off - 0x3100)
  else if 0x3200 ≤ off ∧ off ≤ 0x32BC then (s.tel.tfield.get ((off - 0x3200) / 4) 0).toNat
  else if 0x3300 ≤ off ∧ off ≤ 0x33BC then (s.tel.vfield.get ((off - 0x3300) / 4) 0).toNat
  else if 0x3400 ≤ off ∧ off ≤ 0x347C then if s.fitted ((off - 0x3400) / 4) then (s.tel.tstack.get ((off - 0x3400) / 4) 0).toNat else 0x8000
  else if off = 0x3480 then s.tel.pin.toNat + 2 ^ 16 * s.tel.vin.toNat
  else if off = 0x3484 then s.tel.inlet.toNat + 2 ^ 16 * s.tel.outlet.toNat
  else 0

/-- The host-interface setup registers (Table 20.3). -/
def State.hiWord (s : State) (off : Nat) : Nat :=
  let l := s.link
  if off = 0 then bits [(0, l.up), (1, l.flit)] + 256 * l.rate.toNat + 2 ^ 16 * l.width.toNat
  else if off = 4 then l.keyed.toNat + 256 * l.insecure.toNat
  else if off = 8 then l.aborts.toNat + 2 ^ 16 * l.badwr.toNat
  else 0

/-- The registers of an Epfin port (Table 10.10). -/
def EpPort.word (k : EpPort) (off : Nat) : Nat :=
  if off = 0 then bits [(0, k.enable)] + 2 * k.test.toNat
  else if off = 4 then k.st + 8 * k.cable + bits [(8, k.nbrOk), (9, k.pipMis), (10, k.exhaust)] + 2 ^ 16 * k.lanes.toNat
  else if off = 8 then
    match k.nbr with
    | some n => 2 ^ 16 + 2 ^ 10 * n.2 + n.1
    | none => 0
  else if off = 12 then k.corr.toNat
  else if off = 16 then k.uncorr.toNat
  else if off = 20 then k.resent.toNat
  else if off = 24 then k.delay.toNat
  else 0

/-- The Epfin registers by BAR0 offset (Tables 10.10 and 10.11). -/
def State.epWord (s : State) (off : Nat) : Nat :=
  let e := s.ep
  if off = 0x5000 then e.req.toNat + 4 * e.role + 2 ^ 16 * e.rsid.toNat
  else if off = 0x5004 then 16 * e.nx1.toNat + 256 * e.ny1.toNat + 4096 * e.nz1.toNat
  else if off = 0x5008 then
    match e.coord with
    | some p => 2 ^ 16 + p.1 + 8 * p.2.1 + 64 * p.2.2
    | none => 0
  else if off = 0x500C then bits [(0, e.formed), (1, e.mgrLost), (2, e.wwb), (3, e.cut)] + 2 ^ 16 * e.cuts.toNat
  else if 0x5100 ≤ off ∧ off < 0x5280 then (s.epPort ((off - 0x5100) / 0x40)).word ((off - 0x5100) % 0x40)
  else if 0x5400 ≤ off ∧ off < 0x5A00 then
    let k := s.epPort ((off - 0x5400) / 0x100)
    let o := (off - 0x5400) % 0x100
    let t := if o < 0x80 then k.pipTx else k.pipRx
    pipOwner t (o % 0x80 / 2) + 2 ^ 16 * pipOwner t (o % 0x80 / 2 + 1)
  else 0

/-- Blocks of a port that SK_BLOCKS counts as free (Table 20.4): the directory's block 0 is granted to
no window, library entry or retained window, and counts (log 36). -/
def State.freeBlocks (s : State) (p : Nat) : Nat :=
  ((List.range (portBlocks p)).filter (fun b =>
    (s.port p).blockFree p b || (decide (24 ≤ p) && decide (b = 0) && !(s.port p).bad.contains 0))).length

/-- The stack-port registers by offset from the port's base (Table 20.4). -/
def State.skWord (s : State) (p off : Nat) : Nat :=
  let k := s.port p
  if s.fitted p = false then 0
  else if off = 0 then bits [(3, k.selfRef), (4, k.disabled), (5, k.trained), (6, decide (24 ≤ p)), (7, true)]
  else if off = 4 then (if p < 24 then k.bad.length else (k.wear.filter (fun e => decide (100000 ≤ e.2))).length) + 2 ^ 16 * s.freeBlocks p
  else if off = 8 then k.ce.toNat
  else if off = 12 then k.ue.toNat
  else if off = 16 then k.patrol.toNat
  else if off = 20 then k.regions.length
  else if 0x40 ≤ off then
    word4 (fun j => if j = 62 ∨ j = 63 then 0x40 else match k.slots.find? j with
      | some c => 0x80 + c
      | none => 0) (off - 0x40)
  else 0

/-- The words of a fault-log entry (Table 14.4). -/
def LogEntry.words (e : LogEntry) : List Nat :=
  [e.seq % 2 ^ 32, e.code.toNat + 2 ^ 16 * e.cls.toNat + 2 ^ 24 * e.ctx.toNat, e.tc % 2 ^ 32, e.tc / 2 ^ 32 % 2 ^ 32, e.source.toNat,
   e.mod.toNat, e.arg0.toNat, e.arg1.toNat]

/-- A word of the fault log's ring of 2,048 entries (R304). -/
def State.logWord (s : State) (off : Nat) : Nat :=
  match s.mg.log.find? (off / 32) with
  | some e => e.words.getD (off % 32 / 4) 0
  | none => 0

/-- P_eff as CX_FSTAT shows it (Table 2.2). -/
def Context.effShown (x : Context) : Nat :=
  match x.st with
  | .running | .quiesced | .faulted | .scrubbing => x.eff
  | _ => 0

/-- CX_PART (Table 11.7). -/
def partWord : Option Rect → Nat
  | some r => 2 ^ 16 + r.bx + 16 * r.by_ + 256 * (r.w - 1) + 4096 * (r.h - 1)
  | none => 0

/-- CX_WSHARD (Table 9.8). -/
def WSet.shardWord (w : WSet) : Nat :=
  let bad := w.shards.zipIdx.filter (fun e => e.1.st != .good)
  2 ^ 16 * bad.length + (bad.head?.map (·.2)).getD 0xFFFF

/-- A context-setup page by offset (Table 20.5), as a path reads it. -/
def Context.word (x : Context) (p : Path) (off : Nat) : Nat :=
  if off = 0x00 then x.st.code + bits [(6, x.cutq), (7, x.capture)]
  else if off = 0x04 then partWord x.part
  else if off = 0x08 then x.job + 2 ^ 16 * x.rank
  else if off = 0x0C then x.rebind.toNat
  else if off = 0x10 then x.discard.toNat
  else if off = 0x14 then x.cfgst.toNat
  else if off = 0x18 then x.crj.toNat
  else if off = 0x1C then x.lastCommit.toNat
  else if off = 0x20 then x.period + 2 ^ 24 * x.floor
  else if off = 0x24 then x.effShown + 2 ^ 28 * x.stretch
  else if off = 0x28 then x.fcount % 2 ^ 32
  else if off = 0x2C then (x.fcLatch.get (pathNo p) 0).toNat
  else if off = 0x30 then x.overruns.toNat
  else if off = 0x34 then x.slipSum.toNat
  else if off = 0x38 then x.slipMax.toNat
  else if off = 0x3C then
    match x.slipAt with
    | some i => 2 ^ 31 + 2 ^ 19 * coreCx i + 2 ^ 10 * coreCy i
    | none => 0
  else if off = 0x40 then bnat x.strict
  else if off = 0x44 then x.numst.toNat
  else if off = 0x48 then x.numfr.toNat
  else if off = 0x4C then x.wset.epoch % 2 ^ 16 + 2 ^ 30 * x.wset.st
  else if off = 0x50 then x.wset.gap.toNat
  else if off = 0x54 then x.wset.lvf
  else if off = 0x58 then x.wset.shardWord
  else 0

/-- The ring registers of a function (Table 12.3). -/
def HostFn.ringWord (h : HostFn) (off : Nat) : Nat :=
  if off = 0x00 then h.sqLo.toNat
  else if off = 0x04 then h.sqHi.toNat
  else if off = 0x08 then h.cqLo.toNat
  else if off = 0x0C then h.cqHi.toNat
  else if off = 0x10 then h.eqLo.toNat
  else if off = 0x14 then h.eqHi.toNat
  else if off = 0x18 then bits [(0, h.enable)] + 256 * h.cqVec + 2 ^ 16 * h.eqVec
  else if off = 0x1C then bits [(0, h.active), (1, h.wwb), (2, h.baddb), (3, h.hosterr)] + 2 ^ 16 * h.evlost.toNat
  else 0

/-- The doorbell page of a function (Table 12.4): its write-only words read zero. -/
def State.bellWord (s : State) (f off : Nat) : Nat :=
  let h := s.fn f
  if off = 0x10 then h.sqh.toNat
  else if off = 0x14 then h.cqt.toNat
  else if off = 0x18 then h.eqt.toNat
  else if off = 0x1C then (if f = 0 then 0 else min 0xFFFF (s.ctx (f - 1)).batches.length) + 2 ^ 16 * min 0xFFFF h.admq.length
  else if off = 0x20 then h.res.toNat
  else 0

/-- A queue-pair record (Table 7.3). -/
def Pair.word (k : Pair) (off : Nat) : Nat :=
  if off = 0x00 then k.cut.toNat + 2 ^ 16 * bnat k.empty + 2 ^ 23 * k.rqcap + 2 ^ 30 * k.mode.toNat
  else if off = 0x04 then k.idle.toNat
  else if off = 0x08 then k.rbase.toNat
  else if off = 0x0C then k.rsize.toNat
  else if off = 0x10 then min 4095 k.rtd + 2 ^ 12 * k.rqd
  else if off = 0x14 then k.fill
  else if off = 0x18 then k.flushes.toNat + 2 ^ 16 * k.emptys.toNat
  else if off = 0x1C then bits [(1, k.wwb)]
  else 0

/-- The word at an aligned offset of the physical function's BAR0 (Table 20.1). -/
def State.bar0Word (s : State) (p : Path) (off : Nat) : Nat :=
  if off = 0 then 0x4A434800 + s.ident.grade.toNat
  else if off = 4 then 256 * s.ident.step.toNat + 2 ^ 16 * s.ident.lattab.toNat
  else if 0x1000 ≤ off ∧ off < 0x1100 then s.tcWord p (off - 0x1000)
  else if 0x2000 ≤ off ∧ off < 0x2100 then s.fsWord (off - 0x2000)
  else if 0x3000 ≤ off ∧ off < 0x3500 then s.mgWord off
  else if 0x4000 ≤ off ∧ off < 0x4100 then s.hiWord (off - 0x4000)
  else if 0x5000 ≤ off ∧ off < 0x5A00 then s.epWord off
  else if 0x6000 ≤ off ∧ off < 0x7000 then s.skWord ((off - 0x6000) / 0x80) ((off - 0x6000) % 0x80)
  else if 0xB000 ≤ off ∧ off < 0xB300 then (s.mg.sums.get ((off - 0xB000) / 4) 0).toNat
  else if 0x10000 ≤ off ∧ off < 0x20000 then s.logWord (off - 0x10000)
  else if 0x20000 ≤ off ∧ off < 0x24000 then (s.ctx ((off - 0x20000) / 0x100)).word p ((off - 0x20000) % 0x100)
  else if 0x40000 ≤ off ∧ off < 0x47840 then s.distWord (off - 0x40000)
  else if 0x80000 ≤ off ∧ off < 0x81000 then s.bellWord 0 (off - 0x80000)
  else if 0x81000 ≤ off ∧ off < 0x81020 then (s.fn 0).ringWord (off - 0x81000)
  else 0

/-- BAR0 as the host reads it: until READY, and in recovery, few words answer (R346, R360). -/
def State.hostBar0 (s : State) (off : Nat) : Nat :=
  if s.link.perst then 0
  else if s.sec.inRecovery then (if off < 8 then s.bar0Word .bar0 off else 0)
  else if s.mg.ready then s.bar0Word .bar0 off
  else if off < 8 ∨ off = 0x3020 ∨ (0x3080 ≤ off ∧ off ≤ 0x30A4) then s.bar0Word .bar0 off
  else 0

/-- BAR0 of virtual function f (Table 12.2). -/
def State.vfBar0 (s : State) (f off : Nat) : Nat :=
  if s.barLive = false then 0
  else if off < 0x1000 then s.bellWord f off
  else if off < 0x1020 then (s.fn f).ringWord (off - 0x1000)
  else if 0x2000 ≤ off ∧ off < 0x2100 then (s.ctx (f - 1)).word (.vf (f - 1)) (off - 0x2000)
  else 0

/-- BAR2 of virtual function f: the queue-status window (R143). -/
def State.vfBar2 (s : State) (f off : Nat) : Nat :=
  let p := off / 8192
  let q := off / 32 % 256
  if s.barLive ∧ (s.port p).hasPair (f - 1) q then ((s.port p).pair (f - 1) q).word (off % 32) else 0

/-- The recovery registers (Table 17.3). -/
def State.rcvWord (s : State) (off : Nat) : Nat :=
  let x := s.sec
  if off = 4 then bnat x.rcvKind
  else if off = 8 then x.rcvLo.toNat
  else if off = 12 then x.rcvHi.toNat
  else if off = 16 then x.rcvLen.toNat
  else if off = 20 then x.rcvState.toNat + 256 * x.rcvCode.toNat
  else 0

/-- The management window (Table 20.11). -/
def State.window (s : State) (off : Nat) : Nat :=
  let r (base : Nat) : Nat := s.bar0Word .window (base + off)
  if s.link.perst ∨ s.mg.powered = false then 0
  else if off < 0x100 then r 0
  else if off < 0x200 then r (0x1000 - 0x100)
  else if off < 0x300 then r (0x2000 - 0x200)
  else if off < 0x400 then r (0x4000 - 0x300)
  else if off < 0x900 then r (0x3000 - 0x400)
  else if off < 0xC00 then r (0xB000 - 0x900)
  else if off < 0x1600 then r (0x5000 - 0xC00)
  else if off < 0x2600 then r (0x6000 - 0x1600)
  else if off < 0x4600 then (s.ctx ((off - 0x2600) / 0x80)).word .window ((off - 0x2600) % 0x80)
  else if off < 0xBE40 then r (0x40000 - 0x4600)
  else if off < 0xC000 then 0
  else if off < 0xF000 then
    let j := (off - 0xC000) / 32
    let n := s.mg.logNext
    if n ≤ j then 0
    else
      let q := n - 1 - (n - 1 - j) % 384
      match s.mg.log.find? (q % 2048) with
      | some e => if e.seq = q then e.words.getD (off % 32 / 4) 0 else 0
      | none => 0
  else if off < 0xF018 then s.rcvWord (off - 0xF000)
  else 0

/-! ## SMBus (R365, Table 18.7) -/

/-- Offsets that SMBus serves. -/
def smbServed (off : Nat) : Bool :=
  decide (off < 0x100) || (decide (0x1000 ≤ off) && decide (off < 0x1100)) || (decide (0x2000 ≤ off) && decide (off < 0x2100)) ||
  (decide (0x3000 ≤ off) && decide (off < 0x3500)) || (decide (0x5000 ≤ off) && decide (off < 0x5A00)) ||
  (decide (0xB000 ≤ off) && decide (off < 0xB300)) || (decide (0x10000 ≤ off) && decide (off < 0x20000))

/-- A read by a path of its own latches as R23 says. -/
def State.latchRead (s : State) (p : Path) (off : Nat) : State :=
  if off = 0x1000 then s.latchNow p
  else if 0x20000 ≤ off ∧ off < 0x24000 ∧ off % 0x100 = 0x28 then s.latchFcount p ((off - 0x20000) / 0x100)
  else s

/-- SMBUS_READ (R365). -/
def execSmbusRead (off : BitVec 32) (s : State) : Out :=
  let o := off.toNat
  let put (t : State) (st : BitVec 8) (v : Nat) : State := { t with smb := { t.smb with status := st, value := BitVec.ofNat 32 v } }
  .next (if !s.mg.powered then s
    else if o % 4 ≠ 0 then put s 2 0
    else if !smbServed o then put s 1 0
    else put (s.latchRead .smbus o) 0 (s.bar0Word .smbus o))

/-! ## Writes (R7, R8, R380, R385, R388) -/

/-- A W1C word: bits that the write does not clear. -/
def keep (v : BitVec 32) (bit : Nat) (old : Bool) : Bool := old && !v.getLsbD bit

/-- TC_CTRL and TC_SEC are static while a context exists (R22); as a manager's ARM is set, its workers are told its seconds. -/
def State.tcWrite (s : State) (off : Nat) (v : BitVec 32) : State :=
  let t := s.tcb
  let static (changes : Bool) (f : TimeBlock → TimeBlock) : State :=
    if !changes then s
    else if s.anyCtx then (s.setTcb (fun b => { b with wwb := true })).cfgPf 0x8001 0 (0x1000 + off) v.toNat
    else s.setTcb f
  if off = 8 then
    let s1 := static (v.getLsbD 0 != t.arm) (fun b => { b with arm := v.getLsbD 0 })
    if v.getLsbD 0 && decide (s.ep.role = 2) && s.ep.formed then s1.tellTime (s1.ep.workers s1.modIndex) else s1
  else if off = 12 then static (decide (v ≠ t.sec)) (fun b => { b with sec := v })
  else if off = 16 then
    s.setTcb (fun b => { b with wwb := keep v 10 b.wwb, refLost := keep v 9 b.refLost, pulseErr := keep v 8 b.pulseErr })
  else s

/-- EP_SHAPE: the manager's; a mirror on workers (Table 10.10). The ring set keeps the shape of its last formation (R239). -/
def State.shapeWrite (s : State) (v : BitVec 32) : State :=
  let nx := bvf 3 v.toNat 6 4
  let ny := bvf 3 v.toNat 10 8
  let nz := bvf 4 v.toNat 15 12
  if s.ep.role = 1 ∨ (nx = s.ep.nx1 ∧ ny = s.ep.ny1 ∧ nz = s.ep.nz1) then s
  else if s.anyCtx then ({ s with ep := { s.ep with wwb := true } }).cfgPf 0x8001 0 0x5004 v.toNat
  else { s with ep := { s.ep with nx1 := nx, ny1 := ny, nz1 := nz } }

/-- EP_PCTL(n): static while a job holds pips on the port; ENABLE 0 holds it DOWN (Table 10.4). -/
def State.pctlWrite (s : State) (n : Nat) (v : BitVec 32) : State :=
  let k := s.epPort n
  let test := bvf 2 v.toNat 2 1
  let en := v.getLsbD 0
  let off := 0x5100 + 0x40 * n
  if test = k.test ∧ en = k.enable then s
  else if k.busy then ({ s with ep := { s.ep with wwb := true } }).cfgPf 0x8001 0 off v.toNat
  else
    let s1 := s.modEpPort n (fun e => { e with test := if test = 3 then e.test else test, enable := en })
    let s2 := if en = k.enable then s1 else if en then s1.tryTrain n else s1.portTo n 0
    if test = 3 then s2.cfgPf 0x8002 0 off v.toNat else s2

/-- The Epfin block. -/
def State.epWrite (s : State) (off : Nat) (v : BitVec 32) : State :=
  if off = 0x5000 then s.writeReq (bvf 2 v.toNat 1 0) []
  else if off = 0x5004 then s.shapeWrite v
  else if off = 0x500C then { s with ep := { s.ep with wwb := keep v 2 s.ep.wwb, cut := keep v 3 s.ep.cut } }
  else if 0x5100 ≤ off ∧ off < 0x5280 then
    let n := (off - 0x5100) / 0x40
    if off % 0x40 = 0 then s.pctlWrite n v
    else if off % 0x40 = 4 then s.modEpPort n (fun k => { k with exhaust := keep v 10 k.exhaust, pipMis := keep v 9 k.pipMis })
    else s
  else s

/-- CX_FRAME is busy (Table 20.7). -/
def Context.frameBusy (x : Context) : Bool :=
  match x.st with
  | .running | .faulted | .scrubbing => true
  | .quiesced => decide (x.job ≠ 0)
  | _ => false

/-- PERIOD in range (R34). -/
def periodOk (p : Nat) : Bool := decide (4000 ≤ p) && decide (p ≤ 10000000)

/-- CX_FRAME (R34, R385, R386, R388). Of a context that has not started, the next tick is the next
multiple of the new PERIOD (R273). -/
def State.frameWrite (s : State) (c space off : Nat) (v : BitVec 32) : State :=
  let x := s.ctx c
  let p := fld v.toNat 23 0
  let f := fld v.toNat 26 24
  if p = x.period ∧ f = x.floor then s
  else if x.frameBusy then s.cfgSticky c 0 0x8001 space off v.toNat
  else
    let s1 := s.modCtx c (fun y => { y with period := if periodOk p then p else y.period, floor := f,
                                            floorSince := if s.fs.cur ≤ f then y.floorSince.or (some s.tcb.now) else none })
    if periodOk p then (if x.st = .created ∨ x.st = .bound then s1.restartTicks c else s1) else s1.cfgSticky c 1 0x8002 space off v.toNat

/-- A context-setup page (R383, R384). -/
def State.pageWrite (s : State) (c space base off : Nat) (v : BitVec 32) : State :=
  if off = 0x14 then s.modCtx c (fun x => { x with cfgst := x.cfgst &&& ~~~(BitVec.ofNat 3 v.toNat) })
  else if off = 0x20 then s.frameWrite c space (base + off) v
  else if off = 0x44 then s.modCtx c (fun x => { x with numst := x.numst &&& ~~~(BitVec.ofNat 5 v.toNat) })
  else if off = 0x50 then s.modCtx c (fun x => { x with shadow := { x.shadow with gap := some (BitVec.ofNat 16 v.toNat) } })
  else s

/-- Ring addresses and sizes are static while the ring block is busy; SIZE is at most 12 (R265). -/
def State.ringBaseWrite (s : State) (f off : Nat) (v old : BitVec 32) (low : Bool) (set : HostFn → BitVec 32 → HostFn) : State :=
  let want : BitVec 32 := if low then v &&& 0xFFFFF00F#32 else v
  let size := want.toNat % 16
  let bad := low && decide (12 < size) && decide (size ≠ old.toNat % 16)
  if want = old then s
  else if (s.fn f).busy then (s.modFn f (fun h => { h with wwb := true })).cfgFn f 0x8001 (ringSpace f) (ringOff f + off) v.toNat
  else
    let s1 := s.modFn f (fun h => set h (if bad then (want &&& 0xFFFFF000#32) ||| (old &&& 0xF#32) else want))
    if bad then s1.cfgFn f 0x8002 (ringSpace f) (ringOff f + off) v.toNat else s1

/-- The ring registers (Table 12.3). -/
def State.ringWrite (s : State) (f off : Nat) (v : BitVec 32) : State :=
  let h := s.fn f
  if off = 0x00 then s.ringBaseWrite f off v h.sqLo true (fun h w => { h with sqLo := w })
  else if off = 0x04 then s.ringBaseWrite f off v h.sqHi false (fun h w => { h with sqHi := w })
  else if off = 0x08 then s.ringBaseWrite f off v h.cqLo true (fun h w => { h with cqLo := w })
  else if off = 0x0C then s.ringBaseWrite f off v h.cqHi false (fun h w => { h with cqHi := w })
  else if off = 0x10 then s.ringBaseWrite f off v h.eqLo true (fun h w => { h with eqLo := w })
  else if off = 0x14 then s.ringBaseWrite f off v h.eqHi false (fun h w => { h with eqHi := w })
  else if off = 0x18 then s.rctlWrite f v
  else if off = 0x1C then
    s.modFn f (fun h => { h with hosterr := keep v 3 h.hosterr, baddb := keep v 2 h.baddb, wwb := keep v 1 h.wwb })
  else s

/-- The doorbell page (Table 12.4). -/
def State.bellWrite (s : State) (f off : Nat) (v : BitVec 32) : State :=
  if off = 0 then s.dbSqt f v
  else if off = 4 then s.dbCqh f v
  else if off = 8 then s.dbEqh f v
  else if off = 12 then s.dbCommit f v
  else s

/-- A write of a static field of a pair: it is busy, or out of range, or it is made (R143). -/
def State.pairStatic (s : State) (p c q off : Nat) (v : BitVec 32) (changes ok : Bool) (f : Pair → Pair) : State :=
  let k := (s.port p).pair c q
  if !changes then s
  else if k.busy then (s.setPair p c q { k with wwb := true }).cfgCtx c 0x8001 2 off v.toNat
  else
    let s1 := s.setPair p c q (f k)
    if ok then s1 else s1.cfgSticky c 1 0x8002 2 off v.toNat

/-- A queue-pair record (Table 7.3, R143, R384): LV fields go to the shadow set. -/
def State.recordWrite (s : State) (c off : Nat) (v : BitVec 32) : State :=
  let p := off / 8192
  let q := off / 32 % 256
  let k := (s.port p).pair c q
  let o := off % 32
  let lv (w : List (Nat × Nat × BitVec 2 × BitVec 16 × BitVec 32)) (t : State) : State :=
    t.modCtx c (fun x => { x with shadow := { x.shadow with pairs := x.shadow.pairs ++ w } })
  if (s.port p).hasPair c q = false then s
  else if o = 0 then
    let mode := bvf 2 v.toNat 31 30
    let cap := fld v.toNat 29 23
    let modeOk := decide (mode.toNat < 2)
    lv ((lvOf p q v.toNat 0).take 2)
      (s.pairStatic p c q off v (decide (mode ≠ k.mode) || decide (cap ≠ k.rqcap)) (modeOk && rqcapOk cap)
        (fun k => { k with mode := if modeOk then mode else k.mode, rqcap := if rqcapOk cap then cap else k.rqcap }))
  else if o = 4 then lv [(p, q, 2, 0, v)] s
  else if o = 8 then s.pairStatic p c q off v (decide (BitVec.ofNat 24 v.toNat ≠ k.rbase)) true (fun k => { k with rbase := BitVec.ofNat 24 v.toNat })
  else if o = 12 then s.pairStatic p c q off v (decide (BitVec.ofNat 20 v.toNat ≠ k.rsize)) true (fun k => { k with rsize := BitVec.ofNat 20 v.toNat })
  else if o = 28 then
    let s1 := s.setPair p c q { k with wwb := keep v 1 k.wwb }
    if v.getLsbD 0 then s1.flushPair p c q else s1
  else s

/-- The management block: FLOGACK and SUMONLY. -/
def State.mgWrite (s : State) (off : Nat) (v : BitVec 32) : State :=
  if off = 0x3014 then s.flogAck v.toNat
  else if off = 0x3018 then { s with mg := { s.mg with sumOnly := keep v 0 s.mg.sumOnly } }
  else s

/-- A write to the physical function's BAR0. Until READY only the key of MG_RESET takes effect, and in
recovery none does (R346, R360). -/
def State.bar0Write (s : State) (off : Nat) (v : BitVec 32) : State :=
  if off = 0x3000 then (if v = 0xA5A50004#32 ∧ s.sec.inRecovery = false then s.moduleReset 2 else s)
  else if s.barLive = false ∨ s.sec.inRecovery then s
  else if 0x1000 ≤ off ∧ off < 0x1100 then s.tcWrite (off - 0x1000) v
  else if off = 0x2004 then s.writePcap (v.toNat % 512) v.toNat
  else if 0x3000 ≤ off ∧ off < 0x3500 then s.mgWrite off v
  else if 0x5000 ≤ off ∧ off < 0x5A00 then s.epWrite off v
  else if 0x20000 ≤ off ∧ off < 0x24000 then
    s.pageWrite ((off - 0x20000) / 0x100) 0 (off - off % 0x100) (off % 0x100) v
  else if 0x80000 ≤ off ∧ off < 0x81000 then s.bellWrite 0 (off - 0x80000) v
  else if 0x81000 ≤ off ∧ off < 0x81020 then s.ringWrite 0 (off - 0x81000) v
  else s

/-- A write to BAR0 of virtual function f. -/
def State.vfWrite (s : State) (f off : Nat) (v : BitVec 32) : State :=
  if s.barLive = false then s
  else if off < 0x1000 then s.bellWrite f off v
  else if off < 0x1020 then s.ringWrite f (off - 0x1000) v
  else if 0x2000 ≤ off ∧ off < 0x2100 then s.pageWrite (f - 1) 1 0x2000 (off - 0x2000) v
  else s

/-- A write to the management window (R391, R347): MG_RESET, and the recovery registers. The key that
starts a transfer is RECOVERY_TRANSFER. -/
def State.mgmtWrite (s : State) (off : Nat) (v : BitVec 32) : State :=
  let put (f : Security → Security) : State := if s.sec.inRecovery ∧ s.sec.rcvState = 1 then { s with sec := f s.sec } else s
  if s.link.perst ∨ s.mg.powered = false then s
  else if off = 0x400 then (if v = 0xA5A50004#32 then s.moduleReset 2 else s)
  else if off = 0xF000 then (if v = 0xA5A50005#32 then s.toRecovery else s)
  else if off = 0xF004 then put (fun x => { x with rcvKind := v.getLsbD 0 })
  else if off = 0xF008 then put (fun x => { x with rcvLo := v &&& 0xFFFFFFC0#32 })
  else if off = 0xF00C then put (fun x => { x with rcvHi := v })
  else if off = 0xF010 then put (fun x => { x with rcvLen := v })
  else s

/-- A control message of the manager that writes TC_SEC or TC_CTRL of a worker (R22). -/
def State.controlWrite (s : State) (off : Nat) (v : BitVec 32) : State :=
  if s.ep.role = 1 ∧ s.mg.powered ∧ (off = 0x1008 ∨ off = 0x100C) then s.tcWrite (off - 0x1000) v else s

/-- REGISTER_WRITE (R385): byte enables that do not cover the word are counted in BADWR (R380). -/
def execRegisterWrite (space : Space) (off : BitVec 32) (v : BitVec 32) (be : BitVec 4) (s : State) : Out :=
  let o := off.toNat
  .next (if space = .control then s.controlWrite o v
    else if o % 4 ≠ 0 ∨ (s.link.perst) then s
    else if be ≠ 0xF#4 then
      (if s.barLive then { s with link := { s.link with badwr := satAdd s.link.badwr 1 } } else s)
    else match space with
      | .pf0 => s.bar0Write o v
      | .pf2 => s.mgmtWrite o v
      | .vf0 n => if 1 ≤ n ∧ n ≤ 64 then s.vfWrite n o v else s
      | .vf2 n => if 1 ≤ n ∧ n ≤ 64 ∧ s.barLive ∧ o < 0x40000 then s.recordWrite (n - 1) o v else s
      | .control => s)

end Sys2Proof.Machine
end

