-- ==== Sys2Proof/Machine/Spdm.lean ====
section
/-! DEFINITION. Identity over the DOE mailbox: the SPDM requests, attestation reports and the keying of
selective IDE streams (R350 to R354). -/
namespace Sys2Proof.Machine

open Sys2Proof

/-! ## The responder (R351) -/

/-- The management firmware runs: stage ROM of the start is over, and the ROM is not in recovery (R344,
R346, Table 18.8). -/
def State.fwRuns (s : State) : Bool :=
  s.mg.powered && !s.mg.supplyFail && !s.sec.inRecovery && (s.mg.ready || decide (2 ≤ s.mg.stage))

/-- The mailbox answers: the physical function's configuration space is served and the firmware runs
(R351). -/
def State.doeServed (s : State) : Bool := s.fwRuns && s.link.cfgServed && !s.link.perst

/-- A change of the SPDM responder. -/
def State.setSpdm (s : State) (f : Spdm → Spdm) : State := { s with sec := { s.sec with spdm := f s.sec.spdm } }

/-- Answer a request. -/
def State.spdmReply (s : State) (r : SpdmReply) : State := s.setSpdm (fun x => { x with reply := r })

/-- A request: nothing where the mailbox is not served; an ERROR reply where the request is not one the
module supports at this point (R351, log 33). -/
def State.spdm (s : State) (ok : Bool) (f : State → State) : Out :=
  .next (if !s.doeServed then s else if ok then f s else s.spdmReply .error)

/-- Version, capabilities and algorithms are agreed (SPDM 1.2, log 33). -/
def State.spdmReady (s : State) : Bool := s.sec.spdm.version && s.sec.spdm.caps && s.sec.spdm.algs

/-- GET_VERSION (R351): SPDM 1.2; the exchange of requests begins anew (log 33). -/
def execGetVersion (s : State) : Out :=
  s.spdm true (fun s => s.setSpdm (fun _ => { version := true, reply := .version }))

/-- GET_CAPABILITIES (R351). -/
def execGetCapabilities (s : State) : Out :=
  s.spdm s.sec.spdm.version (fun s => s.setSpdm (fun x => { x with caps := true, reply := .capabilities }))

/-- NEGOTIATE_ALGORITHMS (R351, Table 17.6): the requester offers the supported set. -/
def execNegotiateAlgorithms (offer : AlgOffer) (s : State) : Out :=
  s.spdm (s.sec.spdm.version && s.sec.spdm.caps && offer.p256 && offer.sha256 && offer.ecdhe && offer.aesGcm)
    (fun s => s.setSpdm (fun x => { x with algs := true, reply := .algorithms }))

/-- GET_DIGESTS (R351): the digest of the chain in slot 0. -/
def execGetDigests (s : State) : Out :=
  s.spdm s.spdmReady (fun s => s.spdmReply (.digests (sha256 Config.certChain)))

/-- GET_CERTIFICATE (R350, R351): a portion of the chain in slot 0, and what remains after it. -/
def execGetCertificate (slot : BitVec 4) (off len : BitVec 16) (s : State) : Out :=
  s.spdm (s.spdmReady && decide (slot = 0#4))
    (fun s =>
      let part := (Config.certChain.drop off.toNat).take len.toNat
      s.spdmReply (.certificate part (Config.certChain.length - off.toNat - part.length)))

/-- A signature of the device key over an SPDM transcript; the transcript's bytes are those of SPDM and
not of this spec, so its digest is a free value (R350, log 33). -/
def State.signed (s : State) : BitVec 512 :=
  Config.sign s.free (BitVec.ofNat 256 (Config.freeValue s.free))

/-- CHALLENGE (R351): signed with the device identity key. -/
def execChallenge (slot : BitVec 4) (nonce : BitVec 256) (s : State) : Out :=
  s.spdm (s.spdmReady && decide (slot = 0#4))
    (fun s => { s.spdmReply (.challengeAuth nonce s.signed) with free := s.free + 1 })

/-! ## Attestation reports (R352, R353) -/

/-- The debug and recovery FLAGS of a report (Table 17.7). -/
def Security.reportFlags (x : Security) : Nat := bits [(0, x.unlocked), (1, x.unlockedEver), (2, x.throughRecovery)]

/-- OWNDIG (Table 17.7). -/
def Security.ownDig (x : Security) : BitVec 256 :=
  sha256 ((List.range 4).flatMap (fun n => digBytes (x.owners.get n {}).key ++ leBytes 1 (bnat (x.owners.get n {}).revoked)))

/-- One context entry (Table 17.8). -/
def Context.reportEntry (x : Context) (c : Nat) : List Byte :=
  leBytes 1 c ++ leBytes 1 x.st.code ++ leBytes 1 x.wset.st ++ leBytes 1 (bits [(0, x.strict), (1, x.capture)]) ++
  leBytes 2 x.job ++ leBytes 2 x.rank ++ leBytes 2 x.wset.epoch ++ List.replicate 2 0 ++ leBytes 4 x.wset.lvf ++
  digBytes ((x.prog.map (·.digest)).getD 0) ++ digBytes ((x.prog.map (·.toolid)).getD 0) ++
  digBytes (if x.wset.st = 0 then 0 else x.wset.root)

/-- The header of a report over n entries (Table 17.7). -/
def State.reportHead (s : State) (n : Nat) (nonce : BitVec 256) : List Byte :=
  leBytes 4 0x3152414A ++ leBytes 2 1 ++ leBytes 1 n ++ leBytes 1 s.sec.reportFlags ++
  leBytes 1 s.ident.grade.toNat ++ leBytes 1 s.ident.step.toNat ++ leBytes 1 s.ident.lattab.toNat ++ leBytes 1 0 ++
  leBytes 4 s.sec.svn ++ leBytes 8 s.sec.latch.ver.toNat ++ leBytes 8 s.tcb.now ++ digBytes nonce ++
  digBytes s.sec.latch.digest ++ digBytes s.mapDig ++ digBytes s.sec.ownDig ++ leBytes 4 s.mg.rstCnt.toNat ++ List.replicate 28 0

/-- A report over the contexts of a list (R352): every byte before the signature. -/
def State.report (s : State) (cs : List Nat) (nonce : BitVec 256) : List Byte :=
  s.reportHead cs.length nonce ++ cs.flatMap (fun c => (s.ctx c).reportEntry c)

/-- The contexts of a measurement index: every one that is not FREE, or one alone (R352). -/
def State.reportCtxs (s : State) (index : Nat) : List Nat :=
  let live (c : Nat) : Bool := decide ((s.ctx c).st ≠ .free)
  if index = 0x40 then (List.range 64).filter live else [index - 0x41].filter live

/-- GET_MEASUREMENTS (R351 to R353): FWDIG at 0x01, a report at 0x40 and at 0x41 + c; any other index is
not supported. -/
def execGetMeasurements (index : BitVec 8) (nonce : BitVec 256) (s : State) : Out :=
  s.spdm (s.spdmReady && (decide (index = 1#8) || (decide (0x40 ≤ index.toNat) && decide (index.toNat ≤ 0x80))))
    (fun s =>
      let bs := if index = 1#8 then digBytes s.sec.latch.digest else s.report (s.reportCtxs index.toNat) nonce
      let sig := if index = 1#8 then s.signed else Config.sign s.free (sha256 bs)
      { s.spdmReply (.measurements bs sig) with free := s.free + 1 })

/-! ## Sessions and IDE (R354) -/

/-- KEY_EXCHANGE (R354): a session under the device identity key; FINISH completes it. -/
def execKeyExchange (slot : BitVec 4) (_nonce : BitVec 256) (_share : BitVec 512) (s : State) : Out :=
  s.spdm (s.spdmReady && decide (slot = 0#4))
    (fun s =>
      let t := s.setSpdm (fun x => { x with session := 1, reply := .keyExchangeRsp (Config.share s.free) s.signed })
      { t with free := s.free + 1 })

/-- FINISH (R351): `good` says that the requester's HMAC verifies. -/
def execFinish (good : Bool) (s : State) : Out :=
  s.spdm (decide (s.sec.spdm.session = 1))
    (fun s =>
      if good then
        let t := s.setSpdm (fun x => { x with session := 2, reply := .finishRsp (Config.mac s.free) })
        { t with free := s.free + 1 }
      else s.setSpdm (fun x => { x with session := 0, reply := .error }))

/-- END_SESSION (R351). -/
def execEndSession (s : State) : Out :=
  s.spdm (decide (s.sec.spdm.session = 2)) (fun s => s.setSpdm (fun x => { x with session := 0, reply := .endSessionAck }))

/-- IDE_KM (R354, Table 20.3): inside a session, a stream is keyed and leaves the insecure state. -/
def execIdeKm (stream : BitVec 3) (key : BitVec 256) (s : State) : Out :=
  s.spdm (decide (s.sec.spdm.session = 2))
    (fun s =>
      let b := 1#8 <<< stream.toNat
      let l := s.link
      { s.spdmReply .ideKm with
          link := { l with ideKeys := l.ideKeys.put stream.toNat key, keyed := l.keyed ||| b, insecure := l.insecure &&& ~~~b } })

/-- IDE_FAIL (R354): a TLP fails its check on a keyed stream; it is dropped, the stream is insecure. -/
def execIdeFail (stream : BitVec 3) (s : State) : Out :=
  .next (if s.mg.powered && s.link.keyed.getLsbD stream.toNat then
    let s1 := { s with link := { s.link with insecure := s.link.insecure ||| (1#8 <<< stream.toNat) } }
    (s1.logFault 0x0A05 3 noCtx srcHost stream.toNat 0).postPf 0x8801 srcHost stream.toNat 0
  else s)

end Sys2Proof.Machine
end

