-- ==== Sys2Proof/Machine/Monitor.lean ====
section
/-! DEFINITION. The Zewick monitor: its line discipline, read commands, debug unlock and write commands
(R355, R373 to R378). -/
namespace Sys2Proof.Machine

open Sys2Proof

/-! ## Lines (R373, Tables 19.1 to 19.3) -/

def State.setMon (s : State) (f : Monitor → Monitor) : State := { s with mon := f s.mon }

/-- Words of a line, at runs of spaces. -/
def lineWords (l : List Byte) : List (List Byte) :=
  ((l.foldr (fun b (t : List Byte × List (List Byte)) => if b = 0x20#8 then ([], t.1 :: t.2) else (b :: t.1, t.2)) ([], [])) |>
    fun t => t.1 :: t.2).filter (fun w => !w.isEmpty)

/-- The characters of a name. -/
def ascii (w : String) : List Byte := w.toList.map (fun c => BitVec.ofNat 8 c.toNat)

/-- The value of a hexadecimal digit. -/
def hexDigit (b : Byte) : Option Nat :=
  let n := b.toNat
  if 48 ≤ n ∧ n ≤ 57 then some (n - 48)
  else if 97 ≤ n ∧ n ≤ 102 then some (n - 87)
  else if 65 ≤ n ∧ n ≤ 70 then some (n - 55)
  else none

/-- A number as the monitor takes it: decimal, or 0x hexadecimal with optional underscores (Table 19.1). -/
def isNumber (w : List Byte) : Bool :=
  if w.take 2 = ascii "0x" then
    !((w.drop 2).filter (fun b => decide (b ≠ 0x5F#8))).isEmpty && ((w.drop 2).filter (fun b => decide (b ≠ 0x5F#8))).all (fun b => (hexDigit b).isSome)
  else !w.isEmpty && w.all (fun b => decide (48 ≤ b.toNat) && decide (b.toNat ≤ 57))

/-- The commands, with the least and the greatest number of arguments (Tables 19.2, 19.3); `log flash`
and `unlock` are taken apart from them. -/
def commands : List (String × Nat × Nat) :=
  [("id", 0, 0), ("reg", 1, 2), ("start", 0, 0), ("temp", 0, 0), ("log", 0, 1), ("ctx", 1, 1), ("core", 2, 2), ("handle", 2, 3),
   ("mem", 4, 4), ("istore", 3, 4), ("port", 1, 1), ("pips", 1, 1), ("rank", 1, 1), ("route", 1, 1), ("bmask", 0, 0),
   ("dist", 2, 2), ("challenge", 0, 0), ("lock", 0, 0), ("wreg", 2, 2), ("wmem", 4, 4), ("wistore", 11, 11), ("reset", 0, 0)]

/-- The line spells a command with arguments of its form; what each argument may be is the command's own
check. -/
def lineOk (l : List Byte) : Bool :=
  match lineWords l with
  | [] => false
  | w :: args =>
    let args := if w = ascii "log" ∧ args.head? = some (ascii "flash") then args.drop 1 else args
    commands.any (fun e => decide (w = ascii e.1) && decide (e.2.1 ≤ args.length) && decide (args.length ≤ e.2.2)) && args.all isNumber

/-- The 32 bytes of a line of eight groups of eight hexadecimal digits (19, step 3). -/
def certLine (l : List Byte) : Option (List Byte) :=
  let ws := lineWords l
  if ws.length = 8 ∧ ws.all (fun w => decide (w.length = 8) && w.all (fun b => (hexDigit b).isSome)) then
    some (ws.flatMap (fun w => beBytes 4 (w.foldl (fun n b => 16 * n + (hexDigit b).getD 0) 0)))
  else none

/-! ## Answers (R374, Table 19.4) -/

/-- Lines of output. -/
def State.shown (s : State) (ls : List MonOut) : State := s.setMon (fun m => { m with out := m.out ++ ls })

/-- Every end of an unlock attempt draws a new challenge (R355, R376). -/
def State.endAttempt (s : State) : State :=
  { s with mon := { s.mon with collecting := none }, sec := { s.sec with challenge := s.free }, free := s.free + 1 }

/-- The debug certificate's fields (Table 17.9). -/
def certGood (s : State) (m : List Byte) : Bool :=
  decide (leAt m 0 4 = 0x3143444A) && decide (leAt m 4 2 = 1) && decide (leAt m 6 2 < 8) && zeroBytes m 8 8 &&
  decide (digOf (m.drop 0x10) = Config.deviceKey) &&
  decide ((m.drop 0x30).take 16 = (digBytes (Config.random s.sec.challenge)).take 16) &&
  (decide (digOf (m.drop 0x40) = Config.jdKey) ||
    (List.range 4).any (fun n => (s.sec.owners.get n {}).live && decide ((s.sec.owners.get n {}).key = digOf (m.drop 0x40)))) &&
  sigUnder (digOf (m.drop 0x40)) (sha256 (m.take 0x60)) (m.drop 0x60)

/-- The attempt with a whole certificate (R355, R376). -/
def State.tryUnlock (s : State) (m : List Byte) : State :=
  let g0 := leAt m 0x40 4
  if certGood s m then
    let s1 := { s with sec := { s.sec with unlocked := true, perms := BitVec.ofNat 3 (leAt m 6 2), unlockedEver := true } }
    ((((s1.logFault 0x0A06 1 noCtx srcMgmt g0 (leAt m 0x44 4)).postAll 0x8802 srcMgmt g0 (leAt m 6 2)).endAttempt).shown [.ok])
  else ((s.logFault 0x0A07 1 noCtx srcMgmt g0 (leAt m 0x44 4)).endAttempt).shown [.err "CERT"]

/-- A line that no command holds back (R373, R376): `unlock` starts to collect its five lines; a line
that spells no command is answered at once; any other is the command that now answers. An empty line is
answered with the prompt alone (log 34). -/
def State.takeLine (s : State) (l : List Byte) : State :=
  match s.mon.collecting with
  | some m =>
    match certLine l with
    | some bs =>
      if (m ++ bs).length = 160 then s.tryUnlock (m ++ bs)
      else s.setMon (fun x => { x with collecting := some (m ++ bs) })
    | none => s.endAttempt.shown [.err "SYNTAX"]
  | none =>
    if lineWords l = [] then s
    else if lineWords l = [ascii "unlock"] then s.setMon (fun x => { x with collecting := some [] })
    else if lineOk l then s.setMon (fun x => { x with answering := true, current := l })
    else s.shown [.err "SYNTAX"]

/-- The answer in progress ends, and a held line is taken (R373). -/
def State.endAnswer (s : State) : State :=
  let s1 := s.setMon (fun x => { x with answering := false, current := [], heldLine := none })
  match s.mon.heldLine with
  | some l => s1.takeLine l
  | none => s1

/-- MONITOR_LINE (R373). -/
def execMonitorLine (line : List Byte) (s : State) : Out :=
  .next (if !s.mg.powered then s
    else if 128 < line.length then s.shown [.err "LONG"]
    else if s.mon.answering then
      (if s.mon.heldLine.isNone then s.setMon (fun x => { x with heldLine := some line }) else s)
    else s.takeLine line)

/-- MONITOR_ABORT (R373, R376): 0x03 ends the answer in progress, or an unlock attempt. -/
def execMonitorAbort (s : State) : Out :=
  .next (if !s.mg.powered then s
    else if s.mon.collecting.isSome then s.endAttempt.shown [.aborted]
    else if s.mon.answering then (s.shown [.aborted]).endAnswer
    else s)

/-- What a command answers: its output and OK, or ERR and a name. -/
inductive Answer where
  | good (ls : List MonOut)
  | bad (name : String)
  deriving DecidableEq, Repr

/-- The lines of an answer (R374). -/
def Answer.lines : Answer → List MonOut
  | .good ls => ls ++ [.ok]
  | .bad n => [.err n]

/-- A command line is answered; as a line of an unlock attempt it ends the attempt (R376). -/
def State.answer (s : State) (f : State → State × Answer) : Out :=
  .next (if !s.mg.powered then s
    else if s.mon.collecting.isSome then s.endAttempt.shown [.err "SYNTAX"]
    else let t := f s; (t.1.shown t.2.lines).endAnswer)

/-- A read command that only prints. -/
def State.printed (s : State) (a : State → Answer) : Out := s.answer (fun s => (s, a s))

/-! ## Read commands (R375, Table 19.2) -/

/-- MONITOR_ID. -/
def execMonitorId (s : State) : Out :=
  s.printed (fun s => .good [.values "ID_IDENT" [s.bar0Word .monitor 0], .values "ID_REV" [s.bar0Word .monitor 4]])

/-- MONITOR_REG: n words of BAR0 from an offset that SMBus serves; TC_NOW_HI is what the read of TC_NOW_LO latched (R23). -/
def execMonitorReg (off n : Nat) (s : State) : Out :=
  s.answer (fun s =>
    let os := (List.range n).map (fun k => off + 4 * k)
    if off % 4 ≠ 0 ∨ n = 0 ∨ 64 < n ∨ os.any (fun o => !smbServed o) then (s, .bad "RANGE")
    else
      let t := os.foldl (fun t o => t.latchRead .monitor o) s
      (t, .good [.values "reg" (os.map (t.bar0Word .monitor))]))

/-- MONITOR_START. -/
def execMonitorStart (s : State) : Out :=
  s.printed (fun s => .good
    [.values "MG_START" [s.mgWord 0x3020], .values "MG_RSTCAUSE" [s.mgWord 0x3004], .values "MG_RSTCNT" [s.mgWord 0x3008],
     .values "MG_STTIME" ((List.range 10).map (fun k => s.mgWord (0x3080 + 4 * k)))])

/-- MONITOR_TEMP: one line per field row. -/
def execMonitorTemp (s : State) : Out :=
  s.printed (fun s => .good
    ((List.range 6).map (fun r => MonOut.values "MG_TFIELD" ((List.range 8).map (fun k => s.mgWord (0x3200 + 32 * r + 4 * k)))) ++
     [.values "MG_TSTACK" ((List.range 32).map (fun k => s.mgWord (0x3400 + 4 * k))), .values "MG_PIN" [s.mgWord 0x3480],
      .values "MG_COOL" [s.mgWord 0x3484], .values "FS_STATUS" [s.fsWord 0]]))

/-- MONITOR_LOG: the newest n entries, newest first. -/
def execMonitorLog (n : Nat) (s : State) : Out :=
  s.printed (fun s =>
    if n = 0 ∨ 2048 < n then .bad "RANGE"
    else .good ((List.range (min n s.mg.logNext)).filterMap (fun k =>
      let q := s.mg.logNext - 1 - k
      (s.mg.log.find? (q % 2048)).bind (fun e => if e.seq = q then some (MonOut.values "log" e.words) else none))))

/-- MONITOR_LOG_FLASH: the newest n of the entries kept in flash. -/
def execMonitorLogFlash (n : Nat) (s : State) : Out :=
  s.printed (fun s =>
    if n = 0 ∨ 1024 < n then .bad "RANGE"
    else .good ((s.mg.flashLog.take n).map (fun e => MonOut.values "log flash" e.words)))

/-- MONITOR_CTX: the context-setup page, word by word; CX_FCOUNT_HI is what the read of CX_FCOUNT_LO latched (Table 2.2). -/
def execMonitorCtx (c : Nat) (s : State) : Out :=
  s.answer (fun s =>
    if 64 ≤ c then (s, .bad "RANGE")
    else
      let t := s.latchFcount .monitor c
      (t, .good [.values "ctx" ((List.range 23).map (fun k => (t.ctx c).word .monitor (4 * k)))]))

/-- The core of (cx, cy). -/
def coreAt (cx cy : Nat) : Nat := 640 * cy + cx

/-- Commands that need the panel: arguments in range, and stage SCRUB over (R375). -/
def State.panelOpen (s : State) (ok : Bool) (a : Answer) : Answer :=
  if !ok then .bad "RANGE" else if !s.mg.ready && decide (s.mg.stage ≤ 7) then .bad "NOTREADY" else a

/-- A read of the panel: a core whose rail SUPPLY_FAIL switched off does not respond (R331, R374). -/
def State.panelRead (s : State) (ok : Bool) (a : Answer) : Answer :=
  s.panelOpen ok (if s.fs.coreRails then a else .bad "NORESP")

/-- A core of the array. -/
def coreOk (cx cy : Nat) : Bool := decide (cx < 640) && decide (cy < 480)

/-- MONITOR_CORE: the record of DEBUG_READ KIND 1, and the rotation phase. -/
def execMonitorCore (cx cy : Nat) (s : State) : Out :=
  s.printed (fun s =>
    let k := s.core (coreAt cx cy)
    s.panelRead (coreOk cx cy) (.good [.values "core" ((coreRecord k).map (·.toNat)), .values "phase" [k.phase]]))

/-- MONITOR_HANDLE: one entry, or all 64. -/
def execMonitorHandle (cx cy : Nat) (h : Option Nat) (s : State) : Out :=
  s.printed (fun s =>
    let k := s.core (coreAt cx cy)
    s.panelRead (coreOk cx cy && decide (h.getD 0 < 64))
      (.good (match h with
        | some n => [.values "handle" [(k.handle n).toNat]]
        | none => (List.range 64).map (fun n => MonOut.values "handle" [(k.handle n).toNat]))))

/-- Reads of a bound pod need an unlock with PERMS bit 0 (R375, Table 19.4): what they answer without it; a pod being scrubbed is
neither free nor withdrawn. -/
def State.podLocked (s : State) (i : Nat) : Option String :=
  if !s.podTaken (podOf i) then none
  else if !s.sec.unlocked then some "LOCKED"
  else if !s.sec.perms.getLsbD 0 then some "PERM"
  else none

/-- The monitor's own access meets an uncorrectable error: nothing is delivered, the error counts against
the core and is logged, and no context takes a fault (R317, log 34). -/
def State.monUe (s : State) (i : Nat) (f : Nat × Nat × Nat) : State :=
  (s.logFault f.1 2 noCtx (srcCore i) f.2.1 f.2.2).coreUe i

/-- Bytes 16 per line. -/
def rowsOf16 (bs : List Byte) : List MonOut :=
  (List.range ((bs.length + 15) / 16)).map (fun r => MonOut.values "mem" (((bs.drop (16 * r)).take 16).map (·.toNat)))

/-- MONITOR_MEM: scratchpad bytes. -/
def execMonitorMem (cx cy addr len : Nat) (s : State) : Out :=
  s.answer (fun s =>
    let i := coreAt cx cy
    match s.panelRead (coreOk cx cy && decide (1 ≤ len) && decide (len ≤ 4096) && decide (addr + len ≤ 196608)) (.good []) with
    | .bad n => (s, .bad n)
    | .good _ =>
      match s.podLocked i with
      | some e => (s, .bad e)
      | none =>
        let s1 := s.modCore i (fun k => k.correct addr len)
        match (s1.core i).load addr len with
        | .inl bs => (s1, .good (rowsOf16 bs))
        | .inr f => (s1.monUe i f, .bad "NORESP"))

/-- MONITOR_ISTORE: n bundles from bundle b, as eight words each (R45). -/
def execMonitorIstore (cx cy b n : Nat) (s : State) : Out :=
  s.answer (fun s =>
    let i := coreAt cx cy
    let k := s.core i
    match s.panelRead (coreOk cx cy && decide (1 ≤ n) && decide (n ≤ 64) && decide (b + n ≤ 1024)) (.good []) with
    | .bad n => (s, .bad n)
    | .good _ =>
      match s.podLocked i with
      | some e => (s, .bad e)
      | none =>
        let s1 := s.modCore i (fun k => k.correct (196608 + 32 * b) (32 * n))
        match k.badWord 24576 (32 * b) (32 * (b + n)) with
        | some a => (s1.monUe i (0x0207, 1, a), .bad "NORESP")
        | none => (s1, .good ((List.range n).map (fun j =>
            MonOut.values "istore" ((Cells.read 0 k.istore (8 * (b + j)) 8).map (·.toNat))))))

/-- MONITOR_PORT. -/
def execMonitorPort (n : Nat) (s : State) : Out :=
  s.printed (fun s =>
    if 6 ≤ n then .bad "RANGE"
    else .good [.values "port" ([0, 4, 8, 12, 16, 20, 24].map (s.epPort n).word)])

/-- MONITOR_PIPS. -/
def execMonitorPips (n : Nat) (s : State) : Out :=
  s.printed (fun s =>
    if 6 ≤ n then .bad "RANGE"
    else .good [.values "out" ((List.range 64).map (pipOwner (s.epPort n).pipTx)), .values "in" ((List.range 64).map (pipOwner (s.epPort n).pipRx))])

/-- MONITOR_RANK: valid entries only (R224). -/
def execMonitorRank (job : Nat) (s : State) : Out :=
  s.printed (fun s =>
    if 65536 ≤ job then .bad "RANGE"
    else .good (((s.ep.ranks.get job []).filter (fun e => e.2.getLsbD 31)).map (fun e => MonOut.values "rank" [e.1, e.2.toNat])))

/-- MONITOR_ROUTE: entries other than default; JOB 0xFFFF gives the control table (R226). -/
def execMonitorRoute (job : Nat) (s : State) : Out :=
  s.printed (fun s =>
    if 65536 ≤ job then .bad "RANGE"
    else .good (((if job = 0xFFFF then s.ep.control else s.ep.tables.get job []).filter (fun e => decide (e.2 ≠ 7#8))).map
      (fun e => MonOut.values "route" [e.1, e.2.toNat])))

/-- MONITOR_BMASK (R235). -/
def execMonitorBmask (s : State) : Out := s.printed (fun s => .good [.values "bmask" [s.ep.bmask.toNat]])

/-- MONITOR_DIST: the 40 entries of a pod (Table 6.6). -/
def execMonitorDist (bx by_ : Nat) (s : State) : Out :=
  s.printed (fun s =>
    if 16 ≤ bx ∨ 12 ≤ by_ then .bad "RANGE"
    else .good [.values "dist" ((List.range 40).map (fun d => s.distWord (0x40 + 4 * (40 * (16 * by_ + bx) + d))))])

/-- MONITOR_CHALLENGE: four groups of four bytes (R355). -/
def execMonitorChallenge (s : State) : Out :=
  s.printed (fun s =>
    let bs := (digBytes (Config.random s.sec.challenge)).take 16
    .good [.values "challenge" ((List.range 4).map (fun g => beNat ((bs.drop (4 * g)).take 4)))])

/-! ## Unlocking and write commands (R355, R376 to R378, Table 19.3) -/

/-- MONITOR_UNLOCK: `unlock` with the bytes of its lines; fewer than 160 is an attempt that another line
ended. -/
def execMonitorUnlock (cert : List Byte) (s : State) : Out :=
  .next (if !s.mg.powered then s
    else if cert.length = 160 then (s.tryUnlock cert).endAnswer
    else (s.endAttempt.shown [.err "SYNTAX"]).endAnswer)

/-- MONITOR_LOCK (R376). -/
def execMonitorLock (s : State) : Out :=
  s.answer (fun s => ({ s with sec := { s.sec with unlocked := false, perms := 0 } }, .good []))

/-- A write command that needs a PERMS bit (R374, R377). -/
def State.writeCmd (s : State) (bit : Nat) (f : State → State × Answer) : Out :=
  s.answer (fun s =>
    if !s.sec.unlocked then (s, .bad "LOCKED")
    else if !s.sec.perms.getLsbD bit then (s, .bad "PERM")
    else if !s.fwRuns then (s, .bad "NORESP")
    else f s)

/-- MONITOR_WREG: a write of the physical function (R7 to R9). The answer goes out first: the word may be
MG_RESET. -/
def execMonitorWreg (off : Nat) (v : BitVec 32) (s : State) : Out :=
  if off < 0x100000 ∧ off % 4 = 0 ∧ off = 0x3000 ∧ s.mg.powered ∧ s.mon.collecting.isNone ∧ s.sec.unlocked ∧ s.sec.perms.getLsbD 0 ∧ s.fwRuns then
    .next ((s.shown [.ok]).endAnswer.bar0Write off v)
  else s.writeCmd 0 (fun s => if 0x100000 ≤ off ∨ off % 4 ≠ 0 then (s, .bad "RANGE") else (s.bar0Write off v, .good []))

/-- A pod that `wmem` and `wistore` cannot write (R378). -/
def State.podScrubs (s : State) (pod : Nat) : Bool :=
  s.liveCtxs.any (fun c => decide ((s.ctx c).st = .scrubbing) && (((s.ctx c).part.map (fun r => r.hasPod pod)).getD false))

/-- Write a panel store from the monitor. -/
def State.panelWrite (s : State) (ok : Bool) (i : Nat) (f : State → State × Answer) : State × Answer :=
  match s.panelOpen ok (.good []) with
  | .bad n => (s, .bad n)
  | .good _ => if s.podScrubs (podOf i) then (s, .bad "BUSY") else f s

/-- The bytes lie in a descriptor handle, so that the write goes to the descriptor store too (R103). -/
def Core.inDesc (k : Core) (addr : Nat) : Bool :=
  (List.range 64).any (fun h => hDesc (k.handle h) && hValid (k.handle h) && decide (hByte (k.handle h) ≤ addr) &&
    decide (addr < hByte (k.handle h) + hBytes (k.handle h)))

/-- MONITOR_WMEM: one aligned word, in a host/debug turn. -/
def execMonitorWmem (cx cy addr : Nat) (v : BitVec 32) (s : State) : Out :=
  let i := coreAt cx cy
  s.writeCmd 0 (fun s => s.panelWrite (coreOk cx cy && decide (addr % 4 = 0) && decide (addr + 4 ≤ 196608)) i (fun s =>
    match (s.core i).store addr (leBytes 4 v.toNat) with
    | .inl k => (s.setCore i (if k.inDesc addr then { k with dstore := Cells.write 0 k.dstore addr (leBytes 4 v.toNat) } else k), .good [])
    | .inr f => (s.monUe i f, .bad "NORESP")))

/-- MONITOR_WISTORE: bundle b whole, in one cycle (R378); its check bits are new. -/
def execMonitorWistore (cx cy b : Nat) (ws : List (BitVec 32)) (s : State) : Out :=
  let i := coreAt cx cy
  s.writeCmd 1 (fun s =>
    if ws.length ≠ 8 then (s, .bad "SYNTAX")
    else s.panelWrite (coreOk cx cy && decide (b < 1024)) i (fun s =>
      let fresh (l : List Nat) : List Nat := l.filter (fun w => !(decide (24576 + 4 * b ≤ w) && decide (w < 24576 + 4 * b + 4)))
      (s.modCore i (fun k => { k with istore := Cells.write 0 k.istore (8 * b) ws, eccSingle := fresh k.eccSingle, eccDouble := fresh k.eccDouble }),
       .good [])))

/-- MONITOR_RESET: OK, then a module reset of cause 7. -/
def execMonitorReset (s : State) : Out :=
  if s.mg.powered ∧ s.mon.collecting.isNone ∧ s.sec.unlocked ∧ s.sec.perms.getLsbD 2 ∧ s.fwRuns then
    .next ((s.shown [.ok]).endAnswer.moduleReset 7)
  else s.writeCmd 2 (fun s => (s, .good []))

end Sys2Proof.Machine
end

