-- ==== Sys2Proof/Machine/Slots.lean ====
section
/-! DEFINITION. The slot commands: core x issues a bundle with one slot named by the command and the
others by `rest` (log 7); what issue does is Machine/Issue.lean. -/
namespace Sys2Proof.Machine

open Sys2Proof

/-! ## Commands of the SC and SY slots (R47 to R56) -/

/-- SETC (R50). -/
def execSetc (x : CoreId) (c : BitVec 3) (hi : Bool) (imm : BitVec 16) (rest : Bundle) (s : State) : Out :=
  runBundle x { rest with sc := .setc c hi imm } s
/-- INCC (R50). -/
def execIncc (x : CoreId) (c : BitVec 3) (stp : BitVec 16) (rest : Bundle) (s : State) : Out :=
  runBundle x { rest with sc := .incc c stp } s
/-- SETK (R50). -/
def execSetk (x : CoreId) (k : BitVec 2) (c : BitVec 3) (cond : BitVec 2) (limit : BitVec 20)
    (rest : Bundle) (s : State) : Out :=
  runBundle x { rest with sc := .setk k c cond limit } s
/-- JMP (R47). -/
def execJmp (x : CoreId) (target : BitVec 10) (rest : Bundle) (s : State) : Out :=
  runBundle x { rest with sc := .jmp target } s
/-- BR (R47). -/
def execBr (x : CoreId) (k : BitVec 2) (sense : Bool) (target : BitVec 10) (rest : Bundle) (s : State) : Out :=
  runBundle x { rest with sc := .br k sense target } s
/-- LOOP (R51). -/
def execLoop (x : CoreId) (c : BitVec 3) (k : BitVec 2) (stp : BitVec 8) (target : BitVec 10)
    (rest : Bundle) (s : State) : Out :=
  runBundle x { rest with sc := .loop c k stp target } s
/-- STOP (R52). -/
def execStop (x : CoreId) (rest : Bundle) (s : State) : Out :=
  runBundle x { rest with sc := .stop } s
/-- TRAP (R50). -/
def execTrap (x : CoreId) (rest : Bundle) (s : State) : Out :=
  runBundle x { rest with sc := .trap } s
/-- TICK (R53). -/
def execTick (x : CoreId) (rest : Bundle) (s : State) : Out :=
  runBundle x { rest with sy := .tick } s
/-- WAITCY (R54). -/
def execWaitcy (x : CoreId) (n : BitVec 16) (rest : Bundle) (s : State) : Out :=
  runBundle x { rest with sy := .waitcy n } s
/-- QWAIT (R53). -/
def execQwait (x : CoreId) (port : BitVec 5) (qp : BitVec 8) (rest : Bundle) (s : State) : Out :=
  runBundle x { rest with sy := .qwait port qp } s
/-- QLEV (R145). -/
def execQlev (x : CoreId) (port : BitVec 5) (qp : BitVec 8) (dir : Bool) (geLe : Bool) (n : BitVec 12)
    (rest : Bundle) (s : State) : Out :=
  runBundle x { rest with sy := .qlev port qp dir geLe n } s
/-- EXPECT (R55). -/
def execExpect (x : CoreId) (h : BitVec 6) (offset : BitVec 10) (length : BitVec 8) (tag : BitVec 3)
    (rest : Bundle) (s : State) : Out :=
  runBundle x { rest with sy := .expect h offset length tag } s
/-- MWAIT (R55). -/
def execMwait (x : CoreId) (tag : BitVec 3) (rest : Bundle) (s : State) : Out :=
  runBundle x { rest with sy := .mwait tag } s
/-- FWAIT (R53). -/
def execFwait (x : CoreId) (c : BitVec 3) (rest : Bundle) (s : State) : Out :=
  runBundle x { rest with sy := .fwait c } s
/-- ATTEND (R56). -/
def execAttend (x : CoreId) (h : BitVec 6) (offset : BitVec 10) (rest : Bundle) (s : State) : Out :=
  runBundle x { rest with sy := .attend h offset } s
/-- DRAIN (R108). -/
def execDrain (x : CoreId) (rest : Bundle) (s : State) : Out :=
  runBundle x { rest with sy := .drain } s

/-! ## Commands of the MX and VE slots (R57 to R59, R69 to R90) -/

/-- MMA (R71). -/
def execMma (x : CoreId) (m : MxFields) (rest : Bundle) (s : State) : Out :=
  runBundle x { rest with mx := .mma false m } s
/-- MMAZ (R71). -/
def execMmaz (x : CoreId) (m : MxFields) (rest : Bundle) (s : State) : Out :=
  runBundle x { rest with mx := .mma true m } s
/-- MZERO (R71). -/
def execMzero (x : CoreId) (acc : BitVec 2) (rest : Bundle) (s : State) : Out :=
  runBundle x { rest with mx := .mzero acc } s
/-- VSETLEN (R81). -/
def execVsetlen (x : CoreId) (rows : BitVec 5) (cols : BitVec 5) (rest : Bundle) (s : State) : Out :=
  runBundle x { rest with ve := .vsetlen rows cols } s
/-- VLDT (R99). -/
def execVldt (x : CoreId) (f : VmFields) (rest : Bundle) (s : State) : Out :=
  runBundle x { rest with ve := .vldt f } s
/-- VSTT (R99). -/
def execVstt (x : CoreId) (f : VmFields) (rest : Bundle) (s : State) : Out :=
  runBundle x { rest with ve := .vstt f } s
/-- VACC (R70). -/
def execVacc (x : CoreId) (t : BitVec 4) (acc : BitVec 2) (clr : Bool) (rest : Bundle) (s : State) : Out :=
  runBundle x { rest with ve := .vacc t acc clr } s
/-- VMOVV (R81). -/
def execVmovv (x : CoreId) (t : BitVec 4) (v : BitVec 3) (sub : BitVec 3) (rest : Bundle) (s : State) : Out :=
  runBundle x { rest with ve := .vmovv t v sub } s
/-- VBCT (R82). -/
def execVbct (x : CoreId) (t : BitVec 4) (v : BitVec 3) (sub : BitVec 3) (rest : Bundle) (s : State) : Out :=
  runBundle x { rest with ve := .vbct t v sub } s
/-- VADD (R83). -/
def execVadd (x : CoreId) (f : VaFields) (rest : Bundle) (s : State) : Out :=
  runBundle x { rest with ve := .va .vadd f } s
/-- VMUL (R83). -/
def execVmul (x : CoreId) (f : VaFields) (rest : Bundle) (s : State) : Out :=
  runBundle x { rest with ve := .va .vmul f } s
/-- VFMA (R83). -/
def execVfma (x : CoreId) (f : VaFields) (rest : Bundle) (s : State) : Out :=
  runBundle x { rest with ve := .va .vfma f } s
/-- VMAX (R83). -/
def execVmax (x : CoreId) (f : VaFields) (rest : Bundle) (s : State) : Out :=
  runBundle x { rest with ve := .va .vmax f } s
/-- VMIN (R83). -/
def execVmin (x : CoreId) (f : VaFields) (rest : Bundle) (s : State) : Out :=
  runBundle x { rest with ve := .va .vmin f } s
/-- VCMP (R83). -/
def execVcmp (x : CoreId) (f : VaFields) (rest : Bundle) (s : State) : Out :=
  runBundle x { rest with ve := .va .vcmp f } s
/-- VSEL (R83). -/
def execVsel (x : CoreId) (f : VaFields) (rest : Bundle) (s : State) : Out :=
  runBundle x { rest with ve := .va .vsel f } s
/-- VCVT (R85). -/
def execVcvt (x : CoreId) (f : VaFields) (rest : Bundle) (s : State) : Out :=
  runBundle x { rest with ve := .va .vcvt f } s
/-- VEXP2 (R84). -/
def execVexp2 (x : CoreId) (f : VaFields) (rest : Bundle) (s : State) : Out :=
  runBundle x { rest with ve := .va .vexp2 f } s
/-- VRCP (R84). -/
def execVrcp (x : CoreId) (f : VaFields) (rest : Bundle) (s : State) : Out :=
  runBundle x { rest with ve := .va .vrcp f } s
/-- VRSQ (R84). -/
def execVrsq (x : CoreId) (f : VaFields) (rest : Bundle) (s : State) : Out :=
  runBundle x { rest with ve := .va .vrsq f } s
/-- VREDR (R83). -/
def execVredr (x : CoreId) (t : BitVec 4) (v : BitVec 3) (sub : BitVec 3) (rest : Bundle) (s : State) : Out :=
  runBundle x { rest with ve := .vred false t v sub } s
/-- VREDC (R83). -/
def execVredc (x : CoreId) (t : BitVec 4) (v : BitVec 3) (sub : BitVec 3) (rest : Bundle) (s : State) : Out :=
  runBundle x { rest with ve := .vred true t v sub } s
/-- VSMAX (R88). -/
def execVsmax (x : CoreId) (t : BitVec 4) (v : BitVec 3) (w : BitVec 3) (rest : Bundle) (s : State) : Out :=
  runBundle x { rest with ve := .vsmax t v w } s
/-- VSSUM (R89). -/
def execVssum (x : CoreId) (t : BitVec 4) (v : BitVec 3) (w : BitVec 3) (rest : Bundle) (s : State) : Out :=
  runBundle x { rest with ve := .vssum t v w } s

/-! ## Commands of the LD and ST slots (R60, R104 to R107) -/

/-- QREAD (R140). -/
def execQread (x : CoreId) (f : StreamFields) (rest : Bundle) (s : State) : Out :=
  runBundle x { rest with ld := .go .qread f } s
/-- GATHER (R97). -/
def execGather (x : CoreId) (f : StreamFields) (rest : Bundle) (s : State) : Out :=
  runBundle x { rest with ld := .go .gather f } s
/-- RREAD (R127). -/
def execRread (x : CoreId) (f : StreamFields) (rest : Bundle) (s : State) : Out :=
  runBundle x { rest with ld := .go .rread f } s
/-- QWRITE (R140). -/
def execQwrite (x : CoreId) (f : StreamFields) (rest : Bundle) (s : State) : Out :=
  runBundle x { rest with st := .go .qwrite f } s
/-- SCATTER (R97). -/
def execScatter (x : CoreId) (f : StreamFields) (rest : Bundle) (s : State) : Out :=
  runBundle x { rest with st := .go .scatter f } s
/-- MSEND (R126). -/
def execMsend (x : CoreId) (f : StreamFields) (rest : Bundle) (s : State) : Out :=
  runBundle x { rest with st := .go .msend f } s

end Sys2Proof.Machine
end

