-- ==== Sys2Proof/Machine/Dispatch.lean ====
section
/-! DEFINITION. One arm per command. -/
namespace Sys2Proof.Machine

def exec (i : Instr) (s : State) : Host.Outcome State Fault Refusal :=
  match i with
  | .setc x c hi imm rest => Sys2Proof.Machine.execSetc x c hi imm rest s
  | .incc x c stp rest => Sys2Proof.Machine.execIncc x c stp rest s
  | .setk x k c cond limit rest => Sys2Proof.Machine.execSetk x k c cond limit rest s
  | .jmp x target rest => Sys2Proof.Machine.execJmp x target rest s
  | .br x k sense target rest => Sys2Proof.Machine.execBr x k sense target rest s
  | .loop x c k stp target rest => Sys2Proof.Machine.execLoop x c k stp target rest s
  | .stop x rest => Sys2Proof.Machine.execStop x rest s
  | .trap x rest => Sys2Proof.Machine.execTrap x rest s
  | .tick x rest => Sys2Proof.Machine.execTick x rest s
  | .waitcy x n rest => Sys2Proof.Machine.execWaitcy x n rest s
  | .qwait x port qp rest => Sys2Proof.Machine.execQwait x port qp rest s
  | .qlev x port qp dir geLe n rest => Sys2Proof.Machine.execQlev x port qp dir geLe n rest s
  | .expect x h offset length tag rest => Sys2Proof.Machine.execExpect x h offset length tag rest s
  | .mwait x tag rest => Sys2Proof.Machine.execMwait x tag rest s
  | .fwait x c rest => Sys2Proof.Machine.execFwait x c rest s
  | .attend x h offset rest => Sys2Proof.Machine.execAttend x h offset rest s
  | .drain x rest => Sys2Proof.Machine.execDrain x rest s
  | .mma x m rest => Sys2Proof.Machine.execMma x m rest s
  | .mmaz x m rest => Sys2Proof.Machine.execMmaz x m rest s
  | .mzero x acc rest => Sys2Proof.Machine.execMzero x acc rest s
  | .vsetlen x rows cols rest => Sys2Proof.Machine.execVsetlen x rows cols rest s
  | .vldt x f rest => Sys2Proof.Machine.execVldt x f rest s
  | .vstt x f rest => Sys2Proof.Machine.execVstt x f rest s
  | .vacc x t acc clr rest => Sys2Proof.Machine.execVacc x t acc clr rest s
  | .vmovv x t v sub rest => Sys2Proof.Machine.execVmovv x t v sub rest s
  | .vbct x t v sub rest => Sys2Proof.Machine.execVbct x t v sub rest s
  | .vadd x f rest => Sys2Proof.Machine.execVadd x f rest s
  | .vmul x f rest => Sys2Proof.Machine.execVmul x f rest s
  | .vfma x f rest => Sys2Proof.Machine.execVfma x f rest s
  | .vmax x f rest => Sys2Proof.Machine.execVmax x f rest s
  | .vmin x f rest => Sys2Proof.Machine.execVmin x f rest s
  | .vcmp x f rest => Sys2Proof.Machine.execVcmp x f rest s
  | .vsel x f rest => Sys2Proof.Machine.execVsel x f rest s
  | .vcvt x f rest => Sys2Proof.Machine.execVcvt x f rest s
  | .vexp2 x f rest => Sys2Proof.Machine.execVexp2 x f rest s
  | .vrcp x f rest => Sys2Proof.Machine.execVrcp x f rest s
  | .vrsq x f rest => Sys2Proof.Machine.execVrsq x f rest s
  | .vredr x t v sub rest => Sys2Proof.Machine.execVredr x t v sub rest s
  | .vredc x t v sub rest => Sys2Proof.Machine.execVredc x t v sub rest s
  | .vsmax x t v w rest => Sys2Proof.Machine.execVsmax x t v w rest s
  | .vssum x t v w rest => Sys2Proof.Machine.execVssum x t v w rest s
  | .qread x f rest => Sys2Proof.Machine.execQread x f rest s
  | .gather x f rest => Sys2Proof.Machine.execGather x f rest s
  | .rread x f rest => Sys2Proof.Machine.execRread x f rest s
  | .qwrite x f rest => Sys2Proof.Machine.execQwrite x f rest s
  | .scatter x f rest => Sys2Proof.Machine.execScatter x f rest s
  | .msend x f rest => Sys2Proof.Machine.execMsend x f rest s
  | .streamComplete x st id => Sys2Proof.Machine.execStreamComplete x st id s
  | .meshPacketLand src dst chan => Sys2Proof.Machine.execMeshPacketLand src dst chan s
  | .meshNotice x tag => Sys2Proof.Machine.execMeshNotice x tag s
  | .rreadRequest src dst chan => Sys2Proof.Machine.execRreadRequest src dst chan s
  | .reduceAddPacket src dst => Sys2Proof.Machine.execReduceAddPacket src dst s
  | .portSlotService port slot => Sys2Proof.Machine.execPortSlotService port slot s
  | .returnLine port x => Sys2Proof.Machine.execReturnLine port x s
  | .qlevAnswer x => Sys2Proof.Machine.execQlevAnswer x s
  | .qrFlush c port qp => Sys2Proof.Machine.execQrFlush c port qp s
  | .portRefresh port => Sys2Proof.Machine.execPortRefresh port s
  | .patrolScrub port atoms => Sys2Proof.Machine.execPatrolScrub port atoms s
  | .selfRefreshEntry port => Sys2Proof.Machine.execSelfRefreshEntry port s
  | .attendAccept pod => Sys2Proof.Machine.execAttendAccept pod s
  | .attendMemberRelease pod member => Sys2Proof.Machine.execAttendMemberRelease pod member s
  | .attendComplete pod => Sys2Proof.Machine.execAttendComplete pod s
  | .contextTick c => Sys2Proof.Machine.execContextTick c s
  | .frameRunaway c => Sys2Proof.Machine.execFrameRunaway c s
  | .completionPost c seq dma => Sys2Proof.Machine.execCompletionPost c seq dma s
  | .inputFetchDone c dma => Sys2Proof.Machine.execInputFetchDone c dma s
  | .syncPulse => Sys2Proof.Machine.execSyncPulse s
  | .referenceLock => Sys2Proof.Machine.execReferenceLock s
  | .tcHoldover => Sys2Proof.Machine.execTcHoldover s
  | .timeLost => Sys2Proof.Machine.execTimeLost s
  | .referenceReturn off => Sys2Proof.Machine.execReferenceReturn off s
  | .counterSlew => Sys2Proof.Machine.execCounterSlew s
  | .timeTreeExchange t1 t2 t3 t4 => Sys2Proof.Machine.execTimeTreeExchange t1 t2 t3 t4 s
  | .ferrMeasure err => Sys2Proof.Machine.execFerrMeasure err s
  | .timeDrift m aligned => Sys2Proof.Machine.execTimeDrift m aligned s
  | .tcNowLoRead path => Sys2Proof.Machine.execTcNowLoRead path s
  | .cxFcountLoRead path c => Sys2Proof.Machine.execCxFcountLoRead path c s
  | .prepare p => Sys2Proof.Machine.execPrepare p s
  | .mergedReply r => Sys2Proof.Machine.execMergedReply r s
  | .exchangeDecision => Sys2Proof.Machine.execExchangeDecision s
  | .go c => Sys2Proof.Machine.execGo c s
  | .nogo c => Sys2Proof.Machine.execNogo c s
  | .abort c m reason => Sys2Proof.Machine.execAbort c m reason s
  | .launchCount c => Sys2Proof.Machine.execLaunchCount c s
  | .startCollectionDeadline => Sys2Proof.Machine.execStartCollectionDeadline s
  | .stretchRequest c stp => Sys2Proof.Machine.execStretchRequest c stp s
  | .stretchOn c => Sys2Proof.Machine.execStretchOn c s
  | .stretchOff c => Sys2Proof.Machine.execStretchOff c s
  | .stepEvaluation v => Sys2Proof.Machine.execStepEvaluation v s
  | .stepChange stp => Sys2Proof.Machine.execStepChange stp s
  | .forcedStep cond at_ => Sys2Proof.Machine.execForcedStep cond at_ s
  | .forcedStepRelease => Sys2Proof.Machine.execForcedStepRelease s
  | .voltageDroop field mv => Sys2Proof.Machine.execVoltageDroop field mv s
  | .vdroop field => Sys2Proof.Machine.execVdroop field s
  | .supplyFail cause => Sys2Proof.Machine.execSupplyFail cause s
  | .xskew edge => Sys2Proof.Machine.execXskew edge s
  | .thermalTrip sensor reading => Sys2Proof.Machine.execThermalTrip sensor reading s
  | .coolantOk => Sys2Proof.Machine.execCoolantOk s
  | .supplyHigh v => Sys2Proof.Machine.execSupplyHigh v s
  | .supplyLow v => Sys2Proof.Machine.execSupplyLow v s
  | .watchdog => Sys2Proof.Machine.execWatchdog s
  | .hiDbSqt fn v => Sys2Proof.Machine.execHiDbSqt fn v s
  | .hiDbCqh fn v => Sys2Proof.Machine.execHiDbCqh fn v s
  | .hiDbEqh fn v => Sys2Proof.Machine.execHiDbEqh fn v s
  | .hiDbCommit fn v => Sys2Proof.Machine.execHiDbCommit fn v s
  | .hiRctlEnable fn v => Sys2Proof.Machine.execHiRctlEnable fn v s
  | .descriptorTake fn => Sys2Proof.Machine.execDescriptorTake fn s
  | .descriptorTimeout fn slot => Sys2Proof.Machine.execDescriptorTimeout fn slot s
  | .eventLost fn => Sys2Proof.Machine.execEventLost fn s
  | .hostRingLost fn => Sys2Proof.Machine.execHostRingLost fn s
  | .submit fn => Sys2Proof.Machine.execSubmit fn s
  | .programLoad fn dma => Sys2Proof.Machine.execProgramLoad fn dma s
  | .handle fn => Sys2Proof.Machine.execHandle fn s
  | .queueCreate fn => Sys2Proof.Machine.execQueueCreate fn s
  | .queueConfigure fn => Sys2Proof.Machine.execQueueConfigure fn s
  | .queueDelete fn => Sys2Proof.Machine.execQueueDelete fn s
  | .wsetLoad fn dma => Sys2Proof.Machine.execWsetLoad fn dma s
  | .wsetSwap fn dma => Sys2Proof.Machine.execWsetSwap fn dma s
  | .swapSwitch c => Sys2Proof.Machine.execSwapSwitch c s
  | .shardTransferStart c sh => Sys2Proof.Machine.execShardTransferStart c sh s
  | .shardVerdict c sh dma => Sys2Proof.Machine.execShardVerdict c sh dma s
  | .swapResume c => Sys2Proof.Machine.execSwapResume c s
  | .swapLoadedReport job m failed => Sys2Proof.Machine.execSwapLoadedReport job m failed s
  | .recheckVerdict c => Sys2Proof.Machine.execRecheckVerdict c s
  | .recheckAbandon c => Sys2Proof.Machine.execRecheckAbandon c s
  | .editPagetableInit fn dma => Sys2Proof.Machine.execEditPagetableInit fn dma s
  | .editPagetableEdit fn dma => Sys2Proof.Machine.execEditPagetableEdit fn dma s
  | .ptEditPerform c port base => Sys2Proof.Machine.execPtEditPerform c port base s
  | .ptEditComplete c port base => Sys2Proof.Machine.execPtEditComplete c port base s
  | .editPagetableRelease fn => Sys2Proof.Machine.execEditPagetableRelease fn s
  | .start fn => Sys2Proof.Machine.execStart fn s
  | .quiesce fn => Sys2Proof.Machine.execQuiesce fn s
  | .quiesceTick c => Sys2Proof.Machine.execQuiesceTick c s
  | .resume fn => Sys2Proof.Machine.execResume fn s
  | .hostXfer fn => Sys2Proof.Machine.execHostXfer fn s
  | .hostXferDone fn dma => Sys2Proof.Machine.execHostXferDone fn dma s
  | .debugRead fn dma => Sys2Proof.Machine.execDebugRead fn dma s
  | .createContext => Sys2Proof.Machine.execCreateContext s
  | .bind => Sys2Proof.Machine.execBind s
  | .rebind => Sys2Proof.Machine.execRebind s
  | .rebindProceed c bad took => Sys2Proof.Machine.execRebindProceed c bad took s
  | .teardown bad dma => Sys2Proof.Machine.execTeardown bad dma s
  | .windowScrubDone port => Sys2Proof.Machine.execWindowScrubDone port s
  | .windowGrant => Sys2Proof.Machine.execWindowGrant s
  | .windowRelease => Sys2Proof.Machine.execWindowRelease s
  | .retainedFree => Sys2Proof.Machine.execRetainedFree s
  | .slotGrant => Sys2Proof.Machine.execSlotGrant s
  | .libraryInstall dma => Sys2Proof.Machine.execLibraryInstall dma s
  | .libraryInstallDone n dma => Sys2Proof.Machine.execLibraryInstallDone n dma s
  | .libraryGrant => Sys2Proof.Machine.execLibraryGrant s
  | .libraryRemove => Sys2Proof.Machine.execLibraryRemove s
  | .contextReset => Sys2Proof.Machine.execContextReset s
  | .engineHung c source => Sys2Proof.Machine.execEngineHung c source s
  | .engineReset => Sys2Proof.Machine.execEngineReset s
  | .engineResetDone source good => Sys2Proof.Machine.execEngineResetDone source good s
  | .engineFault source => Sys2Proof.Machine.execEngineFault source s
  | .partitionReset bad => Sys2Proof.Machine.execPartitionReset bad s
  | .moduleReset => Sys2Proof.Machine.execModuleReset s
  | .flr c => Sys2Proof.Machine.execFlr c s
  | .flrDone c hung => Sys2Proof.Machine.execFlrDone c hung s
  | .jobCreate dma bad => Sys2Proof.Machine.execJobCreate dma bad s
  | .jobEnd => Sys2Proof.Machine.execJobEnd s
  | .jobLaunch => Sys2Proof.Machine.execJobLaunch s
  | .jobQuiesce => Sys2Proof.Machine.execJobQuiesce s
  | .jobResume => Sys2Proof.Machine.execJobResume s
  | .jobSwap => Sys2Proof.Machine.execJobSwap s
  | .managerTake found => Sys2Proof.Machine.execManagerTake found s
  | .readmit bad => Sys2Proof.Machine.execReadmit bad s
  | .exclude dma => Sys2Proof.Machine.execExclude dma s
  | .ringFormation v found => Sys2Proof.Machine.execRingFormation v found s
  | .adoption a => Sys2Proof.Machine.execAdoption a s
  | .beacon => Sys2Proof.Machine.execBeacon s
  | .heartbeat m => Sys2Proof.Machine.execHeartbeat m s
  | .managerLost => Sys2Proof.Machine.execManagerLost s
  | .moduleFailed m link => Sys2Proof.Machine.execModuleFailed m link s
  | .faultReport m code cls c source arg0 arg1 => Sys2Proof.Machine.execFaultReport m code cls c source arg0 arg1 s
  | .tableChange t => Sys2Proof.Machine.execTableChange t s
  | .cableChange port cable => Sys2Proof.Machine.execCableChange port cable s
  | .cageOvercurrent port => Sys2Proof.Machine.execCageOvercurrent port s
  | .linkTrained port => Sys2Proof.Machine.execLinkTrained port s
  | .linkTrainingTimeout port => Sys2Proof.Machine.execLinkTrainingTimeout port s
  | .linkTrainingRetry port => Sys2Proof.Machine.execLinkTrainingRetry port s
  | .linkAligned port nbr nport delay => Sys2Proof.Machine.execLinkAligned port nbr nport delay s
  | .linkAlignTimeout port => Sys2Proof.Machine.execLinkAlignTimeout port s
  | .linkDown port lanes => Sys2Proof.Machine.execLinkDown port lanes s
  | .codewordGroupRx port g => Sys2Proof.Machine.execCodewordGroupRx port g s
  | .replayResend port pip => Sys2Proof.Machine.execReplayResend port pip s
  | .epfinPacketTx n => Sys2Proof.Machine.execEpfinPacketTx n s
  | .epfinForward port pkt => Sys2Proof.Machine.execEpfinForward port pkt s
  | .epfinPacketRx port pkt => Sys2Proof.Machine.execEpfinPacketRx port pkt s
  | .ideFail stream => Sys2Proof.Machine.execIdeFail stream s
  | .perst => Sys2Proof.Machine.execPerst s
  | .pwrEnRise => Sys2Proof.Machine.execPwrEnRise s
  | .pwrEnFall => Sys2Proof.Machine.execPwrEnFall s
  | .modRstN => Sys2Proof.Machine.execModRstN s
  | .moduleStartStage r => Sys2Proof.Machine.execModuleStartStage r s
  | .refAbsent => Sys2Proof.Machine.execRefAbsent s
  | .temperatureGateClear => Sys2Proof.Machine.execTemperatureGateClear s
  | .mgReset window v => Sys2Proof.Machine.execMgReset window v s
  | .mgFlogack v => Sys2Proof.Machine.execMgFlogack v s
  | .fsPcap v => Sys2Proof.Machine.execFsPcap v s
  | .registerWrite space off v be => Sys2Proof.Machine.execRegisterWrite space off v be s
  | .recoveryEnter v => Sys2Proof.Machine.execRecoveryEnter v s
  | .recoveryTransfer dma flashOk => Sys2Proof.Machine.execRecoveryTransfer dma flashOk s
  | .getVersion => Sys2Proof.Machine.execGetVersion s
  | .getCapabilities => Sys2Proof.Machine.execGetCapabilities s
  | .negotiateAlgorithms offer => Sys2Proof.Machine.execNegotiateAlgorithms offer s
  | .getDigests => Sys2Proof.Machine.execGetDigests s
  | .getCertificate slot off len => Sys2Proof.Machine.execGetCertificate slot off len s
  | .challenge slot nonce => Sys2Proof.Machine.execChallenge slot nonce s
  | .getMeasurements index nonce => Sys2Proof.Machine.execGetMeasurements index nonce s
  | .keyExchange slot nonce share => Sys2Proof.Machine.execKeyExchange slot nonce share s
  | .finish good => Sys2Proof.Machine.execFinish good s
  | .endSession => Sys2Proof.Machine.execEndSession s
  | .ideKm stream key => Sys2Proof.Machine.execIdeKm stream key s
  | .smbusRead off => Sys2Proof.Machine.execSmbusRead off s
  | .smbusReset v => Sys2Proof.Machine.execSmbusReset v s
  | .smbusPcap v => Sys2Proof.Machine.execSmbusPcap v s
  | .monitorLine line => Sys2Proof.Machine.execMonitorLine line s
  | .monitorAbort => Sys2Proof.Machine.execMonitorAbort s
  | .monitorId => Sys2Proof.Machine.execMonitorId s
  | .monitorReg off n => Sys2Proof.Machine.execMonitorReg off n s
  | .monitorStart => Sys2Proof.Machine.execMonitorStart s
  | .monitorTemp => Sys2Proof.Machine.execMonitorTemp s
  | .monitorLog n => Sys2Proof.Machine.execMonitorLog n s
  | .monitorLogFlash n => Sys2Proof.Machine.execMonitorLogFlash n s
  | .monitorCtx c => Sys2Proof.Machine.execMonitorCtx c s
  | .monitorCore cx cy => Sys2Proof.Machine.execMonitorCore cx cy s
  | .monitorHandle cx cy h => Sys2Proof.Machine.execMonitorHandle cx cy h s
  | .monitorMem cx cy addr len => Sys2Proof.Machine.execMonitorMem cx cy addr len s
  | .monitorIstore cx cy b n => Sys2Proof.Machine.execMonitorIstore cx cy b n s
  | .monitorPort n => Sys2Proof.Machine.execMonitorPort n s
  | .monitorPips n => Sys2Proof.Machine.execMonitorPips n s
  | .monitorRank job => Sys2Proof.Machine.execMonitorRank job s
  | .monitorRoute job => Sys2Proof.Machine.execMonitorRoute job s
  | .monitorBmask => Sys2Proof.Machine.execMonitorBmask s
  | .monitorDist bx by_ => Sys2Proof.Machine.execMonitorDist bx by_ s
  | .monitorChallenge => Sys2Proof.Machine.execMonitorChallenge s
  | .monitorUnlock cert => Sys2Proof.Machine.execMonitorUnlock cert s
  | .monitorLock => Sys2Proof.Machine.execMonitorLock s
  | .monitorWreg off v => Sys2Proof.Machine.execMonitorWreg off v s
  | .monitorWmem cx cy addr v => Sys2Proof.Machine.execMonitorWmem cx cy addr v s
  | .monitorWistore cx cy b ws => Sys2Proof.Machine.execMonitorWistore cx cy b ws s
  | .monitorReset => Sys2Proof.Machine.execMonitorReset s
  | .inputPowerLoss => Sys2Proof.Machine.execInputPowerLoss s
  | .perstDeassert => Sys2Proof.Machine.execPerstDeassert s
  | .hostLinkDown => Sys2Proof.Machine.execHostLinkDown s
  | .modRstNRelease => Sys2Proof.Machine.execModRstNRelease s
  | .memberFault c m code => Sys2Proof.Machine.execMemberFault c m code s

end Sys2Proof.Machine
end

