-- ==== Sys2Proof/WellFormed.lean ====
section
/-! DEFINITION. Well-formed commands: operands that name something of the hardware. -/
namespace Sys2Proof

/-- A coordinate of the 640 by 480 array (R10). -/
def CoreId.wf (x : CoreId) : Bool := decide (x.cx < 640) && decide (x.cy < 480)

/-- Every operand names a core, function, Epfin port, pod or field that exists. -/
def Instr.wf : Instr → Bool
  | .setc x _ _ _ _ => x.wf
  | .incc x _ _ _ => x.wf
  | .setk x _ _ _ _ _ => x.wf
  | .jmp x _ _ => x.wf
  | .br x _ _ _ _ => x.wf
  | .loop x _ _ _ _ _ => x.wf
  | .stop x _ => x.wf
  | .trap x _ => x.wf
  | .tick x _ => x.wf
  | .waitcy x _ _ => x.wf
  | .qwait x _ _ _ => x.wf
  | .qlev x _ _ _ _ _ _ => x.wf
  | .expect x _ _ _ _ _ => x.wf
  | .mwait x _ _ => x.wf
  | .fwait x _ _ => x.wf
  | .attend x _ _ _ => x.wf
  | .drain x _ => x.wf
  | .mma x _ _ => x.wf
  | .mmaz x _ _ => x.wf
  | .mzero x _ _ => x.wf
  | .vsetlen x _ _ _ => x.wf
  | .vldt x _ _ => x.wf
  | .vstt x _ _ => x.wf
  | .vacc x _ _ _ _ => x.wf
  | .vmovv x _ _ _ _ => x.wf
  | .vbct x _ _ _ _ => x.wf
  | .vadd x _ _ => x.wf
  | .vmul x _ _ => x.wf
  | .vfma x _ _ => x.wf
  | .vmax x _ _ => x.wf
  | .vmin x _ _ => x.wf
  | .vcmp x _ _ => x.wf
  | .vsel x _ _ => x.wf
  | .vcvt x _ _ => x.wf
  | .vexp2 x _ _ => x.wf
  | .vrcp x _ _ => x.wf
  | .vrsq x _ _ => x.wf
  | .vredr x _ _ _ _ => x.wf
  | .vredc x _ _ _ _ => x.wf
  | .vsmax x _ _ _ _ => x.wf
  | .vssum x _ _ _ _ => x.wf
  | .qread x _ _ => x.wf
  | .gather x _ _ => x.wf
  | .rread x _ _ => x.wf
  | .qwrite x _ _ => x.wf
  | .scatter x _ _ => x.wf
  | .msend x _ _ => x.wf
  | .streamComplete x _ _ => x.wf
  | .meshPacketLand src dst _ => src.wf && dst.wf
  | .meshNotice x _ => x.wf
  | .rreadRequest src dst _ => src.wf && dst.wf
  | .reduceAddPacket src dst => src.wf && dst.wf
  | .portSlotService _ _ => true
  | .returnLine _ x => x.wf
  | .qlevAnswer x => x.wf
  | .qrFlush _ _ _ => true
  | .portRefresh _ => true
  | .patrolScrub _ _ => true
  | .selfRefreshEntry _ => true
  | .attendAccept pod => decide (pod.toNat < 192)
  | .attendMemberRelease pod _ => decide (pod.toNat < 192)
  | .attendComplete pod => decide (pod.toNat < 192)
  | .contextTick _ => true
  | .frameRunaway _ => true
  | .completionPost _ _ _ => true
  | .inputFetchDone _ _ => true
  | .syncPulse => true
  | .referenceLock => true
  | .tcHoldover => true
  | .timeLost => true
  | .referenceReturn _ => true
  | .counterSlew => true
  | .timeTreeExchange _ _ _ _ => true
  | .ferrMeasure _ => true
  | .timeDrift _ _ => true
  | .tcNowLoRead _ => true
  | .cxFcountLoRead _ _ => true
  | .prepare _ => true
  | .mergedReply _ => true
  | .exchangeDecision => true
  | .go _ => true
  | .nogo _ => true
  | .abort _ _ _ => true
  | .launchCount _ => true
  | .startCollectionDeadline => true
  | .stretchRequest _ _ => true
  | .stretchOn _ => true
  | .stretchOff _ => true
  | .stepEvaluation _ => true
  | .stepChange _ => true
  | .forcedStep _ _ => true
  | .forcedStepRelease => true
  | .voltageDroop field _ => decide (field.toNat < 48)
  | .vdroop field => decide (field.toNat < 48)
  | .supplyFail _ => true
  | .xskew _ => true
  | .thermalTrip _ _ => true
  | .coolantOk => true
  | .supplyHigh _ => true
  | .supplyLow _ => true
  | .watchdog => true
  | .hiDbSqt fn _ => decide (fn ≤ 64)
  | .hiDbCqh fn _ => decide (fn ≤ 64)
  | .hiDbEqh fn _ => decide (fn ≤ 64)
  | .hiDbCommit fn _ => decide (fn ≤ 64)
  | .hiRctlEnable fn _ => decide (fn ≤ 64)
  | .descriptorTake fn => decide (fn ≤ 64)
  | .descriptorTimeout fn _ => decide (fn ≤ 64)
  | .eventLost fn => decide (fn ≤ 64)
  | .hostRingLost fn => decide (fn ≤ 64)
  | .submit fn => decide (fn ≤ 64)
  | .programLoad fn _ => decide (fn ≤ 64)
  | .handle fn => decide (fn ≤ 64)
  | .queueCreate fn => decide (fn ≤ 64)
  | .queueConfigure fn => decide (fn ≤ 64)
  | .queueDelete fn => decide (fn ≤ 64)
  | .wsetLoad fn _ => decide (fn ≤ 64)
  | .wsetSwap fn _ => decide (fn ≤ 64)
  | .swapSwitch _ => true
  | .shardTransferStart _ _ => true
  | .shardVerdict _ _ _ => true
  | .swapResume _ => true
  | .swapLoadedReport _ _ _ => true
  | .recheckVerdict _ => true
  | .recheckAbandon _ => true
  | .editPagetableInit fn _ => decide (fn ≤ 64)
  | .editPagetableEdit fn _ => decide (fn ≤ 64)
  | .ptEditPerform _ _ _ => true
  | .ptEditComplete _ _ _ => true
  | .editPagetableRelease fn => decide (fn ≤ 64)
  | .start fn => decide (fn ≤ 64)
  | .quiesce fn => decide (fn ≤ 64)
  | .quiesceTick _ => true
  | .resume fn => decide (fn ≤ 64)
  | .hostXfer fn => decide (fn ≤ 64)
  | .hostXferDone fn _ => decide (fn ≤ 64)
  | .debugRead fn _ => decide (fn ≤ 64)
  | .createContext => true
  | .bind => true
  | .rebind => true
  | .rebindProceed _ _ _ => true
  | .teardown _ _ => true
  | .windowScrubDone _ => true
  | .windowGrant => true
  | .windowRelease => true
  | .retainedFree => true
  | .slotGrant => true
  | .libraryInstall _ => true
  | .libraryInstallDone _ _ => true
  | .libraryGrant => true
  | .libraryRemove => true
  | .contextReset => true
  | .engineHung _ _ => true
  | .engineReset => true
  | .engineResetDone _ _ => true
  | .engineFault _ => true
  | .partitionReset _ => true
  | .moduleReset => true
  | .flr _ => true
  | .flrDone _ _ => true
  | .jobCreate _ _ => true
  | .jobEnd => true
  | .jobLaunch => true
  | .jobQuiesce => true
  | .jobResume => true
  | .jobSwap => true
  | .managerTake _ => true
  | .readmit _ => true
  | .exclude _ => true
  | .ringFormation _ _ => true
  | .adoption _ => true
  | .beacon => true
  | .heartbeat _ => true
  | .managerLost => true
  | .moduleFailed _ _ => true
  | .faultReport _ _ _ _ _ _ _ => true
  | .tableChange _ => true
  | .cableChange port _ => decide (port.toNat < 6)
  | .cageOvercurrent port => decide (port.toNat < 6)
  | .linkTrained port => decide (port.toNat < 6)
  | .linkTrainingTimeout port => decide (port.toNat < 6)
  | .linkTrainingRetry port => decide (port.toNat < 6)
  | .linkAligned port _ _ _ => decide (port.toNat < 6)
  | .linkAlignTimeout port => decide (port.toNat < 6)
  | .linkDown port _ => decide (port.toNat < 6)
  | .codewordGroupRx port g => decide (port.toNat < 6) && decide (g.uncorr + g.corrected ≤ 8) && decide (g.data.length ≤ 5120)
  | .replayResend port _ => decide (port.toNat < 6)
  | .epfinPacketTx _ => true
  | .epfinForward port _ => decide (port.toNat < 6)
  | .epfinPacketRx port _ => decide (port.toNat < 6)
  | .ideFail _ => true
  | .perst => true
  | .pwrEnRise => true
  | .pwrEnFall => true
  | .modRstN => true
  | .moduleStartStage _ => true
  | .refAbsent => true
  | .temperatureGateClear => true
  | .mgReset _ _ => true
  | .mgFlogack _ => true
  | .fsPcap _ => true
  | .registerWrite _ _ _ _ => true
  | .recoveryEnter _ => true
  | .recoveryTransfer _ _ => true
  | .getVersion => true
  | .getCapabilities => true
  | .negotiateAlgorithms _ => true
  | .getDigests => true
  | .getCertificate _ _ _ => true
  | .challenge _ _ => true
  | .getMeasurements _ _ => true
  | .keyExchange _ _ _ => true
  | .finish _ => true
  | .endSession => true
  | .ideKm _ _ => true
  | .smbusRead _ => true
  | .smbusReset _ => true
  | .smbusPcap _ => true
  | .monitorLine _ => true
  | .monitorAbort => true
  | .monitorId => true
  | .monitorReg _ _ => true
  | .monitorStart => true
  | .monitorTemp => true
  | .monitorLog _ => true
  | .monitorLogFlash _ => true
  | .monitorCtx _ => true
  | .monitorCore _ _ => true
  | .monitorHandle _ _ _ => true
  | .monitorMem _ _ _ _ => true
  | .monitorIstore _ _ _ _ => true
  | .monitorPort _ => true
  | .monitorPips _ => true
  | .monitorRank _ => true
  | .monitorRoute _ => true
  | .monitorBmask => true
  | .monitorDist _ _ => true
  | .monitorChallenge => true
  | .monitorUnlock _ => true
  | .monitorLock => true
  | .monitorWreg _ _ => true
  | .monitorWmem _ _ _ _ => true
  | .monitorWistore _ _ _ _ => true
  | .monitorReset => true
  | .inputPowerLoss => true
  | .perstDeassert => true
  | .hostLinkDown => true
  | .modRstNRelease => true
  | .memberFault _ _ _ => true

end Sys2Proof
end

