-- ==== Sys2Proof/Safety.lean ====
section
/-! DEFINITION. What claims are stated with: the command a bundle belongs to, the conditions under
which a bundle issues, the canonical form of every memory, and what a descriptor finds when it is
performed. -/
namespace Sys2Proof.Machine

open Sys2Proof

/-- The command answers a next state, and that state satisfies `P`. -/
def Answers (i : Instr) (s : State) (P : State → Prop) : Prop := ∃ t, exec i s = .next t ∧ P t

/-! ## Bundles (R47 to R68) -/

/-- The core and the bundle of a slot command (log 7). -/
def slotOf : Instr → Option (CoreId × Bundle)
  | .setc x c hi imm rest => some (x, { rest with sc := .setc c hi imm })
  | .incc x c stp rest => some (x, { rest with sc := .incc c stp })
  | .setk x k c cond limit rest => some (x, { rest with sc := .setk k c cond limit })
  | .jmp x target rest => some (x, { rest with sc := .jmp target })
  | .br x k sense target rest => some (x, { rest with sc := .br k sense target })
  | .loop x c k stp target rest => some (x, { rest with sc := .loop c k stp target })
  | .stop x rest => some (x, { rest with sc := .stop })
  | .trap x rest => some (x, { rest with sc := .trap })
  | .tick x rest => some (x, { rest with sy := .tick })
  | .waitcy x n rest => some (x, { rest with sy := .waitcy n })
  | .qwait x port qp rest => some (x, { rest with sy := .qwait port qp })
  | .qlev x port qp dir geLe n rest => some (x, { rest with sy := .qlev port qp dir geLe n })
  | .expect x h offset length tag rest => some (x, { rest with sy := .expect h offset length tag })
  | .mwait x tag rest => some (x, { rest with sy := .mwait tag })
  | .fwait x c rest => some (x, { rest with sy := .fwait c })
  | .attend x h offset rest => some (x, { rest with sy := .attend h offset })
  | .drain x rest => some (x, { rest with sy := .drain })
  | .mma x m rest => some (x, { rest with mx := .mma false m })
  | .mmaz x m rest => some (x, { rest with mx := .mma true m })
  | .mzero x acc rest => some (x, { rest with mx := .mzero acc })
  | .vsetlen x rows cols rest => some (x, { rest with ve := .vsetlen rows cols })
  | .vldt x f rest => some (x, { rest with ve := .vldt f })
  | .vstt x f rest => some (x, { rest with ve := .vstt f })
  | .vacc x t acc clr rest => some (x, { rest with ve := .vacc t acc clr })
  | .vmovv x t v sub rest => some (x, { rest with ve := .vmovv t v sub })
  | .vbct x t v sub rest => some (x, { rest with ve := .vbct t v sub })
  | .vadd x f rest => some (x, { rest with ve := .va .vadd f })
  | .vmul x f rest => some (x, { rest with ve := .va .vmul f })
  | .vfma x f rest => some (x, { rest with ve := .va .vfma f })
  | .vmax x f rest => some (x, { rest with ve := .va .vmax f })
  | .vmin x f rest => some (x, { rest with ve := .va .vmin f })
  | .vcmp x f rest => some (x, { rest with ve := .va .vcmp f })
  | .vsel x f rest => some (x, { rest with ve := .va .vsel f })
  | .vcvt x f rest => some (x, { rest with ve := .va .vcvt f })
  | .vexp2 x f rest => some (x, { rest with ve := .va .vexp2 f })
  | .vrcp x f rest => some (x, { rest with ve := .va .vrcp f })
  | .vrsq x f rest => some (x, { rest with ve := .va .vrsq f })
  | .vredr x t v sub rest => some (x, { rest with ve := .vred false t v sub })
  | .vredc x t v sub rest => some (x, { rest with ve := .vred true t v sub })
  | .vsmax x t v w rest => some (x, { rest with ve := .vsmax t v w })
  | .vssum x t v w rest => some (x, { rest with ve := .vssum t v w })
  | .qread x f rest => some (x, { rest with ld := .go .qread f })
  | .gather x f rest => some (x, { rest with ld := .go .gather f })
  | .rread x f rest => some (x, { rest with ld := .go .rread f })
  | .qwrite x f rest => some (x, { rest with st := .go .qwrite f })
  | .scatter x f rest => some (x, { rest with st := .go .scatter f })
  | .msend x f rest => some (x, { rest with st := .go .msend f })
  | _ => none

/-- The command of an arithmetic operation of the VE slot. -/
def vaCommand (o : VaOp) (x : CoreId) (f : VaFields) (rest : Bundle) : Instr :=
  match o with
  | .vadd => .vadd x f rest | .vmul => .vmul x f rest | .vfma => .vfma x f rest
  | .vmax => .vmax x f rest | .vmin => .vmin x f rest | .vcmp => .vcmp x f rest
  | .vsel => .vsel x f rest | .vcvt => .vcvt x f rest | .vexp2 => .vexp2 x f rest
  | .vrcp => .vrcp x f rest | .vrsq => .vrsq x f rest

/-- The command of a stream. -/
def streamCommand (o : StreamOp) (x : CoreId) (f : StreamFields) (rest : Bundle) : Instr :=
  match o with
  | .qread => .qread x f rest | .gather => .gather x f rest | .rread => .rread x f rest
  | .qwrite => .qwrite x f rest | .scatter => .scatter x f rest | .msend => .msend x f rest

/-- A stream of the ST slot (Table 3.8). -/
def StreamOp.ofSt (o : StreamOp) : Bool := o == .qwrite || o == .scatter || o == .msend

/-- The bundle with the stream in its slot. -/
def withStream (o : StreamOp) (f : StreamFields) (rest : Bundle) : Bundle :=
  if StreamOp.ofSt o then { rest with st := .go o f } else { rest with ld := .go o f }

/-- The context that owns a core. -/
def State.ownerOf (s : State) (i : Nat) : Nat := (s.core i).owner.getD 0

/-- The core when its own waits are over: the watch of a QLEV is set and the WAITCY delay has passed
(R54, R68, R145). -/
def State.waitedCore (s : State) (i : Nat) (b : Bundle) : Core :=
  let c := sendWatch (s.core i) b.sy
  c.pass (c.earliest - c.cyc)

/-- The core in the cycle in which the bundle issues: its hazards with a known end are over too
(R58, R62, log 5). -/
def State.issueCore (s : State) (i : Nat) (b : Bundle) : Core :=
  let c := s.waitedCore i b
  c.slipBy (readyAt c b - c.cyc)

/-- The bundle issues at core i: the core is live, the condition of its SY slot holds, it meets no
fault at issue and no uncorrectable error, and no hazard without a known end stalls it (R53, R62,
R68, R112). -/
def Issues (s : State) (i : Nat) (b : Bundle) : Bool :=
  let x := s.ownerOf i
  s.coreLive i && syReady s x i (sendWatch (s.core i) b.sy) b.sy &&
  (bundleFault s x i (s.waitedCore i b) b).isNone && (eccHit (s.waitedCore i b) b).isNone &&
  !stalls s x i (s.issueCore i b) b

/-! ## Descriptors (R268, R280) -/

/-- The descriptor completes, last of all, with a status and DETAIL: what its command did before that
satisfies `P`. -/
def Ends (t : State) (d : Taken) (status detail : Nat) (P : State → Prop) : Prop :=
  ∃ u, t = u.complete d status detail ∧ P u

/-- LEN.ROW and LEN.COL hold 1 to 16 (R69, R81). -/
def Core.lenOk (c : Core) : Bool :=
  decide (1 ≤ c.lenRow) && decide (c.lenRow ≤ 16) && decide (1 ≤ c.lenCol) && decide (c.lenCol ≤ 16)

/-! ## Canonical form of the machine's memories -/

/-- Every memory of a core is in canonical form, its LEN register is in range, and a bundle that has passed its tests
is legal (R68). -/
def Core.canonical (c : Core) : Bool :=
  Cells.wf 0 c.acc && Cells.wf 0 c.tile && Cells.wf 0 c.vec && Cells.wf 0 c.mem && Cells.wf 0 c.istore &&
  Cells.wf 0 c.dstore && Cells.wf handleReset c.handles && c.lenOk && c.tested.all (fun b => b.illegal?.isNone)

/-- Every memory of the machine is in canonical form: those of the cores, the stacks, the host and
the routing tables. -/
def State.canonical (s : State) : Bool :=
  s.panel.cores.all (fun e => e.2.canonical) && s.ports.all (fun e => Cells.wf 0 e.2.mem) &&
  Cells.wf 0 s.link.mem

end Sys2Proof.Machine
end

