-- ==== Sys2Proof/Certificates/Slice0/Obligations.lean ====
section
/-! DEFINITION. The statements for the provers, in the order of OBLIGATIONS.json. -/

open Sys2Proof Sys2Proof.Machine

/-! ## The queue -/

/-- The command at the front of the queue runs on the state with the queue's rest, and its outcome
is the step's (log 4). -/
def Obligations.StepRunsTheFrontCommand : Prop :=
  ∀ (c : Instr) (s : State),
    step { s with pending := c :: s.pending } = exec c s

/-- Every command whose operands name something of the hardware answers a next state; one with a
coordinate outside the array, or a function, port, pod or field that does not exist, faults; no
command is refused. -/
def Obligations.EveryWellFormedCommandAnswers : Prop :=
  ∀ (i : Instr) (s : State),
    (i.wf = true → ∃ t, exec i s = .next t) ∧
    (i.wf = false → exec i s = .fault .noSuchCore ∨ exec i s = .fault .noSuchFunction ∨
      exec i s = .fault .noSuchEpPort ∨ exec i s = .fault .noSuchPod ∨ exec i s = .fault .noSuchField)

/-! ## Issue of a bundle -/

/-- A slot command whose bundle meets no wait, fault or stall issues the whole bundle: every slot reads
the core as it stood before the bundle (R48). -/
def Obligations.SlotCommandIssuesItsBundle : Prop :=
  ∀ (i : Instr) (x : CoreId) (b : Bundle) (s : State),
    slotOf i = some (x, b) → inArray x = true → Issues s (coreIdx x) b = true →
    exec i s = .next (issueNow s (s.ownerOf (coreIdx x)) (coreIdx x) (s.issueCore (coreIdx x) b) b)

/-- SETC, INCC and SETK: the counter or comparator they name takes its new value, every other one keeps
its own, and the next bundle is the one at index + 1 modulo 1,024, the SC slot naming no other (R47, R50). -/
def Obligations.CounterCommandsWriteOneCounter : Prop :=
  ∀ (s : State) (x : CoreId) (rest : Bundle), inArray x = true →
    let i := coreIdx x
    let c := s.core i
    (∀ (k : BitVec 3) (hi : Bool) (imm : BitVec 16),
      Issues s i { rest with sc := .setc k hi imm } = true →
      Answers (.setc x k hi imm rest) s (fun t =>
        (t.core i).ctr k.toNat = (if hi then imm ++ (c.ctr k.toNat).extractLsb' 0 16 else imm.zeroExtend 32) ∧
        (∀ n, n ≠ k.toNat → (t.core i).ctr n = c.ctr n) ∧
        (t.core i).cmps = c.cmps ∧ (t.core i).bidx = c.bidx + 1)) ∧
    (∀ (k : BitVec 3) (d : BitVec 16), Issues s i { rest with sc := .incc k d } = true →
      Answers (.incc x k d rest) s (fun t =>
        (t.core i).ctr k.toNat = c.ctr k.toNat + d.signExtend 32 ∧
        (∀ n, n ≠ k.toNat → (t.core i).ctr n = c.ctr n) ∧
        (t.core i).cmps = c.cmps ∧ (t.core i).bidx = c.bidx + 1)) ∧
    (∀ (k : BitVec 2) (n : BitVec 3) (cond : BitVec 2) (lim : BitVec 20),
      Issues s i { rest with sc := .setk k n cond lim } = true →
      Answers (.setk x k n cond lim rest) s (fun t =>
        (t.core i).cmp k.toNat = { ctr := n, cond := cond, limit := lim } ∧
        (∀ m, m ≠ k.toNat → (t.core i).cmp m = c.cmp m) ∧
        (t.core i).ctrs = c.ctrs ∧ (t.core i).bidx = c.bidx + 1))

/-- JMP, BR and STOP: the bundle that follows, and the stop of issue; no counter and no comparator
changes (R47, R50, R52). A stopped core issues nothing more. -/
def Obligations.BranchCommandsNameTheNextBundle : Prop :=
  ∀ (s : State) (x : CoreId) (rest : Bundle), inArray x = true →
    let i := coreIdx x
    let c := s.core i
    (∀ target : BitVec 10, Issues s i { rest with sc := .jmp target } = true →
      Answers (.jmp x target rest) s (fun t =>
        (t.core i).bidx = target ∧ (t.core i).ctrs = c.ctrs ∧ (t.core i).cmps = c.cmps)) ∧
    (∀ (k : BitVec 2) (sense : Bool) (target : BitVec 10), Issues s i { rest with sc := .br k sense target } = true →
      Answers (.br x k sense target rest) s (fun t =>
        (t.core i).bidx = (if (c.cmp k.toNat).holds (c.ctr (c.cmp k.toNat).ctr.toNat) = sense then target else c.bidx + 1) ∧
        (t.core i).ctrs = c.ctrs ∧ (t.core i).cmps = c.cmps)) ∧
    (Issues s i { rest with sc := .stop } = true →
      Answers (.stop x rest) s (fun t =>
        (t.core i).stopped = true ∧ (t.core i).ctrs = c.ctrs ∧ (t.core i).cmps = c.cmps ∧
        ∀ b : Bundle, runBundle x b t = .next t))

/-- LOOP (R51): the condition and limit of comparator K are applied to the incremented value of
counter C, whichever counter K is bound to; a condition that does not hold goes to the target; no
binding and no other counter changes; every other slot does what it does beside an SC slot that is
empty. -/
def Obligations.LoopTestsTheIncrementedCounter : Prop :=
  ∀ (s : State) (x : CoreId) (rest : Bundle) (n : BitVec 3) (k : BitVec 2) (d : BitVec 8) (target : BitVec 10),
    inArray x = true →
    let i := coreIdx x
    let c := s.core i
    let v := c.ctr n.toNat + d.signExtend 32
    let b : Bundle := { rest with sc := .loop n k d target }
    Issues s i b = true →
    Answers (.loop x n k d target rest) s (fun t =>
      (t.core i).ctr n.toNat = v ∧ (∀ m, m ≠ n.toNat → (t.core i).ctr m = c.ctr m) ∧
      (t.core i).cmps = c.cmps ∧
      (t.core i).bidx = (if (c.cmp k.toNat).holds v then c.bidx + 1 else target) ∧
      let u := issueNow s (s.ownerOf i) i (s.issueCore i b) { rest with sc := .nop }
      t.core i = { u.core i with ctrs := (t.core i).ctrs, bidx := (t.core i).bidx } ∧
      t.ports = u.ports ∧ t.panel.seqs = u.panel.seqs)

/-- WAITCY (R54): a bundle with WAITCY N that issues in cycle t sets the earliest issue cycle to
t + N + 1, whatever its SC slot does, and no bundle of the core issues before it. -/
def Obligations.WaitcySetsTheEarliestCycle : Prop :=
  ∀ (s : State) (x : CoreId) (n : BitVec 16) (rest : Bundle), inArray x = true →
    let i := coreIdx x
    let b : Bundle := { rest with sy := .waitcy n }
    Issues s i b = true →
    Answers (.waitcy x n rest) s (fun t =>
      (t.core i).earliest = (s.issueCore i b).cyc + n.toNat + 1 ∧
      ∀ b' : Bundle, (s.issueCore i b).cyc + n.toNat + 1 ≤ (t.waitedCore i b').cyc)

/-- TICK, QWAIT, MWAIT, FWAIT, QLEV and DRAIN: a bundle that issues takes what its operation waits for,
one tick, one packet notice or one unclaimed notice; FWAIT, QLEV and DRAIN take nothing. TICK latches
the frame's slip, idle count and flags and starts them again at 0, the flags that its own bundle raises being the first
of the next frame (R53, R63, R90; the last clause is this model's choice, log 93). QWAIT names a pair that exists on a
port that serves, for it faults otherwise (R68). -/
def Obligations.BlockingCommandsTakeWhatTheyWaitFor : Prop :=
  ∀ (s : State) (x : CoreId) (rest : Bundle), inArray x = true →
    let i := coreIdx x
    let c := s.core i
    (Issues s i { rest with sy := .tick } = true →
      Answers (.tick x rest) s (fun t =>
        0 < c.pendTicks ∧ (t.core i).pendTicks = c.pendTicks - 1 ∧ (t.core i).waitTick = false ∧
        (t.core i).latSlip = (s.issueCore i { rest with sy := .tick }).slip ∧ (t.core i).latIdle = c.idle ∧
        (t.core i).latFlags = c.flags ∧ (t.core i).slip = 0 ∧ (t.core i).idle = 0 ∧
        (∃ f, (t.core i).flags = f ∧ (t.core i).sticky = c.sticky ||| f ∧ (rest.ve = .nop → rest.mx = .nop → f = 0)) ∧
        (t.core i).unclaimed = c.unclaimed ∧ (t.core i).qnotes = c.qnotes)) ∧
    (∀ (p : BitVec 5) (q : BitVec 8), Issues s i { rest with sy := .qwait p q } = true →
      s.portUp p.toNat = true → (s.port p.toNat).hasPair (s.ownerOf i) q.toNat = true →
      Answers (.qwait x p q rest) s (fun t =>
        let k := 256 * p.toNat + q.toNat
        0 < c.qnotes.get k 0 ∧ (t.core i).qnotes.get k 0 = c.qnotes.get k 0 - 1 ∧
        (∀ m, m ≠ k → (t.core i).qnotes.get m 0 = c.qnotes.get m 0) ∧
        (t.core i).pendTicks = c.pendTicks ∧ (t.core i).unclaimed = c.unclaimed)) ∧
    (∀ (p : BitVec 5) (q : BitVec 8) (dir ge : Bool) (n : BitVec 12), Issues s i { rest with sy := .qlev p q dir ge n } = true →
      Answers (.qlev x p q dir ge n rest) s (fun t =>
        (t.core i).watch = none ∧ (t.core i).qnotes = c.qnotes ∧ (t.core i).pendTicks = c.pendTicks ∧
        (t.core i).unclaimed = c.unclaimed)) ∧
    (∀ tag : BitVec 3, Issues s i { rest with sy := .mwait tag } = true →
      Answers (.mwait x tag rest) s (fun t =>
        0 < c.unclaimed.get tag.toNat 0 ∧ (t.core i).unclaimed.get tag.toNat 0 = c.unclaimed.get tag.toNat 0 - 1 ∧
        (∀ m, m ≠ tag.toNat → (t.core i).unclaimed.get m 0 = c.unclaimed.get m 0) ∧
        (t.core i).pendTicks = c.pendTicks ∧ (t.core i).qnotes = c.qnotes)) ∧
    (∀ k : BitVec 3, Issues s i { rest with sy := .fwait k } = true →
      Answers (.fwait x k rest) s (fun t =>
        (BitVec.ofNat 32 (s.ctx (s.ownerOf i)).fcount - c.ctr k.toNat).msb = false ∧
        (t.core i).pendTicks = c.pendTicks ∧ (t.core i).qnotes = c.qnotes ∧ (t.core i).unclaimed = c.unclaimed)) ∧
    (Issues s i { rest with sy := .drain } = true →
      Answers (.drain x rest) s (fun t =>
        c.ld = [] ∧ c.st = [] ∧
        (t.core i).pendTicks = c.pendTicks ∧ (t.core i).qnotes = c.qnotes ∧ (t.core i).unclaimed = c.unclaimed))

/-- EXPECT and ATTEND: EXPECT registers its named range as a pending write under its tag (R55, R61);
ATTEND registers its ranges and gives its descriptor to the pod's sequencer, which has none (R56, R173). -/
def Obligations.ExpectAndAttendRegisterTheirRanges : Prop :=
  ∀ (s : State) (x : CoreId) (rest : Bundle), inArray x = true →
    let i := coreIdx x
    let c := s.core i
    (∀ (h : BitVec 6) (o : BitVec 10) (n : BitVec 8) (tag : BitVec 3), Issues s i { rest with sy := .expect h o n tag } = true →
      Answers (.expect x h o n tag rest) s (fun t =>
        ∃ e ∈ (t.core i).ranges, (∃ id, e.owner = .expect id tag) ∧ e.write = true ∧
          let a := hByte (c.handle h.toNat) + 256 * o.toNat
          e.lo = a / 64 * 64 ∧ e.hi = (a + 256 * n.toNat + 63) / 64 * 64)) ∧
    (∀ (h : BitVec 6) (o : BitVec 10), Issues s i { rest with sy := .attend h o } = true →
      Answers (.attend x h o rest) s (fun t =>
        s.panel.seqs.has (podOf i) = false ∧
        let j := t.panel.seqs.get (podOf i) {}
        t.panel.seqs.has (podOf i) = true ∧ j.core = i ∧ j.ctx = s.ownerOf i ∧ j.accepted = false ∧
        j.desc = c.storeWords (hByte (c.handle h.toNat) + 256 * o.toNat) 32 ∧
        (∃ e ∈ (t.core i).ranges, e.owner = .attend j.id 2 ∧ e.write = true)))

/-- MMA, MMAZ and MZERO: each element of the named accumulator is the exact sum of its 32 products,
and for MMA of its old value, rounded once; MZERO makes it 0; the elements of every accumulator that
neither the command nor a clearing VACC beside it names keep their values (R71, R75, R76). -/
def Obligations.MatrixCommandsWriteOneAccumulator : Prop :=
  ∀ (s : State) (x : CoreId) (rest : Bundle), inArray x = true → (s.core (coreIdx x)).canonical = true →
    let i := coreIdx x
    let c := s.core i
    (∀ (z : Bool) (m : MxFields) (a j l : Nat), Issues s i { rest with mx := .mma z m } = true → a < 4 → j < 16 → l < 16 →
      Answers (if z then .mmaz x m rest else .mma x m rest) s (fun t =>
        let n := footprint m.fmt.toNat
        let ta := c.bytes (hByte (c.handle m.ah.toNat) + c.tileOff m.aoff m.aidx m.fmt) n
        let tb := c.bytes (hByte (c.handle m.bh.toNat) + c.tileOff m.boff m.bidx m.fmt) n
        (a = m.acc.toNat → (t.core i).accAt a j l =
          (dotElem (if z then none else some (c.accAt a j l)) (tileVec m.fmt.toNat ta j) (tileVec m.fmt.toNat tb l)).1) ∧
        (a ≠ m.acc.toNat → (∀ r, rest.ve ≠ .vacc r (BitVec.ofNat 2 a) true) → (t.core i).accAt a j l = c.accAt a j l))) ∧
    (∀ (k : BitVec 2) (a j l : Nat), Issues s i { rest with mx := .mzero k } = true → a < 4 → j < 16 → l < 16 →
      Answers (.mzero x k rest) s (fun t =>
        (a = k.toNat → (t.core i).accAt a j l = 0) ∧
        (a ≠ k.toNat → (∀ r, rest.ve ≠ .vacc r (BitVec.ofNat 2 a) true) → (t.core i).accAt a j l = c.accAt a j l)))

/-- VSETLEN, VLDT and VSTT: VSETLEN sets both lengths; VLDT fills the lanes inside LEN with the words of
the scratchpad and leaves every other lane; VSTT stores the lanes inside LEN at their addresses, and
every byte outside them keeps its value (R81, R99, R102).
VACC, VMOVV and VBCT: VACC copies all 256 elements of an accumulator whatever LEN holds, and clears
it if asked; VMOVV copies row 0 or column 0 of a tile to a vector; VBCT fills the lanes inside LEN from a
vector, by lane or by row; every lane outside keeps its value (R70, R81, R82). -/
def Obligations.LengthTileAndRegisterMovesCopyLanes : Prop :=
  (
    ∀ (s : State) (x : CoreId) (rest : Bundle), inArray x = true → (s.core (coreIdx x)).canonical = true →
      let i := coreIdx x
      let c := s.core i
      (∀ rows cols : BitVec 5, Issues s i { rest with ve := .vsetlen rows cols } = true →
        Answers (.vsetlen x rows cols rest) s (fun t =>
          (t.core i).lenRow = rows.toNat ∧ (t.core i).lenCol = cols.toNat ∧ (t.core i).lenOk = true ∧
          (t.core i).tile = c.tile ∧ (t.core i).vec = c.vec ∧ (t.core i).mem = c.mem)) ∧
      (∀ (f : VmFields) (n r l : Nat), Issues s i { rest with ve := .vldt f } = true → n < 16 → r < 16 → l < 16 →
        Answers (.vldt x f rest) s (fun t =>
          (t.core i).lane n r l =
            (if n = f.t.toNat ∧ r < c.lenRow ∧ l < c.lenCol then
               c.word32 (hByte (c.handle f.h.toNat) + c.vmOff f + 64 * r + 4 * l)
             else c.lane n r l) ∧
          (t.core i).vec = c.vec ∧ (t.core i).mem = c.mem)) ∧
      (∀ (f : VmFields), Issues s i { rest with ve := .vstt f } = true →
        Answers (.vstt x f rest) s (fun t =>
          let a := hByte (c.handle f.h.toNat) + c.vmOff f
          (∀ r l k, r < c.lenRow → l < c.lenCol → k < 4 →
            Cells.get 0 (t.core i).mem (a + 64 * r + 4 * l + k) = (leBytes 4 (c.lane f.t.toNat r l).toNat).getD k 0) ∧
          (∀ b, (∀ r l k, r < c.lenRow → l < c.lenCol → k < 4 → b ≠ a + 64 * r + 4 * l + k) →
            Cells.get 0 (t.core i).mem b = Cells.get 0 c.mem b) ∧
          (t.core i).tile = c.tile ∧ (t.core i).vec = c.vec))) ∧
  (
    ∀ (s : State) (x : CoreId) (rest : Bundle), inArray x = true → (s.core (coreIdx x)).canonical = true →
      let i := coreIdx x
      let c := s.core i
      (∀ (d : BitVec 4) (a : BitVec 2) (clr : Bool) (n r l : Nat), Issues s i { rest with ve := .vacc d a clr } = true →
        n < 16 → r < 16 → l < 16 →
        Answers (.vacc x d a clr rest) s (fun t =>
          (t.core i).lane n r l = (if n = d.toNat then c.accAt a.toNat r l else c.lane n r l) ∧
          (clr = true → (t.core i).accAt a.toNat r l = 0) ∧ (t.core i).vec = c.vec ∧ (t.core i).mem = c.mem)) ∧
      (∀ (n : BitVec 4) (v sub : BitVec 3) (w l : Nat), Issues s i { rest with ve := .vmovv n v sub } = true → w < 8 → l < 16 →
        Answers (.vmovv x n v sub rest) s (fun t =>
          (t.core i).vlane w l =
            (if w = v.toNat ∧ sub = 0 ∧ l < c.lenCol then c.lane n.toNat 0 l
             else if w = v.toNat ∧ sub ≠ 0 ∧ l < c.lenRow then c.lane n.toNat l 0
             else c.vlane w l) ∧
          (t.core i).tile = c.tile ∧ (t.core i).mem = c.mem)) ∧
      (∀ (d : BitVec 4) (v sub : BitVec 3) (n r l : Nat), Issues s i { rest with ve := .vbct d v sub } = true →
        n < 16 → r < 16 → l < 16 →
        Answers (.vbct x d v sub rest) s (fun t =>
          (t.core i).lane n r l =
            (if n = d.toNat ∧ r < c.lenRow ∧ l < c.lenCol then c.vlane v.toNat (if sub = 0 then l else r)
             else c.lane n r l) ∧
          (t.core i).vec = c.vec ∧ (t.core i).mem = c.mem)))


/-- VADD, VMUL, VFMA, VMAX, VMIN, VCMP, VSEL, VEXP2, VRCP, VRSQ and the lane forms of VCVT: every lane of
the destination inside LEN takes the operation's result on the lanes of its operands as they stood before
the bundle, a broadcast operand B read by column or by row, and every other lane keeps its value; the
flags the lanes raise become sticky (R82, R83, R84, R85, R90). -/
def Obligations.LaneArithmeticWritesTheLanesInsideLen : Prop :=
  ∀ (s : State) (x : CoreId) (rest : Bundle) (o : VaOp) (f : VaFields) (n r l : Nat),
    inArray x = true → (s.core (coreIdx x)).canonical = true → n < 16 → r < 16 → l < 16 →
    let i := coreIdx x
    let c := s.core i
    Issues s i { rest with ve := .va o f } = true → (o = .vcvt → f.sub.toNat ≤ 1 ∨ f.sub.toNat = 7) →
    Answers (vaCommand o x f rest) s (fun t =>
      let b (r l : Nat) : BitVec 32 :=
        if f.bmode = 1 then c.vlane f.vsel.toNat l else if f.bmode = 2 then c.vlane f.vsel.toNat r
        else c.lane f.srcb.toNat r l
      let res (r l : Nat) : FRes := vaLane o f.sub.toNat (c.lane f.srca.toNat r l) (b r l) (c.lane f.srcc.toNat r l)
      (t.core i).lane n r l = (if n = f.dst.toNat ∧ r < c.lenRow ∧ l < c.lenCol then (res r l).1 else c.lane n r l) ∧
      (r < c.lenRow → l < c.lenCol → (t.core i).sticky &&& (res r l).2 = (res r l).2) ∧
      (t.core i).sticky &&& c.sticky = c.sticky ∧ (t.core i).vec = c.vec ∧ (t.core i).mem = c.mem)

/-- VCVT with SUB 2 to 6: the lanes of each row inside LEN take the words the row is staged to, and every
other lane keeps its value (R85, R86, R87). -/
def Obligations.VcvtStagesEachRow : Prop :=
  ∀ (s : State) (x : CoreId) (rest : Bundle) (f : VaFields) (n r l : Nat),
    inArray x = true → (s.core (coreIdx x)).canonical = true → n < 16 → r < 16 → l < 16 →
    let i := coreIdx x
    let c := s.core i
    Issues s i { rest with ve := .va .vcvt f } = true → 2 ≤ f.sub.toNat → f.sub.toNat ≤ 6 →
    Answers (.vcvt x f rest) s (fun t =>
      let b (l : Nat) : BitVec 32 :=
        if f.bmode = 1 then c.vlane f.vsel.toNat l else if f.bmode = 2 then c.vlane f.vsel.toNat r
        else c.lane f.srcb.toNat r l
      let row := (stageRow f.sub.toNat ((List.range c.lenCol).map (c.lane f.srca.toNat r)) ((List.range c.lenCol).map b)).1
      (t.core i).lane n r l = (if n = f.dst.toNat ∧ r < c.lenRow ∧ l < c.lenCol then row.getD l 0 else c.lane n r l) ∧
      (t.core i).vec = c.vec ∧ (t.core i).mem = c.mem)

/-- VREDR, VREDC, VSMAX and VSSUM: one result per row, or per column, of the tile inside LEN; VSMAX and
VSSUM update two vectors and VSMAX the tile as well; every vector lane outside keeps its value (R83, R88,
R89). -/
def Obligations.ReductionsWriteOneResultPerRow : Prop :=
  ∀ (s : State) (x : CoreId) (rest : Bundle), inArray x = true → (s.core (coreIdx x)).canonical = true →
    let i := coreIdx x
    let c := s.core i
    let row (n r : Nat) : List (BitVec 32) := (List.range c.lenCol).map (c.lane n r)
    (∀ (n : BitVec 4) (v sub : BitVec 3) (w l : Nat), Issues s i { rest with ve := .vred false n v sub } = true → w < 8 → l < 16 →
      Answers (.vredr x n v sub rest) s (fun t =>
        (t.core i).vlane w l =
          (if w = v.toNat ∧ l < c.lenRow then (reduceLanes sub.toNat (row n.toNat l)).1 else c.vlane w l) ∧
        (t.core i).tile = c.tile ∧ (t.core i).mem = c.mem)) ∧
    (∀ (n : BitVec 4) (v sub : BitVec 3) (w l : Nat), Issues s i { rest with ve := .vred true n v sub } = true → w < 8 → l < 16 →
      Answers (.vredc x n v sub rest) s (fun t =>
        (t.core i).vlane w l =
          (if w = v.toNat ∧ l < c.lenCol then
             (reduceLanes sub.toNat ((List.range c.lenRow).map (fun r => c.lane n.toNat r l))).1
           else c.vlane w l) ∧
        (t.core i).tile = c.tile ∧ (t.core i).mem = c.mem)) ∧
    (∀ (n : BitVec 4) (v w : BitVec 3) (m k r l : Nat), Issues s i { rest with ve := .vsmax n v w } = true →
      m < 16 → k < 8 → r < 16 → l < 16 →
      Answers (.vsmax x n v w rest) s (fun t =>
        let o := smaxRow (c.vlane v.toNat r) (row n.toNat r)
        (t.core i).vlane k r =
          (if k = v.toNat ∧ r < c.lenRow then o.1 else if k = w.toNat ∧ r < c.lenRow then o.2.1 else c.vlane k r) ∧
        (t.core i).lane m r l =
          (if m = n.toNat ∧ r < c.lenRow ∧ l < c.lenCol then o.2.2.1.getD l 0 else c.lane m r l) ∧
        (t.core i).mem = c.mem)) ∧
    (∀ (n : BitVec 4) (v w : BitVec 3) (k r : Nat), Issues s i { rest with ve := .vssum n v w } = true → k < 8 → r < 16 →
      Answers (.vssum x n v w rest) s (fun t =>
        let o := ssumRow (c.vlane v.toNat r) (c.vlane w.toNat r) (row n.toNat r)
        (t.core i).vlane k r =
          (if k = v.toNat ∧ r < c.lenRow then o.1 else if k = w.toNat ∧ r < c.lenRow then o.2.1 else c.vlane k r) ∧
        (t.core i).tile = c.tile ∧ (t.core i).mem = c.mem))

/-- QREAD, GATHER, RREAD, QWRITE, SCATTER and MSEND: the stream takes its descriptor, its counter value
and its place among the eight of its slot, and registers its ranges; QREAD and QWRITE are posted on the
pair their descriptor names, or, where the core reaches no entry of the port, the context takes MESH_UNREACHABLE
(R60, R104, R107, R119, R140). -/
def Obligations.StreamCommandsTakeTheirSlot : Prop :=
  ∀ (s : State) (x : CoreId) (rest : Bundle) (o : StreamOp) (f : StreamFields), inArray x = true →
    let i := coreIdx x
    let c := s.core i
    let d := c.streamDesc f
    Issues s i (withStream o f rest) = true →
    Answers (streamCommand o x f rest) s (fun t => ∃ id,
      let r := mkStream (s.issueCore i (withStream o f rest)) id o f
      c.nextId ≤ id ∧ id < (t.core i).nextId ∧
      r.desc = d ∧ r.iter = BitVec.ofNat 32 (c.idxVal f.idx) ∧ r.count = streamCount f d ∧
      (StreamOp.ofSt o = true → (t.core i).st = c.st ++ [r] ∧ c.st.length < 8) ∧
      (StreamOp.ofSt o = false → (t.core i).ld = c.ld ++ [r] ∧ c.ld.length < 8) ∧
      (∀ w ∈ streamTouch c o f, entry w.1 (.stream id w.2) ∈ (t.core i).ranges) ∧
      (o.queue = true → (s.portEntry i (dPort d)).isSome = true → ∃ k ∈ ((t.port (dPort d)).pair (s.ownerOf i) (dQp d)).reqs,
        k.core = i ∧ k.s = r ∧ (k.read = true ↔ o = .qread)) ∧
      (o.queue = true → s.portEntry i (dPort d) = none → (t.ctx (s.ownerOf i)).st = .faulted))

/-- TRAP (R46, R68, Table 3.12): in a bundle that is legal, whose own waits are over in this cycle, it does not issue;
none of its slots takes effect, the context takes TRAP with the bundle index and becomes FAULTED, and
issue stops on every core of the context. -/
def Obligations.TrapFaultsItsContext : Prop :=
  ∀ (s : State) (x : CoreId) (rest : Bundle), inArray x = true →
    let i := coreIdx x
    let b : Bundle := { rest with sc := .trap }
    let c := s.ownerOf i
    s.coreLive i = true → syReady s c i (sendWatch (s.core i) b.sy) b.sy = true → b.illegal? = none →
    (s.core i).tested ≠ some b →
    Answers (.trap x rest) s (fun t =>
      (t.ctx c).st = .faulted ∧ (t.ctx c).fault = some 0x0103 ∧ (t.ctx c).batches = [] ∧
      t.core i = s.waitedCore i b ∧ (∀ j, j ≠ i → t.core j = s.core j) ∧
      (∀ j, (t.core j).owner = some c → t.coreLive j = false) ∧
      t.ports = s.ports ∧ t.mg.log.get (s.mg.logNext % 2048) {} =
        (if s.mg.logNext < 2048 ∨ s.mg.logNext - 2048 < s.mg.logAck then
          { seq := s.mg.logNext, code := 0x0103, cls := 2, ctx := BitVec.ofNat 8 c, tc := s.tcb.now,
            source := BitVec.ofNat 32 (3 * 2 ^ 28 + 1024 * coreCy i + coreCx i),
            mod := BitVec.ofNat 16 (s.modIndex?.getD 0xFFFF), arg0 := BitVec.ofNat 32 (s.core i).bidx.toNat, arg1 := 0 }
         else s.mg.log.get (s.mg.logNext % 2048) {}))

/-- A bundle that meets a condition found at issue, in the first cycle in which its own waits are over, does not issue: no
slot takes effect, nothing outside
the context's own records changes in the panel or at the ports, and the context becomes FAULTED; a fault
in a later slot than another is not the one reported, and an illegal slot comes before every other
condition (R68). -/
def Obligations.FaultAtIssueLeavesEverySlotUndone : Prop :=
  ∀ (cmd : Instr) (x : CoreId) (b : Bundle) (s : State) (code a0 a1 : Nat),
    slotOf cmd = some (x, b) → inArray x = true →
    let i := coreIdx x
    let c := s.ownerOf i
    s.coreLive i = true → syReady s c i (sendWatch (s.core i) b.sy) b.sy = true →
    (s.core i).tested ≠ some b → issueFault s c i (s.waitedCore i b) b = some (code, a0, a1) →
    (∀ k, b.illegal? = some k → code = 0x0101 ∧ a0 = (s.core i).bidx.toNat ∧ a1 = k) ∧
    Answers cmd s (fun t =>
      (t.ctx c).st = .faulted ∧ (t.ctx c).fault = some code ∧ t.core i = s.waitedCore i b ∧
      (∀ j, j ≠ i → t.core j = s.core j) ∧ t.ports = s.ports ∧ t.panel = (s.setCore i (s.waitedCore i b)).panel ∧
      (∀ d, d ≠ c → t.ctx d = s.ctx d))

/-- Each cycle in which a live core does not issue is one of three kinds (R63): a wait cycle while the
condition of the SY slot does not hold, idle if it is TICK's; a slip cycle while a hazard without a known
end stalls the bundle; a delay under WAITCY or a hazard with a known end is passed at once and a hazard's
cycles are slip cycles (log 5). A bundle that slips has passed its tests and is not tested again (R68). -/
def Obligations.CyclesWithoutIssueAreWaitsOrSlips : Prop :=
  ∀ (cmd : Instr) (x : CoreId) (b : Bundle) (s : State), slotOf cmd = some (x, b) → inArray x = true →
    let i := coreIdx x
    let c := s.core i
    let o := s.ownerOf i
    let w := s.waitedCore i b
    s.coreLive i = true →
    (syReady s o i (sendWatch c b.sy) b.sy = false →
      Answers cmd s (fun t =>
        (t.core i).cyc = c.cyc + 1 ∧ (t.core i).slip = c.slip ∧ (t.core i).slipTotal = c.slipTotal ∧
        (t.core i).idle = (if b.sy = .tick then c.idle + 1 else c.idle) ∧ (t.core i).bidx = c.bidx ∧
        (t.core i).ctrs = c.ctrs ∧ (t.core i).mem = c.mem ∧ ∀ j, j ≠ i → t.core j = s.core j)) ∧
    (syReady s o i (sendWatch c b.sy) b.sy = true → bundleFault s o i w b = none → eccHit w b = none →
      stalls s o i (s.issueCore i b) b = true →
      let n := readyAt w b - w.cyc + 1
      Answers cmd s (fun t =>
        (t.core i).cyc = w.cyc + n ∧ (t.core i).slipTotal = c.slipTotal + BitVec.ofNat 64 n ∧
        (t.core i).idle = c.idle ∧ (t.core i).bidx = c.bidx ∧ (t.core i).ctrs = c.ctrs ∧ (t.core i).mem = c.mem ∧
        (t.core i).tested = some b ∧ ∀ j, j ≠ i → t.core j = s.core j))

/-- The frame of every bundle that issues: which of its slots can change what in its own core. Errors that its reads meet
are corrected, and words that VSTT writes whole hold none (R112). -/
def Obligations.IssueFrameInTheCore : Prop :=
  ∀ (cmd : Instr) (x : CoreId) (b : Bundle) (s : State), slotOf cmd = some (x, b) → inArray x = true →
    let i := coreIdx x
    let c := s.core i
    Issues s i b = true →
    Answers cmd s (fun t =>
      let k := t.core i
      k.owner = c.owner ∧ k.issuing = c.issuing ∧ k.handles = c.handles ∧ k.istore = c.istore ∧ k.dstore = c.dstore ∧
      k.due = c.due ∧ k.keys = c.keys ∧ k.redWait = c.redWait ∧ k.lent = c.lent ∧ k.uncorr = c.uncorr ∧
      k.selfFail = c.selfFail ∧ k.tested = none ∧
      (∀ w ∈ k.eccSingle, w ∈ c.eccSingle) ∧ (∀ w ∈ k.eccDouble, w ∈ c.eccDouble) ∧
      (c.eccSingle = [] → k.correctable = c.correctable) ∧
      ((∀ f, b.ve ≠ .vstt f) → k.eccDouble = c.eccDouble) ∧
      ((∀ n hi imm, b.sc ≠ .setc n hi imm) → (∀ n d, b.sc ≠ .incc n d) → (∀ n q d g, b.sc ≠ .loop n q d g) →
        k.ctrs = c.ctrs) ∧
      ((∀ q n e l, b.sc ≠ .setk q n e l) → k.cmps = c.cmps) ∧
      (b.sc ≠ .stop → k.stopped = c.stopped) ∧
      ((∀ f, b.ve ≠ .vstt f) → k.mem = c.mem) ∧
      ((∀ r l, b.ve ≠ .vsetlen r l) → k.lenRow = c.lenRow ∧ k.lenCol = c.lenCol) ∧
      (b.ve = .nop → k.tile = c.tile ∧ k.vec = c.vec) ∧
      (b.mx = .nop → (∀ d a, b.ve ≠ .vacc d a true) → k.acc = c.acc) ∧
      (b.ve = .nop → b.mx = .nop → k.sticky = c.sticky) ∧
      (b.sy ≠ .tick → k.pendTicks = c.pendTicks ∧ k.idle = c.idle ∧ k.latSlip = c.latSlip ∧ k.latSlips = c.latSlips ∧
        k.newFlags = c.newFlags ∧ k.counted = c.counted) ∧
      ((∀ p q, b.sy ≠ .qwait p q) → k.qnotes = c.qnotes) ∧
      ((∀ g, b.sy ≠ .mwait g) → k.unclaimed = c.unclaimed) ∧
      ((∀ n, b.sy ≠ .waitcy n) → k.earliest = c.earliest) ∧
      (b.ld = .nop → k.ld = c.ld) ∧ (b.st = .nop → k.st = c.st))

/-- The frame of a bundle with no stream and no ATTEND: it changes its own core and nothing else of the
machine; in any bundle the streams of its LD and ST slots leave every other core as it was, and a bundle without RREAD whose
QREAD and QWRITE reach their ports leaves the contexts, the rings and the Epfin interface too. -/
def Obligations.IssueFrameOutsideTheCore : Prop :=
  ∀ (cmd : Instr) (x : CoreId) (b : Bundle) (s : State), slotOf cmd = some (x, b) → inArray x = true →
    let i := coreIdx x
    Issues s i b = true →
    Answers cmd s (fun t =>
      (∀ j, j ≠ i → t.core j = s.core j) ∧
      t.tcb = s.tcb ∧ t.fs = s.fs ∧ t.tel = s.tel ∧ t.sec = s.sec ∧ t.mon = s.mon ∧ t.ident = s.ident ∧
      (b.ld = .nop → b.st = .nop → (∀ h o, b.sy ≠ .attend h o) → t = s.setCore i (t.core i)) ∧
      ((∀ f, b.ld ≠ .go .rread f) →
        (∀ o f, b.ld = .go o f ∨ b.st = .go o f → o.queue = true →
          (s.portEntry i (dPort ((s.core i).streamDesc f))).isSome = true) →
        t.ctxs = s.ctxs ∧ t.fns = s.fns ∧ t.link = s.link ∧ t.mg = s.mg ∧ t.ep = s.ep))

/-- The sum of a matrix product does not depend on the order of its terms, for the exact sum is rounded once (R71,
R75); a reduction gives the same accumulator for every order of its contributions (R131). -/
def Obligations.SumsIgnoreTheOrderOfTheirTerms : Prop :=
  (
    ∀ (a b : List Fp), a.Perm b → exactSum a = exactSum b) ∧
  (
    ∀ (a b : List Fp) (e : RedElem), a.Perm b → a.foldl RedElem.add e = b.foldl RedElem.add e)

/-! ## Data in motion -/

/-- STREAM_COMPLETE (R108, R117, R149): a live stream that has made its last access leaves its slot and
releases its ranges; a QREAD counts one packet notice, a QWRITE hands its bytes and the index values of its stack side to
its request queue, an MSEND to this module sends them in order as packets of at most 256 bytes, and GATHER and SCATTER
have copied their elements. -/
def Obligations.StreamCompletionReleasesTheStream : Prop :=
  ∀ (s : State) (x : CoreId) (st : Bool) (id : Nat) (r : StreamRec), inArray x = true →
    let i := coreIdx x
    let c := s.core i
    let o := s.ownerOf i
    let gone (t : State) : Prop :=
      (∀ q ∈ (t.core i).ld ++ (t.core i).st, q.id ≠ id) ∧
      (∀ e ∈ (t.core i).ranges, e.owner ≠ .stream id true ∧ e.owner ≠ .stream id false) ∧
      (∀ j, j ≠ i → t.core j = s.core j) ∧ (t.core i).ctrs = c.ctrs ∧ (t.core i).tile = c.tile
    (if st then c.st else c.ld).find? (fun q => q.id = id) = some r → r.dead = false → s.streamsGo i = true →
    (r.op = .qread → r.closed = true → c.qnotes.get (256 * dPort r.desc + dQp r.desc) 0 < 255 →
      Answers (.streamComplete x st id) s (fun t =>
        gone t ∧ (t.core i).qnotes.get (256 * dPort r.desc + dQp r.desc) 0 =
          c.qnotes.get (256 * dPort r.desc + dQp r.desc) 0 + 1 ∧ (t.core i).mem = c.mem)) ∧
    (r.op = .rread → r.closed = true →
      Answers (.streamComplete x st id) s (fun t => gone t ∧ (t.core i).qnotes = c.qnotes ∧ (t.core i).mem = c.mem)) ∧
    (r.op = .qwrite → (sourceBytes r c).2 = none →
      Answers (.streamComplete x st id) s (fun t =>
        gone t ∧ (t.core i).mem = c.mem ∧
        ((t.port (dPort r.desc)).pair o (dQp r.desc)).reqs =
          ((s.port (dPort r.desc)).pair o (dQp r.desc)).reqs.map (fun q =>
            if q.core = i ∧ q.s.id = r.id ∧ q.read = false then
              { q with data := (sourceBytes r c).1, idxs := stackIdxs r c ((sourceBytes r c).1.length / dElem r.desc), handed := true }
            else q))) ∧
    (r.op = .msend → (sourceBytes r c).2 = none → s.resolve o (dRank r.desc) = .loc →
      s.sendFault o i (dCx r.desc) (dCy r.desc) (dWh r.desc) (remoteOff r.desc (dDst r.desc) r.iter.toNat) = none →
      Answers (.streamComplete x st id) s (fun t =>
        gone t ∧ (t.core i).mem = c.mem ∧
        ∃ ps, t.panel.flight = s.panel.flight ++ ps ∧ ps.flatMap (fun p => p.data) = (sourceBytes r c).1 ∧
          ∀ p ∈ ps, p.src = i ∧ p.dst = 640 * dCy r.desc + dCx r.desc ∧ p.ctx = o ∧ p.data.length ≤ 256)) ∧
    (r.op = .gather ∨ r.op = .scatter → (copyElems r c).2 = none →
      Answers (.streamComplete x st id) s (fun t =>
        gone t ∧ (t.core i).mem = (copyElems r c).1.mem ∧ t = s.setCore i (t.core i)))

/-- MESH_PACKET_LAND and MESH_NOTICE (R55, R110, R120, R124, R126, R247, R260): a write that is the oldest packet of its
sender on its virtual channel and passes the target checks lands whole in its window and nowhere else, with its notice if it carries one; one that fails them
writes nothing and its context faults; a packet of a context that no longer owns the core is counted and
dropped; a notice ends the EXPECT of its tag, or is counted. -/
def Obligations.PacketsLandInTheirWindow : Prop :=
  (∀ (s : State) (src dst : CoreId) (chan : BitVec 4) (p : MeshPacket), inArray src = true → inArray dst = true →
    let j := coreIdx dst
    let c := s.core j
    let a := hByte (c.handle p.wh) + p.off
    s.oldestOn (coreIdx src) j (if chan.toNat < 12 then 0 else 2) (MeshPacket.lands chan) = some p →
    (c.owner = some p.ctx → p.op = .write → p.dst = j → windowOk c p p.data.length = true →
      c.eccMerge a p.data.length = none → c.canonical = true →
      Answers (.meshPacketLand src dst chan) s (fun t =>
        Cells.read 0 (t.core j).mem a p.data.length = p.data ∧
        (∀ b, b < a ∨ a + p.data.length ≤ b → Cells.get 0 (t.core j).mem b = Cells.get 0 c.mem b) ∧
        (t.core j).due = (if p.last then c.due ++ [p.tag] else c.due) ∧
        t.panel.flight = s.panel.flight.filter (fun q => q.num != p.num) ∧
        (∀ k, k ≠ j → t.core k = s.core k) ∧ t.ports = s.ports ∧ t.ctxs = s.ctxs)) ∧
    (c.owner = some p.ctx → p.op = .write → p.dst = j → windowOk c p p.data.length = false →
      Answers (.meshPacketLand src dst chan) s (fun t =>
        (∀ k, t.core k = s.core k) ∧ t.panel.flight = s.panel.flight.filter (fun q => q.num != p.num) ∧
        ((s.ctx p.ctx).st = .running → (t.ctx p.ctx).st = .faulted ∧ (t.ctx p.ctx).fault = some 0x0206))) ∧
    (c.owner ≠ some p.ctx →
      Answers (.meshPacketLand src dst chan) s (fun t =>
        (∀ k, t.core k = s.core k) ∧ t.panel.flight = s.panel.flight.filter (fun q => q.num != p.num) ∧
        (t.ctx p.ctx).discard = satAdd (s.ctx p.ctx).discard p.flits))) ∧
  (∀ (s : State) (x : CoreId) (tag : BitVec 3), inArray x = true →
    let i := coreIdx x
    let c := s.core i
    let waits (e : RangeEntry) : Bool := match e.owner with
      | .expect _ g => g == tag
      | _ => false
    c.due.contains tag = true →
    (∀ e, c.ranges.find? waits = some e →
      Answers (.meshNotice x tag) s (fun t =>
        (t.core i).ranges = c.ranges.filter (fun k => k.owner != e.owner) ∧ (t.core i).unclaimed = c.unclaimed ∧
        (t.core i).due.length + 1 = c.due.length ∧ t = s.setCore i (t.core i))) ∧
    (c.ranges.find? waits = none → c.unclaimed.get tag.toNat 0 < 255 →
      Answers (.meshNotice x tag) s (fun t =>
        (t.core i).ranges = c.ranges ∧ (t.core i).unclaimed.get tag.toNat 0 = c.unclaimed.get tag.toNat 0 + 1 ∧
        (∀ m, m ≠ tag.toNat → (t.core i).unclaimed.get m 0 = c.unclaimed.get m 0) ∧
        (t.core i).due.length + 1 = c.due.length ∧ t = s.setCore i (t.core i))))

/-- RREAD_REQUEST and REDUCE_ADD_PACKET (R127, R130, R131, R133): a read that passes the target checks is
answered with the window's bytes, which stay as they are; a contribution opens its key's accumulators or
is added to them, writes nothing until the last one, and waits where the accumulators do not fit. -/
def Obligations.ReadsAreAnsweredAndContributionsAdded : Prop :=
  (∀ (s : State) (src dst : CoreId) (chan : BitVec 4) (p : MeshPacket), inArray src = true → inArray dst = true →
    let j := coreIdx dst
    let c := s.core j
    let a := hByte (c.handle p.wh) + p.off
    s.oldestOn (coreIdx src) j (if chan.toNat < 12 then 0 else 2)
      (fun q => decide (q.op = .readReq) && decide (q.chan = chan.toNat)) = some p →
    c.owner = some p.ctx → windowOk c p p.len = true → c.eccRead a p.len = none → p.via = none →
    Answers (.rreadRequest src dst chan) s (fun t =>
      (t.core j).mem = c.mem ∧ (∀ k, k ≠ j → t.core k = s.core k) ∧ t.ctxs = s.ctxs ∧
      ∃ ps, t.panel.flight = s.panel.flight.filter (fun q => q.num != p.num) ++ ps ∧
        ps.flatMap (fun q => q.data) = c.bytes a p.len ∧
        ∀ q ∈ ps, q.op = .readReply ∧ q.src = p.dst ∧ q.dst = p.src ∧ q.sid = p.sid ∧ q.ctx = p.ctx)) ∧
  (∀ (s : State) (src dst : CoreId) (p : MeshPacket), inArray src = true → inArray dst = true →
    let j := coreIdx dst
    let c := s.core j
    s.oldestOn (coreIdx src) j 1 (fun q => decide (q.op = .reduceAdd)) = some p → p.dst = j →
    c.owner = some p.ctx → s.redBlocked p = false →
    (redWaits c p = true →
      Answers (.reduceAddPacket src dst) s (fun t =>
        p.num ∈ (t.core j).redWait ∧ t.panel.flight = s.panel.flight ∧ t = s.setCore j (t.core j) ∧
        (t.core j).mem = c.mem ∧ (t.core j).keys = c.keys)) ∧
    (redWaits c p = false → windowOk c p p.data.length = true → c.keys.find? (fun k => k.matches p) = none → p.rcount ≠ 1 →
      Answers (.reduceAddPacket src dst) s (fun t =>
        (∃ k, (t.core j).keys = c.keys ++ [k] ∧ k.matches p = true ∧ k.count = 1 ∧ k.rfmt = p.rfmt ∧ k.rcount = p.rcount ∧
          k.elems = (redElems p).map (RedElem.add {})) ∧
        (t.core j).mem = c.mem ∧ t.panel.flight = s.panel.flight.filter (fun q => q.num != p.num))) ∧
    (∀ k, redWaits c p = false → windowOk c p p.data.length = true → c.keys.find? (fun k => k.matches p) = some k →
      k.rfmt = p.rfmt → k.rcount = p.rcount → k.count + 1 ≠ k.rcount →
      Answers (.reduceAddPacket src dst) s (fun t =>
        (∀ q ∈ (t.core j).keys, q.matches p = true →
          q.count = k.count + 1 ∧ q.elems = (k.elems.zip (redElems p)).map (fun e => e.1.add e.2)) ∧
        (∀ q, q.matches p = false → (q ∈ (t.core j).keys ↔ q ∈ c.keys)) ∧
        (t.core j).mem = c.mem ∧ t.panel.flight = s.panel.flight.filter (fun q => q.num != p.num))))


/-- PORT_SLOT_SERVICE (R140, R147, R153, R155, R177, R223): on a port where no QREAD of a channel-mode pair waits to take its
packet, a granted slot serves one access of the pair next in turn. A write of an access-mode pair stores its next bytes,
at least one, at their window addresses and nowhere else; a read sends or keeps the bytes its window addresses hold, and
the stack stays as it is; a write of a channel-mode pair stores its next bytes in the ring; the packet goes on behind
them or leaves the queue; a page read of a sequencer that is served whole leaves its bytes with the sequencer. A slot
with no access ready serves one atom of the context's oldest STK write (the order of the two is this model's choice, log
112). A slot that nothing holds, or whose context has nothing ready, or a port that does not serve, does nothing. -/
def Obligations.PortSlotsServeOneAccess : Prop :=
  ∀ (s : State) (port : BitVec 5) (slot : BitVec 6),
    let p := port.toNat
    let sp := s.port p
    (s.portServes p = false → Answers (.portSlotService port slot) s (fun t => t = s)) ∧
    (s.settlePort p = s → 62 ≤ slot.toNat ∨ sp.slots.find? slot.toNat = none →
      Answers (.portSlotService port slot) s (fun t => t = s)) ∧
    (∀ x : Nat, s.settlePort p = s → s.portServes p = true → slot.toNat < 62 → sp.slots.find? slot.toNat = some x →
      sp.nextPair? x = none →
      (sp.stkQ.find? (fun w => w.ctx = x) = none → Answers (.portSlotService port slot) s (fun t => t = s)) ∧
      (∀ (w : StkWrite) (a : Nat), sp.stkQ.find? (fun w => w.ctx = x) = some w → 0 < w.data.length →
        let n := min (64 - w.off % 64) w.data.length
        sp.addr? x (w.off : Nat) n = some a → sp.eccMerge a n = none → Cells.wf 0 sp.mem = true →
        Answers (.portSlotService port slot) s (fun t =>
          Cells.read 0 (t.port p).mem a n = w.data.take n ∧
          (∀ b, b < a ∨ a + n ≤ b → Cells.get 0 (t.port p).mem b = Cells.get 0 sp.mem b) ∧
          (t.port p).stkQ = (if w.data.length ≤ n then sp.stkQ.erase w
            else { w with off := w.off + n, data := w.data.drop n } :: sp.stkQ.erase w) ∧
          (t.port p).pairs = sp.pairs ∧ t.panel = s.panel ∧ t.ctxs = s.ctxs ∧ (∀ m, m ≠ p → t.port m = s.port m)))) ∧
    (∀ (x q : Nat) (k : QPacket), s.settlePort p = s → s.portServes p = true → slot.toNat < 62 →
      sp.slots.find? slot.toNat = some x → sp.nextPair? x = some q → (sp.pair x q).next? = some k → Cells.wf 0 sp.mem = true →
      let kept (t : State) : Prop := t.panel = s.panel ∧ t.ctxs = s.ctxs ∧ ∀ n, n ≠ p → t.port n = s.port n
      let reqs (t : State) : List QPacket := ((t.port p).pair x q).reqs
      let behind (e : Nat) : List QPacket :=
        if e = k.total then (sp.pair x q).reqs.filter (fun r => r.num != k.num)
        else (sp.pair x q).reqs.map (fun r => if r.num = k.num then { k with pos := e } else r)
      ((sp.pair x q).mode ≠ 1 → k.att = none → k.pos < k.total →
        let c := s.core k.core
        (k.pos % dElem k.s.desc = 0 → k.elemFault sp p x c k.pos = none) →
        let e := k.runEnd sp p x c k.pos (k.total - k.pos) k.pos
        let addr (n : Nat) : Nat := (sp.addr? x (k.byteOff c n) 1).getD 0
        (k.read = false → k.data.length = k.total → sp.eccAt (addr k.pos / 64 * 64) 64 = none →
          Answers (.portSlotService port slot) s (fun t =>
            k.pos < e ∧ e ≤ k.total ∧
            (∀ a, (∀ n, k.pos ≤ n → n < e → addr n ≠ a) → Cells.get 0 (t.port p).mem a = Cells.get 0 sp.mem a) ∧
            (∀ n, k.pos ≤ n → n < e → (∀ m, n < m → m < e → addr m ≠ addr n) →
              Cells.get 0 (t.port p).mem (addr n) = k.data.getD n 0) ∧
            reqs t = behind e ∧ kept t)) ∧
        (k.read = true → (∀ n, n < k.total → (k.dstAddr c n).isLeft = true) →
          Answers (.portSlotService port slot) s (fun t =>
            k.pos < e ∧ e ≤ k.total ∧ (t.port p).mem = sp.mem ∧
            (∃ ls buf, (t.port p).lines = sp.lines ++ ls ∧
              ls.flatMap (fun l => l.data) ++ buf =
                k.buf ++ (List.range (e - k.pos)).map (fun n => Cells.get 0 sp.mem (addr (k.pos + n))) ∧
              (∀ l ∈ ls, l.core = k.core ∧ l.sid = k.s.id ∧ l.ctx = x) ∧
              (e = k.total → buf = [] ∧ ∀ r ∈ reqs t, r.num ≠ k.num) ∧
              (e ≠ k.total → ∀ r ∈ reqs t, r.num = k.num → r.pos = e ∧ r.buf = buf)) ∧
            kept t))) ∧
      ((sp.pair x q).mode = 1 → k.read = false → k.data.length = k.total → ∀ (o : Nat) (r : RingPkt), k.ringAt = some o →
        (sp.pair x q).ring.find? (fun w => w.num = k.num) = some r →
        let n := ringRun (sp.pair x q) (o + k.pos) (k.total - k.pos)
        let a := sp.ringAddr x (sp.pair x q) (o + k.pos)
        0 < n → sp.ringClear x (sp.pair x q) k (o + k.pos) n = n → sp.eccMerge a n = none →
        Answers (.portSlotService port slot) s (fun t =>
          Cells.read 0 (t.port p).mem a n = (k.data.drop k.pos).take n ∧
          (∀ b, b < a ∨ a + n ≤ b → Cells.get 0 (t.port p).mem b = Cells.get 0 sp.mem b) ∧
          (∀ w ∈ ((t.port p).pair x q).ring, w.num = k.num → w.got = r.got + n) ∧
          reqs t = behind (k.pos + n) ∧ kept t)) ∧
      (∀ (w : AttAcc) (m b : Nat) (j : AttendJob), (sp.pair x q).mode ≠ 1 → k.att = some w → w.kind = .page m b → k.read = true →
        s.panel.seqs.find? w.pod = some j → j.ctx = x →
        let a := w.first + k.pos
        k.pos < w.len → w.len ≤ k.pos + (64 - a % 64) → sp.eccAt a (w.len - k.pos) = none →
        Answers (.portSlotService port slot) s (fun t =>
          (t.panel.seqs.get w.pod {}).pages.get (4096 * m + b) [] = k.buf ++ sp.bytes a (w.len - k.pos) ∧
          (∀ n, (t.port n).mem = (s.port n).mem) ∧ (∀ i, t.core i = s.core i) ∧ t.ctxs = s.ctxs)))

/-- RETURN_LINE, QLEV_ANSWER and QR_FLUSH (R127, R140, R145, R150, R247): the oldest line for the core reaches
the live stream it belongs to, and closes it if it is the last; one of a context that owns the core no longer is dropped
and its flits counted; a watch is held once its condition holds; a flush empties the ring and takes every request of the
pair, and where no sequencer's request is among them nothing is posted in their place and no other pair or port changes. -/
def Obligations.PortAnswersReachTheirCore : Prop :=
  (∀ (s : State) (port : BitVec 5) (x : CoreId) (l : RetLine) (r : StreamRec), inArray x = true →
    let i := coreIdx x
    let c := s.core i
    (s.port port.toNat).lines.find? (fun q => q.core = i) = some l →
    (c.owner ≠ some l.ctx →
      Answers (.returnLine port x) s (fun t =>
        t.panel = s.panel ∧ (t.ctx l.ctx).discard = satAdd (s.ctx l.ctx).discard (1 + (l.data.length + 31) / 32) ∧
        (t.port port.toNat) = { s.port port.toNat with lines := (s.port port.toNat).lines.erase l } ∧
        (∀ d, d ≠ l.ctx → t.ctx d = s.ctx d))) ∧
    (c.owner = some l.ctx → c.stream? l.sid = some r → r.dead = false → (c.deliver r l.first l.data).2 = none →
    Answers (.returnLine port x) s (fun t =>
      (t.core i).mem = (c.deliver r l.first l.data).1.mem ∧ (t.core i).qnotes = c.qnotes ∧
      (l.fin = true → ∀ q ∈ (t.core i).ld ++ (t.core i).st, q.id = l.sid → q.closed = true) ∧
      (t.port port.toNat) = { s.port port.toNat with lines := (s.port port.toNat).lines.erase l } ∧
      (∀ j, j ≠ i → t.core j = s.core j) ∧ (∀ n, n ≠ port.toNat → t.port n = s.port n) ∧ t.ctxs = s.ctxs))) ∧
  (∀ (s : State) (x : CoreId) (w : Watch) (o : Nat), inArray x = true →
    let i := coreIdx x
    (s.core i).watch = some w → (s.core i).owner = some o →
    (w.test ((s.port w.port).pair o w.qp) = true →
      Answers (.qlevAnswer x) s (fun t => t = s.setCore i { s.core i with watch := some { w with held := true } })) ∧
    (w.test ((s.port w.port).pair o w.qp) = false → Answers (.qlevAnswer x) s (fun t => t = s))) ∧
  (∀ (s : State) (c : BitVec 6) (port : BitVec 5) (qp : BitVec 8), s.barLive = true →
    (s.port port.toNat).hasPair c.toNat qp.toNat = true →
    let pr := (s.port port.toNat).pair c.toNat qp.toNat
    Answers (.qrFlush c port qp) s (fun t =>
      let pn := (t.port port.toNat).pair c.toNat qp.toNat
      pn.ring = [] ∧ (∀ k ∈ pn.reqs, k.att.isSome = true) ∧ pn.flushes = satAdd pr.flushes 1 ∧
      pn.mode = pr.mode ∧ pn.rqcap = pr.rqcap ∧ (∀ n, (t.port n).mem = (s.port n).mem) ∧
      ((∀ k ∈ pr.reqs, k.att = none) →
        pn.reqs = [] ∧
        (∀ k, k ≠ pairKey c.toNat qp.toNat → (t.port port.toNat).pairs.get k {} = (s.port port.toNat).pairs.get k {}) ∧
        (∀ n, n ≠ port.toNat → t.port n = s.port n))))

/-- PORT_REFRESH, PATROL_SCRUB and SELF_REFRESH_ENTRY (R155, R156, R157): a serving port refreshes, its
patrol goes on through the stack's atoms and no byte changes, and an idle tier-A port enters
self-refresh; a port in self-refresh does neither. -/
def Obligations.PortHousekeepingKeepsEveryByte : Prop :=
  ∀ (s : State) (port : BitVec 5) (atoms : Nat),
    let p := port.toNat
    let sp := s.port p
    (s.portServes p = true → p < 24 → sp.selfRef = false →
      Answers (.portRefresh port) s (fun t =>
        t = s.setPort p (t.port p) ∧ t.port p = { sp with refreshes := sp.refreshes + 1 })) ∧
    (s.portServes p = true → sp.selfRef = false →
      Answers (.patrolScrub port atoms) s (fun t =>
        (t.port p).patrolAt = (sp.patrolAt + atoms) % stackAtoms p ∧
        (t.port p).patrol = sp.patrol + BitVec.ofNat 32 ((sp.patrolAt + atoms) / stackAtoms p) ∧
        (∀ w ∈ (t.port p).eccSingle, w ∈ sp.eccSingle ∧ patrolHit (stackAtoms p) sp.patrolAt atoms w = false) ∧
        (t.port p).mem = sp.mem ∧ (t.port p).pairs = sp.pairs ∧ (∀ n, n ≠ p → t.port n = s.port n) ∧
        t.panel = s.panel ∧ t.ctxs = s.ctxs)) ∧
    (sp.selfRef = true → Answers (.portRefresh port) s (fun t => t = s) ∧ Answers (.patrolScrub port atoms) s (fun t => t = s)) ∧
    (s.portServes p = true → p < 24 → sp.selfRef = false → s.tierAQuiet = true → s.portIdle p = true →
      Answers (.selfRefreshEntry port) s (fun t =>
        t.port p = { sp with selfRef := true, woken := false } ∧ (∀ n, n ≠ p → t.port n = s.port n) ∧
        (sp.woken = true → sp.idleSince + 1000000 ≤ t.tcb.now) ∧ (sp.woken = false → t.tcb.now = s.tcb.now) ∧
        t.panel = s.panel ∧ t.ctxs = s.ctxs))

/-- The attention sequencer (R167, R173 to R177, R181, R182): an ATTEND whose team, region and layer pass their checks is
accepted with its team lent, and posts the read of SELECTOR on pair QP of the region's port; a member that has read its
blocks sends its state, or, as member 0 of its subteam, writes its output, and is released; when all outputs are written the descriptor ends, its
flags are raised and its notice is due. -/
def Obligations.TheSequencerRunsItsDescriptor : Prop :=
  ∀ (s : State) (pod : BitVec 8) (j : AttendJob), pod.toNat < 192 → s.panel.seqs.find? pod.toNat = some j →
    s.streamsGo j.core = true → s.engineDown (srcSeq pod.toNat) = false →
    let c := s.core j.core
    (∀ r, j.accepted = false → s.seqUp pod.toNat = true → s.teamOk pod.toNat j = true → s.portUp (aPort j.desc) = true →
      (s.port (aPort j.desc)).region? j.ctx (aBase j.desc) = some r → aLayer j.desc < r.layers →
      (s.port (aPort j.desc)).hasPair j.ctx (aQp j.desc) = true → ((s.port (aPort j.desc)).pair j.ctx (aQp j.desc)).mode ≠ 1 →
      s.teamFree pod.toNat j = true →
      Answers (.attendAccept pod) s (fun t =>
        let k := t.panel.seqs.get pod.toNat {}
        let was := ((s.port (aPort j.desc)).pair j.ctx (aQp j.desc)).reqs
        k.accepted = true ∧ k.lentCores = List.range j.nt ∧ k.desc = j.desc ∧ k.walking = j.walking ∧
        (∃ q : QPacket, ((t.port (aPort j.desc)).pair j.ctx (aQp j.desc)).reqs = was ++ [q] ∧ q.read = true ∧
          q.att = some { pod := pod.toNat, kind := .selector, len := 8,
                         first := ((s.port (aPort j.desc)).addr? j.ctx (r.base : Nat) 1).getD 0 }) ∧
        (∀ m, m < j.nt → (t.core (memberCore pod.toNat j.desc m)).lent = true ∧
          ∃ e ∈ (t.core (memberCore pod.toNat j.desc m)).ranges, e.owner = .work pod.toNat) ∧
        (∀ i, (t.core i).mem = (s.core i).mem) ∧ (∀ n, (t.port n).mem = (s.port n).mem) ∧
        (∀ n, (t.port n).regions = (s.port n).regions) ∧ t.ctxs = s.ctxs)) ∧
    (∀ m, j.accepted = true → m ∈ j.lentCores → j.readDone m = true →
      (∀ k ∈ mergeFrom j.ns (m % j.ns), j.sent.has (m / j.ns * j.ns + k) = true) →
      let head := m / j.ns
      let st := (mergeFrom j.ns (m % j.ns)).foldl (fun p k => mergeStates p (j.sent.get (head * j.ns + k) {}))
        (j.memberState head (m % j.ns))
      (m % j.ns ≠ 0 →
        Answers (.attendMemberRelease pod m) s (fun t =>
          let k := t.panel.seqs.get pod.toNat {}
          k.sent.find? m = some st ∧ k.lentCores = j.lentCores.filter (· != m) ∧ k.outs = j.outs ∧
          (t.core (memberCore pod.toNat j.desc m)).lent = false ∧
          (∀ i, i ≠ memberCore pod.toNat j.desc m → t.core i = s.core i) ∧ t.ports = s.ports ∧ t.ctxs = s.ctxs)) ∧
      (m % j.ns = 0 → memberCore pod.toNat j.desc m ≠ j.core →
        let out := (j.output st).1
        let a := j.oaddr + head * out.length
        c.eccMerge a out.length = none → c.canonical = true →
        Answers (.attendMemberRelease pod m) s (fun t =>
          let k := t.panel.seqs.get pod.toNat {}
          Cells.read 0 (t.core j.core).mem a out.length = out ∧
          (∀ b, b < a ∨ a + out.length ≤ b → Cells.get 0 (t.core j.core).mem b = Cells.get 0 c.mem b) ∧
          k.outs = j.outs ++ [head] ∧ k.lentCores = j.lentCores.filter (· != m) ∧
          (t.core (memberCore pod.toNat j.desc m)).lent = false ∧
          (∀ i, i ≠ memberCore pod.toNat j.desc m → i ≠ j.core → t.core i = s.core i) ∧ t.ports = s.ports ∧ t.ctxs = s.ctxs))) ∧
    (j.accepted = true → j.lentCores = [] → j.outs.length = aHk j.desc →
      Answers (.attendComplete pod) s (fun t =>
        t.panel.seqs.has pod.toNat = false ∧ (t.core j.core).due = (if aNote j.desc then c.due ++ [aTag j.desc] else c.due) ∧
        (t.core j.core).sticky = c.sticky ||| j.flags ∧ (t.core j.core).mem = c.mem ∧
        (∀ e ∈ (t.core j.core).ranges, e.owner ≠ .attend j.id 2) ∧
        (∀ i, i ≠ j.core → t.core i = s.core i) ∧ t.ports = s.ports ∧ t.ctxs = s.ctxs))

/-! ## Ticks, microbatches and time -/

/-- CONTEXT_TICK (R32, R36, R41, R53): the counter has reached the tick, the tick number and, once
started, CX_FCOUNT rise by one, the next tick is P_eff later, and where nothing else falls on the count
each running core that is not held has one tick more pending and its phase at 0; CX_FCOUNT of a context
that has not started stays. -/
def Obligations.TickCountsAndReachesEveryCore : Prop :=
  ∀ (s : State) (c : BitVec 6),
    let x := s.ctx c.toNat
    x.st ≠ .free → (x.st = .running → s.runaway? c.toNat = none) →
    x.quiesce = none → x.resumeAt = none → x.stretchTo = none → x.budgetAt = none → x.wset.load = none →
    x.wset.resumeAt = none → x.wset.old = none →
    Answers (.contextTick c) s (fun t =>
      (t.ctx c.toNat).tickNo = x.tickNo + 1 ∧ t.tcb.now = max s.tcb.now x.nextTick ∧
      (t.ctx c.toNat).fcount = (if x.started then x.fcount + 1 else x.fcount) ∧
      (t.ctx c.toNat).nextTick = x.nextTick + (if x.started then x.eff else x.period) ∧
      (x.started = true → x.st = .running → 0 < x.fcount → x.shadow = {} → s.stagedOf c.toNat = [] →
        ∀ i, s.panel.cores.has i = true → (s.core i).owner = some c.toNat → (s.core i).issuing = true →
          (s.core i).stopped = false → x.coreHeld i = false →
          (t.core i).pendTicks = (s.core i).pendTicks + 1 ∧ (t.core i).phase = 0 ∧ (t.core i).bidx = (s.core i).bidx ∧
          (t.core i).ctrs = (s.core i).ctrs))

/-- FRAME_RUNAWAY and QUIESCE_TICK (R41, R248): a core with three ticks pending faults its context and
stops all of it; at the quiesce tick a CUT stops every core, drops its streams and ends every microbatch,
and the context is QUIESCED, or SCRUBBING where a re-bind, teardown or partition reset asked (log 39); a
DRAIN holds stage 0 from this tick on. -/
def Obligations.RunawayAndQuiesceStopTheContext : Prop :=
  ∀ (s : State) (c : BitVec 6),
    let x := s.ctx c.toNat
    (∀ i, x.st = .running → s.runaway? c.toNat = some i →
      Answers (.frameRunaway c) s (fun t =>
        (t.ctx c.toNat).st = .faulted ∧ (t.ctx c.toNat).fault = some 0x0601 ∧ (t.ctx c.toNat).batches = [] ∧
        (∀ j, t.core j = s.core j) ∧ (∀ j, (t.core j).owner = some c.toNat → t.coreLive j = false) ∧
        (∀ d, d ≠ c.toNat → t.ctx d = s.ctx d) ∧ t.ports = s.ports)) ∧
    (∀ q, x.st = .running → x.quiesce = some q → q.q = none →
      (q.cut = true →
        Answers (.quiesceTick c) s (fun t =>
          (t.ctx c.toNat).st = (match q.why with | .desc | .job => .quiesced | .rebind | .teardown | .partReset => .scrubbing) ∧
          (t.ctx c.toNat).cutq = true ∧ (t.ctx c.toNat).quiesce = none ∧
          (t.ctx c.toNat).batches = [] ∧ (t.ctx c.toNat).fcount = x.fcount ∧ q.at_ ≤ t.tcb.now ∧
          (∀ i, s.panel.cores.has i = true → (s.core i).owner = some c.toNat →
            (t.core i).issuing = false ∧ (t.core i).ld = [] ∧ (t.core i).st = [] ∧ (t.core i).ctrs = (s.core i).ctrs) ∧
          (∀ d, d ≠ c.toNat → t.ctx d = s.ctx d))) ∧
      (q.cut = false → 1 < x.stages →
        Answers (.quiesceTick c) s (fun t =>
          (t.ctx c.toNat).st = .running ∧ 0 ∈ (t.ctx c.toNat).held ∧ (t.ctx c.toNat).fcount = x.fcount ∧ q.at_ ≤ t.tcb.now ∧
          (∀ i, t.core i = s.core i) ∧ t.ports = s.ports ∧ (∀ d, d ≠ c.toNat → t.ctx d = s.ctx d))))

/-- INPUT_FETCH_DONE and COMPLETION_POST (R19, R276, R279, R281): a fetched input stands in its slot and
its digest is that of the host's bytes; the result copy puts the output's bytes into the host's buffer and
the result record where one is wanted, and the microbatch is over with status OK. -/
def Obligations.InputsAreFetchedAndResultsPosted : Prop :=
  ∀ (s : State) (c : BitVec 6) (p : Program), (s.ctx c.toNat).prog = some p →
    (∀ d, (s.fn (c.toNat + 1)).admq.find? (fun e => e.st == .fetching) = some d →
      let bs := s.hostRead (d.dword 4) (d.word 6)
      Answers (.inputFetchDone c .ok) s (fun t =>
        (∃ e ∈ (t.fn (c.toNat + 1)).admq, e.same d = true ∧ e.st = .fetched ∧ e.digest = sha256 bs) ∧
        (∀ a, p.inp.kind = 0 →
          (s.port p.inp.port).addr? c.toNat ((p.inp.off + d.inSlot.getD 0 * p.inp.size : Nat) : Int) bs.length = some a →
          (s.port p.inp.port).eccMerge a bs.length = none → Cells.wf 0 (s.port p.inp.port).mem = true →
          Cells.read 0 (t.port p.inp.port).mem a bs.length = bs ∧
          (∀ b, b < a ∨ a + bs.length ≤ b → Cells.get 0 (t.port p.inp.port).mem b = Cells.get 0 (s.port p.inp.port).mem b) ∧
          t.panel = s.panel ∧ t.link = s.link))) ∧
    (∀ seq b out, (s.ctx c.toNat).batches.find? (fun e => decide (e.seq = seq) && e.copying && s.lastDone c.toNat e) = some b →
      s.slotRead c.toNat p.out ((s.ctx c.toNat).outSlot seq) (b.d.word 7) = .inl out → Cells.wf 0 s.link.mem = true →
      Answers (.completionPost c seq .ok) s (fun t =>
        (∃ u : State, t = u.endBatch c.toNat b 0 0 b.d.wantsResult ∧
          (b.d.wantsResult = false → u.hostRead (b.d.dword 8) out.length = out) ∧
          (b.d.wantsResult = true →
            let v := s.slotUsed c.toNat p.out ((s.ctx c.toNat).outSlot seq) (b.d.word 7)
            let r := (v.hostWrite (b.d.dword 8) out).resultRecord c.toNat b out
            u.hostRead (b.d.dword 10) r.length = r) ∧
          u.ctxs = s.ctxs ∧ u.fns = s.fns) ∧
        (∀ e ∈ (t.ctx c.toNat).batches, e.seq ≠ b.seq) ∧ (∀ i, (t.core i).mem = (s.core i).mem) ∧
        (∀ n, (t.port n).mem = (s.port n).mem)))

/-- A completion record (R267, R269, R271): its 32 bytes stand at the ring's next entry, which is used
up with the reservation, and every other byte of host memory is as it was. -/
def Obligations.CompletionWritesTheRecord : Prop :=
  ∀ (s : State) (d : Taken) (status detail : Nat), s.holds d = true → s.muted d = false → Cells.wf 0 s.link.mem = true →
    let h := s.fn d.fn
    let n := ringSize h.cqLo
    let a := ringAddr h.cqLo h.cqHi + 32 * (h.cqt.toNat % n)
    let t := s.complete d status detail
    t.hostRead a 32 = recordBytes d.user status (ringPhase h.cqt.toNat n) d.op 0 d.slot (s.frameOf d.fn) 0 detail ∧
    (∀ b, b < a ∨ a + 32 ≤ b → Cells.get 0 t.link.mem b = Cells.get 0 s.link.mem b) ∧
    (t.fn d.fn).cqt = h.cqt + 1 ∧ (t.fn d.fn).res = h.res - 1 ∧ t.holds d = false ∧
    (∀ f, f ≠ d.fn → t.fn f = s.fn f) ∧ t.ctxs = s.ctxs ∧ t.panel = s.panel ∧ t.ports = s.ports ∧ t.mg = s.mg

/-- REFERENCE_LOCK, SYNC_PULSE, TC_HOLDOVER, TIME_LOST and REFERENCE_RETURN (R21, R24, R25, R27): an armed
pulse loads the counter where no context exists; a later pulse more than 2 counts off a second boundary
sets PULSE_ERR and leaves the count; holdover keeps the counter going; after 100,000,000 tc of it the
members of jobs that span modules fault; on its return an offset of at most 10,000 is slewed away.
COUNTER_SLEW, TIME_TREE_EXCHANGE, FERR_MEASURE, TIME_DRIFT, TC_NOW_LO_READ and CX_FCOUNT_LO_READ (R23,
R26, R28, R29, R259): a slew takes one count from what is left and never turns the counter back; 1,024
exchanges make one average; ALIGNED follows the frequency and the offset; a low half and the half it
latches are of one count. -/
def Obligations.TheCounterIsGovernedSlewedAndRead : Prop :=
  (
    ∀ (s : State),
      (s.mg.powered = true → s.tcb.holdover = false →
        Answers .referenceLock s (fun t => t = { s with tcb := t.tcb } ∧ t.tcb = { s.tcb with lock := true, running := true })) ∧
      (s.tcb.lock = true → s.tcb.arm = true → s.anyCtx = false →
        Answers .syncPulse s (fun t => t = { s with tcb := t.tcb } ∧ t.tcb.now = 1000000000 * s.tcb.sec.toNat ∧
          t.tcb.synced = true ∧ t.tcb.arm = false ∧ t.tcb.holdover = false)) ∧
      (s.tcb.lock = true → s.tcb.arm = false ∨ s.anyCtx = true → s.tcb.synced = true →
        Answers .syncPulse s (fun t =>
          t.tcb = { s.tcb with pulseErr := s.tcb.pulseErr || decide (2 < (pulseDiff s.tcb.now).natAbs) } ∧
          ((pulseDiff s.tcb.now).natAbs ≤ 2 → t = s) ∧ t.panel = s.panel ∧ t.ctxs = s.ctxs)) ∧
      (s.tcb.lock = true →
        Answers .tcHoldover s (fun t =>
          t.tcb = { s.tcb with holdover := true, refLost := true, lock := false,
                               holdStart := if s.tcb.holdover then s.tcb.holdStart else s.tcb.now } ∧
          t.panel = s.panel ∧ t.ctxs = s.ctxs ∧ t.ports = s.ports)) ∧
      (s.tcb.holdover = true →
        Answers .timeLost s (fun t =>
          s.tcb.holdStart + 100000000 ≤ t.tcb.now ∧ s.tcb.now ≤ t.tcb.now ∧
          (∀ c, c < 64 → (s.ctx c).st = .running → s.spansModules (s.ctx c).job = true →
            (t.ctx c).st = .faulted ∧ (t.ctx c).fault = some 0x0603) ∧
          (∀ c, s.spansModules (s.ctx c).job = false → t.ctx c = s.ctx c) ∧ t.panel = s.panel ∧ t.ports = s.ports)) ∧
      (∀ off : Int, s.tcb.holdover = true → s.tcb.lock = false →
        Answers (.referenceReturn off) s (fun t => t = { s with tcb := t.tcb } ∧ t.tcb.lock = true ∧ t.tcb.now = s.tcb.now ∧
          t.tcb.holdover = decide (10000 < off.natAbs) ∧ (off.natAbs ≤ 10000 → t.tcb.slewLeft = -off)))) ∧
  (
    ∀ (s : State),
      (s.tcb.slewLeft ≠ 0 →
        Answers .counterSlew s (fun t => t.tcb.slewLeft.natAbs + 1 = s.tcb.slewLeft.natAbs ∧ s.tcb.now ≤ t.tcb.now ∧
          t.tcb.lastSlew = some t.tcb.now ∧ (∀ l, s.tcb.lastSlew = some l → l + 100000 ≤ t.tcb.now) ∧
          t.panel = s.panel ∧ t.ctxs = s.ctxs)) ∧
      (∀ t1 t2 t3 t4 : Nat, s.tcb.parent.isSome = true →
        let sum := s.tcb.exchSum + (((t2 : Int) - t1) - ((t4 : Int) - t3))
        (s.tcb.exchN + 1 < 1024 → Answers (.timeTreeExchange t1 t2 t3 t4) s (fun t =>
          t = { s with tcb := { s.tcb with exchN := s.tcb.exchN + 1, exchSum := sum } })) ∧
        (1024 ≤ s.tcb.exchN + 1 → Answers (.timeTreeExchange t1 t2 t3 t4) s (fun t =>
            t.tcb.exchN = 0 ∧ t.tcb.exchSum = 0 ∧ t.tcb.avgDone = true ∧ t.tcb.offset = BitVec.ofInt 32 (sum / 128) ∧
            t.tcb.aligned = t.tcb.inStep ∧
            (if s.anyCtx = false ∧ s.tcb.stepped = false then t.tcb.now = ((s.tcb.now : Int) + sum / 2048).toNat ∧ t.tcb.stepped = true
             else t.tcb.now = s.tcb.now ∧ t.tcb.slewLeft = sum / 2048) ∧
            t.panel = s.panel ∧ t.ports = s.ports))) ∧
      (∀ err : BitVec 16, s.tcb.parent.isSome = true →
        Answers (.ferrMeasure err) s (fun t => t.tcb.ferr = err ∧ t.tcb.freqOk = decide (err.toInt.natAbs ≤ 50) ∧
          s.tcb.ferrStart + 1000000000 ≤ t.tcb.now ∧ t.tcb.ferrStart = t.tcb.now ∧ t.tcb.aligned = t.tcb.inStep ∧
          t.panel = s.panel ∧ t.ports = s.ports)) ∧
      (∀ m : BitVec 10, s.ep.role = 2 →
        Answers (.timeDrift m true) s (fun t => t.ep.drift.find? m.toNat = none ∧ m.toNat ∉ t.ep.noCross ∧
          t = { s with ep := t.ep } ∧ t.ep = { s.ep with drift := t.ep.drift, noCross := t.ep.noCross }) ∧
        (∀ d, s.ep.drift.find? m.toNat = some d →
          Answers (.timeDrift m false) s (fun t => d.1 + 1000000000 ≤ t.tcb.now ∧ t.ep.drift.find? m.toNat = none ∧
            m.toNat ∈ t.ep.noCross ∧ t.panel = s.panel ∧ t.ports = s.ports))) ∧
      (∀ p : Path, s.pathLive p = true →
        Answers (.tcNowLoRead p) s (fun t =>
          (t.tcb.latches.get (pathNo p) 0 ++ t.smb.readback : BitVec 64) = BitVec.ofNat 64 s.tcb.now ∧ t.tcb.now = s.tcb.now ∧
          t = { s with tcb := t.tcb, smb := t.smb })) ∧
      (∀ (p : Path) (c : BitVec 6), s.pathLive p = true →
        Answers (.cxFcountLoRead p c) s (fun t =>
          ((t.ctx c.toNat).fcLatch.get (pathNo p) 0 ++ t.smb.readback : BitVec 64) = BitVec.ofNat 64 (s.ctx c.toNat).fcount ∧
          (t.ctx c.toNat).fcount = (s.ctx c.toNat).fcount ∧ (∀ d, d ≠ c.toNat → t.ctx d = s.ctx d) ∧
          t = { s with ctxs := t.ctxs, smb := t.smb })))


/-! ## Agreed counts, stretch, steps and supply -/

/-- PREPARE, MERGED_REPLY and EXCHANGE_DECISION (R42, R210, R235): a PREPARE opens the exchange with the
module's own answer and goes on to its children; a module busy with another exchange answers EXCHANGE_BUSY for itself and
still merges its children's answers; each child's answer is merged, the NAK of the lower
module index first; the manager decides at the agreed count less 1,000,000, GO if nobody refused. -/
def Obligations.ExchangesCollectEveryAnswer : Prop :=
  ∀ (s : State),
    (∀ p : PrepareMsg, s.ep.role = 1 → s.ep.mgrLost = false → p.port.toNat < 6 →
      (s.exBusy = true →
        Answers (.prepare p) s (fun t => t = { s with ep := t.ep } ∧ t.ep.ex = s.ep.ex ∧
          ∃ e, t.ep.relay = some e ∧ e.job = p.job.toNat ∧ e.nak = some (s.modIndex, 8) ∧ e.acks = 0 ∧
            e.waiting = s.children p.port.toNat ∧
            (s.children p.port.toNat = [] → .merged p.port.toNat 0 (some (s.modIndex, 8)) ∈ t.ep.ctl) ∧
            (s.children p.port.toNat ≠ [] → s.ep.req ≠ 1 → .prepare p ∈ t.ep.ctl))) ∧
      (s.exBusy = false →
        Answers (.prepare p) s (fun t => t = { s with ep := t.ep } ∧
          ∃ e, t.ep.ex = some e ∧ e.kind = p.kind ∧ e.job = p.job.toNat ∧ e.at_ = p.at_ ∧ e.manager = false ∧ e.go = false ∧
            e.waiting = s.children p.port.toNat ∧ e.replied = decide (s.children p.port.toNat = []) ∧
            (p.kind = .tables → e.acked = true ∧ e.nak = none) ∧
            (∀ c, p.kind ≠ .tables → s.jobCtx p.job.toNat = some c →
              e.acked = decide (s.exAnswer c p = none) ∧ e.nak = (s.exAnswer c p).map (fun r => (s.modIndex, r))) ∧
            (p.kind ≠ .tables → s.jobCtx p.job.toNat = none → e.acked = false ∧ e.nak = none) ∧
            (s.children p.port.toNat = [] → .merged p.port.toNat e.acks e.nak ∈ t.ep.ctl) ∧
            (s.children p.port.toNat ≠ [] → s.ep.req ≠ 1 → .prepare p ∈ t.ep.ctl)))) ∧
    (∀ (r : MergedMsg) (e : Exchange), s.ep.ex = some e → r.port.toNat < 6 → e.waiting.contains r.port.toNat = true →
      Answers (.mergedReply r) s (fun t => t = { s with ep := t.ep } ∧
        ∃ f, t.ep.ex = some f ∧ f.acks = e.acks + r.acks ∧ f.waiting = e.waiting.filter (· != r.port.toNat) ∧
          f.nak = firstNak e.nak (r.nak.map (fun n => (n.1.toNat, n.2.toNat))) ∧ f.go = e.go ∧ f.acked = e.acked)) ∧
    (∀ e : Exchange, s.ep.ex = some e → e.manager = true → e.go = false →
      (s.missing e = none → Answers .exchangeDecision s (fun t => e.at_ - 1000000 ≤ t.tcb.now ∧
        ∃ f, t.ep.ex = some f ∧ f.go = true ∧ f.acked = e.acked ∧ f.waiting = s.children e.upPort ∧ t.ports = s.ports)) ∧
      ((s.missing e).isSome = true → s.ep.tableQ = [] → Answers .exchangeDecision s (fun t => e.at_ - 1000000 ≤ t.tcb.now ∧
        t.ep.ex = none ∧ (e.kind ≠ .tables → (t.job e.job).st = e.jobBefore (s.job e.job).st))))

/-- GO, NOGO, ABORT, LAUNCH_COUNT and START_COLLECTION_DEADLINE (R42, R43, R243): GO arms the member's
context for the agreed count and changes no other; a member without GO, or without its time, will not act;
an ABORT closes the exchange; at the count of a launch the member runs from frame 0 with its cores at
their start state; when every member has started, the manager's job runs; at the count of a job's quiesce its
descriptor completes, and one whose tables changed completes with their exchange (R231, R284). -/
def Obligations.MembersActAtTheAgreedCount : Prop :=
  ∀ (s : State) (e : Exchange) (c : BitVec 6), s.ep.ex = some e →
    (e.ctx < 64 → e.of c.toNat = true → e.manager = false → e.go = false → e.replied = true → e.nak = none →
      s.tcb.now ≤ e.at_ - 200000 →
      Answers (.go c) s (fun t => (∃ f, t.ep.ex = some f ∧ f.go = true ∧ f.replied = false ∧ f.acked = e.acked) ∧
        t.ctx e.ctx = (s.ctx e.ctx).takeGo e ∧ (∀ d, d ≠ e.ctx → t.ctx d = s.ctx d) ∧ t.panel = s.panel ∧ t.ports = s.ports)) ∧
    (e.ctx = c.toNat → e.acked = true → e.started = 0 → e.go = false → e.manager = false → s.ep.mgrLost = false →
      Answers (.nogo c) s (fun t => e.at_ - 200000 ≤ t.tcb.now ∧ .nogo s.modIndex e.job 0x0B ∈ t.ep.ctl ∧
        (∃ f, t.ep.ex = some f ∧ f.acked = false) ∧ t.ctxs = s.ctxs ∧ t.panel = s.panel)) ∧
    (∀ (m : BitVec 10) (reason : BitVec 16), e.of c.toNat = true → e.manager = false →
      Answers (.abort c m reason) s (fun t => t.ep.ex = none ∧ (∀ d, d ≠ e.ctx → t.ctx d = s.ctx d) ∧
        (64 ≤ e.ctx → t = { s with ep := t.ep }))) ∧
    (e.ctx = c.toNat → e.acked = true → e.go = true → e.started = 0 → e.kind = .launch → e.lost = false →
      s.timeLost e.cross = false → (s.ctx e.ctx).st = .bound →
      Answers (.launchCount c) s (fun t => e.at_ ≤ t.tcb.now ∧ (∃ f, t.ep.ex = some f ∧ f.started = 1 ∧ f.acks = e.acks + 1) ∧
        (t.ctx e.ctx).st = .running ∧ (t.ctx e.ctx).fcount = 0 ∧ (t.ctx e.ctx).startAt = e.at_ ∧
        (t.ctx e.ctx).nextTick = e.at_ ∧ (t.ctx e.ctx).batches = [] ∧ (∀ d, d ≠ e.ctx → t.ctx d = s.ctx d) ∧
        (∀ i, s.panel.cores.has i = true → (s.core i).owner = some e.ctx → t.core i = (s.core i).startClear))) ∧
    (∀ d, e.manager = true → e.go = true → e.kind = .launch → s.missing e = none → (e.ctx < 64 → e.started ≠ 0) → e.d = some d →
      s.ep.tableQ = [] →
      Answers .startCollectionDeadline s (fun t => e.at_ + 1000000 ≤ t.tcb.now ∧
        Ends t d 1 0 (fun u => u.ep.ex = none ∧ (u.job e.job).st = .running ∧ u.ctxs = s.ctxs ∧ u.panel = s.panel))) ∧
    (∀ d, e.manager = true → e.ctx = c.toNat → e.acked = true → e.go = true → e.started = 0 → e.kind = .quiesce → e.lost = false →
      s.timeLost e.cross = false → e.d = some d →
      Answers (.launchCount c) s (fun t =>
        Ends t d 0 0 (fun u => e.at_ ≤ u.tcb.now ∧ (u.job e.job).st = .quiesced ∧ u.ctxs = s.ctxs ∧ u.panel = s.panel ∧
          ∃ f, u.ep.ex = some f ∧ f.started = 1 ∧ f.d = none))) ∧
    (∀ d v l, e.manager = true → e.go = true → e.kind = .tables → e.ctx = 64 → s.missing e = none → s.ep.tableQ = [(some (d, v), l)] →
      Answers .startCollectionDeadline s (fun t => e.at_ + 1000000 ≤ t.tcb.now ∧
        Ends t d 0 v (fun u => u.ep.ex = none ∧ u.ep.tableQ = [] ∧ u.ctxs = s.ctxs ∧ u.panel = s.panel)))

/-- STRETCH_REQUEST, STRETCH_ON and STRETCH_OFF (R37, R38, R39): the least factor that makes room for the
declared cycles is agreed at a multiple of the new period at least 2,000,000 tc ahead, or FRAME_BUDGET is
due; at that count the period is stretched, and it is restored once the step has been at or below FLOOR
for 1,000,000,000 tc. A worker asks its manager and reports to it; the manager opens the exchange, and the one that
restores only once every module that had asked has reported. -/
def Obligations.StretchMultipliesThePeriod : Prop :=
  ∀ (s : State) (c : BitVec 6),
    let x := s.ctx c.toNat
    let only (t : State) : Prop := (∀ d, d ≠ c.toNat → t.ctx d = s.ctx d) ∧ t.panel = s.panel ∧ t.ports = s.ports
    (∀ (stp : BitVec 3) (p : Program), x.prog = some p → x.st = .running → x.floor < stp.toNat → x.stretchTo = none → x.job = 0 →
      0 < x.period →
      (∀ k, stretchK x.period p.d stp.toNat = some k → k ≠ x.stretch →
        Answers (.stretchRequest c (.own stp)) s (fun t => only t ∧
          p.d ≤ budget (2 ^ k * x.period) stp.toNat ∧ (∀ j, 1 ≤ j → j < k → budget (2 ^ j * x.period) stp.toNat < p.d) ∧
          ∃ n, (t.ctx c.toNat).stretchTo = some (n, k) ∧ s.tcb.now + 2000000 ≤ n ∧ n < s.tcb.now + 2000000 + 2 ^ k * x.period ∧
            n % (2 ^ k * x.period) = 0 ∧ (t.ctx c.toNat).stretchNext = stp.toNat ∧ (t.ctx c.toNat).stretch = x.stretch)) ∧
      (stretchK x.period p.d stp.toNat = none →
        Answers (.stretchRequest c (.own stp)) s (fun t => only t ∧
          ∃ n, (t.ctx c.toNat).budgetAt = some (n, stp.toNat) ∧ s.tcb.now + 2000000 ≤ n ∧ n % x.period = 0))) ∧
    (∀ (stp : BitVec 3) (p : Program), x.prog = some p → x.st = .running → x.floor < stp.toNat → x.stretchTo = none →
      x.job ≠ 0 → s.ep.role = 1 →
      Answers (.stretchRequest c (.own stp)) s (fun t => only t ∧ (t.ctx c.toNat).stretchNext = stp.toNat ∧
        t.ep = { s.ep with ctl := s.ep.ctl ++ [.askStretch s.modIndex x.job x.period p.d stp.toNat] })) ∧
    (∀ (stp : BitVec 3) (a : StretchMsg) (k : Nat), s.ep.role = 2 → s.ep.jobs.has a.job.toNat = true → s.exBusy = false →
      stretchK a.period a.d stp.toNat = some k → (s.job a.job.toNat).k < k →
      Answers (.stretchRequest c (.worker stp a)) s (fun t => t.ctxs = s.ctxs ∧ t.panel = s.panel ∧ t.ports = s.ports ∧
        a.mod.toNat ∈ (t.job a.job.toNat).askers ∧
        ∃ e, t.ep.ex = some e ∧ e.kind = .stretch ∧ e.job = a.job.toNat ∧ e.k = k ∧ e.manager = true ∧ s.tcb.now + 2000000 ≤ e.at_)) ∧
    (∀ n k, x.stretchTo = some (n, k + 1) →
      Answers (.stretchOn c) s (fun t => only t ∧ n ≤ t.tcb.now ∧ (t.ctx c.toNat).stretch = k + 1 ∧
        (t.ctx c.toNat).stretchTo = none ∧ (t.ctx c.toNat).eff = x.runPeriod * 2 ^ (k + 1))) ∧
    (∀ n, x.stretchTo = some (n, 0) →
      Answers (.stretchOff (.own c)) s (fun t => only t ∧ n ≤ t.tcb.now ∧ (t.ctx c.toNat).stretch = 0 ∧ (t.ctx c.toNat).stretchTo = none ∧
        (t.ctx c.toNat).eff = x.runPeriod)) ∧
    (∀ h, x.stretchTo = none → x.floorSince = some h → x.stretch ≠ 0 → x.job = 0 → 0 < x.eff →
      Answers (.stretchOff (.own c)) s (fun t => only t ∧ h + 1000000000 ≤ t.tcb.now ∧
        ∃ n, (t.ctx c.toNat).stretchTo = some (n, 0) ∧ t.tcb.now + 2000000 ≤ n ∧ n % x.eff = 0)) ∧
    (∀ h, x.stretchTo = none → x.floorSince = some h → x.stretch ≠ 0 → x.job ≠ 0 → s.ep.role = 1 →
      Answers (.stretchOff (.own c)) s (fun t => only t ∧ t.ctxs = s.ctxs ∧ h + 1000000000 ≤ t.tcb.now ∧
        t.ep = { s.ep with ctl := s.ep.ctl ++ [.stepHeld s.modIndex x.job] })) ∧
    (∀ (m : BitVec 10) (id : BitVec 16), s.ep.role = 2 → s.ep.jobs.has id.toNat = true → s.exBusy = false →
      (∀ a ∈ (s.job id.toNat).askers, a = m.toNat) → (s.job id.toNat).k ≠ 0 →
      Answers (.stretchOff (.worker m id)) s (fun t => t.ctxs = s.ctxs ∧ t.panel = s.panel ∧ t.ports = s.ports ∧
        (t.job id.toNat).askers = [] ∧
        ∃ e, t.ep.ex = some e ∧ e.kind = .restore ∧ e.job = id.toNat ∧ e.manager = true ∧ s.tcb.now + 2000000 ≤ e.at_))

/-- STEP_EVALUATION, STEP_CHANGE, FORCED_STEP and FORCED_STEP_RELEASE (R328, R332, R333, R334): an
evaluation samples the sensors, moves each required step by at most one and leaves the clock; a change ends
at its step; a forced step takes the clock to step 7 at once and cancels what waits; it is released once
its conditions have stayed clear for 10,000,000 tc. -/
def Obligations.StepsAreEvaluatedChangedAndForced : Prop :=
  ∀ (s : State),
    (∀ v : Sensors, s.mg.powered = true → s.mg.ready = true → s.fs.sPow ≤ 7 → s.fs.sTherm ≤ 7 →
      Answers (.stepEvaluation v) s (fun t =>
        s.fs.lastEval + 1000000 ≤ t.tcb.now ∧ t.tel.pin = v.pin ∧ t.tel.vin = v.vin ∧ t.tel.inlet = v.inlet ∧ t.tel.outlet = v.outlet ∧
        t.fs.cur = s.fs.cur ∧ t.fs.sPow ≤ s.fs.sPow + 1 ∧ s.fs.sPow ≤ t.fs.sPow + 1 ∧ t.fs.sTherm ≤ s.fs.sTherm + 1 ∧
        s.fs.sTherm ≤ t.fs.sTherm + 1 ∧ t.fs.boost = [] ∧ (s.fs.forced = true → t.fs.changing = s.fs.changing) ∧
        t.fs.forced = s.fs.forced ∧ t.ctxs = s.ctxs ∧ t.panel = s.panel ∧ t.ports = s.ports)) ∧
    (∀ stp : BitVec 3, s.fs.changing = some stp.toNat →
      Answers (.stepChange stp) s (fun t => t.fs.cur = stp.toNat ∧
        t.fs.changes = (if stp.toNat = s.fs.cur then s.fs.changes else satAdd s.fs.changes 1) ∧
        t.fs.waiting = none ∧ t.fs.forced = s.fs.forced ∧ t.tcb = s.tcb ∧ t.panel = s.panel ∧
        (∀ c, c < 64 → (s.ctx c).st ≠ .free →
          (t.ctx c).floorSince = if stp.toNat ≤ (s.ctx c).floor then (s.ctx c).floorSince.or (some s.tcb.now) else none) ∧
        (∀ n, t.fs.changing = some n → s.fs.waiting = some n))) ∧
    (∀ (cond : ForcedCond) (at_ : BitVec 32), s.fs.clocked = true →
      Answers (.forcedStep cond at_) s (fun t =>
        t.fs.forced = true ∧ t.fs.clearSince = none ∧
        (s.fs.forced = false → t.fs.cur = 7 ∧ t.fs.changing = none ∧ t.fs.waiting = none ∧ t.fs.alert = true ∧
          t.fs.forces = satAdd s.fs.forces 1) ∧
        (s.fs.forced = true → t.fs.cur = s.fs.cur ∧ t = { s with fs := t.fs }) ∧
        (t.fs.fSkew = (s.fs.fSkew || decide (cond = .crossingSkew))) ∧
        (t.fs.fSupply = (s.fs.fSupply || decide (cond = .inputPower) || decide (cond = .railVoltage))) ∧
        t.tcb = s.tcb ∧ t.panel = s.panel ∧ t.ports = s.ports)) ∧
    (∀ h, s.fs.forced = true → s.fs.clearSince = some h →
      Answers .forcedStepRelease s (fun t => h + 10000000 ≤ t.tcb.now ∧ t.fs.forced = false ∧ t.fs.fSkew = false ∧
        t.fs.fSupply = false ∧ t.fs.alert = s.fs.tripHold ∧ t.fs.cur = s.fs.cur ∧ t.ctxs = s.ctxs ∧ t.panel = s.panel))

/-- VOLTAGE_DROOP, VDROOP, SUPPLY_FAIL, XSKEW, THERMAL_TRIP, COOLANT_OK, SUPPLY_HIGH, SUPPLY_LOW and
WATCHDOG (R309, R329, R330, R331, R335, R337, R357): a setpoint rises by at most 30 mV; a rail or a
crossing forces the step; a supply failure switches the clocks and the core rails off; a trip and the
watchdog end in a module reset with their cause; the coolant and the input's excursions are told once. -/
def Obligations.SupplyAndHeatProtectTheModule : Prop :=
  ∀ (s : State),
    (∀ (f : BitVec 6) (mv : Nat), f.toNat < 48 → s.fs.clocked = true → 15 < mv →
      Answers (.voltageDroop f mv) s (fun t => t.fs.boost.get f.toNat 0 ≤ 30 ∧ f.toNat ∈ t.fs.fastLoop ∧ t.fs.cur = s.fs.cur ∧
        (∀ g, g ≠ f.toNat → t.fs.boost.get g 0 = s.fs.boost.get g 0) ∧ t = { s with fs := t.fs, free := t.free })) ∧
    (∀ f : BitVec 6, f.toNat < 48 → s.fs.clocked = true →
      Answers (.vdroop f) s (fun t => t.fs.forced = true ∧ t.fs.fSupply = true ∧ (s.fs.forced = false → t.fs.cur = 7) ∧
        t.tcb = s.tcb ∧ t.panel = s.panel ∧ t.ports = s.ports)) ∧
    (∀ e : BitVec 32, s.fs.clocked = true →
      Answers (.xskew e) s (fun t => t.fs.forced = true ∧ t.fs.fSkew = true ∧ (s.fs.forced = false → t.fs.cur = 7) ∧
        t.fs.xskewEdges = s.fs.xskewEdges ++ [e.toNat] ∧ t.tcb = s.tcb ∧ t.panel = s.panel ∧ t.ports = s.ports)) ∧
    (∀ cause : SupplyCause, s.mg.powered = true → s.mg.supplyFail = false →
      (∀ f, cause = .railLow f → s.fs.coreRails = true ∧ f.toNat < 48) →
      Answers (.supplyFail cause) s (fun t => t.mg.supplyFail = true ∧ t.fs.coreRails = false ∧ t.fs.clocked = false ∧
        t.panel = s.panel ∧ t.ctxs = s.ctxs ∧ t.tcb = s.tcb)) ∧
    (∀ (n : BitVec 32) (r : BitVec 16), s.mg.powered = true → n.toNat < 80 → tripAt n.toNat ≤ r.toInt →
      Answers (.thermalTrip n r) s (fun t => t.mg.rstCause = 6 ∧ t.mg.ready = false ∧ t.fs.clocked = false ∧ t.fs.tripHold = true ∧
        t.ctxs = [] ∧ t.ident = s.ident ∧ t.tcb.now = s.tcb.now)) ∧
    (∀ h, s.fs.coolPosted = true → s.fs.coolOkSince = some h →
      Answers .coolantOk s (fun t => h + 1000000000 ≤ t.tcb.now ∧ t.fs.coolPosted = false ∧ t.fs.coolOkSince = none ∧
        t.ctxs = s.ctxs ∧ t.panel = s.panel)) ∧
    (∀ v : BitVec 16, s.mg.powered = true → 4100 < v.toNat → v.toNat ≤ 4200 → s.lines.highPosted = false →
      Answers (.supplyHigh v) s (fun t => t.lines.highPosted = true ∧ t.tel.vin = v ∧ t.ctxs = s.ctxs ∧ t.panel = s.panel ∧ t.fs = s.fs)) ∧
    (∀ v : BitVec 16, s.mg.powered = true → 3000 ≤ v.toNat → v.toNat < 3200 → s.lines.lowPosted = false →
      Answers (.supplyLow v) s (fun t => t.lines.lowPosted = true ∧ t.tel.vin = v ∧ t.ctxs = s.ctxs ∧ t.panel = s.panel ∧ t.fs = s.fs)) ∧
    (s.mg.powered = true →
      Answers .watchdog s (fun t => s.mg.dogAt + 1000000000 ≤ t.tcb.now ∧ t.mg.rstCause = 5 ∧ t.mg.ready = false ∧ t.ctxs = [] ∧
        t.ident = s.ident ∧ t.mg.rstCnt = satAdd s.mg.rstCnt 1))

/-! ## Rings and descriptors -/

/-- HI_DB_SQT, HI_DB_CQH, HI_DB_EQH, HI_DB_COMMIT and HI_RCTL_ENABLE (R265, R266, R387, Table 12.3): a
doorbell that keeps the occupancy in range moves its index and nothing else, another sets BADDB and moves
none; the commit doorbell puts the whole checked shadow set in force, or none of it; ENABLE follows its
bit, and a busy ring keeps its vectors. -/
def Obligations.DoorbellsMoveTheirIndexOrNone : Prop :=
  ∀ (s : State) (fn : Nat) (v : BitVec 32), fn ≤ 64 → s.barLive = true →
    let h := s.fn fn
    (let ok := (v - h.sqh).toNat ≤ ringSize h.sqLo
     (ok → Answers (.hiDbSqt fn v) s (fun t => t = s.setFn fn { h with sqt := v })) ∧
     (¬ok → Answers (.hiDbSqt fn v) s (fun t =>
       (t.fn fn).baddb = true ∧ (t.fn fn).sqt = h.sqt ∧ ∀ f, f ≠ fn → t.fn f = s.fn f))) ∧
    (let ok := (h.cqt - v).toNat ≤ ringSize h.cqLo
     (ok → Answers (.hiDbCqh fn v) s (fun t => t = s.setFn fn { h with cqh := v })) ∧
     (¬ok → Answers (.hiDbCqh fn v) s (fun t =>
       (t.fn fn).baddb = true ∧ (t.fn fn).cqh = h.cqh ∧ ∀ f, f ≠ fn → t.fn f = s.fn f))) ∧
    (let ok := (h.eqt - v).toNat ≤ ringSize h.eqLo
     (ok → Answers (.hiDbEqh fn v) s (fun t => t = s.setFn fn { h with eqh := v })) ∧
     (¬ok → Answers (.hiDbEqh fn v) s (fun t =>
       (t.fn fn).baddb = true ∧ (t.fn fn).eqh = h.eqh ∧ ∀ f, f ≠ fn → t.fn f = s.fn f))) ∧
    (fn ≠ 0 → v.getLsbD 0 = true →
      let c := fn - 1
      let w := (s.ctx c).shadow
      (w ≠ {} → s.commitFault w = none →
        Answers (.hiDbCommit fn v) s (fun t =>
          (t.ctx c).shadow = {} ∧ (∀ d, d ≠ c → t.ctx d = s.ctx d) ∧
          (∀ k, t.core k = if k ∈ w.cores then (s.core k).afterWrites (w.writesOf k) else s.core k))) ∧
      (∀ k g p, w ≠ {} → s.commitFault w = some (k, g, p) →
        Answers (.hiDbCommit fn v) s (fun t =>
          (t.ctx c).shadow = {} ∧ (∀ d, d ≠ c → t.ctx d = s.ctx d) ∧
          (∀ i, t.core i = s.core i) ∧ t.ports = s.ports ∧ (t.ctx c).crj = crjWord k g p ∧ (t.ctx c).cfgst.getLsbD 2 = true))) ∧
    (let eq := fld v.toNat 21 16
     let cq := fld v.toNat 13 8
     let only (t : State) : Prop := (∀ f, f ≠ fn → t.fn f = s.fn f) ∧ t.ctxs = s.ctxs ∧ t.panel = s.panel
     (h.busy = false → eq ≤ maxVec fn → cq ≤ maxVec fn →
       Answers (.hiRctlEnable fn v) s (fun t => only t ∧ t.ports = s.ports ∧
         t.fn fn = { h with enable := v.getLsbD 0, eqVec := eq, cqVec := cq, evlost := if v.getLsbD 0 && !h.enable then 0 else h.evlost })) ∧
     (h.busy = false → maxVec fn < eq →
       Answers (.hiRctlEnable fn v) s (fun t => only t ∧ (t.fn fn).enable = v.getLsbD 0 ∧ (t.fn fn).eqVec = h.eqVec)) ∧
     (h.busy = true →
       Answers (.hiRctlEnable fn v) s (fun t => only t ∧ (t.fn fn).enable = v.getLsbD 0 ∧ (t.fn fn).eqVec = h.eqVec ∧ (t.fn fn).cqVec = h.cqVec)))

/-- DESCRIPTOR_TAKE, DESCRIPTOR_TIMEOUT, EVENT_LOST and HOST_RING_LOST (R262, R267, R268, R270, R272, R273):
a descriptor that passes its tests uses up one submission entry, reserves one completion entry and joins a
queue; one that fails them has its record at once; one whose TIMEOUT is reached completes with TIMED_OUT;
dropped events are told of once. -/
def Obligations.DescriptorsAreTakenAndTimedOut : Prop :=
  ∀ (s : State) (fn : Nat), fn ≤ 64 →
    let h := s.fn fn
    (h.enable = true → h.flr = false → h.sqt ≠ h.sqh → 0 < h.cqFree →
      let d := s.descAt fn
      let s1 := s.setFn fn { h with sqh := h.sqh + 1, res := h.res + 1 }
      let only (t : State) : Prop := (t.fn fn).sqh = h.sqh + 1 ∧ (∀ f, f ≠ fn → t.fn f = s.fn f) ∧ t.ctxs = s.ctxs ∧
        t.panel = s.panel ∧ t.ports = s.ports
      (descTest s1 d = none →
        Answers (.descriptorTake fn) s (fun t => only t ∧
          (if d.op = 2 then { d with seen := some (s.seenBy (fn - 1)) } else d) ∈ (t.fn fn).queues ∧
          (t.fn fn).res = h.res + 1 ∧ (t.fn fn).cqt = h.cqt ∧ t.link = s.link)) ∧
      (∀ st det, descTest s1 d = some (st, det) →
        Answers (.descriptorTake fn) s (fun t => only t ∧ (t.fn fn).res = h.res ∧ (t.fn fn).queues = h.queues ∧
          (s.muted d = false → (t.fn fn).cqt = h.cqt + 1)))) ∧
    (∀ slot d, s.descOf fn slot = some d → d.st = .waiting → d.fn = fn → d.op ≠ 5 → d.op ≠ 6 →
      (fn ≠ 0 → d.expired = true → d.op ≠ 1 →
        Answers (.descriptorTimeout fn slot) s (fun t => Ends t d 3 0 (fun u => u = s))) ∧
      (fn ≠ 0 → d.expired = true → d.op = 1 →
        Answers (.descriptorTimeout fn slot) s (fun t => t.holds d = false ∧ (∀ f, f ≠ fn → t.fn f = s.fn f) ∧ t.panel = s.panel ∧
          (s.muted d = false → (t.fn fn).cqt = h.cqt + 1))) ∧
      (fn = 0 → Answers (.descriptorTimeout fn slot) s (fun t =>
        (d.ticks + d.word 1) * 1000000 ≤ t.tcb.now ∧ Ends t d 3 0 (fun u => u.panel = s.panel ∧ u.ctxs = s.ctxs ∧ u.fns = s.fns)))) ∧
    (h.lost ≠ 0 → h.eqFree ≠ 0 → Cells.wf 0 s.link.mem = true →
      let n := ringSize h.eqLo
      let a := ringAddr h.eqLo h.eqHi + 32 * (h.eqt.toNat % n)
      Answers (.eventLost fn) s (fun t =>
        (t.fn fn).lost = 0 ∧ (t.fn fn).eqt = h.eqt + 1 ∧ (∀ f, f ≠ fn → t.fn f = s.fn f) ∧
        t.hostRead a 32 = eventBytes 0x8402 (ringPhase h.eqt.toNat n) 1 (fn - 1) srcHost (s.when_ fn) h.lost 0 s.tcb.now ∧
        (∀ b, b < a ∨ a + 32 ≤ b → Cells.get 0 t.link.mem b = Cells.get 0 s.link.mem b) ∧ t.ctxs = s.ctxs ∧ t.panel = s.panel)) ∧
    Answers (.hostRingLost fn) s (fun t =>
      (t.fn fn).enable = false ∧ (t.fn fn).hosterr = true ∧ (∀ f, f ≠ fn → f ≠ 0 → t.fn f = s.fn f) ∧ t.ctxs = s.ctxs ∧ t.panel = s.panel)

/-- SUBMIT, PROGRAM_LOAD and HANDLE (R274, R276, R285, R290, R293, R387): a SUBMIT within its areas takes
the next input slot and its fetch begins; an image that passes every check becomes the context's program
and stands in its cores, one that fails leaves all as it was and names its check; HANDLE stages its
entries for the next commit and changes no core. -/
def Obligations.SubmitLoadAndHandleDoTheirWork : Prop :=
  ∀ (s : State) (fn : Nat), fn ≤ 64 →
    let c := fn - 1
    let x := s.ctx c
    (∀ d p, (s.fn fn).admq.find? (fun e => e.st == .waiting) = some d → x.prog = some p →
      0 < d.word 6 → d.word 6 ≤ p.inp.size → 0 < d.word 7 → d.word 7 ≤ p.out.size → x.inBusy.contains x.nextIn = false →
      Answers (.submit fn) s (fun t =>
        (t.ctx c).inBusy = x.inBusy ++ [x.nextIn] ∧ (t.ctx c).nextIn = (x.nextIn + 1) % p.inp.n ∧
        (∃ e ∈ (t.fn fn).admq, e.same d = true ∧ e.st = .fetching ∧ e.inSlot = some x.nextIn) ∧
        (∀ k, k ≠ c → t.ctx k = s.ctx k) ∧ t.panel = s.panel ∧ t.ports = s.ports ∧ t.link = s.link)) ∧
    (∀ d, s.ctlHead fn 0x02 = some d →
      let m := s.hostRead (d.dword 4) (d.word 6)
      (∀ f, verify (s.asTaken c d) c (d.word 6) (s.genList d) m = some f → d.expired = false →
        Answers (.programLoad fn .ok) s (fun t => Ends t d 0x000D f.reason (fun u =>
          u.panel = s.panel ∧ u.ctxs = s.ctxs ∧ u.ports = s.ports))) ∧
      (verify (s.asTaken c d) c (d.word 6) (s.genList d) m = none → d.expired = false →
        Answers (.programLoad fn .ok) s (fun t => Ends t d 0 0 (fun u =>
          (u.ctx c).prog = some { imgProgram m with gens := s.genList d } ∧ (u.ctx c).st = x.st ∧
          (∀ k, k ≠ c → u.ctx k = s.ctx k) ∧ u.ports = s.ports ∧
          (∀ i, i ∉ x.cores → (u.core i).istore = (s.core i).istore) ∧
          (∀ i, i ∈ x.cores → (∀ r ∈ imgCode m, i ∉ recCores x r) → (u.core i).istore = stopStore))))) ∧
    (∀ d, s.ctlHead fn 0x03 = some d →
      Answers (.handle fn) s (fun t =>
        (t.ctx c).shadow.handles = x.shadow.handles ++
          (x.rectCores (d.rect 4)).map (fun k => (k, d.word 6 % 64, entryOf (d.word 6) (d.word 7) (d.word 8))) ∧
        (∀ i, t.core i = s.core i) ∧ (∀ k, k ≠ c → t.ctx k = s.ctx k) ∧ t.ports = s.ports ∧ t.link = s.link))

/-- QUEUE create, configure and delete (R142, R143, R275, R387): a pair is created with its
configuration, configured only while it holds nothing, its live fields staged for the commit, and deleted
only while it holds nothing; every other pair stays. -/
def Obligations.QueuesAreCreatedConfiguredAndDeleted : Prop :=
  ∀ (s : State) (fn : Nat) (d : Taken), fn ≤ 64 →
    let c := fn - 1
    let p := d.qPort
    let q := d.qPair
    let cfg := d.word 5
    let others (t : State) : Prop :=
      (∀ k, k ≠ pairKey c q → (t.port p).pairs.get k {} = (s.port p).pairs.get k {}) ∧ (∀ n, n ≠ p → t.port n = s.port n) ∧
      (t.port p).mem = (s.port p).mem ∧ t.panel = s.panel
    (s.queueHead fn 0 = some d → (s.ctx c).st ≠ .free → s.portUp p = true → (s.port p).hasPair c q = false →
      let made (cap : Nat) : Pair :=
        { mode := bvf 2 cfg 31 30, rqcap := cap, empty := decide (fld cfg 16 16 = 1), cut := bvf 16 cfg 15 0,
          idle := BitVec.ofNat 32 (d.word 6), rbase := BitVec.ofNat 24 (d.word 7), rsize := BitVec.ofNat 20 (d.word 8) }
      (1 ≤ fld cfg 29 23 → fld cfg 29 23 ≤ 64 →
        Answers (.queueCreate fn) s (fun t => Ends t d 0 0 (fun u =>
          (u.port p).hasPair c q = true ∧ (u.port p).pair c q = made (fld cfg 29 23) ∧ others u ∧ u.ctxs = s.ctxs ∧ u.fns = s.fns))) ∧
      (rqcapOk (fld cfg 29 23) = false →
        Answers (.queueCreate fn) s (fun t => Ends t d 0 0 (fun u =>
          (u.port p).hasPair c q = true ∧ (u.port p).pair c q = made 8 ∧ others u ∧ (u.ctx c).cfgst = (s.ctx c).cfgst ||| 2#3)))) ∧
    (s.queueHead fn 1 = some d → s.portUp p = true → (s.port p).hasPair c q = true →
      let pr := (s.port p).pair c q
      let staged (t : State) : Prop := others t ∧ (t.ctx c).shadow.pairs = (s.ctx c).shadow.pairs ++ lvOf p q cfg (d.word 6) ∧
        let pn := (t.port p).pair c q
        pn.cut = pr.cut ∧ pn.empty = pr.empty ∧ pn.idle = pr.idle ∧ pn.reqs = pr.reqs ∧ pn.ring = pr.ring
      (pr.busy = true →
        Answers (.queueConfigure fn) s (fun t => staged t ∧
          let pn := (t.port p).pair c q
          pn.mode = pr.mode ∧ pn.rqcap = pr.rqcap ∧ pn.rbase = pr.rbase ∧ pn.rsize = pr.rsize)) ∧
      (pr.busy = false →
        Answers (.queueConfigure fn) s (fun t => staged t ∧
          let pn := (t.port p).pair c q
          pn.mode = bvf 2 cfg 31 30 ∧ pn.rqcap = (if rqcapOk (fld cfg 29 23) then fld cfg 29 23 else pr.rqcap) ∧
          pn.rbase = BitVec.ofNat 24 (d.word 7) ∧ pn.rsize = BitVec.ofNat 20 (d.word 8)))) ∧
    (s.queueHead fn 2 = some d → s.portUp p = true → (s.port p).hasPair c q = true → ((s.port p).pair c q).busy = false →
      Answers (.queueDelete fn) s (fun t => Ends t d 0 0 (fun u => (u.port p).hasPair c q = false ∧ others u ∧ u.ctxs = s.ctxs)))

/-- START, QUIESCE and RESUME (R243, R248, R249): from BOUND with a program, a READY set and cycles
enough, a context runs from frame 0 with every core at its start state and its first tick at the next
multiple of its period; a RUNNING context is to quiesce at its next tick; a QUIESCED one resumes at its
resume tick. From any other state each is refused with CX_STATE and changes nothing. -/
def Obligations.ContextsStartQuiesceAndResume : Prop :=
  ∀ (s : State) (fn : Nat) (d : Taken), fn ≤ 64 →
    let c := fn - 1
    let x := s.ctx c
    let only (t : State) : Prop := ∀ k, k ≠ c → t.ctx k = s.ctx k
    (s.ctlHead fn 0x08 = some d →
      (x.st ≠ .bound → Answers (.start fn) s (fun t => Ends t d 0x0100 x.st.code (fun u => u = s))) ∧
      (x.st = .bound → x.startFault = none →
        Answers (.start fn) s (fun t => Ends t d 0 0 (fun u => only u ∧
          (u.ctx c).st = .running ∧ (u.ctx c).started = true ∧ (u.ctx c).fcount = 0 ∧ (u.ctx c).runPeriod = x.period ∧
          (u.ctx c).nextTick = ceilMul s.tcb.now x.period ∧ (u.ctx c).stretch = 0 ∧ (u.ctx c).batches = [] ∧
          (∀ i, s.panel.cores.has i = true → (s.core i).owner = some c → u.core i = (s.core i).startClear) ∧
          (∀ i, (s.core i).owner ≠ some c → u.core i = s.core i))))) ∧
    (s.ctlHead fn 0x09 = some d → x.st = .running → x.job = 0 → x.quiesce = none → x.wset.load = none →
      Answers (.quiesce fn) s (fun t => only t ∧ t.panel = s.panel ∧ t.ports = s.ports ∧
        t.ctx c = { x with quiesce := some { cut := decide (d.word 4 % 2 = 1), at_ := x.nextTick, why := .desc } })) ∧
    (s.ctlHead fn 0x0A = some d → x.st = .quiesced → x.job = 0 → x.startFault = none →
      Answers (.resume fn) s (fun t => only t ∧ t.panel = s.panel ∧
        t.ctx c = { x with resumeAt := some (x.resumeTick s.tcb.now) } ∧ (∀ p, p < 24 → (t.port p).selfRef = false)))

/-- HOST_XFER, HOST_XFER_DONE and DEBUG_READ (R282, R283): a transfer within its handles or its window
starts; at its end the host's buffer holds the window's bytes, or the window the host's, and no other byte
of it changes; a debug read puts the whole records that fit into the host's buffer and changes no byte of the module. -/
def Obligations.TransfersMoveTheirBytes : Prop :=
  ∀ (s : State) (fn : Nat) (d : Taken), fn ≤ 64 →
    let c := fn - 1
    let kept (u : State) : Prop := (∀ i, (u.core i).mem = (s.core i).mem) ∧ (∀ n, (u.port n).mem = (s.port n).mem) ∧
      u.ctxs = s.ctxs ∧ u.fns = s.fns
    (s.xferHead fn 0x0B = some d → s.xferFault c d = none → d.kind ≠ 2 → d.fn = fn →
      Answers (.hostXfer fn) s (fun t => (∃ e ∈ (t.fn fn).xferq, e.same d = true ∧ e.st = .running) ∧
        (∀ f, f ≠ fn → t.fn f = s.fn f) ∧ t = { s with fns := t.fns })) ∧
    (s.xferNow fn = some d → s.xferOwned c d = false →
      (∀ bs, d.toHost = true → s.moveOut c d = .inl bs → Cells.wf 0 s.link.mem = true →
        Answers (.hostXferDone fn .ok) s (fun t => Ends t d 0 0 (fun u =>
          u.hostRead (d.dword 8) bs.length = bs ∧ kept u))) ∧
      (∀ a, d.toHost = false → d.kind = 1 → s.unsent c d = false → Cells.wf 0 (s.port d.port4).mem = true →
        (s.port d.port4).addr? c (d.xferOff : Nat) d.xferLen = some a → (s.port d.port4).eccMerge a d.xferLen = none →
        Answers (.hostXferDone fn .ok) s (fun t => Ends t d 0 0 (fun u =>
          Cells.read 0 (u.port d.port4).mem a d.xferLen = s.hostRead (d.dword 8) d.xferLen ∧
          (∀ b, b < a ∨ a + d.xferLen ≤ b → Cells.get 0 (u.port d.port4).mem b = Cells.get 0 (s.port d.port4).mem b) ∧
          (∀ n, n ≠ d.port4 → u.port n = s.port n) ∧ u.panel = s.panel ∧ u.ctxs = s.ctxs ∧ u.link = s.link)))) ∧
    (∀ rs, s.xferHead fn 0x0C = some d → ([0, 1, 2, 6].contains (d.word 4 % 16) && (s.ctx c).part.isNone) = false →
      s.debugRecords c d = .inl rs → Cells.wf 0 s.link.mem = true →
      Answers (.debugRead fn .ok) s (fun t => Ends t d 0 0 (fun u =>
        u.hostRead (d.dword 8) (wholeRecords d.xferLen rs).length = wholeRecords d.xferLen rs ∧
        (wholeRecords d.xferLen rs).length ≤ d.xferLen ∧ kept u)))

/-! ## Weight sets and page tables -/

/-- WSET_LOAD, WSET_SWAP, SHARD_TRANSFER_START and SHARD_VERDICT (R185 to R198, R205, R393): a load or a swap
is refused with the status of the first check it fails and then changes nothing; an accepted load puts its
set in place, LOADING, with every shard to transfer; an accepted swap leaves the set in force and waits for
its switch tick; a shard starts when its stages are free and its engine is free for it, in the order of asking, and its bytes reach its cores and
make it GOOD only where they have its digest. -/
def Obligations.WeightSetsAreCheckedAndLoaded : Prop :=
  ∀ (s : State),
    (∀ (fn : Nat) (d : Taken), fn ≤ 64 →
      let c := fn - 1
      let x := s.ctx c
      let m := s.manifestOf d
      let g := parseManifest m
      let fault := (s.manifestFault m (s.repairList d)).or (s.loadFault c d g)
      let only (t : State) : Prop := (∀ k, k ≠ c → t.ctx k = s.ctx k) ∧ t.panel = s.panel ∧
        (∀ n, (t.port n).mem = (s.port n).mem) ∧ t.link = s.link
      (s.ctlHead fn 0x05 = some d → ∀ f, fault = some f →
        Answers (.wsetLoad fn .ok) s (fun t => Ends t d f.1 f.2 (fun u => u = s))) ∧
      (s.ctlHead fn 0x05 = some d → fault = none → d.wsRepair = false →
        Answers (.wsetLoad fn .ok) s (fun t => only t ∧
          let w := (t.ctx c).wset
          w.st = 1 ∧ w.epoch = d.wsEpoch ∧ w.root = g.root ∧ w.shards = g.shards ∧
          (∃ l, w.load = some l ∧ l.d = d ∧ l.swap = false ∧ l.source = d.wsSource ∧ l.todo = List.range g.shards.length) ∧
          (t.ctx c).st = x.st)) ∧
      (s.ctlHead fn 0x05 = some d → fault = none → d.wsRepair = true → repairTodo x.wset.shards (s.repairList d) ≠ [] →
        Answers (.wsetLoad fn .ok) s (fun t => only t ∧
          let w := (t.ctx c).wset
          let todo := repairTodo x.wset.shards (s.repairList d)
          w.st = 1 ∧ w.epoch = x.wset.epoch ∧ w.root = x.wset.root ∧ w.shards.length = x.wset.shards.length ∧
          (∀ i h, x.wset.shards[i]? = some h → w.shards[i]? = some (if i ∈ todo then
            { g.shards.getD i h with st := h.st, lastGood := h.lastGood } else h)) ∧
          (∃ l, w.load = some l ∧ l.d = d ∧ l.swap = false ∧ l.todo = todo))) ∧
      (s.ctlHead fn 0x06 = some d → d.wsJob = false → [CtxState.bound, .running, .quiesced].contains x.st = false →
        Answers (.wsetSwap fn .ok) s (fun t => Ends t d 0x0100 x.st.code (fun u => u = s))) ∧
      (s.ctlHead fn 0x06 = some d → (d.wsJob = true ∨ [CtxState.bound, .running, .quiesced].contains x.st = true) →
        (∀ f, fault = some f → Answers (.wsetSwap fn .ok) s (fun t => Ends t d f.1 f.2 (fun u => u = s))) ∧
        (fault = none → Answers (.wsetSwap fn .ok) s (fun t => only t ∧ t.ports = s.ports ∧
          ∃ l, l.d = d ∧ l.swap = true ∧ l.cut = d.wsCut ∧ l.armed = !d.wsJob ∧ l.at_ = x.nextTick ∧ l.waiting = false ∧
            t.ctx c = { x with wset := { x.wset with load := some l, next := some (g.shards, g.root, d.wsEpoch) } })))) ∧
    (∀ (cc : BitVec 6) (i : Nat) (l : Load),
      let c := cc.toNat
      let x := s.ctx c
      let h := x.wset.shards.getD i {}
      x.wset.load = some l →
      (l.runs = true → l.todo.contains i = true → s.shardFree c l h = true →
        let started (t : State) : Prop :=
          t.ctx c = { x with wset := { x.wset with shards := x.wset.shards.modify i (fun q => { q with st := .arriving }),
                                                   load := some { l with todo := l.todo.filter (· != i) } } } ∧
          (∀ k, k ≠ c → t.ctx k = s.ctx k) ∧ t.panel = s.panel
        (l.engine i = none → s.hostTurn c l i = true →
          Answers (.shardTransferStart cc i) s (fun t => started t ∧ t.ports = s.ports)) ∧
        (∀ p, l.engine i = some p → s.portServes p = true →
          let q := (s.port p).engineQ.filter s.wantsEngine
          ((s.port p).engine = none → q.head?.all (fun e => e == (c, i)) = true →
            Answers (.shardTransferStart cc i) s (fun t => started t ∧ (t.port p).engine = some (c, i) ∧
              (t.port p).mem = (s.port p).mem ∧ ∀ n, n ≠ p → t.port n = s.port n)) ∧
          (∀ e, (s.port p).engine = some e → e ≠ (c, i) →
            Answers (.shardTransferStart cc i) s (fun t => t.ctxs = s.ctxs ∧ t.panel = s.panel ∧ (t.port p).engine = some e ∧
              (t.port p).engineQ = (if (c, i) ∈ q then q else q ++ [(c, i)]) ∧ ∀ n, n ≠ p → t.port n = s.port n)))) ∧
      (∀ dma, h.st = .arriving →
        let r := s.shardBytes c l h i dma
        let good := !r.2.1 && decide (sha256 r.1 = h.digest)
        let ks := x.shardCores h
        r.2.2 = none → ks.Nodup →
        Answers (.shardVerdict cc i dma) s (fun t => ∃ u : State, t = u.settle c ∧
          (u.ctx c).wset.shards = x.wset.shards.modify i (fun q => { q with st := if good then .good else .bad }) ∧
          (∀ p, (u.port p).engine ≠ some (c, i) ∧ (u.port p).mem = (s.port p).mem) ∧
          (∀ k, k ∉ ks → u.core k = s.core k) ∧
          (∀ n k k', ks[n]? = some k →
            let bs := (r.1.drop (n * h.per * 64)).take (h.per * 64)
            bs ≠ [] → (l.source = 0 → s.hostReaches k = true) → (s.core k).hostStore h.hd (64 * h.off) bs = .inl k' → u.core k = k'))))

/-- SWAP_SWITCH, SWAP_RESUME, SWAP_LOADED_REPORT, RECHECK_VERDICT and RECHECK_ABANDON (R200, R201, R205 to
R209, R325): at the switch tick the new set and its epoch take the place of the old, and its stages are
held; at the resume tick they go on; a job goes on when its last member has loaded; a re-check that passes
notes its frame, and one that fails makes the set SUSPECT and the context FAULTED. -/
def Obligations.SwapsSwitchResumeAndSetsAreRechecked : Prop :=
  ∀ (s : State),
    (∀ (cc : BitVec 6),
      let c := cc.toNat
      let x := s.ctx c
      let others (t : State) : Prop := ∀ k, k ≠ c → t.ctx k = s.ctx k
      (∀ l sh root ep, x.wset.load = some l → x.swapDue l.at_ = true → x.wset.next = some (sh, root, ep) →
        Answers (.swapSwitch cc) s (fun t => others t ∧ t.panel = s.panel ∧ (∀ n, (t.port n).mem = (s.port n).mem) ∧
          t.tcb.now = max s.tcb.now l.at_ ∧
          let y := t.ctx c
          y.wset.st = 1 ∧ y.wset.epoch = ep ∧ y.wset.root = root ∧ y.wset.shards = sh ∧ y.wset.next = none ∧ y.wset.recheck = none ∧
          y.wset.load = some { l with armed := false, waiting := true, tTick := x.tickNo + 1 } ∧
          (∃ o, y.wset.old = some o ∧ (x.wset.old = none → o.epoch = x.wset.epoch ∧ o.root = x.wset.root ∧ o.shards = x.wset.shards ∧
            o.tTick = x.tickNo + 1)) ∧
          y.held = (if l.cut ∨ x.st ≠ .running then List.range x.stages else if x.held.contains 0 then x.held else x.held ++ [0]) ∧
          (let frame := if x.started then x.fcount + 1 else x.fcount
           l.cut = true → ∀ b ∈ y.batches, b.ended.isSome = true ∨ b.copying = true ∨ x.stages ≤ frame - b.tick) ∧
          (l.cut = false → y.batches.map (fun b => { b with late := false }) = x.batches.map (fun b => { b with late := false })) ∧
          y.st = x.st ∧ y.fcount = x.fcount)) ∧
      (∀ r, x.wset.resumeAt = some r →
        Answers (.swapResume cc) s (fun t => others t ∧ t = { s with tcb := t.tcb, fs := t.fs, ctxs := t.ctxs } ∧
          t.tcb.now = max s.tcb.now r ∧
          t.ctx c = { x with wset := { x.wset.takeGap with resumeAt := none, freshAt := x.tickNo + 1 },
                             held := if x.st = .quiesced then x.held else [] })) ∧
      (∀ r, x.wset.recheck = some r →
        let i := r.shard
        let h := x.wset.shards.getD i {}
        let moved (t : State) : Prop := others t ∧ (∀ k, (t.core k).mem = (s.core k).mem) ∧ (∀ n, (t.port n).mem = (s.port n).mem) ∧
          (t.port (i % 24)).engine ≠ some (c, i)
        Answers (.recheckAbandon cc) s (fun t => moved t ∧ t.panel = s.panel ∧
          t.ctx c = { x with wset := { x.wset with recheck := none, nextShard := i } } ∧ r.tc + 200000000 ≤ t.tcb.now) ∧
        (∀ bs, x.wset.st = 2 → s.portServes (i % 24) = true → (s.port (i % 24)).engine = some (c, i) → r.tick < x.tickNo →
          s.shardImage c h = .inl bs →
          (sha256 bs = h.digest → Answers (.recheckVerdict cc) s (fun t => moved t ∧
            t.ctx c = { x with wset := { x.wset with recheck := none,
                                                     shards := x.wset.shards.modify i (fun q => { q with lastGood := x.fcount }) } })) ∧
          (sha256 bs ≠ h.digest → Answers (.recheckVerdict cc) s (fun t => moved t ∧
            (t.ctx c).wset = { x.wset with recheck := none, st := 3, shards := x.wset.shards.modify i (fun q => { q with st := .bad }) } ∧
            (t.ctx c).batches = [] ∧
            ([CtxState.bound, .running, .quiesced].contains x.st = true →
              (t.ctx c).st = .faulted ∧ (t.ctx c).fault = some 0x0701)))))) ∧
    (∀ (job : BitVec 16) (m : BitVec 10), s.ep.role = 2 →
      let id := job.toNat
      let j := s.job id
      let l := (j.loaded ++ [m.toNat]).eraseDups
      (j.st = .swapping true ∨ j.st = .swapping false) →
      (∀ f d, s.swapDesc id = some d → Answers (.swapLoadedReport job m (some f)) s (fun t =>
        let miss := (f.filter (fun n => n.getLsbD 15)).length
        Ends t d 0x020A (65536 * (f.length - miss) + miss) (fun u => u = s))) ∧
      Answers (.swapLoadedReport job m none) s (fun t => (t.job id).loaded = l ∧ (t.job id).st = j.st ∧
        (∀ k, k ≠ id → t.job k = s.job k) ∧ t.ctxs = s.ctxs ∧ t.panel = s.panel ∧ t.fns = s.fns ∧
        (s.exBusy = false → j.members.all (fun q => l.contains q.1) = true →
          ∃ e, t.ep.ex = some e ∧ e.kind = .resume ∧ e.job = id ∧ e.manager = true ∧ e.d = s.swapDesc id) ∧
        ((s.exBusy = true ∨ j.members.all (fun q => l.contains q.1) = false) → t.ep.ex = s.ep.ex)))

/-- EDIT_PAGETABLE INIT, EDIT and RELEASE, PT_EDIT_PERFORM and PT_EDIT_COMPLETE (R164 to R170): INIT writes
both copies of a table and owns its region; an EDIT waits its turn, is refused where an entry's generation or
the edited layout is wrong, and else goes into the inactive copy, which becomes the active one while the
other stands; it completes when no walk reads the old copy; a RELEASE gives the region up, bytes and all. -/
def Obligations.PageTablesAreEditedBesideTheirReaders : Prop :=
  ∀ (s : State),
    (∀ (fn : Nat) (d : Taken), fn ≤ 64 →
      let c := fn - 1
      let p := d.port4
      let k := s.port p
      let others (u : State) : Prop := (∀ n, n ≠ p → u.port n = s.port n) ∧ u.panel = s.panel ∧ u.ctxs = s.ctxs ∧ u.link = s.link
      (∀ a, s.ptHead fn 0 = some d → 1 ≤ d.word 8 → d.word 8 ≤ 1024 → 1 ≤ d.word 9 → d.word 9 ≤ 65535 →
        let r : Region := { ctx := c, base := d.ptBase, layers := d.word 8, maxent := d.word 9 }
        let img := s.hostRead (d.dword 6) r.cs
        (s.ptInitOk c d r = false → Answers (.editPagetableInit fn .ok) s (fun t => Ends t d 0x0303 0 (fun u => u = s))) ∧
        (s.ptInitOk c d r = true → k.addr? c (r.base : Nat) r.bytes = some a → k.eccMerge a r.bytes = none → Cells.wf 0 k.mem = true →
          Answers (.editPagetableInit fn .ok) s (fun t => Ends t d 0 0 (fun u => others u ∧
            (u.port p).regions = k.regions ++ [r] ∧ Cells.read 0 (u.port p).mem a r.bytes = ptHeader r 0 0 ++ img ++ img ∧
            (∀ b, b < a ∨ a + r.bytes ≤ b → Cells.get 0 (u.port p).mem b = Cells.get 0 k.mem b))))) ∧
      (∀ r, s.ptHead fn 1 = some d → s.ptRegion c d = some r → r.release = none →
        Answers (.editPagetableEdit fn .ok) s (fun t => others t ∧ (t.port p).mem = k.mem ∧
          ∃ e : List (BitVec 32), e.getD 0 0 = BitVec.ofNat 32 (d.word 8) ∧ e.getD 1 0 = BitVec.ofNat 32 (d.word 9) ∧
            (∀ j, j < 4 * (d.word 8 + d.word 9) →
              e.getD (2 + j) 0 = BitVec.ofNat 32 (leNat (((s.hostRead (d.dword 6) (16 * (d.word 8 + d.word 9))).drop (4 * j)).take 4))) ∧
            (t.port p).region? c d.ptBase = some { r with edits := r.edits ++ [(e, d.num)] })) ∧
      (∀ r, s.ptHead fn 2 = some d → s.ptRegion c d = some r → r.release = none →
        (r.quiet = true → Answers (.editPagetableRelease fn) s (fun t => Ends t d 0 0 (fun u => others u ∧
          (u.port p).region? c d.ptBase = none ∧ (u.port p).mem = k.mem))) ∧
        (r.quiet = false → Answers (.editPagetableRelease fn) s (fun t => others t ∧
          (t.port p).region? c d.ptBase = some { r with release := some d.num } ∧ (t.port p).mem = k.mem)))) ∧
    (∀ (cc : BitVec 6) (port : BitVec 5) (base : Nat) (r : Region),
      let c := cc.toNat
      let p := port.toNat
      let k := s.port p
      k.region? c base = some r →
      (∀ e n es d, r.edits = (e, n) :: es → r.flipped = none → r.walks (1 - k.sel r) = 0 → s.bgDesc (c + 1) n = some d →
        let sel := k.sel r
        let bs := s.windowRead c p (r.base + 64 + sel * r.cs) r.cs
        ∀ b, bs = .inl b →
          let img := (List.range (r.cs / 8)).map (fun i => BitVec.ofNat 64 (leNat ((b.drop (8 * i)).take 8)))
          let new := editTable r img e
          let left (u : State) : Prop := u = { s with ports := u.ports } ∧ (u.port p).mem = k.mem ∧
            (u.port p).region? c base = some { r with edits := es } ∧ (∀ n, n ≠ p → u.port n = s.port n)
          (∀ i, genMismatch r img e = some i →
            Answers (.ptEditPerform cc port base) s (fun t => Ends t d 0x0300 i left)) ∧
          (∀ i, genMismatch r img e = none → s.layoutFault r new e = some i →
            Answers (.ptEditPerform cc port base) s (fun t => Ends t d 0x0301 i left)) ∧
          (∀ a, genMismatch r img e = none → s.layoutFault r new e = none → k.addr? c (r.base : Nat) r.bytes = some a →
            k.eccDouble = [] → Cells.wf 0 k.mem = true →
            Answers (.ptEditPerform cc port base) s (fun t => t = { s with ports := t.ports } ∧ (∀ n, n ≠ p → t.port n = s.port n) ∧
              let w := a + 64 + (1 - sel) * r.cs
              Cells.read 0 (t.port p).mem w r.cs = new.flatMap (fun x => leBytes 8 x.toNat) ∧ (t.port p).sel r = 1 - sel ∧
              (t.port p).region? c base = some { r with edits := es, flipped := some (n, sel) } ∧
              (∀ z, (z < w ∨ w + r.cs ≤ z) → (z < a ∨ a + 8 ≤ z) → Cells.get 0 (t.port p).mem z = Cells.get 0 k.mem z)))) ∧
      (∀ n old d, r.flipped = some (n, old) → s.bgDesc (c + 1) n = some d →
        (r.walks old = 0 → Answers (.ptEditComplete cc port base) s (fun t => Ends t d 0 0 (fun u => u = { s with ports := u.ports } ∧
          (u.port p).region? c base = some { r with flipped := none } ∧ (u.port p).mem = k.mem))) ∧
        (r.walks old ≠ 0 → Answers (.ptEditComplete cc port base) s (fun t => t = s))))

/-! ## Partitions, windows and the library -/

/-- CREATE_CONTEXT, BIND, REBIND, REBIND_PROCEED and TEARDOWN (R244 to R256): a context is created empty and
takes free pods, whose cores become its own with no valid handle; a re-bind hands the cores to the other
context with every store zero and every generation advanced, or withdraws the pods that fail their check; a
teardown leaves the context FREE, its function reset, its cores without an owner and empty, its windows gone. -/
def Obligations.PartitionsAreGivenScrubbedAndTaken : Prop :=
  ∀ (s : State),
    (∀ (d : Taken),
      let c := d.word 4 % 64
      let x := s.ctx c
      (s.ctlHead 0 0x20 = some d → x.st ≠ .free → Answers .createContext s (fun t => Ends t d 0x0100 x.st.code (fun u => u = s))) ∧
      (s.ctlHead 0 0x20 = some d → x.st = .free → s.mg.unknownPart = false →
        Answers .createContext s (fun t => Ends t d 0 0 (fun u => u = { s with ctxs := u.ctxs } ∧
          (∀ k, k ≠ c → u.ctx k = s.ctx k) ∧ (u.ctx c).st = .created ∧ (u.ctx c).part = none ∧ (u.ctx c).prog = none ∧
          (u.ctx c).wset = {} ∧ (u.ctx c).job = 0 ∧ (u.ctx c).strict = decide (fld (d.word 4) 8 8 = 1) ∧
          (u.ctx c).capture = decide (fld (d.word 4) 9 9 = 1) ∧ s.tcb.now < (u.ctx c).nextTick))) ∧
      (let r := partOf (d.word 5)
       s.ctlHead 0 0x21 = some d → x.st = .created →
        (∀ st, s.partFault r false x.part.isSome = some st → Answers .bind s (fun t => Ends t d st 0 (fun u => u = s))) ∧
        (s.partFault r false x.part.isSome = none → (∀ i, (s.core i).canonical = true) →
          Answers .bind s (fun t => Ends t d 0 0 (fun u => u = { s with ctxs := u.ctxs, panel := u.panel } ∧
            (∀ k, k ≠ c → u.ctx k = s.ctx k) ∧ (u.ctx c).st = .bound ∧ (u.ctx c).part = some r ∧ u.panel.seqs = s.panel.seqs ∧
            (∀ i, i ∉ r.cores → u.core i = s.core i) ∧
            (∀ i, i ∈ r.cores → (u.core i).owner = some c ∧ (u.core i).mem = (s.core i).mem ∧
              ∀ h, h < 64 → hValid ((u.core i).handle h) = false ∧ hCtx ((u.core i).handle h) = c ∧
                hGen ((u.core i).handle h) = hGen ((s.core i).handle h)))))) ∧
      (let b := fld (d.word 4) 13 8
       ∀ r, s.ctlHead 0 0x22 = some d → x.st.gives = true → (s.ctx b).st = .created → s.jobRuns c = false → x.part = some r →
        s.partFault r true (s.ctx b).part.isSome = none →
        Answers .rebind s (fun t => t = { s with ctxs := t.ctxs, fns := t.fns } ∧ (∀ k, k ≠ c → t.ctx k = s.ctx k) ∧
          (t.ctx c).rebindTo = some (b, s.tcb.now) ∧ (t.ctx c).part = some r ∧
          (x.st = .running → (t.ctx c).st = .running ∧ ∃ q, (t.ctx c).quiesce = some q ∧ q.why = .rebind ∧
            (x.quiesce = none → q.at_ = x.nextTick ∧ q.cut = decide (fld (d.word 4) 16 16 = 1)) ∧
            (∀ o, x.quiesce = some o → o.q = none → q.at_ = o.at_ ∧ q.cut = decide (fld (d.word 4) 16 16 = 1))) ∧
          (x.st ≠ .running → (t.ctx c).st = .scrubbing ∧ (t.ctx c).quiesce = x.quiesce))) ∧
      (∀ bad dma, s.ctlHead 0 0x23 = some d → d.fn = 0 → d.word 5 = 0 → s.jobRuns c = false →
        (x.st = .free ∨ x.st = .scrubbing → Answers (.teardown bad dma) s (fun t => Ends t d 0x0100 x.st.code (fun u => u = s))) ∧
        (x.st = .running → Answers (.teardown bad dma) s (fun t => t = { s with ctxs := t.ctxs, fns := t.fns } ∧
          (t.ctx c).st = .running ∧ ∃ q, (t.ctx c).quiesce = some q ∧ q.why = .teardown)) ∧
        (x.st = .created ∨ x.st = .bound ∨ x.st = .quiesced ∨ x.st = .faulted → Answers (.teardown bad dma) s (fun t =>
          t.ctx c = {} ∧ t.fn (c + 1) = {} ∧ (∀ p, (t.port p).wins.find? c = none) ∧
          (∀ r, x.part = some r → ∀ i, i ∈ r.cores → (t.core i).owner = none ∧ (t.core i).mem = [] ∧ (t.core i).acc = [] ∧
            (t.core i).tile = [] ∧ (t.core i).vec = []))))) ∧
    (∀ (cc : BitVec 6) (bad : List (BitVec 8)) (took b t0 : Nat) (r : Rect) (d : Taken),
      let a := cc.toNat
      let bs := s.badPods r bad
      (s.ctx a).rebindTo = some (b, t0) → (s.ctx a).part = some r → s.runningOp 0 0x22 = some d → d.word 4 % 64 = a →
      (s.ctx a).st ≠ .running → b ≠ a →
      let given (u : State) : Prop := (u.ctx a).st = .created ∧ (u.ctx a).part = none ∧ (u.ctx a).prog = none ∧
        (u.ctx a).rebindTo = none ∧ t0 + took ≤ u.tcb.now ∧ ∀ i, i ∈ r.cores → (u.core i).mem = [] ∧ (u.core i).acc = [] ∧
          (u.core i).tile = [] ∧ (u.core i).vec = []
      (bs = [] → Answers (.rebindProceed cc bad took) s (fun t => Ends t d 0 0 (fun u => given u ∧
        (u.ctx b).st = .bound ∧ (u.ctx b).part = some r ∧ (u.ctx b).rebind = BitVec.ofNat 32 (min took (2 ^ 32 - 1)) ∧
        ∀ i, i ∈ r.cores → (u.core i).owner = some b ∧ ∀ h, h < 64 → hValid ((u.core i).handle h) = false))) ∧
      (bs ≠ [] → Answers (.rebindProceed cc bad took) s (fun t => Ends t d 0x0105 bs.length (fun u => given u ∧
        (∀ p, p ∈ bs → p ∈ u.mg.withdrawn) ∧ ∀ i, i ∈ r.cores → (u.core i).owner = none))))

/-- WINDOW_GRANT, WINDOW_RELEASE, RETAINED_FREE, WINDOW_SCRUB_DONE, SLOT_GRANT, LIBRARY_INSTALL,
LIBRARY_INSTALL_DONE, LIBRARY_GRANT and LIBRARY_REMOVE (R152, R193, R256): a window takes blocks that nothing
holds, or a retained window as it is; it is retained, or its bytes are zeros before its blocks are free; slots
that another context holds are refused; a library entry is complete once every shard has its digest. -/
def Obligations.WindowsSlotsAndLibraryEntriesAreGranted : Prop :=
  ∀ (s : State),
    (∀ (d : Taken),
      let c := d.word 4 % 64
      let p := fld (d.word 4) 12 8
      let k := s.port p
      let others (u : State) : Prop := (∀ n, n ≠ p → u.port n = s.port n) ∧ u.panel = s.panel ∧ u.ctxs = s.ctxs
      (s.ctlHead 0 0x24 = some d → (s.ctx c).st ≠ .free → s.portUp p = true → k.wins.has c = false →
        (∀ b, d.word 6 = 0 → d.word 5 ≠ 0 → k.freeRun p (d.word 5) = some b →
          Answers .windowGrant s (fun t => Ends t d 0 b (fun u => others u ∧ (u.port p).mem = k.mem ∧
            (u.port p).wins.find? c = some { base := b, blocks := d.word 5 } ∧
            (∀ o, o ≠ c → (u.port p).wins.find? o = k.wins.find? o) ∧
            ∀ i, i < d.word 5 → k.blockFree p (b + i) = true ∧ (u.port p).blockFree p (b + i) = false))) ∧
        (d.word 6 = 0 → d.word 5 ≠ 0 → k.freeRun p (d.word 5) = none →
          Answers .windowGrant s (fun t => Ends t d 0x010A p (fun u => u = s))) ∧
        (∀ w, d.word 6 ≠ 0 → k.retained.find? (d.word 6) = some w →
          Answers .windowGrant s (fun t => Ends t d 0 w.base (fun u => others u ∧ (u.port p).mem = k.mem ∧
            (u.port p).wins.find? c = some w ∧ (u.port p).retained.find? (d.word 6) = none)))) ∧
      (∀ w, s.ctlHead 0 0x25 = some d → k.wins.find? c = some w →
        (24 ≤ p → Answers .windowRelease s (fun t => Ends t d 0 0 (fun u => others u ∧
          (u.port p).wins.find? c = none ∧ (u.port p).mem = k.mem))) ∧
        (p < 24 → fld (d.word 4) 16 16 ≠ 1 → Answers .windowRelease s (fun t => Ends t d 0 0 (fun u => others u ∧
          (u.port p).wins.find? c = none ∧ (u.port p).retained.find? s.freshRet = some w ∧ (u.port p).mem = k.mem ∧
          u.mg.nextRet = s.freshRet % 65535 + 1))) ∧
        (p < 24 → fld (d.word 4) 16 16 = 1 → Answers .windowRelease s (fun t => others t ∧ (t.port p).wins.find? c = none ∧
          (t.port p).scrubs = k.scrubs ++ [{ base := w.base, blocks := w.blocks, num := some d.num }] ∧
          (d, 0, 0) ∈ t.mg.tearList))) ∧
      (let mask : BitVec 64 := BitVec.ofNat 64 (d.dword 6)
       s.ctlHead 0 0x27 = some d → (s.ctx c).st ≠ .free → s.portUp p = true →
        ((∀ i, i < 62 → mask.getLsbD i = true → ∀ o, k.slots.find? i = some o → o = c) →
         (∀ o w, o ∈ s.liveCtxs → o ≠ c → w ∈ (s.ctx o).shadow.slots → w.1 = p → ∀ i, i < 62 → mask.getLsbD i = true → w.2.getLsbD i = false) →
          Answers .slotGrant s (fun t => t.ports = s.ports ∧ t.panel = s.panel ∧ (∀ o, o ≠ c → t.ctx o = s.ctx o) ∧
            (t.ctx c).shadow.slots = (s.ctx c).shadow.slots ++ [(p, mask)])) ∧
        (∀ i o, i < 62 → mask.getLsbD i = true → k.slots.find? i = some o → o ≠ c →
          Answers .slotGrant s (fun t => ∃ j, j ≤ i ∧ Ends t d 0x010C j (fun u => u = s)))) ∧
      (let n := d.word 4 % 65536
       ∀ q w, s.ctlHead 0 0x26 = some d → s.retainedAt n = some (q, w) →
        Answers .retainedFree s (fun t => (t.port q).retained.find? n = none ∧ (t.port q).mem = (s.port q).mem ∧
          (t.port q).scrubs = (s.port q).scrubs ++ [{ base := w.base, blocks := w.blocks, num := some d.num }] ∧
          (d, 0, 0) ∈ t.mg.tearList ∧ t.panel = s.panel ∧ t.ctxs = s.ctxs)) ∧
      (let g := parseManifest (s.manifestOf d)
       let n := s.mg.nextLib
       s.ctlHead 0 0x28 = some d → s.hasSeqs = true →
        (∀ f, s.manifestFault (s.manifestOf d) [] = some f → Answers (.libraryInstall .ok) s (fun t => Ends t d f.1 f.2 (fun u => u = s))) ∧
        (s.manifestFault (s.manifestOf d) [] = none → g.flags % 2 = 1 → s.libFault g = none →
          Answers (.libraryInstall .ok) s (fun t => ∃ e, t.mg.lib.find? n = some e ∧ e.complete = false ∧ e.root = g.root ∧
            e.shards = g.shards ∧ e.d = d ∧ e.blocks = (List.range g.shards.length).map s.libPlace ∧
            (∀ b, b ∈ e.blocks → (t.port b.1).libUsed.find? b.2 = some n) ∧ t.ctxs = s.ctxs ∧ t.panel = s.panel))) ∧
      (∀ n e, s.libOf d.libRoot = some (n, e) → s.hasSeqs = true →
        (s.ctlHead 0 0x29 = some d → Answers .libraryGrant s (fun t => Ends t d 0 0 (fun u => u = { s with mg := u.mg } ∧
          u.mg.lib.find? n = some { e with grants := BitVec.ofNat 64 (d.dword 12) }))) ∧
        (s.ctlHead 0 0x2A = some d → (s.libReads n || !e.complete) = true →
          Answers .libraryRemove s (fun t => Ends t d 0x0214 0 (fun u => u = s))) ∧
        (s.ctlHead 0 0x2A = some d → (s.libReads n || !e.complete) = false →
          Answers .libraryRemove s (fun t => Ends t d 0 0 (fun u => u = { s with mg := u.mg, ports := u.ports } ∧
            u.mg.lib.find? n = none ∧ ∀ q, (u.port q).mem = (s.port q).mem ∧ ∀ b, (u.port q).libUsed.find? b ≠ some n))))) ∧
    (∀ (n : Nat) (e : LibEntry), s.mg.lib.find? n = some e → e.complete = false →
      let bad := e.shards.filter (fun h => sha256 (s.hostRead (e.base + h.imgoff) h.len) ≠ h.digest)
      (bad = [] → e.blocks.Nodup → (∀ h, h ∈ e.shards → h.len ≤ blockBytes) → (∀ p, Cells.wf 0 (s.port p).mem = true) →
        Answers (.libraryInstallDone n .ok) s (fun t => Ends t e.d 0 0 (fun u => u = { s with mg := u.mg, ports := u.ports } ∧
          u.mg.lib.find? n = some { e with complete := true } ∧
          (∀ h b, (h, b) ∈ e.shards.zip e.blocks →
            Cells.read 0 (u.port b.1).mem (b.2 * blockBytes) h.len = s.hostRead (e.base + h.imgoff) h.len) ∧
          (∀ p a, (p, a / blockBytes) ∉ e.blocks → Cells.get 0 (u.port p).mem a = Cells.get 0 (s.port p).mem a)))) ∧
      (bad ≠ [] → Answers (.libraryInstallDone n .ok) s (fun t => Ends t e.d 0x020A (65536 * bad.length) (fun u =>
        u.mg.lib.find? n = none ∧ u.ctxs = s.ctxs ∧ u.panel = s.panel)))) ∧
    (∀ (port : BitVec 5) (j : ScrubJob) (js : List ScrubJob),
      let p := port.toNat
      (s.port p).scrubs = j :: js → Cells.wf 0 (s.port p).mem = true →
      Answers (.windowScrubDone port) s (fun t => (t.port p).scrubs = js ∧ (∀ n, n ≠ p → t.port n = s.port n) ∧
        (∀ a, j.base * blockBytes ≤ a → a < (j.base + j.blocks) * blockBytes → Cells.get 0 (t.port p).mem a = 0) ∧
        (∀ a, a < j.base * blockBytes ∨ (j.base + j.blocks) * blockBytes ≤ a → Cells.get 0 (t.port p).mem a = Cells.get 0 (s.port p).mem a) ∧
        (∀ e, e ∈ t.mg.tearList ↔ e ∈ s.mg.tearList ∧ t.scrubbing e.1.num = true) ∧ t.ctxs = s.ctxs ∧ t.panel = s.panel))

/-! ## Resets, jobs and links -/

/-- CONTEXT_RESET, ENGINE_HUNG, ENGINE_RESET, ENGINE_RESET_DONE, ENGINE_FAULT, PARTITION_RESET, FLR, FLR_DONE,
MODULE_RESET, MG_RESET, SMBUS_RESET and MG_FLOGACK (R263, R300, R309 to R314, Tables 14.5 to 14.9): each reset
removes what its level names and keeps the rest; a context keeps its partition, program, handles and bytes
through its own reset, which an engine that is hung leaves undone; every context at work on an engine that
fails or is reset is FAULTED; a module reset keeps the stacks, the host's memory, the log and the fuses. -/
def Obligations.ResetsRemoveWhatTheirLevelNames : Prop :=
  ∀ (s : State),
    let active (c : Nat) : Prop := (s.ctx c).st = .bound ∨ (s.ctx c).st = .running ∨ (s.ctx c).st = .quiesced
    let faulted (t : State) (c code : Nat) : Prop := (t.ctx c).st = .faulted ∧ (t.ctx c).fault = some code
    let reset (cause : Nat) (t : State) : Prop :=
      t.ctxs = [] ∧ t.fns = [] ∧ t.mg.rstCause = BitVec.ofNat 8 cause ∧ t.mg.modReset = s.mg.modReset + 1 ∧
      t.mg.rstCnt = satAdd s.mg.rstCnt 1 ∧ t.tcb.now = s.tcb.now ∧
      ((s.ep.role ≠ 2 ∨ ∀ p, p < 6 → (s.epPort p).st ≠ 3) → t.link.mem = s.link.mem) ∧ t.sec.flash = s.sec.flash ∧
      t.sec.owners = s.sec.owners ∧ t.pending = s.pending ∧ (∀ i, (t.core i).owner = none) ∧ (∀ p, (t.port p).mem = (s.port p).mem) ∧
      (∀ c p w, c ∈ s.liveCtxs → p < 24 → (s.port p).wins.find? c = some w →
        (s.ports.flatMap (fun e => e.2.retained)).length < 60000 →
        (t.port p).wins = [] ∧ ∃ n, (t.port p).retained.find? n = some w)
    (∀ (d : Taken), s.resetHead [1] = some d →
      let c := d.word 5 % 64
      let x := s.ctx c
      (x.st.resets = false → Answers .contextReset s (fun t => Ends t d 0x0100 x.st.code (fun u => u = s))) ∧
      (∀ l, x.st.resets = true → x.resetting = some l → Answers .contextReset s (fun t => Ends t d 0x0113 l (fun u => u = s))) ∧
      (x.st.resets = true → x.resetting = none → ((s.setSt d .running).beginReset c).stuckOn c = none → s.selfFailed c = false →
        Answers .contextReset s (fun t => Ends t d 0 0 (fun u =>
          (u.ctx c).st = .bound ∧ (u.ctx c).fault = none ∧ (u.ctx c).resetting = none ∧ (u.ctx c).batches = [] ∧
          (u.ctx c).part = x.part ∧ (u.ctx c).prog = x.prog ∧ (u.ctx c).deaf = true ∧ (u.ctx c).wset.load = none ∧
          ∀ i, (s.core i).owner = some c → (u.core i).owner = some c ∧ (u.core i).ctrs = [] ∧ (u.core i).regs = [] ∧
            (u.core i).acc = [] ∧ (u.core i).handles = (s.core i).handles ∧ (u.core i).mem = (s.core i).mem ∧
            (u.core i).istore = (s.core i).istore)))) ∧
    (∀ (c : BitVec 6) (source : BitVec 32) (d : Taken), s.resetHead [1] = some d → d.word 5 % 64 = c.toNat → (s.ctx c.toNat).st.resets = true →
      Answers (.engineHung c source) s (fun t => Ends t d 0x0112 source.toNat (fun u => (u.ctx c.toNat).resetting = none ∧
        ((s.ctx c.toNat).st ≠ .bound → (u.ctx c.toNat).st = .faulted) ∧ (u.ctx c.toNat).part = (s.ctx c.toNat).part))) ∧
    (∀ (d : Taken), s.resetHead [2] = some d →
      let src := d.word 5
      (∀ f, s.targetFault src = some f → Answers .engineReset s (fun t => Ends t d f.1 f.2 (fun u => u = s))) ∧
      (s.targetFault src = none → s.mg.resets.any (fun r => decide (r.1.toNat = src)) = false →
        Answers .engineReset s (fun t => (BitVec.ofNat 32 src, d) ∈ t.mg.resets ∧ t.engineDown src = false ∧
          (∀ c, c ∈ s.liveCtxs → s.workOn c src = true → active c → faulted t c 0x0802) ∧
          (srcKind src = 0 → (t.port (srcNum src)).resetting = true ∧ (t.port (srcNum src)).engine = none) ∧
          (3 ≤ srcKind src → let i := srcCoreIdx src; (t.core i).mem = [] ∧ (t.core i).acc = [] ∧ (t.core i).owner = (s.core i).owner)))) ∧
    (∀ (source : BitVec 32) (good : Bool) (r : BitVec 32 × Taken), List.find? (fun e => e.1 == source) s.mg.resets = some r →
      let n := source.toNat
      Answers (.engineResetDone source good) s (fun t => Ends t r.2 0 0 (fun u =>
        (∀ e, e ∈ u.mg.resets ↔ e ∈ s.mg.resets ∧ e.1 ≠ source) ∧
        (srcKind n = 0 → (u.port (srcNum n)).resetting = false) ∧
        (srcKind n = 3 → good = false → (u.core (srcCoreIdx n)).selfFail = true)))) ∧
    (∀ (source : BitVec 32),
      (s.engineDown source.toNat = true → Answers (.engineFault source) s (fun t => t = s)) ∧
      (s.engineDown source.toNat = false → Answers (.engineFault source) s (fun t => t.engineDown source.toNat = true ∧
        t.panel = s.panel ∧ t.ports = s.ports ∧
        (∀ c, c ∈ s.liveCtxs → s.workOn c source.toNat = true → active c → faulted t c 0x0803) ∧
        (∀ c, c ∉ s.liveCtxs ∨ s.workOn c source.toNat = false → t.ctx c = s.ctx c)))) ∧
    (∀ (bad : List (BitVec 8)) (d : Taken) (r : Rect), s.resetHead [3] = some d →
      let c := d.word 5 % 64
      let x := s.ctx c
      x.st.resets = true → x.resetting = none → x.part = some r →
      (x.st = .running → x.quiesce = none → s.ep.ex = none → Answers (.partitionReset bad) s (fun t => t = { s with fns := t.fns, ctxs := t.ctxs } ∧
        t.ctx c = { x with resetting := some 3, quiesce := some { cut := true, at_ := x.nextTick, why := .partReset } })) ∧
      (x.st ≠ .running → s.badPods r bad = [] → Answers (.partitionReset bad) s (fun t => Ends t d 0 0 (fun u =>
        (u.ctx c).st = .bound ∧ (u.ctx c).part = some r ∧ (u.ctx c).prog = none ∧ (u.ctx c).resetting = none ∧ (u.ctx c).batches = [] ∧
        ∀ i, i ∈ r.cores → (u.core i).owner = some c ∧ (u.core i).mem = [] ∧ ∀ h, h < 64 → hValid ((u.core i).handle h) = false)))) ∧
    (∀ (c : BitVec 6),
      let f := c.toNat + 1
      let x := s.ctx c.toNat
      ((s.fn f).flr = true → Answers (.flr c) s (fun t => t = s)) ∧
      ((s.fn f).flr = false → Answers (.flr c) s (fun t =>
        (t.fn f).flr = true ∧ (t.fn f).enable = false ∧ (t.fn f).sqh = (s.fn f).sqt ∧ (t.fn f).admq = [] ∧
        (∀ d, d ∈ (t.fn f).queues → d.mute = true) ∧
        (x.st.resets = true → x.resetting = none → (t.ctx c.toNat).resetting = some 1 ∧
          (x.st = .running ∨ x.st = .quiesced → faulted t c.toNat 0x0801)))) ∧
      ((s.fn f).flr = true → x.resetting = some 1 →
        (s.selfFailed c.toNat = false → Answers (.flrDone c none) s (fun t => (t.fn f).flr = false ∧ (t.ctx c.toNat).st = .bound ∧
          (t.ctx c.toNat).resetting = none ∧ (t.ctx c.toNat).part = x.part)) ∧
        (∀ e, Answers (.flrDone c (some e)) s (fun t => (t.fn f).flr = false ∧ (t.ctx c.toNat).resetting = none ∧
          (t.ctx c.toNat).part = x.part)))) ∧
    (∀ d, s.resetHead [0, 4] = some d → s.mg.powered = true → Answers .moduleReset s (reset 1)) ∧
    (∀ (window : Bool) (v : BitVec 32),
      (v = 0xA5A50004#32 → s.link.perst = false → (window = true ∨ s.sec.inRecovery = false) → s.mg.powered = true →
        Answers (.mgReset window v) s (reset 2)) ∧
      (v ≠ 0xA5A50004#32 → Answers (.mgReset window v) s (fun t => t = s) ∧ Answers (.smbusReset v) s (fun t => t = s)) ∧
      (v = 0xA5A50004#32 → s.mg.powered = true → Answers (.smbusReset v) s (reset 3)) ∧
      (s.barLive = true → s.mg.logAck ≤ v.toNat → v.toNat ≤ s.mg.logNext →
        Answers (.mgFlogack v) s (fun t => t = { s with mg := { s.mg with logAck := v.toNat } })) ∧
      (s.barLive = true → (v.toNat < s.mg.logAck ∨ s.mg.logNext < v.toNat) → Answers (.mgFlogack v) s (fun t => t = s)))

/-- JOB_CREATE, JOB_END, JOB_LAUNCH, JOB_QUIESCE, JOB_RESUME, JOB_SWAP, MANAGER_TAKE, READMIT, EXCLUDE,
RING_FORMATION, ADOPTION, BEACON, HEARTBEAT, MANAGER_LOST, MODULE_FAILED, FAULT_REPORT, MEMBER_FAULT and
TABLE_CHANGE (R42, R209, R219, R220, R231, R233, R237, R239, R257, R258, R306, R319): only a manager commands
jobs; a job exists once its plan fits, its tables go out by an exchange of their own, and it runs by exchanges; a failed or excluded module takes the jobs of its
members with it; a worker keeps the time of its beacons, and takes tables at their count. -/
def Obligations.TheManagerFormsRunsAndReshapes : Prop :=
  ∀ (s : State),
    let exch (t : State) (k : ExKind) (id : Nat) (d : Taken) (e : Exchange) : Prop :=
      t.ep.ex = some e ∧ e.kind = k ∧ e.job = id ∧ e.manager = true ∧ e.d = some d
    let tables (t : State) (d : Taken) (v : Nat) : Prop :=
      (∃ l, t.ep.tableQ = [(some (d, v), l)]) ∧
      ∃ e, t.ep.ex = some e ∧ e.kind = .tables ∧ e.manager = true ∧ e.go = false ∧ s.tcb.now + 2000000 ≤ e.at_
    let shaped : Epfin := { s.ep with shape := shapeOf s.ep.nx1 s.ep.ny1 s.ep.nz1 }
    (∀ (d : Taken),
      let id := d.word 4 % 65536
      let j := s.job id
      (s.ep.role ≠ 2 →
        (s.ctlHead 0 0x30 = some d → Answers (.jobCreate .ok []) s (fun t => Ends t d 0x000A 0 (fun u => u = s))) ∧
        (s.ctlHead 0 0x31 = some d → Answers .jobEnd s (fun t => Ends t d 0x000A 0 (fun u => u = s))) ∧
        (s.ctlHead 0 0x32 = some d → Answers .jobLaunch s (fun t => Ends t d 0x000A 0 (fun u => u = s)))) ∧
      (∀ bad, s.ctlHead 0 0x30 = some d → s.ep.role = 2 → 1 ≤ d.word 4 → d.word 4 ≤ 65536 →
        let l := s.rankList d
        let new : Job := { members := l, plan := s.planList d }
        let nid := freshJob s.ep.jobs s.ep.jobs.length s.ep.nextJob
        (∀ r, (List.range (d.word 4)).find? (s.rankFails l bad) = some r →
          Answers (.jobCreate .ok bad) s (fun t => Ends t d 0x0107 r (fun u => u = s))) ∧
        ((List.range (d.word 4)).find? (s.rankFails l bad) = none → (s.planList d).any (badPair (d.word 4)) = false →
          (∀ h, s.layJob nid new = .inl h → Answers (.jobCreate .ok bad) s (fun t => Ends t d 0x0109 (hopDetail h) (fun u => u = s))) ∧
          (∀ v, s.layJob nid new = .inr v → s.exBusy = false → s.ep.tableQ = [] → Answers (.jobCreate .ok bad) s (fun t =>
            t.ep.jobs.has nid = true ∧ (t.job nid).members = l ∧ (t.job nid).plan = s.planList d ∧ (t.job nid).st = .idle ∧
            t.ep.nextJob = nid % 0xFFFE + 1 ∧ tables t d nid ∧ t.ep.tableQ = [(some (d, nid), v.2)])))) ∧
      (s.ep.role = 2 → s.ep.jobs.has id = true →
        (let runs := j.st.runs || (s.jobCtx id).any (fun c => decide ((s.ctx c).st = .running))
         s.ctlHead 0 0x31 = some d →
          (runs = true → Answers .jobEnd s (fun t => Ends t d 0x0108 0 (fun u => u = s))) ∧
          (runs = false → s.exBusy = false → s.ep.tableQ = [] → Answers .jobEnd s (fun t => t.ep.jobs.has id = false ∧ tables t d 0 ∧
            ∀ h, jobOn t.ep.linkPips id h = []))) ∧
        (s.ctlHead 0 0x32 = some d →
          (∀ r rs, j.lost = r :: rs → Answers .jobLaunch s (fun t => Ends t d 0x0107 r (fun u => u = s))) ∧
          (∀ v, j.lost = [] → s.exBusy = false → j.st = .idle → s.crossJob id = false → j.short = none → s.layJob id j = .inr v →
            Answers .jobLaunch s (fun t => (t.job id).st = .launching ∧ (t.job id).members = j.members ∧ ∃ e, exch t .launch id d e))) ∧
        (s.ctlHead 0 0x33 = some d →
          (∀ n, s.noExchange j (decide (j.st = .running)) = some n → Answers .jobQuiesce s (fun t => Ends t d 2 (nakDetail n) (fun u => u = s))) ∧
          (s.exBusy = false → j.st = .running → Answers .jobQuiesce s (fun t => (t.job id).st = .quiescing ∧ t.ctxs = s.ctxs ∧
            ∃ e, exch t .quiesce id d e ∧ e.cut = decide (fld (d.word 4) 16 16 = 1)))) ∧
        (s.ctlHead 0 0x34 = some d → s.exBusy = false → j.st = .quiesced →
          Answers .jobResume s (fun t => (t.job id).st = .resuming ∧ t.ctxs = s.ctxs ∧ ∃ e, exch t .resume id d e)) ∧
        (s.ctlHead 0 0x35 = some d → s.exBusy = false → j.st.swaps = true →
          Answers .jobSwap s (fun t => (t.job id).st = j.st ∧ (t.job id).loaded = [] ∧ t.ctxs = s.ctxs ∧ ∃ e, exch t .swap id d e ∧
            ∀ c l sh root ep, s.jobCtx id = some c → (s.ctx c).wset.load = some l → (s.ctx c).wset.next = some (sh, root, ep) →
              e.epoch = ep % 65536 ∧ e.cut = l.cut))) ∧
      (∀ found, s.ctlHead 0 0x36 = some d →
        ((s.jobBusy || found.any (·.running)) = true → Answers (.managerTake found) s (fun t => t = s)) ∧
        ((s.jobBusy || found.any (·.running)) = false →
          Answers (.managerTake found) s (fun t => Ends t d (if (shaped.miswired found).isNone then 0 else 0x000A) 0 (fun u =>
            u.ep.role = 2 ∧ u.ep.coord = some (0, 0, 0) ∧ u.ep.formed = (shaped.miswired found).isNone ∧ u.ep.jobs = [] ∧
            u.panel = s.panel)))) ∧
      (let m := d.word 4 % 1024
       s.ctlHead 0 0x37 = some d → s.ep.role = 2 → s.ep.isMod m = true →
        Answers (.readmit none) s (fun t => Ends t d 0 0 (fun u => m ∉ u.ep.failedMods ∧ (∀ h, h ∈ u.ep.failedLinks → h.1 ≠ m) ∧
          (∀ n, n ≠ m → (n ∈ u.ep.failedMods ↔ n ∈ s.ep.failedMods)))) ∧
        (∀ p, Answers (.readmit (some p)) s (fun t => Ends t d 0x000A 0 (fun u => u.ep = s.ep ∧ u.ctxs = s.ctxs)))) ∧
      (let ms := ((List.range (d.word 4)).map (fun k => leNat (s.hostRead (d.dword 6 + 2 * k) 2))).eraseDups
       s.ctlHead 0 0x38 = some d → s.ep.role = 2 → ms.any (fun m => !s.ep.isMod m || m == s.modIndex) = false →
        Answers (.exclude .ok) s (fun t => Ends t d 0 0 (fun u => ∀ m, m ∈ ms → m ∈ u.ep.failedMods)))) ∧
    (∀ (v : BitVec 2) (found : List FoundMod), s.barLive = true →
      (v = s.ep.req → Answers (.ringFormation v found) s (fun t => t = s)) ∧
      (v ≠ s.ep.req → s.anyCtx = true → Answers (.ringFormation v found) s (fun t => t.ep = { s.ep with wwb := true } ∧ t.ctxs = s.ctxs)) ∧
      (v ≠ s.ep.req → s.anyCtx = false → v = 3 → Answers (.ringFormation v found) s (fun t => t.ep = s.ep)) ∧
      (v ≠ s.ep.req → s.anyCtx = false → v = 2 → Answers (.ringFormation v found) s (fun t => t.ep.req = 2 ∧ t.ep.role = 2 ∧
        t.ep.coord = some (0, 0, 0) ∧ t.ep.formed = (shaped.miswired found).isNone)) ∧
      (v ≠ s.ep.req → s.anyCtx = false → (v = 0 ∨ v = 1) → Answers (.ringFormation v found) s (fun t => t.ep.req = v ∧
        t.ep.role = (if s.ep.role = 2 ∧ s.ep.formed = false then 0 else s.ep.role)))) ∧
    (∀ (a : AdoptMsg),
      let up := decide ((s.epPort a.port.toNat).st = 3)
      (up = false ∨ s.ep.req = 1 → Answers (.adoption a) s (fun t => t = s)) ∧
      (up = true → s.ep.req = 2 → Answers (.adoption a) s (fun t => t.ep = s.ep ∧ t.ctxs = s.ctxs)) ∧
      (up = true → s.ep.req = 0 → s.ep.role ≠ 2 → s.anyCtx = false → Answers (.adoption a) s (fun t =>
        t.ep.role = 1 ∧ t.ep.coord = some (a.x.toNat, a.y.toNat, a.z.toNat) ∧ t.ep.rsid = a.rsid ∧ t.ep.nx1 = a.nx1 ∧
        t.ep.ny1 = a.ny1 ∧ t.ep.nz1 = a.nz1 ∧ t.ep.shape = shapeOf a.nx1 a.ny1 a.nz1 ∧ t.ep.bmask = a.bmask ∧ t.ep.mgrLost = false ∧ t.ep.beaconAt = s.tcb.now ∧
        t.tcb.parent = a.parent.map (·.toNat) ∧ t.ep.tables = [] ∧ t.panel = s.panel ∧ t.ports = s.ports))) ∧
    (s.ep.role = 1 → Answers .beacon s (fun t => t = { s with ep := t.ep } ∧ t.ep.beaconAt = s.tcb.now ∧
      t.ep.ctl = (if (s.children 6).isEmpty || s.ep.req == 1 then s.ep.ctl else s.ep.ctl ++ [.beacon s.tcb.now]))) ∧
    (s.ep.role = 2 → Answers .beacon s (fun t => s.ep.beaconAt + 1000000 ≤ t.tcb.now ∧ t.ep.beaconAt = t.tcb.now ∧
      t.ctxs = s.ctxs ∧ t.panel = s.panel ∧
      t.ep.ctl = (if (s.children 6).isEmpty || s.ep.req == 1 then s.ep.ctl else s.ep.ctl ++ [.beacon t.tcb.now]))) ∧
    (s.ep.role = 0 → Answers .beacon s (fun t => t = s)) ∧
    (∀ (m : BitVec 10),
      (s.ep.role = 2 → Answers (.heartbeat m) s (fun t => t = { s with ep := { s.ep with beats := s.ep.beats.put m.toNat s.tcb.now } })) ∧
      (s.ep.role = 1 → Answers (.heartbeat m) s (fun t => t.ep.ctl = s.ep.ctl ++ [.heartbeat s.modIndex t.tcb.now] ∧
        t.ctxs = s.ctxs ∧ t.panel = s.panel ∧ t.ports = s.ports))) ∧
    (s.ep.role = 1 → s.ep.mgrLost = false → Answers .managerLost s (fun t => t.ep = { s.ep with mgrLost := true } ∧
      s.ep.beaconAt + 3000000 ≤ t.tcb.now ∧ t.ctxs = s.ctxs ∧ t.panel = s.panel ∧ t.ports = s.ports)) ∧
    (∀ (m : BitVec 10), s.ep.role = 2 → s.ep.isMod m.toNat = true → m.toNat ∉ s.ep.failedMods → m.toNat ≠ s.modIndex →
      Answers (.moduleFailed m none) s (fun t => m.toNat ∈ t.ep.failedMods ∧
        ∀ id, s.ep.jobs.has id = true → (s.job id).members.any (fun q => q.1 == m.toNat) = true → (t.job id).st = .idle)) ∧
    (∀ (m : BitVec 10) (code : BitVec 16) (cls : BitVec 3) (c : BitVec 6) (source arg0 arg1 : BitVec 32),
      (s.ep.role ≠ 2 → Answers (.faultReport m code cls c source arg0 arg1) s (fun t => t = s)) ∧
      (s.ep.role = 2 → code ≠ 0x8103#16 → m.toNat ≠ s.modIndex → cls ≠ 2 →
        Answers (.faultReport m code cls c source arg0 arg1) s (fun t =>
          t.mg = (s.logAs m.toNat code.toNat cls.toNat noCtx source.toNat arg0.toNat arg1.toNat).mg ∧ t.ctxs = s.ctxs ∧ t.panel = s.panel ∧
          t.ep = { s.ep with downs := if code = 0x0A01#16 then s.ep.downs ++ [(m.toNat, arg0.toNat % 8)] else s.ep.downs })) ∧
      (∀ id, s.ep.role = 2 → code ≠ 0x8103#16 → cls = 2 → managerFaults.contains code.toNat = false → s.jobAt m.toNat c.toNat = some id →
        Answers (.faultReport m code cls c source arg0 arg1) s (fun t => (t.job id).st = .idle ∧
          ∀ x, (s.modIndex, x) ∈ (s.job id).members → s.modIndex? ≠ none → m.toNat ≠ s.modIndex →
            ((s.ctx x).st = .bound ∨ (s.ctx x).st = .running ∨ (s.ctx x).st = .quiesced) →
            (t.ctx x).st = .faulted ∧ (t.ctx x).fault = some 0x0509))) ∧
    (∀ (c : BitVec 6) (m : BitVec 10) (code : BitVec 16),
      let x := s.ctx c.toNat
      let hit (v : Nat) (t : State) : Prop := (t.ctx c.toNat).st = .faulted ∧ (t.ctx c.toNat).fault = some v ∧
        (t.ctx c.toNat).batches = [] ∧ (∀ k, k ≠ c.toNat → t.ctx k = s.ctx k) ∧ t.panel = s.panel ∧ t.ports = s.ports
      (∀ v, x.job = 0 → Answers (.memberFault c m v) s (fun t => t = s)) ∧
      (x.job ≠ 0 → (x.st = .bound ∨ x.st = .running ∨ x.st = .quiesced) →
        Answers (.memberFault c m (.member code)) s (hit 0x0509) ∧
        (∀ a b, code ≠ 0x0602#16 → Answers (.memberFault c m (.manager code a b)) s (hit code.toNat))) ∧
      (∀ a b, x.job ≠ 0 → code = 0x0602#16 → Answers (.memberFault c m (.manager code a b)) s (fun t =>
        t.ctx c.toNat = { x with budgetAt := some (a, b) } ∧ (∀ k, k ≠ c.toNat → t.ctx k = s.ctx k) ∧ t = { s with ctxs := t.ctxs }))) ∧
    (∀ (c : TableChange), s.ep.role ≠ 0 →
      (c.at_ ≠ 0 → Answers (.tableChange (some c)) s (fun t => t.ep.changes = s.ep.changes ++ [c] ∧ t.ep.tables = s.ep.tables ∧
        ∀ x r, c.member = some (x, r) → (t.ctx x).job = c.job ∧ (t.ctx x).rank = r)) ∧
      (∀ cs, s.ep.changes = c :: cs → c.job ≠ 0 → c.job ≠ 0xFFFF → c.ends = false →
        Answers (.tableChange none) s (fun t => t.ep.changes = cs ∧ c.at_ ≤ t.tcb.now ∧ t.panel = s.panel ∧ t.ctxs = s.ctxs ∧
          t.ep.tables.get c.job [] = c.routes.foldl (fun (u : Cells Byte) r => Cells.set 7 u r.1 r.2) [] ∧
          ∀ p, p < 6 → (t.epPort p).pipTx = ((s.epPort p).setPips c.job (pipsAt c.tx p) (pipsAt c.rx p)).pipTx ∧
            (t.epPort p).pipRx = ((s.epPort p).setPips c.job (pipsAt c.tx p) (pipsAt c.rx p)).pipRx)))

/-- CABLE_CHANGE, CAGE_OVERCURRENT, LINK_TRAINED, LINK_TRAINING_TIMEOUT, LINK_TRAINING_RETRY, LINK_ALIGNED,
LINK_ALIGN_TIMEOUT, LINK_DOWN, CODEWORD_GROUP_RX, REPLAY_RESEND, EPFIN_PACKET_TX, EPFIN_FORWARD and
EPFIN_PACKET_RX (R213 to R234, R361): a port moves through the states of Table 10.4 by the events it names and
by no other; a group that is sound joins its owner's stream and one that is not is counted and answered with
NAK; a packet leaves by the port of its route with the next SEQ of its flow, in groups of at most 5,120 bytes in its job's
pips, is passed on with one hop less, and is taken only with the SEQ expected: an STK write then waits at its stack port. -/
def Obligations.LinksTrainCarryAndCheck : Prop :=
  ∀ (s : State) (port : BitVec 3), port.toNat < 6 →
    let p := port.toNat
    let k := s.epPort p
    let others (t : State) : Prop := (∀ q, q ≠ p → t.epPort q = s.epPort q) ∧ t.ctxs = s.ctxs ∧ t.panel = s.panel ∧ t.ports = s.ports
    (∀ cable : CableClass,
      (k.caged = false → Answers (.cableChange port cable) s (fun t => others t ∧ t.epPort p = { k with plugged := cable.code })) ∧
      (k.caged = true → k.cable ≠ cable.code → Answers (.cableChange port cable) s (fun t => others t ∧
        (t.epPort p).plugged = cable.code ∧ (t.epPort p).cable = cable.code ∧
        (t.epPort p).st = if k.enable = true ∧ (cable = .passive ∨ cable = .active ∨ cable = .optical) then 1 else 0))) ∧
    Answers (.cageOvercurrent port) s (fun t => others t ∧ (t.epPort p).st = 0 ∧ (t.epPort p).caged = false ∧ (t.epPort p).cable = 4) ∧
    (k.st = 1 →
      Answers (.linkTrained port) s (fun t => others t ∧ (t.epPort p).st = 2 ∧ (t.epPort p).lanes = 0xFF) ∧
      Answers (.linkTrainingTimeout port) s (fun t => others t ∧ (t.epPort p).st = 0 ∧ k.retryAt + k.trainLimit ≤ t.tcb.now)) ∧
    (k.st ≠ 1 → Answers (.linkTrained port) s (fun t => others t ∧ t.epPort p = k) ∧
      Answers (.linkTrainingTimeout port) s (fun t => t = s)) ∧
    (k.mayTrain = true → Answers (.linkTrainingRetry port) s (fun t => others t ∧
      (t.epPort p).st = 1 ∧ k.retryAt + 10000000000 ≤ t.tcb.now)) ∧
    (k.mayTrain = false → Answers (.linkTrainingRetry port) s (fun t => t = s)) ∧
    (∀ nbr nport delay,
      (k.st = 2 ∨ (k.st = 4 ∧ k.cutDone = true) → Answers (.linkAligned port nbr nport delay) s (fun t => others t ∧
        (t.epPort p).st = 3 ∧ (t.epPort p).nbr = some (nbr.toNat, nport.toNat) ∧ (t.epPort p).delay = delay ∧
        (t.epPort p).reserve = decide (k.st = 4))) ∧
      (¬(k.st = 2 ∨ (k.st = 4 ∧ k.cutDone = true)) → Answers (.linkAligned port nbr nport delay) s (fun t => others t ∧ t.epPort p = k))) ∧
    (k.st = 2 → Answers (.linkAlignTimeout port) s (fun t => others t ∧ (t.epPort p).st = 1 ∧ k.retryAt + 10000000 ≤ t.tcb.now)) ∧
    (k.st ≠ 2 → Answers (.linkAlignTimeout port) s (fun t => t = s)) ∧
    (∀ lanes,
      (k.st = 3 → Answers (.linkDown port lanes) s (fun t => others t ∧
        (t.epPort p).st = 4 ∧ (t.epPort p).lanes = lanes ∧ (t.epPort p).replay = [] ∧ (t.epPort p).txq = [])) ∧
      (k.st ≠ 3 → Answers (.linkDown port lanes) s (fun t => t = s))) ∧
    (∀ g : Group,
      let o := pipOwner k.pipRx g.pip.toNat
      let n := k.groupPip g
      (k.st ≠ 3 ∨ k.test ≠ 0 → Answers (.codewordGroupRx port g) s (fun t => t = s)) ∧
      (k.st = 3 → k.test = 0 → k.groupFault g = none → Answers (.codewordGroupRx port g) s (fun t => others t ∧
        (t.epPort p).rxPip = some g.pip.toNat ∧ (t.epPort p).uncorr = k.uncorr ∧ (t.epPort p).st = 3 ∧
        (t.epPort p).corr = satAdd k.corr g.corrected ∧
        (t.epPort p).rxBytes.get o [] = k.rxBytes.get o [] ++ (if k.takesData g then g.data else []) ∧
        (∀ j, j ≠ o → (t.epPort p).rxBytes.get j [] = k.rxBytes.get j []))) ∧
      (∀ f, k.st = 3 → k.test = 0 → k.groupFault g = some f → Answers (.codewordGroupRx port g) s (fun t => others t ∧
        (t.epPort p).rxBytes = k.rxBytes ∧ (t.epPort p).uncorr = satAdd k.uncorr (if g.uncorr = 0 then 8 else g.uncorr) ∧
        (t.epPort p).nakOwner.has (pipOwner k.pipRx n) = true ∧ ((t.epPort p).pipMis = true ↔ f = .owner ∨ k.pipMis = true) ∧
        (s.engineDown (srcEp p) = false → ∃ h : Group, t.ep.out = s.ep.out ++ [(p, h)] ∧ h.nak = true ∧
          h.ackpip = BitVec.ofNat 6 n ∧ h.kind = 1 ∧ h.data = [])))) ∧
    (∀ pip : BitVec 6,
      let qs := k.heldFrom pip.toNat
      (k.st ≠ 3 ∨ qs = [] → Answers (.replayResend port pip) s (fun t => t = s)) ∧
      (k.st = 3 → k.test = 0 → qs ≠ [] → k.tries.get pip.toNat 0 < 8 → Answers (.replayResend port pip) s (fun t => others t ∧
        (t.epPort p).resent = satAdd k.resent qs.length ∧ (t.epPort p).st = 3 ∧
        ∃ gs : List Group, t.ep.out = s.ep.out ++ gs.map (fun g => (p, g)) ∧ gs.length = qs.length ∧
          ∀ g ∈ gs, g.kind = 3 ∧ pipOwner k.pipTx g.pip.toNat = pipOwner k.pipTx pip.toNat)) ∧
      (k.st = 3 → qs ≠ [] → 8 ≤ k.tries.get pip.toNat 0 → Answers (.replayResend port pip) s (fun t => others t ∧
        (t.epPort p).st = 4 ∧ (t.epPort p).exhaust = true))) ∧
    (∀ n e, s.ep.streams[n]? = some e →
      let j := e.pkt.job.toNat
      let q := s.nextPort j e.pkt.dmod.toNat
      let k1 := { e.pkt with hops := 63, seq := BitVec.ofNat 16 (s.ep.txSeq.get e.pkt.flow 0) }
      let may := !(s.ep.streams.take n).any (fun w => w.pkt.flow == e.pkt.flow) && !(s.ctx e.ctx).pipIdle && s.freeTo q j
      (may = false → Answers (.epfinPacketTx n) s (fun t => t = s)) ∧
      (may = true → Answers (.epfinPacketTx n) s (fun t => t = { s with ep := t.ep } ∧
        t.ep.streams = s.ep.streams.eraseIdx n ∧ t.ep.txSeq.get e.pkt.flow 0 = (s.ep.txSeq.get e.pkt.flow 0 + 1) % 65536 ∧
        (∃ gs : List Group, t.ep.out = s.ep.out ++ gs.map (fun g => (q, g)) ∧ gs ≠ [] ∧
          gs.flatMap (·.data) ++ (t.epPort q).txq.get j [] = { k1 with crc := k1.crcOf }.bytes ∧
          ∀ g ∈ gs, g.kind = 0 ∧ pipOwner (s.epPort q).pipTx g.pip.toNat = j ∧ g.data.length ≤ 5120) ∧
        ∀ w, w ≠ q → t.epPort w = s.epPort w))) ∧
    (∀ pkt : EpPacket,
      let j := pkt.job.toNat
      let q := s.nextPort j pkt.dmod.toNat
      (k.st ≠ 3 ∨ s.modIndex? = none ∨ s.modIndex? = some pkt.dmod.toNat ∨ s.ep.req = 1 →
        Answers (.epfinForward port pkt) s (fun t => t = s)) ∧
      (k.st = 3 → s.modIndex? ≠ none → s.modIndex? ≠ some pkt.dmod.toNat → s.ep.req ≠ 1 →
        (pkt.hops ≠ 0 → q < 6 → (s.epPort q).st = 3 → Answers (.epfinForward port pkt) s (fun t =>
          ((t.ep.out.drop s.ep.out.length).filter (fun e => e.1 == q && e.2.kind == 0)).flatMap (·.2.data) ++ (t.epPort q).txq.get j [] =
            (s.epPort q).txq.get j [] ++ { pkt with hops := pkt.hops - 1 }.bytes ∧
          t.ep.out.take s.ep.out.length = s.ep.out ∧ t.ctxs = s.ctxs ∧ t.panel = s.panel ∧ t.ports = s.ports)) ∧
        (pkt.hops = 0 → Answers (.epfinForward port pkt) s (fun t => (∀ w, (t.epPort w).txq = (s.epPort w).txq) ∧ t.ctxs = s.ctxs ∧
          t.panel = s.panel ∧ t.mg = (s.logFault 0x0A03 1 noCtx (srcEp p) 0 0).mg)))) ∧
    (∀ pkt : EpPacket,
      let c := pkt.dctx.toNat
      let at_ := attachPos p
      (k.st ≠ 3 ∨ s.modIndex? = none → Answers (.epfinPacketRx port pkt) s (fun t => t = s)) ∧
      (k.st = 3 → s.modIndex? = some pkt.dmod.toNat →
        (pkt.sound = false → ((s.ctx c).st = .bound ∨ (s.ctx c).st = .running ∨ (s.ctx c).st = .quiesced) →
          Answers (.epfinPacketRx port pkt) s (fun t => (t.ctx c).st = .faulted ∧ (t.ctx c).fault = some 0x0505 ∧ t.ports = s.ports ∧ t.panel = s.panel)) ∧
        (pkt.sound = true → pkt.op ≠ 5 → s.epCtxOk pkt = false →
          Answers (.epfinPacketRx port pkt) s (fun t => t.ctxs = s.ctxs ∧ t.panel = s.panel ∧ t.ports = s.ports)) ∧
        (pkt.sound = true → pkt.op ≠ 5 → s.epCtxOk pkt = true → s.ep.rxSeq.get pkt.flow 0 ≠ pkt.seq.toNat →
          ((s.ctx c).st = .bound ∨ (s.ctx c).st = .running ∨ (s.ctx c).st = .quiesced) →
          Answers (.epfinPacketRx port pkt) s (fun t => (t.ctx c).st = .faulted ∧ (t.ctx c).fault = some 0x0506 ∧ t.ports = s.ports ∧ t.panel = s.panel)) ∧
        (pkt.sound = true → pkt.op ≠ 5 → s.epCtxOk pkt = true → s.ep.rxSeq.get pkt.flow 0 = pkt.seq.toNat → (s.ctx c).deaf = false →
          let counted (t : State) : Prop := t.ep.rxSeq.get pkt.flow 0 = (pkt.seq.toNat + 1) % 65536 ∧ t.ctxs = s.ctxs
          (∀ a, pkt.stk = true → pkt.op = 0 → pkt.port.toNat < 24 → pkt.data ≠ [] →
            let w := s.port pkt.port.toNat
            w.addr? c (pkt.woff.toNat : Nat) pkt.data.length = some a → w.owned c pkt.woff.toNat pkt.data.length = false →
            (s.portEntry (640 * at_.2 + at_.1) pkt.port.toNat).isSome = true →
            Answers (.epfinPacketRx port pkt) s (fun t => counted t ∧ t.panel = s.panel ∧
              (t.port pkt.port.toNat).stkQ = w.stkQ ++ [{ ctx := c, off := pkt.woff.toNat, data := pkt.data }] ∧
              (t.port pkt.port.toNat).mem = w.mem ∧ ∀ n, n ≠ pkt.port.toNat → t.port n = s.port n)) ∧
          (pkt.stk = false → pkt.op = 3 → s.epTargetOk pkt = true → s.reachable at_ (pkt.cx.toNat, pkt.cy.toNat) = true →
            Answers (.epfinPacketRx port pkt) s (fun t => counted t ∧ t.ports = s.ports ∧
              t.panel.nextNum = s.panel.nextNum + 1 ∧ ∃ m, t.panel.flight = s.panel.flight ++ [m] ∧ m.op = .readReq ∧
                m.dst = 640 * pkt.cy.toNat + pkt.cx.toNat ∧ m.off = pkt.woff.toNat ∧ m.len = pkt.length.toNat ∧ m.ctx = c)))))

/-! ## Power, start and registers -/

/-- PERST, PERST_DEASSERT, HOST_LINK_DOWN, PWR_EN_RISE, PWR_EN_FALL, INPUT_POWER_LOSS, MOD_RST_N,
MOD_RST_N_RELEASE, MODULE_START_STAGE, REF_ABSENT and TEMPERATURE_GATE_CLEAR (R315, R343 to R346, R357, R360,
R364, R366 to R370): the lines reset, stop and start the module; a power cycle keeps flash, fuses and the
tier-B stacks; each stage of a start does its work and gives way to the next, or holds the start. -/
def Obligations.LinesAndStagesStartAndStopTheModule : Prop :=
  ∀ (s : State),
    let gone (t : State) : Prop := t.mg.powered = false ∧ t.ctxs = [] ∧ t.fns = [] ∧ t.panel.cores = [] ∧ t.link.mem = s.link.mem ∧
      t.mg.flashLog = s.mg.flashLog ∧ t.mg.retired = s.mg.retired ∧ t.sec.flash = s.sec.flash ∧ t.sec.svn = s.sec.svn ∧
      t.sec.owners = s.sec.owners ∧ (∀ p, p < 24 → (t.port p).mem = []) ∧ (∀ p, 24 ≤ p → (t.port p).mem = (s.port p).mem)
    let calm : Prop := s.ep.role ≠ 2 ∨ ∀ p, p < 6 → (s.epPort p).st ≠ 3
    (s.link.perst = true → Answers .perst s (fun t => t = s)) ∧
    (s.link.perst = false → s.mg.ready = false →
      Answers .perst s (fun t => t = { s with link := { s.link with perst := true, cfgServed := false } })) ∧
    (s.link.perst = false → s.mg.ready = true → s.mg.powered = true →
      Answers .perst s (fun t => t.link.perst = true ∧ t.link.cfgServed = false ∧ t.ctxs = [] ∧ t.mg.rstCause = 4 ∧
        ∀ p, (t.port p).mem = (s.port p).mem)) ∧
    Answers .perstDeassert s (fun t => t.link.perst = false ∧ t.link.cfgServed = s.mg.powered ∧ t.ctxs = s.ctxs ∧ t.panel = s.panel ∧
      t.ports = s.ports ∧ (s.mg.powered = true → t.link.up = true)) ∧
    Answers .hostLinkDown s (fun t => t.link.perst = true ∧ t.link.up = false ∧ t.link.keyed = 0 ∧ t.link.insecure = 0 ∧ t.link.ideKeys = [] ∧
      (calm → t.link.mem = s.link.mem)) ∧
    (s.mg.ready = true → s.mg.powered = true → Answers .hostLinkDown s (fun t => t.ctxs = [] ∧ t.mg.rstCause = 4)) ∧
    (s.mg.powered = true → Answers .pwrEnRise s (fun t => t = { s with lines := { s.lines with pwrEn := true } })) ∧
    (s.mg.powered = false → Answers .pwrEnRise s (fun t => t.lines.pwrEn = true ∧ t.lines.input = true ∧ t.mg.powered = true ∧
      t.mg.stage = 0 ∧ t.mg.powerUpStart = true ∧ t.link.cfgServed = !s.link.perst ∧ (s.link.perst = false → t.link.up = true) ∧
      t.ctxs = s.ctxs ∧ t.panel = s.panel ∧ t.ports = s.ports)) ∧
    Answers .pwrEnFall s (fun t => gone t ∧ t.lines.pwrEn = false) ∧
    Answers .inputPowerLoss s (fun t => gone t ∧ t.lines.input = false) ∧
    Answers .modRstN s (fun t => t.lines.modRstN = false) ∧
    (s.mg.powered = true → Answers .modRstN s (fun t => t.ctxs = [] ∧ t.mg.rstCause = 4 ∧ ∀ p, (t.port p).mem = (s.port p).mem)) ∧
    Answers .modRstNRelease s (fun t => t = { s with lines := { s.lines with modRstN := true } }) ∧
    (∀ r : StageResult,
      let runs (k : Nat) : Prop := s.starting = true ∧ s.mg.stage = k
      let goes (t : State) : Prop := t.mg.stage = s.mg.stage + 1 ∧ t.mg.stTime.get s.mg.stage 0 = r.us ∧
        ∀ n, n ≠ s.mg.stage → t.mg.stTime.get n 0 = s.mg.stTime.get n 0
      let does (P : State → Prop) : Prop := Answers (.moduleStartStage r) s P
      (s.starting = false → does (fun t => t = s)) ∧
      (runs 0 → (r.fail48 = false ∨ s.mg.powerUpStart = false) → does goes) ∧
      (runs 0 → r.fail48 = true → s.mg.powerUpStart = true →
        does (fun t => t.mg.supplyFail = true ∧ t.mg.stage = 0 ∧ t.fs.coreRails = false ∧ t.fs.clocked = false)) ∧
      (runs 1 → s.lines.modRstN = false → does (fun t => t.mg = s.mg ∧ t.sec = s.sec)) ∧
      (runs 1 → s.lines.modRstN = true → s.sec.forceRecovery = true →
        does (fun t => t.mg.stage = 1 ∧ t.sec.inRecovery = true ∧ t.sec.forceRecovery = false ∧ t.sec.rcvState = 1)) ∧
      (runs 1 → s.lines.modRstN = true → s.sec.forceRecovery = false → s.sec.flashBad = false → s.imageCheck s.sec.flash = none →
        does (fun t => goes t ∧ t.sec.inRecovery = false ∧
          t.sec.latch.digest = sha256 (s.sec.flash.take (0x80 + leAt s.sec.flash 0x0C 4)) ∧ s.sec.svn ≤ t.sec.svn)) ∧
      (∀ code, runs 1 → s.lines.modRstN = true → s.sec.forceRecovery = false → s.sec.flashBad = false →
        s.imageCheck s.sec.flash = some code →
        does (fun t => t.mg.stage = 1 ∧ t.sec.inRecovery = true ∧ t.sec.rcvCode = BitVec.ofNat 8 code ∧ t.sec.flash = s.sec.flash)) ∧
      (runs 2 → (s.tcb.lock = true ∨ s.mg.refWait = true) → does goes) ∧
      (runs 2 → s.tcb.lock = false → s.mg.refWait = false → does (fun t => t.mg = s.mg)) ∧
      (runs 3 → ((s.gateHot = false ∧ s.fs.tripHold = false) ∨ s.mg.gateOpen = true) →
        does (fun t => goes t ∧ t.fs.coreRails = true ∧ t.fs.clocked = true)) ∧
      (runs 3 → (s.gateHot = true ∨ s.fs.tripHold = true) → s.mg.gateOpen = false →
        does (fun t => t.mg = { s.mg with stoppedGate := true } ∧ t.fs.coreRails = s.fs.coreRails)) ∧
      (runs 4 → does (fun t => goes t ∧ ∀ n, n ∈ r.cores → n ∈ t.mg.retired ∧ n ∈ t.mg.spare)) ∧
      (runs 5 → does (fun t => goes t ∧ t.mg.trained = true ∧ ∀ e, e ∈ r.edges → ∀ p, p ∈ edgePods e.toNat → p ∈ t.mg.withdrawn)) ∧
      (runs 6 → does (fun t => goes t ∧ t.mg.distValid = true)) ∧
      (runs 7 → does (fun t => goes t ∧ ∀ i, t.core i = {})) ∧
      (runs 8 → does (fun t => goes t ∧ ∀ p, p < 32 → s.fitted p = true →
        ((BitVec.ofNat 5 p) ∈ r.ports → (t.port p).trained = false ∧ (t.port p).disabled = true) ∧
        ((BitVec.ofNat 5 p) ∉ r.ports → (t.port p).trained = true ∧ (t.port p).disabled = false))) ∧
      (runs 9 → does (fun t => t.mg.ready = true ∧ t.mg.unknownPart = !s.knownPart ∧ t.mg.stage = 9 ∧ t.mg.stTime.get 9 0 = r.us))) ∧
    (let waits := s.starting && decide (s.mg.stage = 2) && !s.tcb.lock && !s.mg.refWait
     (waits = false → Answers .refAbsent s (fun t => t = s)) ∧
     (waits = true → Answers .refAbsent s (fun t => t.mg.refWait = true ∧ t.tcb.running = true ∧ t.tcb.holdover = true ∧
       t.tcb.refLost = true ∧ t.panel = s.panel))) ∧
    (s.mg.stoppedGate = false → Answers .temperatureGateClear s (fun t => t = s)) ∧
    (s.mg.stoppedGate = true → Answers .temperatureGateClear s (fun t =>
      t.mg = { s.mg with stoppedGate := false, gateOpen := true } ∧ t.panel = s.panel ∧ t.sec = s.sec))

/-- REGISTER_WRITE, FS_PCAP, SMBUS_READ, SMBUS_PCAP, RECOVERY_ENTER and RECOVERY_TRANSFER (R5 to R9, R22, R34,
R143, R338, R346 to R348, R365, R380, R385 to R388): a write without all its bytes is counted and does nothing;
a read-only word keeps its value; a static field keeps its value while its block is busy, and prints so; a
write-one-to-clear bit is cleared and no other; a live field is staged; SMBus reads what it serves; recovery
writes an image or an owner record that passes its checks and nothing else. -/
def Obligations.RegistersAreReadWrittenAndRecovered : Prop :=
  ∀ (s : State),
    (∀ (space : Space) (off v : BitVec 32) (be : BitVec 4),
      (space ≠ .control → (off.toNat % 4 ≠ 0 ∨ s.link.perst = true) → Answers (.registerWrite space off v be) s (fun t => t = s)) ∧
      ((s.ep.role ≠ 1 ∨ s.mg.powered = false ∨ (off ≠ 0x1008#32 ∧ off ≠ 0x100C#32)) →
        Answers (.registerWrite .control off v be) s (fun t => t = s)) ∧
      (s.ep.role = 1 → s.mg.powered = true → s.anyCtx = false → Answers (.registerWrite .control 0x100C v be) s (fun t =>
        t = { s with tcb := { s.tcb with sec := v } }) ∧ Answers (.registerWrite .control 0x1008 v be) s (fun t =>
        t = { s with tcb := { s.tcb with arm := v.getLsbD 0 } })) ∧
      (space ≠ .control → off.toNat % 4 = 0 → s.barLive = true → be ≠ 0xF#4 → Answers (.registerWrite space off v be) s (fun t =>
        t = { s with link := { s.link with badwr := satAdd s.link.badwr 1 } }))) ∧
    (s.barLive = true → s.sec.inRecovery = false → ∀ v : BitVec 32,
      let wr (off : BitVec 32) : Instr := .registerWrite .pf0 off v 0xF#4
      (∀ off : BitVec 32, off.toNat < 0x1000 → off.toNat % 4 = 0 → Answers (wr off) s (fun t => t = s)) ∧
      (s.anyCtx = false → Answers (wr 0x100C) s (fun t => t = { s with tcb := { s.tcb with sec := v } })) ∧
      (v = s.tcb.sec → Answers (wr 0x100C) s (fun t => t = s)) ∧
      (s.anyCtx = true → v ≠ s.tcb.sec → Answers (wr 0x100C) s (fun t => t.ctxs = s.ctxs ∧ t.panel = s.panel ∧
        t.tcb = { s.tcb with wwb := true })) ∧
      Answers (wr 0x1010) s (fun t => t = { s with tcb := t.tcb } ∧ t.tcb = { s.tcb with
        wwb := s.tcb.wwb && !v.getLsbD 10, refLost := s.tcb.refLost && !v.getLsbD 9, pulseErr := s.tcb.pulseErr && !v.getLsbD 8 }) ∧
      (∀ c, c < 64 →
        let x := s.ctx c
        let others (t : State) : Prop := (∀ d, d ≠ c → t.ctx d = s.ctx d) ∧ t.panel = s.panel ∧ t.ports = s.ports
        let p := fld v.toNat 23 0
        let f := fld v.toNat 26 24
        let frame (P : State → Prop) : Prop := Answers (wr (BitVec.ofNat 32 (0x20020 + 256 * c))) s (fun t => others t ∧ P t)
        (p = x.period → f = x.floor → frame (fun t => t = s)) ∧
        (¬(p = x.period ∧ f = x.floor) → x.frameBusy = true → frame (fun t => t.ctx c = { x with cfgst := x.cfgst ||| 1#3 })) ∧
        (¬(p = x.period ∧ f = x.floor) → x.frameBusy = false → frame (fun t => (t.ctx c).floor = f ∧
            (4000 ≤ p → p ≤ 10000000 → (t.ctx c).period = p ∧ (t.ctx c).cfgst = x.cfgst) ∧
            (¬(4000 ≤ p ∧ p ≤ 10000000) → (t.ctx c).period = x.period ∧ (t.ctx c).cfgst = x.cfgst ||| 2#3))) ∧
        Answers (wr (BitVec.ofNat 32 (0x20044 + 256 * c))) s (fun t => others t ∧
          t.ctx c = { x with numst := x.numst &&& ~~~(BitVec.ofNat 5 v.toNat) }) ∧
        Answers (.registerWrite (.vf0 (c + 1)) 0x2050 v 0xF#4) s (fun t => others t ∧
          t.ctx c = { x with shadow := { x.shadow with gap := some (BitVec.ofNat 16 v.toNat) } }) ∧
        (∀ (port : BitVec 5) (q : BitVec 8), (s.port port.toNat).hasPair c q.toNat = true →
          let k := (s.port port.toNat).pair c q.toNat
          let at_ (o : Nat) : Instr := .registerWrite (.vf2 (c + 1)) (BitVec.ofNat 32 (8192 * port.toNat + 32 * q.toNat + o)) v 0xF#4
          Answers (at_ 4) s (fun t => (∀ d, d ≠ c → t.ctx d = s.ctx d) ∧ t.panel = s.panel ∧ t.ports = s.ports ∧
            (t.ctx c).shadow.pairs = x.shadow.pairs ++ [(port.toNat, q.toNat, 2, 0, v)]) ∧
          Answers (at_ 8) s (fun t => (∀ d, t.ctx d = s.ctx d) ∧ t.panel = s.panel ∧
            (BitVec.ofNat 24 v.toNat = k.rbase → t = s) ∧
            (BitVec.ofNat 24 v.toNat ≠ k.rbase → (t.port port.toNat).pair c q.toNat =
              if k.busy then { k with wwb := true } else { k with rbase := BitVec.ofNat 24 v.toNat })))) ∧
      (let cap := v.toNat % 512
       (96 ≤ cap → cap ≤ 300 → Answers (.fsPcap v) s (fun t => t = { s with fs := { s.fs with pcap := BitVec.ofNat 9 cap } })) ∧
       (¬(96 ≤ cap ∧ cap ≤ 300) → Answers (.fsPcap v) s (fun t => t.fs = s.fs ∧ t.ctxs = s.ctxs ∧ t.panel = s.panel)))) ∧
    (s.mg.powered = true →
      (∀ off : BitVec 32, let o := off.toNat
        let reads (P : State → Prop) : Prop := Answers (.smbusRead off) s (fun t =>
          t = { s with smb := t.smb, tcb := t.tcb } ∧ t.tcb.now = s.tcb.now ∧ P t)
        (o % 4 ≠ 0 → reads (fun t => t.smb.status = 2 ∧ t.smb.value = 0)) ∧
        (o % 4 = 0 → smbServed o = false → reads (fun t => t.smb.status = 1 ∧ t.smb.value = 0)) ∧
        (o % 4 = 0 → smbServed o = true → reads (fun t => t.smb.status = 0 ∧ t.smb.value = BitVec.ofNat 32 (s.bar0Word .smbus o)))) ∧
      (∀ v : BitVec 16,
        (96 ≤ v.toNat → v.toNat ≤ 300 →
          Answers (.smbusPcap v) s (fun t => t = { s with fs := { s.fs with pcap := BitVec.ofNat 9 v.toNat } })) ∧
        (¬(96 ≤ v.toNat ∧ v.toNat ≤ 300) →
          Answers (.smbusPcap v) s (fun t => t.fs = s.fs ∧ t.ctxs = s.ctxs ∧ t.panel = s.panel))) ∧
      (∀ v : BitVec 32,
        ((v ≠ 0xA5A50005#32 ∨ s.link.perst = true) → Answers (.recoveryEnter v) s (fun t => t = s)) ∧
        (v = 0xA5A50005#32 → s.link.perst = false → Answers (.recoveryEnter v) s (fun t => t.ctxs = [] ∧ t.mg.rstCause = 2 ∧
          t.sec.forceRecovery = true ∧ t.sec.flash = s.sec.flash ∧ t.sec.owners = s.sec.owners)))) ∧
    (∀ (dma : Dma) (flashOk : Bool),
      ((s.sec.inRecovery = false ∨ s.sec.rcvState ≠ 1) → Answers (.recoveryTransfer dma flashOk) s (fun t => t = s)) ∧
      (s.sec.inRecovery = true → s.sec.rcvState = 1 →
        (∀ off, Answers (.recoveryTransfer (.abort off) flashOk) s (fun t => t.sec = { s.sec with rcvState := 1, rcvCode := 6 } ∧
          t.link.aborts = satAdd s.link.aborts 1)) ∧
        (let len := s.sec.rcvLen.toNat
         let m := s.hostRead (2 ^ 32 * s.sec.rcvHi.toNat + s.sec.rcvLo.toNat / 64 * 64) len
         let image := decide (len = 0x80 + leAt m 0x0C 4 + 64)
         (s.sec.rcvKind = false → image = true → s.imageCheck m = none → flashOk = true → Answers (.recoveryTransfer .ok flashOk) s (fun t =>
            t.sec.flash = m ∧ t.sec.flashBad = false ∧ t.sec.inRecovery = false ∧ t.sec.owners = s.sec.owners ∧
            t.sec.latch.digest = sha256 (m.take (0x80 + leAt m 0x0C 4)))) ∧
         (s.sec.rcvKind = false → image = true → s.imageCheck m = none → flashOk = false → Answers (.recoveryTransfer .ok flashOk) s (fun t =>
            t.sec.flashBad = true ∧ t.sec.inRecovery = true ∧ t.sec.rcvCode = 5 ∧ t.sec.owners = s.sec.owners)) ∧
         (∀ code, s.sec.rcvKind = false → image = true → s.imageCheck m = some code → Answers (.recoveryTransfer .ok flashOk) s (fun t =>
            t = { s with sec := { s.sec with rcvState := 1, rcvCode := BitVec.ofNat 8 code } })) ∧
         (∀ code, s.sec.rcvKind = true → len = 0xA8 → s.ownerRecord m = .inl code → Answers (.recoveryTransfer .ok flashOk) s (fun t =>
            t = { s with sec := { s.sec with rcvState := 1, rcvCode := BitVec.ofNat 8 code } })) ∧
         (∀ os, s.sec.rcvKind = true → len = 0xA8 → s.ownerRecord m = .inr os → Answers (.recoveryTransfer .ok flashOk) s (fun t =>
            t.sec.owners = os ∧ t.sec.flash = s.sec.flash)))))

/-! ## Identity and the monitor -/

/-- GET_VERSION, GET_CAPABILITIES, NEGOTIATE_ALGORITHMS, GET_DIGESTS, GET_CERTIFICATE, CHALLENGE,
GET_MEASUREMENTS, KEY_EXCHANGE, FINISH, END_SESSION, IDE_KM and IDE_FAIL (R350 to R354): where the mailbox is
served each request has its reply, in the order of SPDM 1.2 (log 33), and an ERROR out of it; a report is
signed over its own bytes; a stream is keyed only inside a session, and a failed check makes it insecure. -/
def Obligations.SpdmAnswersInItsOrderAndKeysStreams : Prop :=
  ∀ (s : State),
    let x := s.sec.spdm
    let only (t : State) : Prop := t.ctxs = s.ctxs ∧ t.panel = s.panel ∧ t.ports = s.ports ∧ t.fns = s.fns ∧ t.mg = s.mg ∧
      t.sec = { s.sec with spdm := t.sec.spdm }
    let error (t : State) : Prop := t = { s with sec := { s.sec with spdm := { x with reply := .error } } }
    let ready := x.version && x.caps && x.algs
    (s.doeServed = false → ∀ offer slot off len nonce index share good stream key,
      ∀ c, c ∈ [Instr.getVersion, .getCapabilities, .negotiateAlgorithms offer, .getDigests, .getCertificate slot off len,
        .challenge slot nonce, .getMeasurements index nonce, .keyExchange slot nonce share, .finish good, .endSession, .ideKm stream key] →
      Answers c s (fun t => t = s)) ∧
    (s.doeServed = true →
      Answers .getVersion s (fun t => only t ∧ t.sec.spdm = { version := true, reply := .version }) ∧
      (x.version = true → Answers .getCapabilities s (fun t => only t ∧ t.sec.spdm = { x with caps := true, reply := .capabilities })) ∧
      (x.version = false → Answers .getCapabilities s error) ∧
      (∀ o : AlgOffer,
        let offered := x.version && x.caps && o.p256 && o.sha256 && o.ecdhe && o.aesGcm
        (offered = true → Answers (.negotiateAlgorithms o) s (fun t => only t ∧ t.sec.spdm = { x with algs := true, reply := .algorithms })) ∧
        (offered = false → Answers (.negotiateAlgorithms o) s error)) ∧
      (ready = true → Answers .getDigests s (fun t => only t ∧ t.sec.spdm = { x with reply := .digests (sha256 Config.certChain) })) ∧
      (ready = false → Answers .getDigests s error) ∧
      (∀ slot : BitVec 4, ∀ off len,
        let part := (Config.certChain.drop off.toNat).take len.toNat
        (ready = true → slot = 0#4 → Answers (.getCertificate slot off len) s (fun t => only t ∧
          t.sec.spdm = { x with reply := .certificate part (Config.certChain.length - off.toNat - part.length) })) ∧
        ((ready = false ∨ slot ≠ 0#4) → Answers (.getCertificate slot off len) s error)) ∧
      (∀ slot : BitVec 4, ∀ nonce,
        (ready = true → slot = 0#4 → Answers (.challenge slot nonce) s (fun t => only t ∧
          ∃ sig, t.sec.spdm = { x with reply := .challengeAuth nonce sig })) ∧
        ((ready = false ∨ slot ≠ 0#4) → Answers (.challenge slot nonce) s error)) ∧
      (∀ index nonce,
        (ready = true → index = 1#8 → Answers (.getMeasurements index nonce) s (fun t =>
          only t ∧ ∃ sig, t.sec.spdm = { x with reply := .measurements (digBytes s.sec.latch.digest) sig })) ∧
        (ready = true → 0x40 ≤ index.toNat → index.toNat ≤ 0x80 → Answers (.getMeasurements index nonce) s (fun t => only t ∧ ∃ n,
          let bs := s.report (s.reportCtxs index.toNat) nonce
          t.sec.spdm = { x with reply := .measurements bs (Config.sign n (sha256 bs)) })) ∧
        ((ready = false ∨ (index ≠ 1#8 ∧ (index.toNat < 0x40 ∨ 0x80 < index.toNat))) →
          Answers (.getMeasurements index nonce) s error)) ∧
      (∀ slot : BitVec 4, ∀ nonce share,
        (ready = true → slot = 0#4 → Answers (.keyExchange slot nonce share) s (fun t => only t ∧ t.sec.spdm.session = 1 ∧
          ∃ a b, t.sec.spdm.reply = .keyExchangeRsp a b)) ∧
        ((ready = false ∨ slot ≠ 0#4) → Answers (.keyExchange slot nonce share) s error)) ∧
      (∀ good, x.session ≠ 1 → Answers (.finish good) s error) ∧
      (x.session = 1 → Answers (.finish true) s (fun t => only t ∧ t.sec.spdm.session = 2 ∧ ∃ b, t.sec.spdm.reply = .finishRsp b)) ∧
      (x.session = 1 → Answers (.finish false) s (fun t => only t ∧ t.sec.spdm = { x with session := 0, reply := .error })) ∧
      (x.session = 2 → Answers .endSession s (fun t => only t ∧ t.sec.spdm = { x with session := 0, reply := .endSessionAck })) ∧
      (x.session ≠ 2 → Answers .endSession s error) ∧
      (∀ stream key,
        (x.session ≠ 2 → Answers (.ideKm stream key) s error) ∧
        (x.session = 2 → Answers (.ideKm stream key) s (fun t => only t ∧ t.link.ideKeys.find? stream.toNat = some key ∧ t.link.keyed.getLsbD stream.toNat = true ∧
          t.link.insecure.getLsbD stream.toNat = false ∧ t.link.mem = s.link.mem ∧
          (∀ n, n ≠ stream.toNat → t.link.keyed.getLsbD n = s.link.keyed.getLsbD n ∧ t.link.insecure.getLsbD n = s.link.insecure.getLsbD n ∧
            t.link.ideKeys.find? n = s.link.ideKeys.find? n))))) ∧
    (∀ stream : BitVec 3,
      let hit := s.mg.powered && s.link.keyed.getLsbD stream.toNat
      (hit = false → Answers (.ideFail stream) s (fun t => t = s)) ∧
      (hit = true → Answers (.ideFail stream) s (fun t => t.link.insecure.getLsbD stream.toNat = true ∧ t.link.keyed = s.link.keyed ∧ t.link.ideKeys = s.link.ideKeys ∧
        t.ctxs = s.ctxs ∧ t.panel = s.panel ∧ t.mg = (s.logFault 0x0A05 3 noCtx srcHost stream.toNat 0).mg)))

/-- The MONITOR_ commands (R355, R373 to R378, Tables 19.1 to 19.4): a line is answered, held or refused as
R373 prints; a read command prints the words it names and changes nothing but what reading them changes; an
unlock succeeds on a good certificate only, and every end of an attempt draws a new challenge; a write command
needs the unlock and its own permission. -/
def Obligations.TheMonitorAnswersUnlocksAndWrites : Prop :=
  ∀ (s : State),
    (s.mg.powered = false → ∀ l n cert,
      ∀ c, c ∈ [Instr.monitorLine l, .monitorAbort, .monitorId, .monitorLog n, .monitorChallenge, .monitorUnlock cert, .monitorLock] →
      Answers c s (fun t => t = s)) ∧
    (s.mg.powered = true →
      (∀ l : List Byte,
        let line (P : State → Prop) : Prop := Answers (.monitorLine l) s P
        (128 < l.length → line (fun t => t = s.shown [.err "LONG"])) ∧
        (l.length ≤ 128 → s.mon.answering = true →
          line (fun t => t = { s with mon := { s.mon with heldLine := if s.mon.heldLine.isNone then some l else s.mon.heldLine } })) ∧
        (l.length ≤ 128 → s.mon.answering = false → s.mon.collecting = none →
          (lineWords l = [] → line (fun t => t = s)) ∧
          (lineWords l = [ascii "unlock"] → line (fun t => t = { s with mon := { s.mon with collecting := some [] } })) ∧
          (lineWords l ≠ [] → lineWords l ≠ [ascii "unlock"] → lineOk l = true →
            line (fun t => t = { s with mon := { s.mon with answering := true, current := l } })) ∧
          (lineWords l ≠ [] → lineWords l ≠ [ascii "unlock"] → lineOk l = false → line (fun t => t = s.shown [.err "SYNTAX"]))) ∧
        (∀ m, l.length ≤ 128 → s.mon.answering = false → s.mon.collecting = some m →
          (certLine l = none → line (fun t => t.mon.collecting = none ∧ t.mon.out = s.mon.out ++ [.err "SYNTAX"] ∧
            t.sec = { s.sec with challenge := s.free })) ∧
          (∀ bs, certLine l = some bs → (m ++ bs).length ≠ 160 →
            line (fun t => t = { s with mon := { s.mon with collecting := some (m ++ bs) } })) ∧
          (∀ bs, certLine l = some bs → (m ++ bs).length = 160 →
            line (fun t => t.mon.collecting = none ∧ t.sec.challenge = s.free ∧
              t.mon.out = s.mon.out ++ [if certGood s (m ++ bs) then .ok else .err "CERT"] ∧
              t.sec.unlocked = (s.sec.unlocked || certGood s (m ++ bs)))))) ∧
      (s.mon.collecting.isSome = true → Answers .monitorAbort s (fun t => t.mon.collecting = none ∧
        t.mon.out = s.mon.out ++ [.aborted] ∧ t.sec = { s.sec with challenge := s.free })) ∧
      (s.mon.collecting = none → s.mon.answering = true → Answers .monitorAbort s (fun t => t = (s.shown [.aborted]).endAnswer)) ∧
      (s.mon.collecting = none → s.mon.answering = false → Answers .monitorAbort s (fun t => t = s)) ∧
      (∀ cert : List Byte,
        let ends (P : State → Prop) : Prop := Answers (.monitorUnlock cert) s (fun t =>
          ∃ u : State, t = u.endAnswer ∧ u.mon.collecting = none ∧ u.sec.challenge = s.free ∧ P u)
        (cert.length = 160 → certGood s cert = true → ends (fun u => u.sec.unlocked = true ∧
          u.sec.perms = BitVec.ofNat 3 (leAt cert 6 2) ∧ u.mon.out = s.mon.out ++ [.ok])) ∧
        (cert.length = 160 → certGood s cert = false → ends (fun u => u.sec.unlocked = s.sec.unlocked ∧
          u.sec.perms = s.sec.perms ∧ u.mon.out = s.mon.out ++ [.err "CERT"])) ∧
        (cert.length ≠ 160 → ends (fun u => u.sec.unlocked = s.sec.unlocked ∧ u.sec.perms = s.sec.perms ∧
          u.mon.out = s.mon.out ++ [.err "SYNTAX"]))) ∧
      (∀ m, s.mon.collecting = some m → ∀ off n cx cy h addr b v bits,
        ∀ c, c ∈ [Instr.monitorId, .monitorReg off n, .monitorStart, .monitorTemp, .monitorLog n, .monitorLogFlash n, .monitorCtx n,
          .monitorCore cx cy, .monitorHandle cx cy h, .monitorMem cx cy addr n, .monitorIstore cx cy b n, .monitorPort n, .monitorPips n,
          .monitorRank n, .monitorRoute n, .monitorBmask, .monitorDist cx cy, .monitorChallenge, .monitorLock, .monitorWreg off v,
          .monitorWmem cx cy addr v, .monitorWistore cx cy b bits, .monitorReset] →
        Answers c s (fun t => t.mon.collecting = none ∧ t.mon.out = s.mon.out ++ [.err "SYNTAX"] ∧
          t = { s with mon := t.mon, sec := { s.sec with challenge := s.free }, free := s.free + 1 })))

/-- The read commands of the monitor (R373 to R375, Table 19.2): each prints the words it names, or the name of
what refuses it, and changes nothing else; a read of TC_NOW or CX_FCOUNT latches as R23 prints, and bytes of a
pod that is bound are shown only to an unlocked monitor with PERMS bit 0.
The write commands of the monitor (R355, R374, R376 to R378, Table 19.3): each needs the unlock and its
PERMS bit, and the firmware; a word goes to the scratchpad and to no other byte, a bundle to its eight words, a
register write is one of the physical function; `lock` ends the unlock, and `reset` is a module reset of cause 7. -/
def Obligations.MonitorCommandsPrintAndWriteAsPermitted : Prop :=
  (
    ∀ (s : State), s.mg.powered = true → s.mon.collecting = none →
      let prints (c : Instr) (ls : List MonOut) : Prop := Answers c s (fun t => t = (s.shown ls).endAnswer)
      let within (ok : Bool) (c : Instr) (ls : List MonOut) : Prop := (ok = false → prints c [.err "RANGE"]) ∧ (ok = true → prints c (ls ++ [.ok]))
      let panel (ok : Bool) (c : Instr) (ls : List MonOut) : Prop :=
        (ok = false → prints c [.err "RANGE"]) ∧ (ok = true → s.mg.ready = false → s.mg.stage ≤ 7 → prints c [.err "NOTREADY"]) ∧
        (ok = true → (s.mg.ready = true ∨ 7 < s.mg.stage) → s.fs.coreRails = false → prints c [.err "NORESP"]) ∧
        (ok = true → (s.mg.ready = true ∨ 7 < s.mg.stage) → s.fs.coreRails = true → prints c (ls ++ [.ok]))
      prints .monitorId [.values "ID_IDENT" [s.bar0Word .monitor 0], .values "ID_REV" [s.bar0Word .monitor 4], .ok] ∧
      (∀ off n,
        let os := (List.range n).map (fun k => off + 4 * k)
        let ok := decide (off % 4 = 0) && decide (0 < n) && decide (n ≤ 64) && os.all smbServed
        (ok = false → prints (.monitorReg off n) [.err "RANGE"]) ∧
        (ok = true → Answers (.monitorReg off n) s (fun t =>
          let u := os.foldl (fun (t : State) o => t.latchRead .monitor o) s
          t = (u.shown [.values "reg" (os.map (u.bar0Word .monitor)), .ok]).endAnswer ∧ u = { s with tcb := u.tcb } ∧
          u.tcb.now = s.tcb.now ∧ (0x1000 ∈ os → u.bar0Word .monitor 0x1004 = s.tcb.now / 2 ^ 32 % 2 ^ 32)))) ∧
      prints .monitorStart [.values "MG_START" [s.mgWord 0x3020], .values "MG_RSTCAUSE" [s.mgWord 0x3004], .values "MG_RSTCNT" [s.mgWord 0x3008],
        .values "MG_STTIME" ((List.range 10).map (fun k => s.mgWord (0x3080 + 4 * k))), .ok] ∧
      prints .monitorTemp (((List.range 6).map (fun r => MonOut.values "MG_TFIELD" ((List.range 8).map (fun k => s.mgWord (0x3200 + 32 * r + 4 * k)))) ++
        [.values "MG_TSTACK" ((List.range 32).map (fun k => s.mgWord (0x3400 + 4 * k))), .values "MG_PIN" [s.mgWord 0x3480],
         .values "MG_COOL" [s.mgWord 0x3484], .values "FS_STATUS" [s.fsWord 0]]) ++ [.ok]) ∧
      (∀ n,
        ((n = 0 ∨ 2048 < n) → prints (.monitorLog n) [.err "RANGE"]) ∧
        (∀ e, n = 1 → s.mg.logNext ≠ 0 → s.mg.log.find? ((s.mg.logNext - 1) % 2048) = some e → e.seq = s.mg.logNext - 1 →
          prints (.monitorLog n) [.values "log" e.words, .ok]) ∧
        within (decide (0 < n) && decide (n ≤ 1024)) (.monitorLogFlash n) ((s.mg.flashLog.take n).map (fun e => MonOut.values "log flash" e.words)) ∧
        (64 ≤ n → prints (.monitorCtx n) [.err "RANGE"]) ∧
        (n < 64 → Answers (.monitorCtx n) s (fun t => ∃ u : State, t = u.endAnswer ∧ u = { s with mon := u.mon, ctxs := u.ctxs } ∧
          (∀ d, d ≠ n → u.ctx d = s.ctx d) ∧
          u.ctx n = { s.ctx n with fcLatch := (s.ctx n).fcLatch.put (pathNo .monitor) (BitVec.ofNat 32 ((s.ctx n).fcount / 2 ^ 32)) } ∧
          u.mon = { s.mon with out := s.mon.out ++ [.values "ctx" ((List.range 23).map (fun k => (u.ctx n).word .monitor (4 * k))), .ok] })) ∧
        within (decide (n < 6)) (.monitorPort n) [.values "port" ([0, 4, 8, 12, 16, 20, 24].map (s.epPort n).word)] ∧
        within (decide (n < 6)) (.monitorPips n)
          [.values "out" ((List.range 64).map (pipOwner (s.epPort n).pipTx)), .values "in" ((List.range 64).map (pipOwner (s.epPort n).pipRx))] ∧
        within (decide (n < 65536)) (.monitorRank n)
          (((s.ep.ranks.get n []).filter (fun e => e.2.getLsbD 31)).map (fun e => MonOut.values "rank" [e.1, e.2.toNat])) ∧
        within (decide (n < 65536)) (.monitorRoute n)
          (((s.ep.table n).filter (fun e => decide (e.2 ≠ 7#8))).map (fun e => MonOut.values "route" [e.1, e.2.toNat]))) ∧
      prints .monitorBmask [.values "bmask" [s.ep.bmask.toNat], .ok] ∧
      prints .monitorChallenge [.values "challenge"
        ((List.range 4).map (fun g => beNat ((((digBytes (Config.random s.sec.challenge)).take 16).drop (4 * g)).take 4))), .ok] ∧
      (∀ x y,
        let i := 640 * y + x
        let k := s.core i
        let core := decide (x < 640) && decide (y < 480)
        within (decide (x < 16) && decide (y < 12)) (.monitorDist x y)
          [.values "dist" ((List.range 40).map (fun d => s.distWord (0x40 + 4 * (40 * (16 * y + x) + d))))] ∧
        panel core (.monitorCore x y) [.values "core" ((coreRecord k).map (·.toNat)), .values "phase" [k.phase]] ∧
        (∀ h, panel (core && decide (h < 64)) (.monitorHandle x y (some h)) [.values "handle" [(k.handle h).toNat]]) ∧
        panel core (.monitorHandle x y none) ((List.range 64).map (fun n => MonOut.values "handle" [(k.handle n).toNat])) ∧
        (core = true → (s.mg.ready = true ∨ 7 < s.mg.stage) → s.fs.coreRails = true → ∀ a n,
          let taken := s.podTaken (podOf i)
          let may := !taken || (s.sec.unlocked && s.sec.perms.getLsbD 0)
          (1 ≤ n → n ≤ 4096 → a + n ≤ 196608 →
            (taken = true → s.sec.unlocked = false → prints (.monitorMem x y a n) [.err "LOCKED"]) ∧
            (taken = true → s.sec.unlocked = true → s.sec.perms.getLsbD 0 = false → prints (.monitorMem x y a n) [.err "PERM"]) ∧
            (may = true → k.eccSingle = [] → k.eccDouble = [] → Answers (.monitorMem x y a n) s (fun t => ∃ u : State, t = u.endAnswer ∧
              (∀ j, u.core j = s.core j) ∧ u.ctxs = s.ctxs ∧ u.ports = s.ports ∧ u.fns = s.fns ∧
              u.mon = { s.mon with out := s.mon.out ++ rowsOf16 (Cells.read 0 k.mem a n) ++ [.ok] }))) ∧
          (1 ≤ n → n ≤ 64 → a + n ≤ 1024 →
            (taken = true → s.sec.unlocked = false → prints (.monitorIstore x y a n) [.err "LOCKED"]) ∧
            (taken = true → s.sec.unlocked = true → s.sec.perms.getLsbD 0 = false → prints (.monitorIstore x y a n) [.err "PERM"]) ∧
            (may = true → k.eccSingle = [] → k.eccDouble = [] → Answers (.monitorIstore x y a n) s (fun t => ∃ u : State,
              t = u.endAnswer ∧ (∀ j, u.core j = s.core j) ∧ u.ctxs = s.ctxs ∧ u.ports = s.ports ∧ u.fns = s.fns ∧
              u.mon = { s.mon with out := s.mon.out ++ ((List.range n).map (fun j =>
                MonOut.values "istore" ((Cells.read 0 k.istore (8 * (a + j)) 8).map (·.toNat)))) ++ [.ok] })))))) ∧
  (
    ∀ (s : State), s.mg.powered = true → s.mon.collecting = none →
      let prints (c : Instr) (ls : List MonOut) : Prop := Answers c s (fun t => t = (s.shown ls).endAnswer)
      let may (bit : Nat) : Bool := s.sec.unlocked && s.sec.perms.getLsbD bit && s.fwRuns
      (∀ off v x y a b ws, ∀ q, q ∈ [(Instr.monitorWreg off v, 0), (.monitorWmem x y a v, 0), (.monitorWistore x y b ws, 1), (.monitorReset, 2)] →
        (s.sec.unlocked = false → prints q.1 [.err "LOCKED"]) ∧
        (s.sec.unlocked = true → s.sec.perms.getLsbD q.2 = false → prints q.1 [.err "PERM"]) ∧
        (s.sec.unlocked = true → s.sec.perms.getLsbD q.2 = true → s.fwRuns = false → prints q.1 [.err "NORESP"])) ∧
      Answers .monitorLock s (fun t => t = (({ s with sec := { s.sec with unlocked := false, perms := 0 } } : State).shown [.ok]).endAnswer) ∧
      (∀ off v, may 0 = true →
        ((0x100000 ≤ off ∨ off % 4 ≠ 0) → prints (.monitorWreg off v) [.err "RANGE"]) ∧
        (off < 0x100000 → off % 4 = 0 → off ≠ 0x3000 →
          Answers (.monitorWreg off v) s (fun t => t = ((s.bar0Write off v).shown [.ok]).endAnswer)) ∧
        (off = 0x3000 → v ≠ 0xA5A50004#32 → prints (.monitorWreg off v) [.ok]) ∧
        (off = 0x3000 → v = 0xA5A50004#32 → Answers (.monitorWreg off v) s (fun t => t.ctxs = [] ∧ t.mg.rstCause = 2))) ∧
      (may 2 = true → Answers .monitorReset s (fun t => t.ctxs = [] ∧ t.fns = [] ∧ t.mg.rstCause = 7 ∧
        ((s.ep.role ≠ 2 ∨ ∀ p, p < 6 → (s.epPort p).st ≠ 3) → t.link.mem = s.link.mem))) ∧
      (∀ x y,
        let i := 640 * y + x
        let k := s.core i
        let core := decide (x < 640) && decide (y < 480)
        let ready := s.mg.ready || decide (7 < s.mg.stage)
        (∀ a v, may 0 = true →
          ((core && decide (a % 4 = 0) && decide (a + 4 ≤ 196608)) = false → prints (.monitorWmem x y a v) [.err "RANGE"]) ∧
          ((core && decide (a % 4 = 0) && decide (a + 4 ≤ 196608)) = true →
            (ready = false → prints (.monitorWmem x y a v) [.err "NOTREADY"]) ∧
            (ready = true → s.podScrubs (podOf i) = true → prints (.monitorWmem x y a v) [.err "BUSY"]) ∧
            (ready = true → s.podScrubs (podOf i) = false → k.canonical = true → k.eccDouble = [] →
              Answers (.monitorWmem x y a v) s (fun t => Cells.read 0 (t.core i).mem a 4 = leBytes 4 v.toNat ∧
                (∀ z, z < a ∨ a + 4 ≤ z → Cells.get 0 (t.core i).mem z = Cells.get 0 k.mem z) ∧
                (k.inDesc a = true → Cells.read 0 (t.core i).dstore a 4 = leBytes 4 v.toNat) ∧ (k.inDesc a = false → (t.core i).dstore = k.dstore) ∧
                (t.core i).istore = k.istore ∧ (t.core i).handles = k.handles ∧ (∀ j, j ≠ i → t.core j = s.core j) ∧
                t.ctxs = s.ctxs ∧ t.ports = s.ports)))) ∧
        (∀ b ws, may 1 = true →
          (ws.length ≠ 8 → prints (.monitorWistore x y b ws) [.err "SYNTAX"]) ∧
          (ws.length = 8 → (core && decide (b < 1024)) = false → prints (.monitorWistore x y b ws) [.err "RANGE"]) ∧
          (ws.length = 8 → (core && decide (b < 1024)) = true → ready = false → prints (.monitorWistore x y b ws) [.err "NOTREADY"]) ∧
          (ws.length = 8 → (core && decide (b < 1024)) = true → ready = true →
            (s.podScrubs (podOf i) = true → prints (.monitorWistore x y b ws) [.err "BUSY"]) ∧
            (s.podScrubs (podOf i) = false → k.canonical = true →
              Answers (.monitorWistore x y b ws) s (fun t => Cells.read 0 (t.core i).istore (8 * b) 8 = ws ∧
                (∀ z, z < 8 * b ∨ 8 * b + 8 ≤ z → Cells.get 0 (t.core i).istore z = Cells.get 0 k.istore z) ∧
                (t.core i).mem = k.mem ∧ (t.core i).dstore = k.dstore ∧ (∀ j, j ≠ i → t.core j = s.core j) ∧
                t.ctxs = s.ctxs ∧ t.ports = s.ports))))))


/-! ## Whole-machine rules -/

/-- No command touches the queue: what runs is taken by the step alone (log 4, the model's own queue). -/
def Obligations.CommandsLeaveTheQueueAlone : Prop :=
  ∀ (c : Instr) (s t : State), exec c s = .next t → t.pending = s.pending

/-- Every step keeps the canonical form of every memory of the machine, and LEN.ROW and LEN.COL of every core
between 1 and 16 (R69, R81; the form is the model's own). -/
def Obligations.EveryStepKeepsTheCanonicalForm : Prop :=
  ∀ (s t : State), s.canonical = true → step s = .next t → t.canonical = true

/-- After reset every memory is canonical, no context exists, no command waits and no core has an owner. -/
def Obligations.ResetIsCanonicalAndIdle : Prop :=
  State.reset.canonical = true ∧ State.reset.liveCtxs = [] ∧ State.reset.pending = [] ∧
  (∀ i, (State.reset.core i).owner = none ∧ (State.reset.core i).mem = [] ∧ (State.reset.core i).lenOk = true) ∧
  (∀ p, (State.reset.port p).mem = []) ∧ (∀ f, (State.reset.fn f).enable = false)
end

