-- ==== Sys2Proof/Laws/Word.lean ====
section
/-! SUPPORT. Tables and memories: what a read finds after a write, and that every memory operation
keeps the canonical form. -/
namespace Sys2Proof

/-! ## Tables -/

theorem Table.find?_put {α : Type} (t : Table α) (n m : Nat) (a : α) :
    (Table.put t n a).find? m = if n = m then some a else t.find? m := by
  induction t with
  | nil => rfl
  | cons e t ih =>
    obtain ⟨k, b⟩ := e
    simp only [Table.put]
    split
    · rfl
    · split
      · subst n; simp only [Table.find?]; split <;> rfl
      · simp only [Table.find?, ih]
        split
        · subst k; rw [if_neg (by assumption)]
        · rfl

@[simp] theorem Table.get_put_self {α : Type} (t : Table α) (n : Nat) (a d : α) :
    (Table.put t n a).get n d = a := by simp [Table.get, Table.find?_put]

theorem Table.get_put {α : Type} (t : Table α) (n m : Nat) (a d : α) :
    (Table.put t n a).get m d = if n = m then a else t.get m d := by
  simp only [Table.get, Table.find?_put]; split <;> rfl

theorem Table.get_put_ne {α : Type} (t : Table α) {n m : Nat} (h : m ≠ n) (a d : α) :
    (Table.put t n a).get m d = t.get m d := by rw [Table.get_put, if_neg (Ne.symm h)]

@[simp] theorem Table.has_put {α : Type} (t : Table α) (n m : Nat) (a : α) :
    (Table.put t n a).has m = (decide (n = m) || t.has m) := by
  simp only [Table.has, Table.find?_put]; by_cases h : n = m <;> simp [h]

/-- A property of every entry of a table survives a put. -/
theorem Table.all_put {α : Type} (t : Table α) (n : Nat) (a : α) (p : α → Bool) (ha : p a = true)
    (h : t.all (fun e => p e.2) = true) : (Table.put t n a).all (fun e => p e.2) = true := by
  induction t with
  | nil => simp [Table.put, ha]
  | cons e t ih =>
    obtain ⟨k, b⟩ := e
    simp only [List.all_cons, Bool.and_eq_true] at h
    simp only [Table.put]
    split
    · simp [List.all_cons, ha, h.1, h.2]
    · split
      · simp [List.all_cons, ha, h.2]
      · simp [List.all_cons, h.1, ih h.2]

/-- A property of every entry, and of the default, holds of what a get finds. -/
theorem Table.all_get {α : Type} (t : Table α) (n : Nat) (d : α) (p : α → Bool) (hd : p d = true)
    (h : t.all (fun e => p e.2) = true) : p (t.get n d) = true := by
  induction t with
  | nil => exact hd
  | cons e t ih =>
    obtain ⟨k, b⟩ := e
    simp only [List.all_cons, Bool.and_eq_true] at h
    simp only [Table.get, Table.find?]
    split
    · exact h.1
    · exact ih h.2

/-! ## Memories -/

theorem Cells.get_set {β : Type} [DecidableEq β] (d : β) (c : Cells β) (a b : Nat) (v : β)
    (h : Cells.wf d c = true) : Cells.get d (Cells.set d c a v) b = if a = b then v else Cells.get d c b := by
  have key : ∀ (c : Cells β) (lo : Nat), Cells.wfFrom d lo c = true →
      Cells.get d (Cells.set d c a v) b = if a = b then v else Cells.get d c b := by
    intro c
    induction c with
    | nil =>
      intro lo _
      simp only [Cells.set]
      split
      · subst v; simp [Cells.get]
      · simp [Cells.get]
    | cons e c ih =>
      obtain ⟨k, w⟩ := e
      intro lo h
      simp only [Cells.wfFrom, Bool.and_eq_true, decide_eq_true_eq] at h
      have hlow : ∀ (c : Cells β) (m x : Nat), Cells.wfFrom d m c = true → x < m → Cells.get d c x = d := by
        intro c
        induction c with
        | nil => intros; rfl
        | cons e c ih2 =>
          obtain ⟨k', w'⟩ := e
          intro m x h hx
          simp only [Cells.wfFrom, Bool.and_eq_true, decide_eq_true_eq] at h
          simp only [Cells.get]
          rw [if_neg (by omega)]
          exact ih2 (k' + 1) x h.2 (by omega)
      simp only [Cells.set]
      split
      · rename_i hak
        split
        · rename_i hvd
          by_cases hab : a = b
          · rw [if_pos hab, hvd, ← hab]
            simp only [Cells.get]
            rw [if_neg (by omega)]
            exact hlow c (k + 1) a h.2 (by omega)
          · rw [if_neg hab]
        · simp only [Cells.get]
      · split
        · rename_i _ hak
          split
          · rename_i hvd
            by_cases hab : a = b
            · rw [if_pos hab, hvd, ← hab]
              exact hlow c (k + 1) a h.2 (by omega)
            · rw [if_neg hab]; simp only [Cells.get]; rw [if_neg (by omega)]
          · simp only [Cells.get]
            by_cases hab : a = b
            · rw [if_pos hab, if_pos hab]
            · rw [if_neg hab, if_neg hab, if_neg (by omega)]
        · simp only [Cells.get]
          by_cases hkb : k = b
          · rw [if_pos hkb, if_pos hkb, if_neg (by omega)]
          · rw [if_neg hkb, if_neg hkb]; exact ih (k + 1) h.2
  exact key c 0 h

theorem Cells.wfFrom_mono {β : Type} [DecidableEq β] (d : β) (c : Cells β) {m n : Nat} (hmn : m ≤ n)
    (h : Cells.wfFrom d n c = true) : Cells.wfFrom d m c = true := by
  cases c with
  | nil => rfl
  | cons e c =>
    simp only [Cells.wfFrom, Bool.and_eq_true, decide_eq_true_eq] at h ⊢
    exact ⟨⟨by omega, h.1.2⟩, h.2⟩

theorem Cells.wfFrom_set {β : Type} [DecidableEq β] (d : β) (c : Cells β) (a : Nat) (v : β) :
    ∀ lo, lo ≤ a → Cells.wfFrom d lo c = true → Cells.wfFrom d lo (Cells.set d c a v) = true := by
  induction c with
  | nil =>
    intro lo h _
    simp only [Cells.set]
    split <;> simp_all [Cells.wfFrom]
  | cons e c ih =>
    obtain ⟨k, w⟩ := e
    intro lo hlo h
    simp only [Cells.wfFrom, Bool.and_eq_true, decide_eq_true_eq] at h
    simp only [Cells.set]
    split
    · rename_i hak
      split
      · simp only [Cells.wfFrom, Bool.and_eq_true, decide_eq_true_eq]; exact h
      · simp only [Cells.wfFrom, Bool.and_eq_true, decide_eq_true_eq]
        exact ⟨⟨hlo, by assumption⟩, ⟨by omega, h.1.2⟩, h.2⟩
    · split
      · split
        · exact Cells.wfFrom_mono d c (by omega) h.2
        · simp only [Cells.wfFrom, Bool.and_eq_true, decide_eq_true_eq]
          rename_i hak _
          subst hak
          exact ⟨⟨hlo, by assumption⟩, h.2⟩
      · simp only [Cells.wfFrom, Bool.and_eq_true, decide_eq_true_eq]
        exact ⟨h.1, ih (k + 1) (by omega) h.2⟩

/-- A write keeps the canonical form. -/
theorem Cells.wf_set {β : Type} [DecidableEq β] (d : β) (c : Cells β) (a : Nat) (v : β)
    (h : Cells.wf d c = true) : Cells.wf d (Cells.set d c a v) = true :=
  Cells.wfFrom_set d c a v 0 (Nat.zero_le _) h

/-- A run of writes keeps the canonical form. -/
theorem Cells.wf_write {β : Type} [DecidableEq β] (d : β) (vs : List β) : ∀ (c : Cells β) (a : Nat),
    Cells.wf d c = true → Cells.wf d (Cells.write d c a vs) = true := by
  induction vs with
  | nil => intro c a h; exact h
  | cons v vs ih => intro c a h; exact ih _ _ (Cells.wf_set d c a v h)

theorem Cells.wfFrom_drop {β : Type} [DecidableEq β] (d : β) (p : Nat → Bool) (c : Cells β) :
    ∀ lo, Cells.wfFrom d lo c = true → Cells.wfFrom d lo (Cells.drop c p) = true := by
  induction c with
  | nil => intro lo _; rfl
  | cons e c ih =>
    obtain ⟨k, w⟩ := e
    intro lo h
    simp only [Cells.wfFrom, Bool.and_eq_true, decide_eq_true_eq] at h
    have := ih (k + 1) h.2
    simp only [Cells.drop, List.filter_cons]
    split
    · simp only [Cells.wfFrom, Bool.and_eq_true, decide_eq_true_eq]; exact ⟨h.1, this⟩
    · exact Cells.wfFrom_mono d _ (by omega) this

/-- Taking entries out keeps the canonical form. -/
theorem Cells.wf_drop {β : Type} [DecidableEq β] (d : β) (c : Cells β) (p : Nat → Bool)
    (h : Cells.wf d c = true) : Cells.wf d (Cells.drop c p) = true := Cells.wfFrom_drop d p c 0 h

/-- Any sequence of writes, one per element of a list, keeps the canonical form. -/
theorem Cells.wf_foldl_set {β γ : Type} [DecidableEq β] (d : β) (f : γ → Nat) (g : γ → β) (l : List γ) :
    ∀ (c : Cells β), Cells.wf d c = true →
      Cells.wf d (l.foldl (fun t e => Cells.set d t (f e) (g e)) c) = true := by
  induction l with
  | nil => intro c h; exact h
  | cons e l ih => intro c h; exact ih _ (Cells.wf_set d c _ _ h)

/-- Writes at addresses other than `b` leave it. -/
theorem Cells.get_foldl_set_ne {β γ : Type} [DecidableEq β] (d : β) (f : γ → Nat) (g : γ → β) (b : Nat)
    (l : List γ) : ∀ (c : Cells β), Cells.wf d c = true → (∀ e ∈ l, f e ≠ b) →
      Cells.get d (l.foldl (fun t e => Cells.set d t (f e) (g e)) c) b = Cells.get d c b := by
  induction l with
  | nil => intro c _ _; rfl
  | cons e l ih =>
    intro c h hne
    rw [List.foldl_cons, ih _ (Cells.wf_set d c _ _ h) (fun x hx => hne x (List.mem_cons_of_mem _ hx)),
      Cells.get_set d c _ _ _ h, if_neg (hne e (List.mem_cons_self ..))]

/-- Writes whose addresses tell their elements apart: each address then holds its own value. -/
theorem Cells.get_foldl_set_mem {β γ : Type} [DecidableEq β] (d : β) (f : γ → Nat) (g : γ → β) (x : γ)
    (l : List γ) : ∀ (c : Cells β), Cells.wf d c = true → x ∈ l → (∀ e ∈ l, f e = f x → e = x) →
      Cells.get d (l.foldl (fun t e => Cells.set d t (f e) (g e)) c) (f x) = g x := by
  induction l with
  | nil => intro c _ h; exact absurd h (List.not_mem_nil)
  | cons e l ih =>
    intro c h hx hinj
    rw [List.foldl_cons]
    by_cases hxl : x ∈ l
    · exact ih _ (Cells.wf_set d c _ _ h) hxl (fun y hy => hinj y (List.mem_cons_of_mem _ hy))
    · have hex : e = x := by
        rcases List.mem_cons.mp hx with h1 | h1
        · exact h1.symm
        · exact absurd h1 hxl
      rw [Cells.get_foldl_set_ne d f g (f x) l _ (Cells.wf_set d c _ _ h)
        (fun y hy hfy => hxl (hinj y (List.mem_cons_of_mem _ hy) hfy ▸ hy)),
        Cells.get_set d c _ _ _ h, hex, if_pos rfl]

/-- A byte outside a written run reads as before. -/
theorem Cells.get_write_ne {β : Type} [DecidableEq β] (d : β) (vs : List β) (b : Nat) :
    ∀ (c : Cells β) (a : Nat), Cells.wf d c = true → (b < a ∨ a + vs.length ≤ b) →
      Cells.get d (Cells.write d c a vs) b = Cells.get d c b := by
  induction vs with
  | nil => intro c a _ _; rfl
  | cons v vs ih =>
    intro c a h hb
    simp only [List.length_cons] at hb
    rw [Cells.write, ih _ _ (Cells.wf_set d c a v h) (by omega), Cells.get_set d c a b v h, if_neg (by omega)]

/-- A byte of a written run reads as its value. -/
theorem Cells.get_write {β : Type} [DecidableEq β] (d : β) (vs : List β) :
    ∀ (c : Cells β) (a k : Nat), Cells.wf d c = true → k < vs.length →
      Cells.get d (Cells.write d c a vs) (a + k) = vs.getD k d := by
  induction vs with
  | nil => intro c a k _ hk; exact absurd hk (Nat.not_lt_zero k)
  | cons v vs ih =>
    intro c a k h hk
    have hw := Cells.wf_set d c a v h
    cases k with
    | zero =>
      rw [Cells.write, Cells.get_write_ne d vs (a + 0) _ _ hw (by omega), Cells.get_set d c a _ v h,
        if_pos (by omega)]
      rfl
    | succ k =>
      have h2 : a + (k + 1) = (a + 1) + k := by omega
      rw [Cells.write, h2, ih _ _ k hw (by simpa using hk)]
      rfl

/-- A written run reads back as it was written. -/
theorem Cells.read_write {β : Type} [DecidableEq β] (d : β) (c : Cells β) (a : Nat) (vs : List β)
    (h : Cells.wf d c = true) : Cells.read d (Cells.write d c a vs) a vs.length = vs := by
  apply List.ext_getElem (by simp [Cells.read])
  intro k h1 h2
  simp only [Cells.read, List.getElem_map, List.getElem_range]
  rw [Cells.get_write d vs c a k h h2, List.getD_eq_getElem?_getD, List.getElem?_eq_getElem h2, Option.getD_some]

end Sys2Proof
end

