-- ==== Sys2Proof/Laws/State.lean ====
section
/-! SUPPORT. One lemma per field per named update of the state, each true by rfl, and what a read of
one numbered part finds after a write of another. -/
namespace Sys2Proof.Machine

open Sys2Proof

/-! ## Fields that a named update leaves -/

@[simp] theorem State.setCore_ident (s : State) (i : Nat) (c : Core) : (s.setCore i c).ident = s.ident := rfl
@[simp] theorem State.setCore_tcb (s : State) (i : Nat) (c : Core) : (s.setCore i c).tcb = s.tcb := rfl
@[simp] theorem State.setCore_fs (s : State) (i : Nat) (c : Core) : (s.setCore i c).fs = s.fs := rfl
@[simp] theorem State.setCore_tel (s : State) (i : Nat) (c : Core) : (s.setCore i c).tel = s.tel := rfl
@[simp] theorem State.setCore_ports (s : State) (i : Nat) (c : Core) : (s.setCore i c).ports = s.ports := rfl
@[simp] theorem State.setCore_ctxs (s : State) (i : Nat) (c : Core) : (s.setCore i c).ctxs = s.ctxs := rfl
@[simp] theorem State.setCore_fns (s : State) (i : Nat) (c : Core) : (s.setCore i c).fns = s.fns := rfl
@[simp] theorem State.setCore_link (s : State) (i : Nat) (c : Core) : (s.setCore i c).link = s.link := rfl
@[simp] theorem State.setCore_ep (s : State) (i : Nat) (c : Core) : (s.setCore i c).ep = s.ep := rfl
@[simp] theorem State.setCore_mg (s : State) (i : Nat) (c : Core) : (s.setCore i c).mg = s.mg := rfl
@[simp] theorem State.setCore_sec (s : State) (i : Nat) (c : Core) : (s.setCore i c).sec = s.sec := rfl
@[simp] theorem State.setCore_mon (s : State) (i : Nat) (c : Core) : (s.setCore i c).mon = s.mon := rfl
@[simp] theorem State.setCore_smb (s : State) (i : Nat) (c : Core) : (s.setCore i c).smb = s.smb := rfl
@[simp] theorem State.setCore_lines (s : State) (i : Nat) (c : Core) : (s.setCore i c).lines = s.lines := rfl
@[simp] theorem State.setCore_free (s : State) (i : Nat) (c : Core) : (s.setCore i c).free = s.free := rfl
@[simp] theorem State.setCore_pending (s : State) (i : Nat) (c : Core) : (s.setCore i c).pending = s.pending := rfl

@[simp] theorem State.modCore_ident (s : State) (i : Nat) (f : Core → Core) : (s.modCore i f).ident = s.ident := rfl
@[simp] theorem State.modCore_tcb (s : State) (i : Nat) (f : Core → Core) : (s.modCore i f).tcb = s.tcb := rfl
@[simp] theorem State.modCore_fs (s : State) (i : Nat) (f : Core → Core) : (s.modCore i f).fs = s.fs := rfl
@[simp] theorem State.modCore_tel (s : State) (i : Nat) (f : Core → Core) : (s.modCore i f).tel = s.tel := rfl
@[simp] theorem State.modCore_ports (s : State) (i : Nat) (f : Core → Core) : (s.modCore i f).ports = s.ports := rfl
@[simp] theorem State.modCore_ctxs (s : State) (i : Nat) (f : Core → Core) : (s.modCore i f).ctxs = s.ctxs := rfl
@[simp] theorem State.modCore_fns (s : State) (i : Nat) (f : Core → Core) : (s.modCore i f).fns = s.fns := rfl
@[simp] theorem State.modCore_link (s : State) (i : Nat) (f : Core → Core) : (s.modCore i f).link = s.link := rfl
@[simp] theorem State.modCore_ep (s : State) (i : Nat) (f : Core → Core) : (s.modCore i f).ep = s.ep := rfl
@[simp] theorem State.modCore_mg (s : State) (i : Nat) (f : Core → Core) : (s.modCore i f).mg = s.mg := rfl
@[simp] theorem State.modCore_sec (s : State) (i : Nat) (f : Core → Core) : (s.modCore i f).sec = s.sec := rfl
@[simp] theorem State.modCore_mon (s : State) (i : Nat) (f : Core → Core) : (s.modCore i f).mon = s.mon := rfl
@[simp] theorem State.modCore_smb (s : State) (i : Nat) (f : Core → Core) : (s.modCore i f).smb = s.smb := rfl
@[simp] theorem State.modCore_lines (s : State) (i : Nat) (f : Core → Core) : (s.modCore i f).lines = s.lines := rfl
@[simp] theorem State.modCore_free (s : State) (i : Nat) (f : Core → Core) : (s.modCore i f).free = s.free := rfl
@[simp] theorem State.modCore_pending (s : State) (i : Nat) (f : Core → Core) : (s.modCore i f).pending = s.pending := rfl

@[simp] theorem State.modCores_ident (s : State) (ks : List Nat) (f : Nat → Core → Core) : (s.modCores ks f).ident = s.ident := rfl
@[simp] theorem State.modCores_tcb (s : State) (ks : List Nat) (f : Nat → Core → Core) : (s.modCores ks f).tcb = s.tcb := rfl
@[simp] theorem State.modCores_fs (s : State) (ks : List Nat) (f : Nat → Core → Core) : (s.modCores ks f).fs = s.fs := rfl
@[simp] theorem State.modCores_tel (s : State) (ks : List Nat) (f : Nat → Core → Core) : (s.modCores ks f).tel = s.tel := rfl
@[simp] theorem State.modCores_ports (s : State) (ks : List Nat) (f : Nat → Core → Core) : (s.modCores ks f).ports = s.ports := rfl
@[simp] theorem State.modCores_ctxs (s : State) (ks : List Nat) (f : Nat → Core → Core) : (s.modCores ks f).ctxs = s.ctxs := rfl
@[simp] theorem State.modCores_fns (s : State) (ks : List Nat) (f : Nat → Core → Core) : (s.modCores ks f).fns = s.fns := rfl
@[simp] theorem State.modCores_link (s : State) (ks : List Nat) (f : Nat → Core → Core) : (s.modCores ks f).link = s.link := rfl
@[simp] theorem State.modCores_ep (s : State) (ks : List Nat) (f : Nat → Core → Core) : (s.modCores ks f).ep = s.ep := rfl
@[simp] theorem State.modCores_mg (s : State) (ks : List Nat) (f : Nat → Core → Core) : (s.modCores ks f).mg = s.mg := rfl
@[simp] theorem State.modCores_sec (s : State) (ks : List Nat) (f : Nat → Core → Core) : (s.modCores ks f).sec = s.sec := rfl
@[simp] theorem State.modCores_mon (s : State) (ks : List Nat) (f : Nat → Core → Core) : (s.modCores ks f).mon = s.mon := rfl
@[simp] theorem State.modCores_smb (s : State) (ks : List Nat) (f : Nat → Core → Core) : (s.modCores ks f).smb = s.smb := rfl
@[simp] theorem State.modCores_lines (s : State) (ks : List Nat) (f : Nat → Core → Core) : (s.modCores ks f).lines = s.lines := rfl
@[simp] theorem State.modCores_free (s : State) (ks : List Nat) (f : Nat → Core → Core) : (s.modCores ks f).free = s.free := rfl
@[simp] theorem State.modCores_pending (s : State) (ks : List Nat) (f : Nat → Core → Core) : (s.modCores ks f).pending = s.pending := rfl

@[simp] theorem State.mapOwned_ident (s : State) (c : Nat) (f : Nat → Core → Core) : (s.mapOwned c f).ident = s.ident := rfl
@[simp] theorem State.mapOwned_tcb (s : State) (c : Nat) (f : Nat → Core → Core) : (s.mapOwned c f).tcb = s.tcb := rfl
@[simp] theorem State.mapOwned_fs (s : State) (c : Nat) (f : Nat → Core → Core) : (s.mapOwned c f).fs = s.fs := rfl
@[simp] theorem State.mapOwned_tel (s : State) (c : Nat) (f : Nat → Core → Core) : (s.mapOwned c f).tel = s.tel := rfl
@[simp] theorem State.mapOwned_ports (s : State) (c : Nat) (f : Nat → Core → Core) : (s.mapOwned c f).ports = s.ports := rfl
@[simp] theorem State.mapOwned_ctxs (s : State) (c : Nat) (f : Nat → Core → Core) : (s.mapOwned c f).ctxs = s.ctxs := rfl
@[simp] theorem State.mapOwned_fns (s : State) (c : Nat) (f : Nat → Core → Core) : (s.mapOwned c f).fns = s.fns := rfl
@[simp] theorem State.mapOwned_link (s : State) (c : Nat) (f : Nat → Core → Core) : (s.mapOwned c f).link = s.link := rfl
@[simp] theorem State.mapOwned_ep (s : State) (c : Nat) (f : Nat → Core → Core) : (s.mapOwned c f).ep = s.ep := rfl
@[simp] theorem State.mapOwned_mg (s : State) (c : Nat) (f : Nat → Core → Core) : (s.mapOwned c f).mg = s.mg := rfl
@[simp] theorem State.mapOwned_sec (s : State) (c : Nat) (f : Nat → Core → Core) : (s.mapOwned c f).sec = s.sec := rfl
@[simp] theorem State.mapOwned_mon (s : State) (c : Nat) (f : Nat → Core → Core) : (s.mapOwned c f).mon = s.mon := rfl
@[simp] theorem State.mapOwned_smb (s : State) (c : Nat) (f : Nat → Core → Core) : (s.mapOwned c f).smb = s.smb := rfl
@[simp] theorem State.mapOwned_lines (s : State) (c : Nat) (f : Nat → Core → Core) : (s.mapOwned c f).lines = s.lines := rfl
@[simp] theorem State.mapOwned_free (s : State) (c : Nat) (f : Nat → Core → Core) : (s.mapOwned c f).free = s.free := rfl
@[simp] theorem State.mapOwned_pending (s : State) (c : Nat) (f : Nat → Core → Core) : (s.mapOwned c f).pending = s.pending := rfl

@[simp] theorem State.setPort_ident (s : State) (p : Nat) (q : StackPort) : (s.setPort p q).ident = s.ident := rfl
@[simp] theorem State.setPort_tcb (s : State) (p : Nat) (q : StackPort) : (s.setPort p q).tcb = s.tcb := rfl
@[simp] theorem State.setPort_fs (s : State) (p : Nat) (q : StackPort) : (s.setPort p q).fs = s.fs := rfl
@[simp] theorem State.setPort_tel (s : State) (p : Nat) (q : StackPort) : (s.setPort p q).tel = s.tel := rfl
@[simp] theorem State.setPort_panel (s : State) (p : Nat) (q : StackPort) : (s.setPort p q).panel = s.panel := rfl
@[simp] theorem State.setPort_ctxs (s : State) (p : Nat) (q : StackPort) : (s.setPort p q).ctxs = s.ctxs := rfl
@[simp] theorem State.setPort_fns (s : State) (p : Nat) (q : StackPort) : (s.setPort p q).fns = s.fns := rfl
@[simp] theorem State.setPort_link (s : State) (p : Nat) (q : StackPort) : (s.setPort p q).link = s.link := rfl
@[simp] theorem State.setPort_ep (s : State) (p : Nat) (q : StackPort) : (s.setPort p q).ep = s.ep := rfl
@[simp] theorem State.setPort_mg (s : State) (p : Nat) (q : StackPort) : (s.setPort p q).mg = s.mg := rfl
@[simp] theorem State.setPort_sec (s : State) (p : Nat) (q : StackPort) : (s.setPort p q).sec = s.sec := rfl
@[simp] theorem State.setPort_mon (s : State) (p : Nat) (q : StackPort) : (s.setPort p q).mon = s.mon := rfl
@[simp] theorem State.setPort_smb (s : State) (p : Nat) (q : StackPort) : (s.setPort p q).smb = s.smb := rfl
@[simp] theorem State.setPort_lines (s : State) (p : Nat) (q : StackPort) : (s.setPort p q).lines = s.lines := rfl
@[simp] theorem State.setPort_free (s : State) (p : Nat) (q : StackPort) : (s.setPort p q).free = s.free := rfl
@[simp] theorem State.setPort_pending (s : State) (p : Nat) (q : StackPort) : (s.setPort p q).pending = s.pending := rfl

@[simp] theorem State.modPort_ident (s : State) (p : Nat) (f : StackPort → StackPort) : (s.modPort p f).ident = s.ident := rfl
@[simp] theorem State.modPort_tcb (s : State) (p : Nat) (f : StackPort → StackPort) : (s.modPort p f).tcb = s.tcb := rfl
@[simp] theorem State.modPort_fs (s : State) (p : Nat) (f : StackPort → StackPort) : (s.modPort p f).fs = s.fs := rfl
@[simp] theorem State.modPort_tel (s : State) (p : Nat) (f : StackPort → StackPort) : (s.modPort p f).tel = s.tel := rfl
@[simp] theorem State.modPort_panel (s : State) (p : Nat) (f : StackPort → StackPort) : (s.modPort p f).panel = s.panel := rfl
@[simp] theorem State.modPort_ctxs (s : State) (p : Nat) (f : StackPort → StackPort) : (s.modPort p f).ctxs = s.ctxs := rfl
@[simp] theorem State.modPort_fns (s : State) (p : Nat) (f : StackPort → StackPort) : (s.modPort p f).fns = s.fns := rfl
@[simp] theorem State.modPort_link (s : State) (p : Nat) (f : StackPort → StackPort) : (s.modPort p f).link = s.link := rfl
@[simp] theorem State.modPort_ep (s : State) (p : Nat) (f : StackPort → StackPort) : (s.modPort p f).ep = s.ep := rfl
@[simp] theorem State.modPort_mg (s : State) (p : Nat) (f : StackPort → StackPort) : (s.modPort p f).mg = s.mg := rfl
@[simp] theorem State.modPort_sec (s : State) (p : Nat) (f : StackPort → StackPort) : (s.modPort p f).sec = s.sec := rfl
@[simp] theorem State.modPort_mon (s : State) (p : Nat) (f : StackPort → StackPort) : (s.modPort p f).mon = s.mon := rfl
@[simp] theorem State.modPort_smb (s : State) (p : Nat) (f : StackPort → StackPort) : (s.modPort p f).smb = s.smb := rfl
@[simp] theorem State.modPort_lines (s : State) (p : Nat) (f : StackPort → StackPort) : (s.modPort p f).lines = s.lines := rfl
@[simp] theorem State.modPort_free (s : State) (p : Nat) (f : StackPort → StackPort) : (s.modPort p f).free = s.free := rfl
@[simp] theorem State.modPort_pending (s : State) (p : Nat) (f : StackPort → StackPort) : (s.modPort p f).pending = s.pending := rfl

@[simp] theorem State.setCtx_ident (s : State) (c : Nat) (x : Context) : (s.setCtx c x).ident = s.ident := rfl
@[simp] theorem State.setCtx_tcb (s : State) (c : Nat) (x : Context) : (s.setCtx c x).tcb = s.tcb := rfl
@[simp] theorem State.setCtx_fs (s : State) (c : Nat) (x : Context) : (s.setCtx c x).fs = s.fs := rfl
@[simp] theorem State.setCtx_tel (s : State) (c : Nat) (x : Context) : (s.setCtx c x).tel = s.tel := rfl
@[simp] theorem State.setCtx_panel (s : State) (c : Nat) (x : Context) : (s.setCtx c x).panel = s.panel := rfl
@[simp] theorem State.setCtx_ports (s : State) (c : Nat) (x : Context) : (s.setCtx c x).ports = s.ports := rfl
@[simp] theorem State.setCtx_fns (s : State) (c : Nat) (x : Context) : (s.setCtx c x).fns = s.fns := rfl
@[simp] theorem State.setCtx_link (s : State) (c : Nat) (x : Context) : (s.setCtx c x).link = s.link := rfl
@[simp] theorem State.setCtx_ep (s : State) (c : Nat) (x : Context) : (s.setCtx c x).ep = s.ep := rfl
@[simp] theorem State.setCtx_mg (s : State) (c : Nat) (x : Context) : (s.setCtx c x).mg = s.mg := rfl
@[simp] theorem State.setCtx_sec (s : State) (c : Nat) (x : Context) : (s.setCtx c x).sec = s.sec := rfl
@[simp] theorem State.setCtx_mon (s : State) (c : Nat) (x : Context) : (s.setCtx c x).mon = s.mon := rfl
@[simp] theorem State.setCtx_smb (s : State) (c : Nat) (x : Context) : (s.setCtx c x).smb = s.smb := rfl
@[simp] theorem State.setCtx_lines (s : State) (c : Nat) (x : Context) : (s.setCtx c x).lines = s.lines := rfl
@[simp] theorem State.setCtx_free (s : State) (c : Nat) (x : Context) : (s.setCtx c x).free = s.free := rfl
@[simp] theorem State.setCtx_pending (s : State) (c : Nat) (x : Context) : (s.setCtx c x).pending = s.pending := rfl

@[simp] theorem State.modCtx_ident (s : State) (c : Nat) (f : Context → Context) : (s.modCtx c f).ident = s.ident := rfl
@[simp] theorem State.modCtx_tcb (s : State) (c : Nat) (f : Context → Context) : (s.modCtx c f).tcb = s.tcb := rfl
@[simp] theorem State.modCtx_fs (s : State) (c : Nat) (f : Context → Context) : (s.modCtx c f).fs = s.fs := rfl
@[simp] theorem State.modCtx_tel (s : State) (c : Nat) (f : Context → Context) : (s.modCtx c f).tel = s.tel := rfl
@[simp] theorem State.modCtx_panel (s : State) (c : Nat) (f : Context → Context) : (s.modCtx c f).panel = s.panel := rfl
@[simp] theorem State.modCtx_ports (s : State) (c : Nat) (f : Context → Context) : (s.modCtx c f).ports = s.ports := rfl
@[simp] theorem State.modCtx_fns (s : State) (c : Nat) (f : Context → Context) : (s.modCtx c f).fns = s.fns := rfl
@[simp] theorem State.modCtx_link (s : State) (c : Nat) (f : Context → Context) : (s.modCtx c f).link = s.link := rfl
@[simp] theorem State.modCtx_ep (s : State) (c : Nat) (f : Context → Context) : (s.modCtx c f).ep = s.ep := rfl
@[simp] theorem State.modCtx_mg (s : State) (c : Nat) (f : Context → Context) : (s.modCtx c f).mg = s.mg := rfl
@[simp] theorem State.modCtx_sec (s : State) (c : Nat) (f : Context → Context) : (s.modCtx c f).sec = s.sec := rfl
@[simp] theorem State.modCtx_mon (s : State) (c : Nat) (f : Context → Context) : (s.modCtx c f).mon = s.mon := rfl
@[simp] theorem State.modCtx_smb (s : State) (c : Nat) (f : Context → Context) : (s.modCtx c f).smb = s.smb := rfl
@[simp] theorem State.modCtx_lines (s : State) (c : Nat) (f : Context → Context) : (s.modCtx c f).lines = s.lines := rfl
@[simp] theorem State.modCtx_free (s : State) (c : Nat) (f : Context → Context) : (s.modCtx c f).free = s.free := rfl
@[simp] theorem State.modCtx_pending (s : State) (c : Nat) (f : Context → Context) : (s.modCtx c f).pending = s.pending := rfl

@[simp] theorem State.setFn_ident (s : State) (f : Nat) (x : HostFn) : (s.setFn f x).ident = s.ident := rfl
@[simp] theorem State.setFn_tcb (s : State) (f : Nat) (x : HostFn) : (s.setFn f x).tcb = s.tcb := rfl
@[simp] theorem State.setFn_fs (s : State) (f : Nat) (x : HostFn) : (s.setFn f x).fs = s.fs := rfl
@[simp] theorem State.setFn_tel (s : State) (f : Nat) (x : HostFn) : (s.setFn f x).tel = s.tel := rfl
@[simp] theorem State.setFn_panel (s : State) (f : Nat) (x : HostFn) : (s.setFn f x).panel = s.panel := rfl
@[simp] theorem State.setFn_ports (s : State) (f : Nat) (x : HostFn) : (s.setFn f x).ports = s.ports := rfl
@[simp] theorem State.setFn_ctxs (s : State) (f : Nat) (x : HostFn) : (s.setFn f x).ctxs = s.ctxs := rfl
@[simp] theorem State.setFn_link (s : State) (f : Nat) (x : HostFn) : (s.setFn f x).link = s.link := rfl
@[simp] theorem State.setFn_ep (s : State) (f : Nat) (x : HostFn) : (s.setFn f x).ep = s.ep := rfl
@[simp] theorem State.setFn_mg (s : State) (f : Nat) (x : HostFn) : (s.setFn f x).mg = s.mg := rfl
@[simp] theorem State.setFn_sec (s : State) (f : Nat) (x : HostFn) : (s.setFn f x).sec = s.sec := rfl
@[simp] theorem State.setFn_mon (s : State) (f : Nat) (x : HostFn) : (s.setFn f x).mon = s.mon := rfl
@[simp] theorem State.setFn_smb (s : State) (f : Nat) (x : HostFn) : (s.setFn f x).smb = s.smb := rfl
@[simp] theorem State.setFn_lines (s : State) (f : Nat) (x : HostFn) : (s.setFn f x).lines = s.lines := rfl
@[simp] theorem State.setFn_free (s : State) (f : Nat) (x : HostFn) : (s.setFn f x).free = s.free := rfl
@[simp] theorem State.setFn_pending (s : State) (f : Nat) (x : HostFn) : (s.setFn f x).pending = s.pending := rfl

@[simp] theorem State.modFn_ident (s : State) (f : Nat) (g : HostFn → HostFn) : (s.modFn f g).ident = s.ident := rfl
@[simp] theorem State.modFn_tcb (s : State) (f : Nat) (g : HostFn → HostFn) : (s.modFn f g).tcb = s.tcb := rfl
@[simp] theorem State.modFn_fs (s : State) (f : Nat) (g : HostFn → HostFn) : (s.modFn f g).fs = s.fs := rfl
@[simp] theorem State.modFn_tel (s : State) (f : Nat) (g : HostFn → HostFn) : (s.modFn f g).tel = s.tel := rfl
@[simp] theorem State.modFn_panel (s : State) (f : Nat) (g : HostFn → HostFn) : (s.modFn f g).panel = s.panel := rfl
@[simp] theorem State.modFn_ports (s : State) (f : Nat) (g : HostFn → HostFn) : (s.modFn f g).ports = s.ports := rfl
@[simp] theorem State.modFn_ctxs (s : State) (f : Nat) (g : HostFn → HostFn) : (s.modFn f g).ctxs = s.ctxs := rfl
@[simp] theorem State.modFn_link (s : State) (f : Nat) (g : HostFn → HostFn) : (s.modFn f g).link = s.link := rfl
@[simp] theorem State.modFn_ep (s : State) (f : Nat) (g : HostFn → HostFn) : (s.modFn f g).ep = s.ep := rfl
@[simp] theorem State.modFn_mg (s : State) (f : Nat) (g : HostFn → HostFn) : (s.modFn f g).mg = s.mg := rfl
@[simp] theorem State.modFn_sec (s : State) (f : Nat) (g : HostFn → HostFn) : (s.modFn f g).sec = s.sec := rfl
@[simp] theorem State.modFn_mon (s : State) (f : Nat) (g : HostFn → HostFn) : (s.modFn f g).mon = s.mon := rfl
@[simp] theorem State.modFn_smb (s : State) (f : Nat) (g : HostFn → HostFn) : (s.modFn f g).smb = s.smb := rfl
@[simp] theorem State.modFn_lines (s : State) (f : Nat) (g : HostFn → HostFn) : (s.modFn f g).lines = s.lines := rfl
@[simp] theorem State.modFn_free (s : State) (f : Nat) (g : HostFn → HostFn) : (s.modFn f g).free = s.free := rfl
@[simp] theorem State.modFn_pending (s : State) (f : Nat) (g : HostFn → HostFn) : (s.modFn f g).pending = s.pending := rfl

@[simp] theorem State.setEpPort_ident (s : State) (p : Nat) (x : EpPort) : (s.setEpPort p x).ident = s.ident := rfl
@[simp] theorem State.setEpPort_tcb (s : State) (p : Nat) (x : EpPort) : (s.setEpPort p x).tcb = s.tcb := rfl
@[simp] theorem State.setEpPort_fs (s : State) (p : Nat) (x : EpPort) : (s.setEpPort p x).fs = s.fs := rfl
@[simp] theorem State.setEpPort_tel (s : State) (p : Nat) (x : EpPort) : (s.setEpPort p x).tel = s.tel := rfl
@[simp] theorem State.setEpPort_panel (s : State) (p : Nat) (x : EpPort) : (s.setEpPort p x).panel = s.panel := rfl
@[simp] theorem State.setEpPort_ports (s : State) (p : Nat) (x : EpPort) : (s.setEpPort p x).ports = s.ports := rfl
@[simp] theorem State.setEpPort_ctxs (s : State) (p : Nat) (x : EpPort) : (s.setEpPort p x).ctxs = s.ctxs := rfl
@[simp] theorem State.setEpPort_fns (s : State) (p : Nat) (x : EpPort) : (s.setEpPort p x).fns = s.fns := rfl
@[simp] theorem State.setEpPort_link (s : State) (p : Nat) (x : EpPort) : (s.setEpPort p x).link = s.link := rfl
@[simp] theorem State.setEpPort_mg (s : State) (p : Nat) (x : EpPort) : (s.setEpPort p x).mg = s.mg := rfl
@[simp] theorem State.setEpPort_sec (s : State) (p : Nat) (x : EpPort) : (s.setEpPort p x).sec = s.sec := rfl
@[simp] theorem State.setEpPort_mon (s : State) (p : Nat) (x : EpPort) : (s.setEpPort p x).mon = s.mon := rfl
@[simp] theorem State.setEpPort_smb (s : State) (p : Nat) (x : EpPort) : (s.setEpPort p x).smb = s.smb := rfl
@[simp] theorem State.setEpPort_lines (s : State) (p : Nat) (x : EpPort) : (s.setEpPort p x).lines = s.lines := rfl
@[simp] theorem State.setEpPort_free (s : State) (p : Nat) (x : EpPort) : (s.setEpPort p x).free = s.free := rfl
@[simp] theorem State.setEpPort_pending (s : State) (p : Nat) (x : EpPort) : (s.setEpPort p x).pending = s.pending := rfl

@[simp] theorem State.modEpPort_ident (s : State) (p : Nat) (g : EpPort → EpPort) : (s.modEpPort p g).ident = s.ident := rfl
@[simp] theorem State.modEpPort_tcb (s : State) (p : Nat) (g : EpPort → EpPort) : (s.modEpPort p g).tcb = s.tcb := rfl
@[simp] theorem State.modEpPort_fs (s : State) (p : Nat) (g : EpPort → EpPort) : (s.modEpPort p g).fs = s.fs := rfl
@[simp] theorem State.modEpPort_tel (s : State) (p : Nat) (g : EpPort → EpPort) : (s.modEpPort p g).tel = s.tel := rfl
@[simp] theorem State.modEpPort_panel (s : State) (p : Nat) (g : EpPort → EpPort) : (s.modEpPort p g).panel = s.panel := rfl
@[simp] theorem State.modEpPort_ports (s : State) (p : Nat) (g : EpPort → EpPort) : (s.modEpPort p g).ports = s.ports := rfl
@[simp] theorem State.modEpPort_ctxs (s : State) (p : Nat) (g : EpPort → EpPort) : (s.modEpPort p g).ctxs = s.ctxs := rfl
@[simp] theorem State.modEpPort_fns (s : State) (p : Nat) (g : EpPort → EpPort) : (s.modEpPort p g).fns = s.fns := rfl
@[simp] theorem State.modEpPort_link (s : State) (p : Nat) (g : EpPort → EpPort) : (s.modEpPort p g).link = s.link := rfl
@[simp] theorem State.modEpPort_mg (s : State) (p : Nat) (g : EpPort → EpPort) : (s.modEpPort p g).mg = s.mg := rfl
@[simp] theorem State.modEpPort_sec (s : State) (p : Nat) (g : EpPort → EpPort) : (s.modEpPort p g).sec = s.sec := rfl
@[simp] theorem State.modEpPort_mon (s : State) (p : Nat) (g : EpPort → EpPort) : (s.modEpPort p g).mon = s.mon := rfl
@[simp] theorem State.modEpPort_smb (s : State) (p : Nat) (g : EpPort → EpPort) : (s.modEpPort p g).smb = s.smb := rfl
@[simp] theorem State.modEpPort_lines (s : State) (p : Nat) (g : EpPort → EpPort) : (s.modEpPort p g).lines = s.lines := rfl
@[simp] theorem State.modEpPort_free (s : State) (p : Nat) (g : EpPort → EpPort) : (s.modEpPort p g).free = s.free := rfl
@[simp] theorem State.modEpPort_pending (s : State) (p : Nat) (g : EpPort → EpPort) : (s.modEpPort p g).pending = s.pending := rfl

@[simp] theorem State.setJob_ident (s : State) (j : Nat) (x : Job) : (s.setJob j x).ident = s.ident := rfl
@[simp] theorem State.setJob_tcb (s : State) (j : Nat) (x : Job) : (s.setJob j x).tcb = s.tcb := rfl
@[simp] theorem State.setJob_fs (s : State) (j : Nat) (x : Job) : (s.setJob j x).fs = s.fs := rfl
@[simp] theorem State.setJob_tel (s : State) (j : Nat) (x : Job) : (s.setJob j x).tel = s.tel := rfl
@[simp] theorem State.setJob_panel (s : State) (j : Nat) (x : Job) : (s.setJob j x).panel = s.panel := rfl
@[simp] theorem State.setJob_ports (s : State) (j : Nat) (x : Job) : (s.setJob j x).ports = s.ports := rfl
@[simp] theorem State.setJob_ctxs (s : State) (j : Nat) (x : Job) : (s.setJob j x).ctxs = s.ctxs := rfl
@[simp] theorem State.setJob_fns (s : State) (j : Nat) (x : Job) : (s.setJob j x).fns = s.fns := rfl
@[simp] theorem State.setJob_link (s : State) (j : Nat) (x : Job) : (s.setJob j x).link = s.link := rfl
@[simp] theorem State.setJob_mg (s : State) (j : Nat) (x : Job) : (s.setJob j x).mg = s.mg := rfl
@[simp] theorem State.setJob_sec (s : State) (j : Nat) (x : Job) : (s.setJob j x).sec = s.sec := rfl
@[simp] theorem State.setJob_mon (s : State) (j : Nat) (x : Job) : (s.setJob j x).mon = s.mon := rfl
@[simp] theorem State.setJob_smb (s : State) (j : Nat) (x : Job) : (s.setJob j x).smb = s.smb := rfl
@[simp] theorem State.setJob_lines (s : State) (j : Nat) (x : Job) : (s.setJob j x).lines = s.lines := rfl
@[simp] theorem State.setJob_free (s : State) (j : Nat) (x : Job) : (s.setJob j x).free = s.free := rfl
@[simp] theorem State.setJob_pending (s : State) (j : Nat) (x : Job) : (s.setJob j x).pending = s.pending := rfl

@[simp] theorem State.setEx_ident (s : State) (e : Option Exchange) : (s.setEx e).ident = s.ident := rfl
@[simp] theorem State.setEx_tcb (s : State) (e : Option Exchange) : (s.setEx e).tcb = s.tcb := rfl
@[simp] theorem State.setEx_fs (s : State) (e : Option Exchange) : (s.setEx e).fs = s.fs := rfl
@[simp] theorem State.setEx_tel (s : State) (e : Option Exchange) : (s.setEx e).tel = s.tel := rfl
@[simp] theorem State.setEx_panel (s : State) (e : Option Exchange) : (s.setEx e).panel = s.panel := rfl
@[simp] theorem State.setEx_ports (s : State) (e : Option Exchange) : (s.setEx e).ports = s.ports := rfl
@[simp] theorem State.setEx_ctxs (s : State) (e : Option Exchange) : (s.setEx e).ctxs = s.ctxs := rfl
@[simp] theorem State.setEx_fns (s : State) (e : Option Exchange) : (s.setEx e).fns = s.fns := rfl
@[simp] theorem State.setEx_link (s : State) (e : Option Exchange) : (s.setEx e).link = s.link := rfl
@[simp] theorem State.setEx_mg (s : State) (e : Option Exchange) : (s.setEx e).mg = s.mg := rfl
@[simp] theorem State.setEx_sec (s : State) (e : Option Exchange) : (s.setEx e).sec = s.sec := rfl
@[simp] theorem State.setEx_mon (s : State) (e : Option Exchange) : (s.setEx e).mon = s.mon := rfl
@[simp] theorem State.setEx_smb (s : State) (e : Option Exchange) : (s.setEx e).smb = s.smb := rfl
@[simp] theorem State.setEx_lines (s : State) (e : Option Exchange) : (s.setEx e).lines = s.lines := rfl
@[simp] theorem State.setEx_free (s : State) (e : Option Exchange) : (s.setEx e).free = s.free := rfl
@[simp] theorem State.setEx_pending (s : State) (e : Option Exchange) : (s.setEx e).pending = s.pending := rfl

@[simp] theorem State.ctl_ident (s : State) (m : CtlMsg) : (s.ctl m).ident = s.ident := rfl
@[simp] theorem State.ctl_tcb (s : State) (m : CtlMsg) : (s.ctl m).tcb = s.tcb := rfl
@[simp] theorem State.ctl_fs (s : State) (m : CtlMsg) : (s.ctl m).fs = s.fs := rfl
@[simp] theorem State.ctl_tel (s : State) (m : CtlMsg) : (s.ctl m).tel = s.tel := rfl
@[simp] theorem State.ctl_panel (s : State) (m : CtlMsg) : (s.ctl m).panel = s.panel := rfl
@[simp] theorem State.ctl_ports (s : State) (m : CtlMsg) : (s.ctl m).ports = s.ports := rfl
@[simp] theorem State.ctl_ctxs (s : State) (m : CtlMsg) : (s.ctl m).ctxs = s.ctxs := rfl
@[simp] theorem State.ctl_fns (s : State) (m : CtlMsg) : (s.ctl m).fns = s.fns := rfl
@[simp] theorem State.ctl_link (s : State) (m : CtlMsg) : (s.ctl m).link = s.link := rfl
@[simp] theorem State.ctl_mg (s : State) (m : CtlMsg) : (s.ctl m).mg = s.mg := rfl
@[simp] theorem State.ctl_sec (s : State) (m : CtlMsg) : (s.ctl m).sec = s.sec := rfl
@[simp] theorem State.ctl_mon (s : State) (m : CtlMsg) : (s.ctl m).mon = s.mon := rfl
@[simp] theorem State.ctl_smb (s : State) (m : CtlMsg) : (s.ctl m).smb = s.smb := rfl
@[simp] theorem State.ctl_lines (s : State) (m : CtlMsg) : (s.ctl m).lines = s.lines := rfl
@[simp] theorem State.ctl_free (s : State) (m : CtlMsg) : (s.ctl m).free = s.free := rfl
@[simp] theorem State.ctl_pending (s : State) (m : CtlMsg) : (s.ctl m).pending = s.pending := rfl

@[simp] theorem State.hostWrite_ident (s : State) (a : Nat) (bs : List Byte) : (s.hostWrite a bs).ident = s.ident := rfl
@[simp] theorem State.hostWrite_tcb (s : State) (a : Nat) (bs : List Byte) : (s.hostWrite a bs).tcb = s.tcb := rfl
@[simp] theorem State.hostWrite_fs (s : State) (a : Nat) (bs : List Byte) : (s.hostWrite a bs).fs = s.fs := rfl
@[simp] theorem State.hostWrite_tel (s : State) (a : Nat) (bs : List Byte) : (s.hostWrite a bs).tel = s.tel := rfl
@[simp] theorem State.hostWrite_panel (s : State) (a : Nat) (bs : List Byte) : (s.hostWrite a bs).panel = s.panel := rfl
@[simp] theorem State.hostWrite_ports (s : State) (a : Nat) (bs : List Byte) : (s.hostWrite a bs).ports = s.ports := rfl
@[simp] theorem State.hostWrite_ctxs (s : State) (a : Nat) (bs : List Byte) : (s.hostWrite a bs).ctxs = s.ctxs := rfl
@[simp] theorem State.hostWrite_fns (s : State) (a : Nat) (bs : List Byte) : (s.hostWrite a bs).fns = s.fns := rfl
@[simp] theorem State.hostWrite_ep (s : State) (a : Nat) (bs : List Byte) : (s.hostWrite a bs).ep = s.ep := rfl
@[simp] theorem State.hostWrite_mg (s : State) (a : Nat) (bs : List Byte) : (s.hostWrite a bs).mg = s.mg := rfl
@[simp] theorem State.hostWrite_sec (s : State) (a : Nat) (bs : List Byte) : (s.hostWrite a bs).sec = s.sec := rfl
@[simp] theorem State.hostWrite_mon (s : State) (a : Nat) (bs : List Byte) : (s.hostWrite a bs).mon = s.mon := rfl
@[simp] theorem State.hostWrite_smb (s : State) (a : Nat) (bs : List Byte) : (s.hostWrite a bs).smb = s.smb := rfl
@[simp] theorem State.hostWrite_lines (s : State) (a : Nat) (bs : List Byte) : (s.hostWrite a bs).lines = s.lines := rfl
@[simp] theorem State.hostWrite_free (s : State) (a : Nat) (bs : List Byte) : (s.hostWrite a bs).free = s.free := rfl
@[simp] theorem State.hostWrite_pending (s : State) (a : Nat) (bs : List Byte) : (s.hostWrite a bs).pending = s.pending := rfl

@[simp] theorem State.setMg_ident (s : State) (f : Mgmt → Mgmt) : (s.setMg f).ident = s.ident := rfl
@[simp] theorem State.setMg_tcb (s : State) (f : Mgmt → Mgmt) : (s.setMg f).tcb = s.tcb := rfl
@[simp] theorem State.setMg_fs (s : State) (f : Mgmt → Mgmt) : (s.setMg f).fs = s.fs := rfl
@[simp] theorem State.setMg_tel (s : State) (f : Mgmt → Mgmt) : (s.setMg f).tel = s.tel := rfl
@[simp] theorem State.setMg_panel (s : State) (f : Mgmt → Mgmt) : (s.setMg f).panel = s.panel := rfl
@[simp] theorem State.setMg_ports (s : State) (f : Mgmt → Mgmt) : (s.setMg f).ports = s.ports := rfl
@[simp] theorem State.setMg_ctxs (s : State) (f : Mgmt → Mgmt) : (s.setMg f).ctxs = s.ctxs := rfl
@[simp] theorem State.setMg_fns (s : State) (f : Mgmt → Mgmt) : (s.setMg f).fns = s.fns := rfl
@[simp] theorem State.setMg_link (s : State) (f : Mgmt → Mgmt) : (s.setMg f).link = s.link := rfl
@[simp] theorem State.setMg_ep (s : State) (f : Mgmt → Mgmt) : (s.setMg f).ep = s.ep := rfl
@[simp] theorem State.setMg_sec (s : State) (f : Mgmt → Mgmt) : (s.setMg f).sec = s.sec := rfl
@[simp] theorem State.setMg_mon (s : State) (f : Mgmt → Mgmt) : (s.setMg f).mon = s.mon := rfl
@[simp] theorem State.setMg_smb (s : State) (f : Mgmt → Mgmt) : (s.setMg f).smb = s.smb := rfl
@[simp] theorem State.setMg_lines (s : State) (f : Mgmt → Mgmt) : (s.setMg f).lines = s.lines := rfl
@[simp] theorem State.setMg_free (s : State) (f : Mgmt → Mgmt) : (s.setMg f).free = s.free := rfl
@[simp] theorem State.setMg_pending (s : State) (f : Mgmt → Mgmt) : (s.setMg f).pending = s.pending := rfl

@[simp] theorem State.setTcb_ident (s : State) (f : TimeBlock → TimeBlock) : (s.setTcb f).ident = s.ident := rfl
@[simp] theorem State.setTcb_fs (s : State) (f : TimeBlock → TimeBlock) : (s.setTcb f).fs = s.fs := rfl
@[simp] theorem State.setTcb_tel (s : State) (f : TimeBlock → TimeBlock) : (s.setTcb f).tel = s.tel := rfl
@[simp] theorem State.setTcb_panel (s : State) (f : TimeBlock → TimeBlock) : (s.setTcb f).panel = s.panel := rfl
@[simp] theorem State.setTcb_ports (s : State) (f : TimeBlock → TimeBlock) : (s.setTcb f).ports = s.ports := rfl
@[simp] theorem State.setTcb_ctxs (s : State) (f : TimeBlock → TimeBlock) : (s.setTcb f).ctxs = s.ctxs := rfl
@[simp] theorem State.setTcb_fns (s : State) (f : TimeBlock → TimeBlock) : (s.setTcb f).fns = s.fns := rfl
@[simp] theorem State.setTcb_link (s : State) (f : TimeBlock → TimeBlock) : (s.setTcb f).link = s.link := rfl
@[simp] theorem State.setTcb_ep (s : State) (f : TimeBlock → TimeBlock) : (s.setTcb f).ep = s.ep := rfl
@[simp] theorem State.setTcb_mg (s : State) (f : TimeBlock → TimeBlock) : (s.setTcb f).mg = s.mg := rfl
@[simp] theorem State.setTcb_sec (s : State) (f : TimeBlock → TimeBlock) : (s.setTcb f).sec = s.sec := rfl
@[simp] theorem State.setTcb_mon (s : State) (f : TimeBlock → TimeBlock) : (s.setTcb f).mon = s.mon := rfl
@[simp] theorem State.setTcb_smb (s : State) (f : TimeBlock → TimeBlock) : (s.setTcb f).smb = s.smb := rfl
@[simp] theorem State.setTcb_lines (s : State) (f : TimeBlock → TimeBlock) : (s.setTcb f).lines = s.lines := rfl
@[simp] theorem State.setTcb_free (s : State) (f : TimeBlock → TimeBlock) : (s.setTcb f).free = s.free := rfl
@[simp] theorem State.setTcb_pending (s : State) (f : TimeBlock → TimeBlock) : (s.setTcb f).pending = s.pending := rfl

@[simp] theorem State.setFs_ident (s : State) (f : FreqBlock → FreqBlock) : (s.setFs f).ident = s.ident := rfl
@[simp] theorem State.setFs_tcb (s : State) (f : FreqBlock → FreqBlock) : (s.setFs f).tcb = s.tcb := rfl
@[simp] theorem State.setFs_tel (s : State) (f : FreqBlock → FreqBlock) : (s.setFs f).tel = s.tel := rfl
@[simp] theorem State.setFs_panel (s : State) (f : FreqBlock → FreqBlock) : (s.setFs f).panel = s.panel := rfl
@[simp] theorem State.setFs_ports (s : State) (f : FreqBlock → FreqBlock) : (s.setFs f).ports = s.ports := rfl
@[simp] theorem State.setFs_ctxs (s : State) (f : FreqBlock → FreqBlock) : (s.setFs f).ctxs = s.ctxs := rfl
@[simp] theorem State.setFs_fns (s : State) (f : FreqBlock → FreqBlock) : (s.setFs f).fns = s.fns := rfl
@[simp] theorem State.setFs_link (s : State) (f : FreqBlock → FreqBlock) : (s.setFs f).link = s.link := rfl
@[simp] theorem State.setFs_ep (s : State) (f : FreqBlock → FreqBlock) : (s.setFs f).ep = s.ep := rfl
@[simp] theorem State.setFs_mg (s : State) (f : FreqBlock → FreqBlock) : (s.setFs f).mg = s.mg := rfl
@[simp] theorem State.setFs_sec (s : State) (f : FreqBlock → FreqBlock) : (s.setFs f).sec = s.sec := rfl
@[simp] theorem State.setFs_mon (s : State) (f : FreqBlock → FreqBlock) : (s.setFs f).mon = s.mon := rfl
@[simp] theorem State.setFs_smb (s : State) (f : FreqBlock → FreqBlock) : (s.setFs f).smb = s.smb := rfl
@[simp] theorem State.setFs_lines (s : State) (f : FreqBlock → FreqBlock) : (s.setFs f).lines = s.lines := rfl
@[simp] theorem State.setFs_free (s : State) (f : FreqBlock → FreqBlock) : (s.setFs f).free = s.free := rfl
@[simp] theorem State.setFs_pending (s : State) (f : FreqBlock → FreqBlock) : (s.setFs f).pending = s.pending := rfl

@[simp] theorem State.setSpdm_ident (s : State) (f : Spdm → Spdm) : (s.setSpdm f).ident = s.ident := rfl
@[simp] theorem State.setSpdm_tcb (s : State) (f : Spdm → Spdm) : (s.setSpdm f).tcb = s.tcb := rfl
@[simp] theorem State.setSpdm_fs (s : State) (f : Spdm → Spdm) : (s.setSpdm f).fs = s.fs := rfl
@[simp] theorem State.setSpdm_tel (s : State) (f : Spdm → Spdm) : (s.setSpdm f).tel = s.tel := rfl
@[simp] theorem State.setSpdm_panel (s : State) (f : Spdm → Spdm) : (s.setSpdm f).panel = s.panel := rfl
@[simp] theorem State.setSpdm_ports (s : State) (f : Spdm → Spdm) : (s.setSpdm f).ports = s.ports := rfl
@[simp] theorem State.setSpdm_ctxs (s : State) (f : Spdm → Spdm) : (s.setSpdm f).ctxs = s.ctxs := rfl
@[simp] theorem State.setSpdm_fns (s : State) (f : Spdm → Spdm) : (s.setSpdm f).fns = s.fns := rfl
@[simp] theorem State.setSpdm_link (s : State) (f : Spdm → Spdm) : (s.setSpdm f).link = s.link := rfl
@[simp] theorem State.setSpdm_ep (s : State) (f : Spdm → Spdm) : (s.setSpdm f).ep = s.ep := rfl
@[simp] theorem State.setSpdm_mg (s : State) (f : Spdm → Spdm) : (s.setSpdm f).mg = s.mg := rfl
@[simp] theorem State.setSpdm_mon (s : State) (f : Spdm → Spdm) : (s.setSpdm f).mon = s.mon := rfl
@[simp] theorem State.setSpdm_smb (s : State) (f : Spdm → Spdm) : (s.setSpdm f).smb = s.smb := rfl
@[simp] theorem State.setSpdm_lines (s : State) (f : Spdm → Spdm) : (s.setSpdm f).lines = s.lines := rfl
@[simp] theorem State.setSpdm_free (s : State) (f : Spdm → Spdm) : (s.setSpdm f).free = s.free := rfl
@[simp] theorem State.setSpdm_pending (s : State) (f : Spdm → Spdm) : (s.setSpdm f).pending = s.pending := rfl

@[simp] theorem State.setMon_ident (s : State) (f : Monitor → Monitor) : (s.setMon f).ident = s.ident := rfl
@[simp] theorem State.setMon_tcb (s : State) (f : Monitor → Monitor) : (s.setMon f).tcb = s.tcb := rfl
@[simp] theorem State.setMon_fs (s : State) (f : Monitor → Monitor) : (s.setMon f).fs = s.fs := rfl
@[simp] theorem State.setMon_tel (s : State) (f : Monitor → Monitor) : (s.setMon f).tel = s.tel := rfl
@[simp] theorem State.setMon_panel (s : State) (f : Monitor → Monitor) : (s.setMon f).panel = s.panel := rfl
@[simp] theorem State.setMon_ports (s : State) (f : Monitor → Monitor) : (s.setMon f).ports = s.ports := rfl
@[simp] theorem State.setMon_ctxs (s : State) (f : Monitor → Monitor) : (s.setMon f).ctxs = s.ctxs := rfl
@[simp] theorem State.setMon_fns (s : State) (f : Monitor → Monitor) : (s.setMon f).fns = s.fns := rfl
@[simp] theorem State.setMon_link (s : State) (f : Monitor → Monitor) : (s.setMon f).link = s.link := rfl
@[simp] theorem State.setMon_ep (s : State) (f : Monitor → Monitor) : (s.setMon f).ep = s.ep := rfl
@[simp] theorem State.setMon_mg (s : State) (f : Monitor → Monitor) : (s.setMon f).mg = s.mg := rfl
@[simp] theorem State.setMon_sec (s : State) (f : Monitor → Monitor) : (s.setMon f).sec = s.sec := rfl
@[simp] theorem State.setMon_smb (s : State) (f : Monitor → Monitor) : (s.setMon f).smb = s.smb := rfl
@[simp] theorem State.setMon_lines (s : State) (f : Monitor → Monitor) : (s.setMon f).lines = s.lines := rfl
@[simp] theorem State.setMon_free (s : State) (f : Monitor → Monitor) : (s.setMon f).free = s.free := rfl
@[simp] theorem State.setMon_pending (s : State) (f : Monitor → Monitor) : (s.setMon f).pending = s.pending := rfl

@[simp] theorem State.passTo_ident (s : State) (t : Nat) : (s.passTo t).ident = s.ident := rfl
@[simp] theorem State.passTo_tel (s : State) (t : Nat) : (s.passTo t).tel = s.tel := rfl
@[simp] theorem State.passTo_panel (s : State) (t : Nat) : (s.passTo t).panel = s.panel := rfl
@[simp] theorem State.passTo_ports (s : State) (t : Nat) : (s.passTo t).ports = s.ports := rfl
@[simp] theorem State.passTo_ctxs (s : State) (t : Nat) : (s.passTo t).ctxs = s.ctxs := rfl
@[simp] theorem State.passTo_fns (s : State) (t : Nat) : (s.passTo t).fns = s.fns := rfl
@[simp] theorem State.passTo_link (s : State) (t : Nat) : (s.passTo t).link = s.link := rfl
@[simp] theorem State.passTo_ep (s : State) (t : Nat) : (s.passTo t).ep = s.ep := rfl
@[simp] theorem State.passTo_mg (s : State) (t : Nat) : (s.passTo t).mg = s.mg := rfl
@[simp] theorem State.passTo_sec (s : State) (t : Nat) : (s.passTo t).sec = s.sec := rfl
@[simp] theorem State.passTo_mon (s : State) (t : Nat) : (s.passTo t).mon = s.mon := rfl
@[simp] theorem State.passTo_smb (s : State) (t : Nat) : (s.passTo t).smb = s.smb := rfl
@[simp] theorem State.passTo_lines (s : State) (t : Nat) : (s.passTo t).lines = s.lines := rfl
@[simp] theorem State.passTo_free (s : State) (t : Nat) : (s.passTo t).free = s.free := rfl
@[simp] theorem State.passTo_pending (s : State) (t : Nat) : (s.passTo t).pending = s.pending := rfl

@[simp] theorem State.dropDesc_ident (s : State) (d : Taken) : (s.dropDesc d).ident = s.ident := rfl
@[simp] theorem State.dropDesc_tcb (s : State) (d : Taken) : (s.dropDesc d).tcb = s.tcb := rfl
@[simp] theorem State.dropDesc_fs (s : State) (d : Taken) : (s.dropDesc d).fs = s.fs := rfl
@[simp] theorem State.dropDesc_tel (s : State) (d : Taken) : (s.dropDesc d).tel = s.tel := rfl
@[simp] theorem State.dropDesc_panel (s : State) (d : Taken) : (s.dropDesc d).panel = s.panel := rfl
@[simp] theorem State.dropDesc_ports (s : State) (d : Taken) : (s.dropDesc d).ports = s.ports := rfl
@[simp] theorem State.dropDesc_ctxs (s : State) (d : Taken) : (s.dropDesc d).ctxs = s.ctxs := rfl
@[simp] theorem State.dropDesc_link (s : State) (d : Taken) : (s.dropDesc d).link = s.link := rfl
@[simp] theorem State.dropDesc_ep (s : State) (d : Taken) : (s.dropDesc d).ep = s.ep := rfl
@[simp] theorem State.dropDesc_mg (s : State) (d : Taken) : (s.dropDesc d).mg = s.mg := rfl
@[simp] theorem State.dropDesc_sec (s : State) (d : Taken) : (s.dropDesc d).sec = s.sec := rfl
@[simp] theorem State.dropDesc_mon (s : State) (d : Taken) : (s.dropDesc d).mon = s.mon := rfl
@[simp] theorem State.dropDesc_smb (s : State) (d : Taken) : (s.dropDesc d).smb = s.smb := rfl
@[simp] theorem State.dropDesc_lines (s : State) (d : Taken) : (s.dropDesc d).lines = s.lines := rfl
@[simp] theorem State.dropDesc_free (s : State) (d : Taken) : (s.dropDesc d).free = s.free := rfl
@[simp] theorem State.dropDesc_pending (s : State) (d : Taken) : (s.dropDesc d).pending = s.pending := rfl

/-! ## Numbered parts -/

theorem State.core_setCore (s : State) (i j : Nat) (c : Core) :
    (s.setCore i c).core j = if i = j then c else s.core j := Table.get_put ..
@[simp] theorem State.core_setCore_self (s : State) (i : Nat) (c : Core) : (s.setCore i c).core i = c :=
  Table.get_put_self ..
theorem State.core_setCore_ne (s : State) {i j : Nat} (h : j ≠ i) (c : Core) :
    (s.setCore i c).core j = s.core j := Table.get_put_ne _ h ..
theorem State.port_setPort (s : State) (p r : Nat) (q : StackPort) :
    (s.setPort p q).port r = if p = r then q else s.port r := Table.get_put ..
@[simp] theorem State.port_setPort_self (s : State) (p : Nat) (q : StackPort) : (s.setPort p q).port p = q :=
  Table.get_put_self ..
theorem State.port_setPort_ne (s : State) {p r : Nat} (h : r ≠ p) (q : StackPort) :
    (s.setPort p q).port r = s.port r := Table.get_put_ne _ h ..
theorem State.ctx_setCtx (s : State) (c d : Nat) (x : Context) :
    (s.setCtx c x).ctx d = if c = d then x else s.ctx d := Table.get_put ..
@[simp] theorem State.ctx_setCtx_self (s : State) (c : Nat) (x : Context) : (s.setCtx c x).ctx c = x :=
  Table.get_put_self ..
theorem State.ctx_setCtx_ne (s : State) {c d : Nat} (h : d ≠ c) (x : Context) :
    (s.setCtx c x).ctx d = s.ctx d := Table.get_put_ne _ h ..
theorem State.fn_setFn (s : State) (f g : Nat) (x : HostFn) :
    (s.setFn f x).fn g = if f = g then x else s.fn g := Table.get_put ..
@[simp] theorem State.fn_setFn_self (s : State) (f : Nat) (x : HostFn) : (s.setFn f x).fn f = x :=
  Table.get_put_self ..
theorem State.fn_setFn_ne (s : State) {f g : Nat} (h : g ≠ f) (x : HostFn) :
    (s.setFn f x).fn g = s.fn g := Table.get_put_ne _ h ..
theorem State.epPort_setEpPort (s : State) (p q : Nat) (x : EpPort) :
    (s.setEpPort p x).epPort q = if p = q then x else s.epPort q := Table.get_put ..
@[simp] theorem State.epPort_setEpPort_self (s : State) (p : Nat) (x : EpPort) :
    (s.setEpPort p x).epPort p = x := Table.get_put_self ..
theorem State.job_setJob (s : State) (j k : Nat) (x : Job) :
    (s.setJob j x).job k = if j = k then x else s.job k := Table.get_put ..
@[simp] theorem State.job_setJob_self (s : State) (j : Nat) (x : Job) : (s.setJob j x).job j = x :=
  Table.get_put_self ..
@[simp] theorem State.ctx_modCtx_self (s : State) (c : Nat) (f : Context → Context) :
    (s.modCtx c f).ctx c = f (s.ctx c) := Table.get_put_self ..
theorem State.ctx_modCtx_ne (s : State) {c d : Nat} (h : d ≠ c) (f : Context → Context) :
    (s.modCtx c f).ctx d = s.ctx d := Table.get_put_ne _ h ..
@[simp] theorem State.core_modCore_self (s : State) (i : Nat) (f : Core → Core) :
    (s.modCore i f).core i = f (s.core i) := Table.get_put_self ..
@[simp] theorem State.port_modPort_self (s : State) (p : Nat) (f : StackPort → StackPort) :
    (s.modPort p f).port p = f (s.port p) := Table.get_put_self ..
@[simp] theorem State.fn_modFn_self (s : State) (f : Nat) (g : HostFn → HostFn) :
    (s.modFn f g).fn f = g (s.fn f) := Table.get_put_self ..

/-! ## A numbered part is read through its own field only -/

@[simp] theorem State.port_setCore (s : State) (i : Nat) (c : Core) (k_ : Nat) : (s.setCore i c).port k_ = s.port k_ := rfl
@[simp] theorem State.ctx_setCore (s : State) (i : Nat) (c : Core) (k_ : Nat) : (s.setCore i c).ctx k_ = s.ctx k_ := rfl
@[simp] theorem State.fn_setCore (s : State) (i : Nat) (c : Core) (k_ : Nat) : (s.setCore i c).fn k_ = s.fn k_ := rfl
@[simp] theorem State.epPort_setCore (s : State) (i : Nat) (c : Core) (k_ : Nat) : (s.setCore i c).epPort k_ = s.epPort k_ := rfl
@[simp] theorem State.job_setCore (s : State) (i : Nat) (c : Core) (k_ : Nat) : (s.setCore i c).job k_ = s.job k_ := rfl
@[simp] theorem State.port_modCore (s : State) (i : Nat) (f : Core → Core) (k_ : Nat) : (s.modCore i f).port k_ = s.port k_ := rfl
@[simp] theorem State.ctx_modCore (s : State) (i : Nat) (f : Core → Core) (k_ : Nat) : (s.modCore i f).ctx k_ = s.ctx k_ := rfl
@[simp] theorem State.fn_modCore (s : State) (i : Nat) (f : Core → Core) (k_ : Nat) : (s.modCore i f).fn k_ = s.fn k_ := rfl
@[simp] theorem State.epPort_modCore (s : State) (i : Nat) (f : Core → Core) (k_ : Nat) : (s.modCore i f).epPort k_ = s.epPort k_ := rfl
@[simp] theorem State.job_modCore (s : State) (i : Nat) (f : Core → Core) (k_ : Nat) : (s.modCore i f).job k_ = s.job k_ := rfl
@[simp] theorem State.port_modCores (s : State) (ks : List Nat) (f : Nat → Core → Core) (k_ : Nat) : (s.modCores ks f).port k_ = s.port k_ := rfl
@[simp] theorem State.ctx_modCores (s : State) (ks : List Nat) (f : Nat → Core → Core) (k_ : Nat) : (s.modCores ks f).ctx k_ = s.ctx k_ := rfl
@[simp] theorem State.fn_modCores (s : State) (ks : List Nat) (f : Nat → Core → Core) (k_ : Nat) : (s.modCores ks f).fn k_ = s.fn k_ := rfl
@[simp] theorem State.epPort_modCores (s : State) (ks : List Nat) (f : Nat → Core → Core) (k_ : Nat) : (s.modCores ks f).epPort k_ = s.epPort k_ := rfl
@[simp] theorem State.job_modCores (s : State) (ks : List Nat) (f : Nat → Core → Core) (k_ : Nat) : (s.modCores ks f).job k_ = s.job k_ := rfl
@[simp] theorem State.port_mapOwned (s : State) (c : Nat) (f : Nat → Core → Core) (k_ : Nat) : (s.mapOwned c f).port k_ = s.port k_ := rfl
@[simp] theorem State.ctx_mapOwned (s : State) (c : Nat) (f : Nat → Core → Core) (k_ : Nat) : (s.mapOwned c f).ctx k_ = s.ctx k_ := rfl
@[simp] theorem State.fn_mapOwned (s : State) (c : Nat) (f : Nat → Core → Core) (k_ : Nat) : (s.mapOwned c f).fn k_ = s.fn k_ := rfl
@[simp] theorem State.epPort_mapOwned (s : State) (c : Nat) (f : Nat → Core → Core) (k_ : Nat) : (s.mapOwned c f).epPort k_ = s.epPort k_ := rfl
@[simp] theorem State.job_mapOwned (s : State) (c : Nat) (f : Nat → Core → Core) (k_ : Nat) : (s.mapOwned c f).job k_ = s.job k_ := rfl
@[simp] theorem State.core_setPort (s : State) (p : Nat) (q : StackPort) (k_ : Nat) : (s.setPort p q).core k_ = s.core k_ := rfl
@[simp] theorem State.ctx_setPort (s : State) (p : Nat) (q : StackPort) (k_ : Nat) : (s.setPort p q).ctx k_ = s.ctx k_ := rfl
@[simp] theorem State.fn_setPort (s : State) (p : Nat) (q : StackPort) (k_ : Nat) : (s.setPort p q).fn k_ = s.fn k_ := rfl
@[simp] theorem State.epPort_setPort (s : State) (p : Nat) (q : StackPort) (k_ : Nat) : (s.setPort p q).epPort k_ = s.epPort k_ := rfl
@[simp] theorem State.job_setPort (s : State) (p : Nat) (q : StackPort) (k_ : Nat) : (s.setPort p q).job k_ = s.job k_ := rfl
@[simp] theorem State.core_modPort (s : State) (p : Nat) (f : StackPort → StackPort) (k_ : Nat) : (s.modPort p f).core k_ = s.core k_ := rfl
@[simp] theorem State.ctx_modPort (s : State) (p : Nat) (f : StackPort → StackPort) (k_ : Nat) : (s.modPort p f).ctx k_ = s.ctx k_ := rfl
@[simp] theorem State.fn_modPort (s : State) (p : Nat) (f : StackPort → StackPort) (k_ : Nat) : (s.modPort p f).fn k_ = s.fn k_ := rfl
@[simp] theorem State.epPort_modPort (s : State) (p : Nat) (f : StackPort → StackPort) (k_ : Nat) : (s.modPort p f).epPort k_ = s.epPort k_ := rfl
@[simp] theorem State.job_modPort (s : State) (p : Nat) (f : StackPort → StackPort) (k_ : Nat) : (s.modPort p f).job k_ = s.job k_ := rfl
@[simp] theorem State.core_setCtx (s : State) (c : Nat) (x : Context) (k_ : Nat) : (s.setCtx c x).core k_ = s.core k_ := rfl
@[simp] theorem State.port_setCtx (s : State) (c : Nat) (x : Context) (k_ : Nat) : (s.setCtx c x).port k_ = s.port k_ := rfl
@[simp] theorem State.fn_setCtx (s : State) (c : Nat) (x : Context) (k_ : Nat) : (s.setCtx c x).fn k_ = s.fn k_ := rfl
@[simp] theorem State.epPort_setCtx (s : State) (c : Nat) (x : Context) (k_ : Nat) : (s.setCtx c x).epPort k_ = s.epPort k_ := rfl
@[simp] theorem State.job_setCtx (s : State) (c : Nat) (x : Context) (k_ : Nat) : (s.setCtx c x).job k_ = s.job k_ := rfl
@[simp] theorem State.core_modCtx (s : State) (c : Nat) (f : Context → Context) (k_ : Nat) : (s.modCtx c f).core k_ = s.core k_ := rfl
@[simp] theorem State.port_modCtx (s : State) (c : Nat) (f : Context → Context) (k_ : Nat) : (s.modCtx c f).port k_ = s.port k_ := rfl
@[simp] theorem State.fn_modCtx (s : State) (c : Nat) (f : Context → Context) (k_ : Nat) : (s.modCtx c f).fn k_ = s.fn k_ := rfl
@[simp] theorem State.epPort_modCtx (s : State) (c : Nat) (f : Context → Context) (k_ : Nat) : (s.modCtx c f).epPort k_ = s.epPort k_ := rfl
@[simp] theorem State.job_modCtx (s : State) (c : Nat) (f : Context → Context) (k_ : Nat) : (s.modCtx c f).job k_ = s.job k_ := rfl
@[simp] theorem State.core_setFn (s : State) (f : Nat) (x : HostFn) (k_ : Nat) : (s.setFn f x).core k_ = s.core k_ := rfl
@[simp] theorem State.port_setFn (s : State) (f : Nat) (x : HostFn) (k_ : Nat) : (s.setFn f x).port k_ = s.port k_ := rfl
@[simp] theorem State.ctx_setFn (s : State) (f : Nat) (x : HostFn) (k_ : Nat) : (s.setFn f x).ctx k_ = s.ctx k_ := rfl
@[simp] theorem State.epPort_setFn (s : State) (f : Nat) (x : HostFn) (k_ : Nat) : (s.setFn f x).epPort k_ = s.epPort k_ := rfl
@[simp] theorem State.job_setFn (s : State) (f : Nat) (x : HostFn) (k_ : Nat) : (s.setFn f x).job k_ = s.job k_ := rfl
@[simp] theorem State.core_modFn (s : State) (f : Nat) (g : HostFn → HostFn) (k_ : Nat) : (s.modFn f g).core k_ = s.core k_ := rfl
@[simp] theorem State.port_modFn (s : State) (f : Nat) (g : HostFn → HostFn) (k_ : Nat) : (s.modFn f g).port k_ = s.port k_ := rfl
@[simp] theorem State.ctx_modFn (s : State) (f : Nat) (g : HostFn → HostFn) (k_ : Nat) : (s.modFn f g).ctx k_ = s.ctx k_ := rfl
@[simp] theorem State.epPort_modFn (s : State) (f : Nat) (g : HostFn → HostFn) (k_ : Nat) : (s.modFn f g).epPort k_ = s.epPort k_ := rfl
@[simp] theorem State.job_modFn (s : State) (f : Nat) (g : HostFn → HostFn) (k_ : Nat) : (s.modFn f g).job k_ = s.job k_ := rfl
@[simp] theorem State.core_setEpPort (s : State) (p : Nat) (x : EpPort) (k_ : Nat) : (s.setEpPort p x).core k_ = s.core k_ := rfl
@[simp] theorem State.port_setEpPort (s : State) (p : Nat) (x : EpPort) (k_ : Nat) : (s.setEpPort p x).port k_ = s.port k_ := rfl
@[simp] theorem State.ctx_setEpPort (s : State) (p : Nat) (x : EpPort) (k_ : Nat) : (s.setEpPort p x).ctx k_ = s.ctx k_ := rfl
@[simp] theorem State.fn_setEpPort (s : State) (p : Nat) (x : EpPort) (k_ : Nat) : (s.setEpPort p x).fn k_ = s.fn k_ := rfl
@[simp] theorem State.core_modEpPort (s : State) (p : Nat) (g : EpPort → EpPort) (k_ : Nat) : (s.modEpPort p g).core k_ = s.core k_ := rfl
@[simp] theorem State.port_modEpPort (s : State) (p : Nat) (g : EpPort → EpPort) (k_ : Nat) : (s.modEpPort p g).port k_ = s.port k_ := rfl
@[simp] theorem State.ctx_modEpPort (s : State) (p : Nat) (g : EpPort → EpPort) (k_ : Nat) : (s.modEpPort p g).ctx k_ = s.ctx k_ := rfl
@[simp] theorem State.fn_modEpPort (s : State) (p : Nat) (g : EpPort → EpPort) (k_ : Nat) : (s.modEpPort p g).fn k_ = s.fn k_ := rfl
@[simp] theorem State.core_setJob (s : State) (j : Nat) (x : Job) (k_ : Nat) : (s.setJob j x).core k_ = s.core k_ := rfl
@[simp] theorem State.port_setJob (s : State) (j : Nat) (x : Job) (k_ : Nat) : (s.setJob j x).port k_ = s.port k_ := rfl
@[simp] theorem State.ctx_setJob (s : State) (j : Nat) (x : Job) (k_ : Nat) : (s.setJob j x).ctx k_ = s.ctx k_ := rfl
@[simp] theorem State.fn_setJob (s : State) (j : Nat) (x : Job) (k_ : Nat) : (s.setJob j x).fn k_ = s.fn k_ := rfl
@[simp] theorem State.core_setEx (s : State) (e : Option Exchange) (k_ : Nat) : (s.setEx e).core k_ = s.core k_ := rfl
@[simp] theorem State.port_setEx (s : State) (e : Option Exchange) (k_ : Nat) : (s.setEx e).port k_ = s.port k_ := rfl
@[simp] theorem State.ctx_setEx (s : State) (e : Option Exchange) (k_ : Nat) : (s.setEx e).ctx k_ = s.ctx k_ := rfl
@[simp] theorem State.fn_setEx (s : State) (e : Option Exchange) (k_ : Nat) : (s.setEx e).fn k_ = s.fn k_ := rfl
@[simp] theorem State.core_ctl (s : State) (m : CtlMsg) (k_ : Nat) : (s.ctl m).core k_ = s.core k_ := rfl
@[simp] theorem State.port_ctl (s : State) (m : CtlMsg) (k_ : Nat) : (s.ctl m).port k_ = s.port k_ := rfl
@[simp] theorem State.ctx_ctl (s : State) (m : CtlMsg) (k_ : Nat) : (s.ctl m).ctx k_ = s.ctx k_ := rfl
@[simp] theorem State.fn_ctl (s : State) (m : CtlMsg) (k_ : Nat) : (s.ctl m).fn k_ = s.fn k_ := rfl
@[simp] theorem State.core_hostWrite (s : State) (a : Nat) (bs : List Byte) (k_ : Nat) : (s.hostWrite a bs).core k_ = s.core k_ := rfl
@[simp] theorem State.port_hostWrite (s : State) (a : Nat) (bs : List Byte) (k_ : Nat) : (s.hostWrite a bs).port k_ = s.port k_ := rfl
@[simp] theorem State.ctx_hostWrite (s : State) (a : Nat) (bs : List Byte) (k_ : Nat) : (s.hostWrite a bs).ctx k_ = s.ctx k_ := rfl
@[simp] theorem State.fn_hostWrite (s : State) (a : Nat) (bs : List Byte) (k_ : Nat) : (s.hostWrite a bs).fn k_ = s.fn k_ := rfl
@[simp] theorem State.epPort_hostWrite (s : State) (a : Nat) (bs : List Byte) (k_ : Nat) : (s.hostWrite a bs).epPort k_ = s.epPort k_ := rfl
@[simp] theorem State.job_hostWrite (s : State) (a : Nat) (bs : List Byte) (k_ : Nat) : (s.hostWrite a bs).job k_ = s.job k_ := rfl
@[simp] theorem State.core_setMg (s : State) (f : Mgmt → Mgmt) (k_ : Nat) : (s.setMg f).core k_ = s.core k_ := rfl
@[simp] theorem State.port_setMg (s : State) (f : Mgmt → Mgmt) (k_ : Nat) : (s.setMg f).port k_ = s.port k_ := rfl
@[simp] theorem State.ctx_setMg (s : State) (f : Mgmt → Mgmt) (k_ : Nat) : (s.setMg f).ctx k_ = s.ctx k_ := rfl
@[simp] theorem State.fn_setMg (s : State) (f : Mgmt → Mgmt) (k_ : Nat) : (s.setMg f).fn k_ = s.fn k_ := rfl
@[simp] theorem State.epPort_setMg (s : State) (f : Mgmt → Mgmt) (k_ : Nat) : (s.setMg f).epPort k_ = s.epPort k_ := rfl
@[simp] theorem State.job_setMg (s : State) (f : Mgmt → Mgmt) (k_ : Nat) : (s.setMg f).job k_ = s.job k_ := rfl
@[simp] theorem State.core_setTcb (s : State) (f : TimeBlock → TimeBlock) (k_ : Nat) : (s.setTcb f).core k_ = s.core k_ := rfl
@[simp] theorem State.port_setTcb (s : State) (f : TimeBlock → TimeBlock) (k_ : Nat) : (s.setTcb f).port k_ = s.port k_ := rfl
@[simp] theorem State.ctx_setTcb (s : State) (f : TimeBlock → TimeBlock) (k_ : Nat) : (s.setTcb f).ctx k_ = s.ctx k_ := rfl
@[simp] theorem State.fn_setTcb (s : State) (f : TimeBlock → TimeBlock) (k_ : Nat) : (s.setTcb f).fn k_ = s.fn k_ := rfl
@[simp] theorem State.epPort_setTcb (s : State) (f : TimeBlock → TimeBlock) (k_ : Nat) : (s.setTcb f).epPort k_ = s.epPort k_ := rfl
@[simp] theorem State.job_setTcb (s : State) (f : TimeBlock → TimeBlock) (k_ : Nat) : (s.setTcb f).job k_ = s.job k_ := rfl
@[simp] theorem State.core_setFs (s : State) (f : FreqBlock → FreqBlock) (k_ : Nat) : (s.setFs f).core k_ = s.core k_ := rfl
@[simp] theorem State.port_setFs (s : State) (f : FreqBlock → FreqBlock) (k_ : Nat) : (s.setFs f).port k_ = s.port k_ := rfl
@[simp] theorem State.ctx_setFs (s : State) (f : FreqBlock → FreqBlock) (k_ : Nat) : (s.setFs f).ctx k_ = s.ctx k_ := rfl
@[simp] theorem State.fn_setFs (s : State) (f : FreqBlock → FreqBlock) (k_ : Nat) : (s.setFs f).fn k_ = s.fn k_ := rfl
@[simp] theorem State.epPort_setFs (s : State) (f : FreqBlock → FreqBlock) (k_ : Nat) : (s.setFs f).epPort k_ = s.epPort k_ := rfl
@[simp] theorem State.job_setFs (s : State) (f : FreqBlock → FreqBlock) (k_ : Nat) : (s.setFs f).job k_ = s.job k_ := rfl
@[simp] theorem State.core_setSpdm (s : State) (f : Spdm → Spdm) (k_ : Nat) : (s.setSpdm f).core k_ = s.core k_ := rfl
@[simp] theorem State.port_setSpdm (s : State) (f : Spdm → Spdm) (k_ : Nat) : (s.setSpdm f).port k_ = s.port k_ := rfl
@[simp] theorem State.ctx_setSpdm (s : State) (f : Spdm → Spdm) (k_ : Nat) : (s.setSpdm f).ctx k_ = s.ctx k_ := rfl
@[simp] theorem State.fn_setSpdm (s : State) (f : Spdm → Spdm) (k_ : Nat) : (s.setSpdm f).fn k_ = s.fn k_ := rfl
@[simp] theorem State.epPort_setSpdm (s : State) (f : Spdm → Spdm) (k_ : Nat) : (s.setSpdm f).epPort k_ = s.epPort k_ := rfl
@[simp] theorem State.job_setSpdm (s : State) (f : Spdm → Spdm) (k_ : Nat) : (s.setSpdm f).job k_ = s.job k_ := rfl
@[simp] theorem State.core_setMon (s : State) (f : Monitor → Monitor) (k_ : Nat) : (s.setMon f).core k_ = s.core k_ := rfl
@[simp] theorem State.port_setMon (s : State) (f : Monitor → Monitor) (k_ : Nat) : (s.setMon f).port k_ = s.port k_ := rfl
@[simp] theorem State.ctx_setMon (s : State) (f : Monitor → Monitor) (k_ : Nat) : (s.setMon f).ctx k_ = s.ctx k_ := rfl
@[simp] theorem State.fn_setMon (s : State) (f : Monitor → Monitor) (k_ : Nat) : (s.setMon f).fn k_ = s.fn k_ := rfl
@[simp] theorem State.epPort_setMon (s : State) (f : Monitor → Monitor) (k_ : Nat) : (s.setMon f).epPort k_ = s.epPort k_ := rfl
@[simp] theorem State.job_setMon (s : State) (f : Monitor → Monitor) (k_ : Nat) : (s.setMon f).job k_ = s.job k_ := rfl
@[simp] theorem State.core_passTo (s : State) (t : Nat) (k_ : Nat) : (s.passTo t).core k_ = s.core k_ := rfl
@[simp] theorem State.port_passTo (s : State) (t : Nat) (k_ : Nat) : (s.passTo t).port k_ = s.port k_ := rfl
@[simp] theorem State.ctx_passTo (s : State) (t : Nat) (k_ : Nat) : (s.passTo t).ctx k_ = s.ctx k_ := rfl
@[simp] theorem State.fn_passTo (s : State) (t : Nat) (k_ : Nat) : (s.passTo t).fn k_ = s.fn k_ := rfl
@[simp] theorem State.epPort_passTo (s : State) (t : Nat) (k_ : Nat) : (s.passTo t).epPort k_ = s.epPort k_ := rfl
@[simp] theorem State.job_passTo (s : State) (t : Nat) (k_ : Nat) : (s.passTo t).job k_ = s.job k_ := rfl
@[simp] theorem State.core_dropDesc (s : State) (d : Taken) (k_ : Nat) : (s.dropDesc d).core k_ = s.core k_ := rfl
@[simp] theorem State.port_dropDesc (s : State) (d : Taken) (k_ : Nat) : (s.dropDesc d).port k_ = s.port k_ := rfl
@[simp] theorem State.ctx_dropDesc (s : State) (d : Taken) (k_ : Nat) : (s.dropDesc d).ctx k_ = s.ctx k_ := rfl
@[simp] theorem State.epPort_dropDesc (s : State) (d : Taken) (k_ : Nat) : (s.dropDesc d).epPort k_ = s.epPort k_ := rfl
@[simp] theorem State.job_dropDesc (s : State) (d : Taken) (k_ : Nat) : (s.dropDesc d).job k_ = s.job k_ := rfl

end Sys2Proof.Machine
end

