-- ==== Sys2Proof/Laws/Ops.lean ====
section
/-! SUPPORT. What posting an event, writing a record, logging and faulting a context can change: one
lemma per operation that says which fields of the state it leaves, and its consequences field by field. -/
namespace Sys2Proof.Machine

open Sys2Proof

/-- What holds of both branches holds of the choice. -/
theorem ite_holds {α : Sort _} (P : α → Prop) {c : Prop} [Decidable c] {a b : α} (ha : P a) (hb : P b) :
    P (if c then a else b) := by split <;> assumption


/-- Two states that agree on every field but the rings and the host link. -/
theorem ring_only {s t : State} (ident_ : t.ident = s.ident) (tcb_ : t.tcb = s.tcb) (fs_ : t.fs = s.fs) (tel_ : t.tel = s.tel) (panel_ : t.panel = s.panel) (ports_ : t.ports = s.ports) (ctxs_ : t.ctxs = s.ctxs) (ep_ : t.ep = s.ep) (mg_ : t.mg = s.mg) (sec_ : t.sec = s.sec) (mon_ : t.mon = s.mon) (smb_ : t.smb = s.smb) (lines_ : t.lines = s.lines) (free_ : t.free = s.free) (pending_ : t.pending = s.pending) : t = { s with link := t.link, fns := t.fns } := by
  cases s; cases t; simp only at *; subst_vars; rfl

@[simp] theorem State.putEvent_ident (s : State) (f code cls ctx source arg0 arg1 : Nat) : (s.putEvent f code cls ctx source arg0 arg1).ident = s.ident := by
  simp only [State.putEvent]; split <;> simp only [State.setFn_ident, State.hostWrite_ident]
@[simp] theorem State.putEvent_tcb (s : State) (f code cls ctx source arg0 arg1 : Nat) : (s.putEvent f code cls ctx source arg0 arg1).tcb = s.tcb := by
  simp only [State.putEvent]; split <;> simp only [State.setFn_tcb, State.hostWrite_tcb]
@[simp] theorem State.putEvent_fs (s : State) (f code cls ctx source arg0 arg1 : Nat) : (s.putEvent f code cls ctx source arg0 arg1).fs = s.fs := by
  simp only [State.putEvent]; split <;> simp only [State.setFn_fs, State.hostWrite_fs]
@[simp] theorem State.putEvent_tel (s : State) (f code cls ctx source arg0 arg1 : Nat) : (s.putEvent f code cls ctx source arg0 arg1).tel = s.tel := by
  simp only [State.putEvent]; split <;> simp only [State.setFn_tel, State.hostWrite_tel]
@[simp] theorem State.putEvent_panel (s : State) (f code cls ctx source arg0 arg1 : Nat) : (s.putEvent f code cls ctx source arg0 arg1).panel = s.panel := by
  simp only [State.putEvent]; split <;> simp only [State.setFn_panel, State.hostWrite_panel]
@[simp] theorem State.putEvent_ports (s : State) (f code cls ctx source arg0 arg1 : Nat) : (s.putEvent f code cls ctx source arg0 arg1).ports = s.ports := by
  simp only [State.putEvent]; split <;> simp only [State.setFn_ports, State.hostWrite_ports]
@[simp] theorem State.putEvent_ctxs (s : State) (f code cls ctx source arg0 arg1 : Nat) : (s.putEvent f code cls ctx source arg0 arg1).ctxs = s.ctxs := by
  simp only [State.putEvent]; split <;> simp only [State.setFn_ctxs, State.hostWrite_ctxs]
@[simp] theorem State.putEvent_ep (s : State) (f code cls ctx source arg0 arg1 : Nat) : (s.putEvent f code cls ctx source arg0 arg1).ep = s.ep := by
  simp only [State.putEvent]; split <;> simp only [State.setFn_ep, State.hostWrite_ep]
@[simp] theorem State.putEvent_mg (s : State) (f code cls ctx source arg0 arg1 : Nat) : (s.putEvent f code cls ctx source arg0 arg1).mg = s.mg := by
  simp only [State.putEvent]; split <;> simp only [State.setFn_mg, State.hostWrite_mg]
@[simp] theorem State.putEvent_sec (s : State) (f code cls ctx source arg0 arg1 : Nat) : (s.putEvent f code cls ctx source arg0 arg1).sec = s.sec := by
  simp only [State.putEvent]; split <;> simp only [State.setFn_sec, State.hostWrite_sec]
@[simp] theorem State.putEvent_mon (s : State) (f code cls ctx source arg0 arg1 : Nat) : (s.putEvent f code cls ctx source arg0 arg1).mon = s.mon := by
  simp only [State.putEvent]; split <;> simp only [State.setFn_mon, State.hostWrite_mon]
@[simp] theorem State.putEvent_smb (s : State) (f code cls ctx source arg0 arg1 : Nat) : (s.putEvent f code cls ctx source arg0 arg1).smb = s.smb := by
  simp only [State.putEvent]; split <;> simp only [State.setFn_smb, State.hostWrite_smb]
@[simp] theorem State.putEvent_lines (s : State) (f code cls ctx source arg0 arg1 : Nat) : (s.putEvent f code cls ctx source arg0 arg1).lines = s.lines := by
  simp only [State.putEvent]; split <;> simp only [State.setFn_lines, State.hostWrite_lines]
@[simp] theorem State.putEvent_free (s : State) (f code cls ctx source arg0 arg1 : Nat) : (s.putEvent f code cls ctx source arg0 arg1).free = s.free := by
  simp only [State.putEvent]; split <;> simp only [State.setFn_free, State.hostWrite_free]
@[simp] theorem State.putEvent_pending (s : State) (f code cls ctx source arg0 arg1 : Nat) : (s.putEvent f code cls ctx source arg0 arg1).pending = s.pending := by
  simp only [State.putEvent]; split <;> simp only [State.setFn_pending, State.hostWrite_pending]
/-- `putEvent` changes only link, fns. -/
theorem State.putEvent_frame (s : State) (f code cls ctx source arg0 arg1 : Nat) :
    s.putEvent f code cls ctx source arg0 arg1 = { s with link := (s.putEvent f code cls ctx source arg0 arg1).link, fns := (s.putEvent f code cls ctx source arg0 arg1).fns } := by
  apply ring_only <;> simp only [State.putEvent_ident, State.putEvent_tcb, State.putEvent_fs, State.putEvent_tel, State.putEvent_panel, State.putEvent_ports, State.putEvent_ctxs, State.putEvent_ep, State.putEvent_mg, State.putEvent_sec, State.putEvent_mon, State.putEvent_smb, State.putEvent_lines, State.putEvent_free, State.putEvent_pending]

@[simp] theorem State.putEvent_core (s : State) (f code cls ctx source arg0 arg1 : Nat) (k_ : Nat) : (s.putEvent f code cls ctx source arg0 arg1).core k_ = s.core k_ := by
  simp only [State.core, State.blankCore, State.putEvent_panel]
@[simp] theorem State.putEvent_port (s : State) (f code cls ctx source arg0 arg1 : Nat) (k_ : Nat) : (s.putEvent f code cls ctx source arg0 arg1).port k_ = s.port k_ := by
  simp only [State.port, State.putEvent_ports]
@[simp] theorem State.putEvent_ctx (s : State) (f code cls ctx source arg0 arg1 : Nat) (k_ : Nat) : (s.putEvent f code cls ctx source arg0 arg1).ctx k_ = s.ctx k_ := by
  simp only [State.ctx, State.putEvent_ctxs]
@[simp] theorem State.putEvent_epPort (s : State) (f code cls ctx source arg0 arg1 : Nat) (k_ : Nat) : (s.putEvent f code cls ctx source arg0 arg1).epPort k_ = s.epPort k_ := by
  simp only [State.epPort, State.putEvent_ep]
@[simp] theorem State.putEvent_job (s : State) (f code cls ctx source arg0 arg1 : Nat) (k_ : Nat) : (s.putEvent f code cls ctx source arg0 arg1).job k_ = s.job k_ := by
  simp only [State.job, State.putEvent_ep]

/-- `flushLost` changes only link, fns. -/
theorem State.flushLost_frame (s : State) (f : Nat) :
    s.flushLost f = { s with link := (s.flushLost f).link, fns := (s.flushLost f).fns } := by
  simp only [State.flushLost]; split
  · rfl
  · rw [State.putEvent_frame]; rfl

@[simp] theorem State.flushLost_ident (s : State) (f : Nat) : (s.flushLost f).ident = s.ident := by rw [State.flushLost_frame]
@[simp] theorem State.flushLost_tcb (s : State) (f : Nat) : (s.flushLost f).tcb = s.tcb := by rw [State.flushLost_frame]
@[simp] theorem State.flushLost_fs (s : State) (f : Nat) : (s.flushLost f).fs = s.fs := by rw [State.flushLost_frame]
@[simp] theorem State.flushLost_tel (s : State) (f : Nat) : (s.flushLost f).tel = s.tel := by rw [State.flushLost_frame]
@[simp] theorem State.flushLost_panel (s : State) (f : Nat) : (s.flushLost f).panel = s.panel := by rw [State.flushLost_frame]
@[simp] theorem State.flushLost_ports (s : State) (f : Nat) : (s.flushLost f).ports = s.ports := by rw [State.flushLost_frame]
@[simp] theorem State.flushLost_ctxs (s : State) (f : Nat) : (s.flushLost f).ctxs = s.ctxs := by rw [State.flushLost_frame]
@[simp] theorem State.flushLost_ep (s : State) (f : Nat) : (s.flushLost f).ep = s.ep := by rw [State.flushLost_frame]
@[simp] theorem State.flushLost_mg (s : State) (f : Nat) : (s.flushLost f).mg = s.mg := by rw [State.flushLost_frame]
@[simp] theorem State.flushLost_sec (s : State) (f : Nat) : (s.flushLost f).sec = s.sec := by rw [State.flushLost_frame]
@[simp] theorem State.flushLost_mon (s : State) (f : Nat) : (s.flushLost f).mon = s.mon := by rw [State.flushLost_frame]
@[simp] theorem State.flushLost_smb (s : State) (f : Nat) : (s.flushLost f).smb = s.smb := by rw [State.flushLost_frame]
@[simp] theorem State.flushLost_lines (s : State) (f : Nat) : (s.flushLost f).lines = s.lines := by rw [State.flushLost_frame]
@[simp] theorem State.flushLost_free (s : State) (f : Nat) : (s.flushLost f).free = s.free := by rw [State.flushLost_frame]
@[simp] theorem State.flushLost_pending (s : State) (f : Nat) : (s.flushLost f).pending = s.pending := by rw [State.flushLost_frame]
@[simp] theorem State.flushLost_core (s : State) (f : Nat) (k_ : Nat) : (s.flushLost f).core k_ = s.core k_ := by
  simp only [State.core, State.blankCore, State.flushLost_panel]
@[simp] theorem State.flushLost_port (s : State) (f : Nat) (k_ : Nat) : (s.flushLost f).port k_ = s.port k_ := by
  simp only [State.port, State.flushLost_ports]
@[simp] theorem State.flushLost_ctx (s : State) (f : Nat) (k_ : Nat) : (s.flushLost f).ctx k_ = s.ctx k_ := by
  simp only [State.ctx, State.flushLost_ctxs]
@[simp] theorem State.flushLost_epPort (s : State) (f : Nat) (k_ : Nat) : (s.flushLost f).epPort k_ = s.epPort k_ := by
  simp only [State.epPort, State.flushLost_ep]
@[simp] theorem State.flushLost_job (s : State) (f : Nat) (k_ : Nat) : (s.flushLost f).job k_ = s.job k_ := by
  simp only [State.job, State.flushLost_ep]

/-- `post` changes only link, fns. -/
theorem State.post_frame (s : State) (f code cls ctx source arg0 arg1 : Nat) :
    s.post f code cls ctx source arg0 arg1 = { s with link := (s.post f code cls ctx source arg0 arg1).link, fns := (s.post f code cls ctx source arg0 arg1).fns } := by
  simp only [State.post]; split
  · rw [State.flushLost_frame]; rfl
  · rw [State.putEvent_frame, State.flushLost_frame]

@[simp] theorem State.post_ident (s : State) (f code cls ctx source arg0 arg1 : Nat) : (s.post f code cls ctx source arg0 arg1).ident = s.ident := by rw [State.post_frame]
@[simp] theorem State.post_tcb (s : State) (f code cls ctx source arg0 arg1 : Nat) : (s.post f code cls ctx source arg0 arg1).tcb = s.tcb := by rw [State.post_frame]
@[simp] theorem State.post_fs (s : State) (f code cls ctx source arg0 arg1 : Nat) : (s.post f code cls ctx source arg0 arg1).fs = s.fs := by rw [State.post_frame]
@[simp] theorem State.post_tel (s : State) (f code cls ctx source arg0 arg1 : Nat) : (s.post f code cls ctx source arg0 arg1).tel = s.tel := by rw [State.post_frame]
@[simp] theorem State.post_panel (s : State) (f code cls ctx source arg0 arg1 : Nat) : (s.post f code cls ctx source arg0 arg1).panel = s.panel := by rw [State.post_frame]
@[simp] theorem State.post_ports (s : State) (f code cls ctx source arg0 arg1 : Nat) : (s.post f code cls ctx source arg0 arg1).ports = s.ports := by rw [State.post_frame]
@[simp] theorem State.post_ctxs (s : State) (f code cls ctx source arg0 arg1 : Nat) : (s.post f code cls ctx source arg0 arg1).ctxs = s.ctxs := by rw [State.post_frame]
@[simp] theorem State.post_ep (s : State) (f code cls ctx source arg0 arg1 : Nat) : (s.post f code cls ctx source arg0 arg1).ep = s.ep := by rw [State.post_frame]
@[simp] theorem State.post_mg (s : State) (f code cls ctx source arg0 arg1 : Nat) : (s.post f code cls ctx source arg0 arg1).mg = s.mg := by rw [State.post_frame]
@[simp] theorem State.post_sec (s : State) (f code cls ctx source arg0 arg1 : Nat) : (s.post f code cls ctx source arg0 arg1).sec = s.sec := by rw [State.post_frame]
@[simp] theorem State.post_mon (s : State) (f code cls ctx source arg0 arg1 : Nat) : (s.post f code cls ctx source arg0 arg1).mon = s.mon := by rw [State.post_frame]
@[simp] theorem State.post_smb (s : State) (f code cls ctx source arg0 arg1 : Nat) : (s.post f code cls ctx source arg0 arg1).smb = s.smb := by rw [State.post_frame]
@[simp] theorem State.post_lines (s : State) (f code cls ctx source arg0 arg1 : Nat) : (s.post f code cls ctx source arg0 arg1).lines = s.lines := by rw [State.post_frame]
@[simp] theorem State.post_free (s : State) (f code cls ctx source arg0 arg1 : Nat) : (s.post f code cls ctx source arg0 arg1).free = s.free := by rw [State.post_frame]
@[simp] theorem State.post_pending (s : State) (f code cls ctx source arg0 arg1 : Nat) : (s.post f code cls ctx source arg0 arg1).pending = s.pending := by rw [State.post_frame]
@[simp] theorem State.post_core (s : State) (f code cls ctx source arg0 arg1 : Nat) (k_ : Nat) : (s.post f code cls ctx source arg0 arg1).core k_ = s.core k_ := by
  simp only [State.core, State.blankCore, State.post_panel]
@[simp] theorem State.post_port (s : State) (f code cls ctx source arg0 arg1 : Nat) (k_ : Nat) : (s.post f code cls ctx source arg0 arg1).port k_ = s.port k_ := by
  simp only [State.port, State.post_ports]
@[simp] theorem State.post_ctx (s : State) (f code cls ctx source arg0 arg1 : Nat) (k_ : Nat) : (s.post f code cls ctx source arg0 arg1).ctx k_ = s.ctx k_ := by
  simp only [State.ctx, State.post_ctxs]
@[simp] theorem State.post_epPort (s : State) (f code cls ctx source arg0 arg1 : Nat) (k_ : Nat) : (s.post f code cls ctx source arg0 arg1).epPort k_ = s.epPort k_ := by
  simp only [State.epPort, State.post_ep]
@[simp] theorem State.post_job (s : State) (f code cls ctx source arg0 arg1 : Nat) (k_ : Nat) : (s.post f code cls ctx source arg0 arg1).job k_ = s.job k_ := by
  simp only [State.job, State.post_ep]

/-- `postPf` changes only link, fns. -/
theorem State.postPf_frame (s : State) (code source arg0 arg1 : Nat) :
    s.postPf code source arg0 arg1 = { s with link := (s.postPf code source arg0 arg1).link, fns := (s.postPf code source arg0 arg1).fns } := by
  simp only [State.postPf]; rw [State.post_frame]

@[simp] theorem State.postPf_ident (s : State) (code source arg0 arg1 : Nat) : (s.postPf code source arg0 arg1).ident = s.ident := by rw [State.postPf_frame]
@[simp] theorem State.postPf_tcb (s : State) (code source arg0 arg1 : Nat) : (s.postPf code source arg0 arg1).tcb = s.tcb := by rw [State.postPf_frame]
@[simp] theorem State.postPf_fs (s : State) (code source arg0 arg1 : Nat) : (s.postPf code source arg0 arg1).fs = s.fs := by rw [State.postPf_frame]
@[simp] theorem State.postPf_tel (s : State) (code source arg0 arg1 : Nat) : (s.postPf code source arg0 arg1).tel = s.tel := by rw [State.postPf_frame]
@[simp] theorem State.postPf_panel (s : State) (code source arg0 arg1 : Nat) : (s.postPf code source arg0 arg1).panel = s.panel := by rw [State.postPf_frame]
@[simp] theorem State.postPf_ports (s : State) (code source arg0 arg1 : Nat) : (s.postPf code source arg0 arg1).ports = s.ports := by rw [State.postPf_frame]
@[simp] theorem State.postPf_ctxs (s : State) (code source arg0 arg1 : Nat) : (s.postPf code source arg0 arg1).ctxs = s.ctxs := by rw [State.postPf_frame]
@[simp] theorem State.postPf_ep (s : State) (code source arg0 arg1 : Nat) : (s.postPf code source arg0 arg1).ep = s.ep := by rw [State.postPf_frame]
@[simp] theorem State.postPf_mg (s : State) (code source arg0 arg1 : Nat) : (s.postPf code source arg0 arg1).mg = s.mg := by rw [State.postPf_frame]
@[simp] theorem State.postPf_sec (s : State) (code source arg0 arg1 : Nat) : (s.postPf code source arg0 arg1).sec = s.sec := by rw [State.postPf_frame]
@[simp] theorem State.postPf_mon (s : State) (code source arg0 arg1 : Nat) : (s.postPf code source arg0 arg1).mon = s.mon := by rw [State.postPf_frame]
@[simp] theorem State.postPf_smb (s : State) (code source arg0 arg1 : Nat) : (s.postPf code source arg0 arg1).smb = s.smb := by rw [State.postPf_frame]
@[simp] theorem State.postPf_lines (s : State) (code source arg0 arg1 : Nat) : (s.postPf code source arg0 arg1).lines = s.lines := by rw [State.postPf_frame]
@[simp] theorem State.postPf_free (s : State) (code source arg0 arg1 : Nat) : (s.postPf code source arg0 arg1).free = s.free := by rw [State.postPf_frame]
@[simp] theorem State.postPf_pending (s : State) (code source arg0 arg1 : Nat) : (s.postPf code source arg0 arg1).pending = s.pending := by rw [State.postPf_frame]
@[simp] theorem State.postPf_core (s : State) (code source arg0 arg1 : Nat) (k_ : Nat) : (s.postPf code source arg0 arg1).core k_ = s.core k_ := by
  simp only [State.core, State.blankCore, State.postPf_panel]
@[simp] theorem State.postPf_port (s : State) (code source arg0 arg1 : Nat) (k_ : Nat) : (s.postPf code source arg0 arg1).port k_ = s.port k_ := by
  simp only [State.port, State.postPf_ports]
@[simp] theorem State.postPf_ctx (s : State) (code source arg0 arg1 : Nat) (k_ : Nat) : (s.postPf code source arg0 arg1).ctx k_ = s.ctx k_ := by
  simp only [State.ctx, State.postPf_ctxs]
@[simp] theorem State.postPf_epPort (s : State) (code source arg0 arg1 : Nat) (k_ : Nat) : (s.postPf code source arg0 arg1).epPort k_ = s.epPort k_ := by
  simp only [State.epPort, State.postPf_ep]
@[simp] theorem State.postPf_job (s : State) (code source arg0 arg1 : Nat) (k_ : Nat) : (s.postPf code source arg0 arg1).job k_ = s.job k_ := by
  simp only [State.job, State.postPf_ep]

/-- `postCtx` changes only link, fns. -/
theorem State.postCtx_frame (s : State) (c code source arg0 arg1 : Nat) :
    s.postCtx c code source arg0 arg1 = { s with link := (s.postCtx c code source arg0 arg1).link, fns := (s.postCtx c code source arg0 arg1).fns } := by
  simp only [State.postCtx]; rw [State.post_frame]

@[simp] theorem State.postCtx_ident (s : State) (c code source arg0 arg1 : Nat) : (s.postCtx c code source arg0 arg1).ident = s.ident := by rw [State.postCtx_frame]
@[simp] theorem State.postCtx_tcb (s : State) (c code source arg0 arg1 : Nat) : (s.postCtx c code source arg0 arg1).tcb = s.tcb := by rw [State.postCtx_frame]
@[simp] theorem State.postCtx_fs (s : State) (c code source arg0 arg1 : Nat) : (s.postCtx c code source arg0 arg1).fs = s.fs := by rw [State.postCtx_frame]
@[simp] theorem State.postCtx_tel (s : State) (c code source arg0 arg1 : Nat) : (s.postCtx c code source arg0 arg1).tel = s.tel := by rw [State.postCtx_frame]
@[simp] theorem State.postCtx_panel (s : State) (c code source arg0 arg1 : Nat) : (s.postCtx c code source arg0 arg1).panel = s.panel := by rw [State.postCtx_frame]
@[simp] theorem State.postCtx_ports (s : State) (c code source arg0 arg1 : Nat) : (s.postCtx c code source arg0 arg1).ports = s.ports := by rw [State.postCtx_frame]
@[simp] theorem State.postCtx_ctxs (s : State) (c code source arg0 arg1 : Nat) : (s.postCtx c code source arg0 arg1).ctxs = s.ctxs := by rw [State.postCtx_frame]
@[simp] theorem State.postCtx_ep (s : State) (c code source arg0 arg1 : Nat) : (s.postCtx c code source arg0 arg1).ep = s.ep := by rw [State.postCtx_frame]
@[simp] theorem State.postCtx_mg (s : State) (c code source arg0 arg1 : Nat) : (s.postCtx c code source arg0 arg1).mg = s.mg := by rw [State.postCtx_frame]
@[simp] theorem State.postCtx_sec (s : State) (c code source arg0 arg1 : Nat) : (s.postCtx c code source arg0 arg1).sec = s.sec := by rw [State.postCtx_frame]
@[simp] theorem State.postCtx_mon (s : State) (c code source arg0 arg1 : Nat) : (s.postCtx c code source arg0 arg1).mon = s.mon := by rw [State.postCtx_frame]
@[simp] theorem State.postCtx_smb (s : State) (c code source arg0 arg1 : Nat) : (s.postCtx c code source arg0 arg1).smb = s.smb := by rw [State.postCtx_frame]
@[simp] theorem State.postCtx_lines (s : State) (c code source arg0 arg1 : Nat) : (s.postCtx c code source arg0 arg1).lines = s.lines := by rw [State.postCtx_frame]
@[simp] theorem State.postCtx_free (s : State) (c code source arg0 arg1 : Nat) : (s.postCtx c code source arg0 arg1).free = s.free := by rw [State.postCtx_frame]
@[simp] theorem State.postCtx_pending (s : State) (c code source arg0 arg1 : Nat) : (s.postCtx c code source arg0 arg1).pending = s.pending := by rw [State.postCtx_frame]
@[simp] theorem State.postCtx_core (s : State) (c code source arg0 arg1 : Nat) (k_ : Nat) : (s.postCtx c code source arg0 arg1).core k_ = s.core k_ := by
  simp only [State.core, State.blankCore, State.postCtx_panel]
@[simp] theorem State.postCtx_port (s : State) (c code source arg0 arg1 : Nat) (k_ : Nat) : (s.postCtx c code source arg0 arg1).port k_ = s.port k_ := by
  simp only [State.port, State.postCtx_ports]
@[simp] theorem State.postCtx_ctx (s : State) (c code source arg0 arg1 : Nat) (k_ : Nat) : (s.postCtx c code source arg0 arg1).ctx k_ = s.ctx k_ := by
  simp only [State.ctx, State.postCtx_ctxs]
@[simp] theorem State.postCtx_epPort (s : State) (c code source arg0 arg1 : Nat) (k_ : Nat) : (s.postCtx c code source arg0 arg1).epPort k_ = s.epPort k_ := by
  simp only [State.epPort, State.postCtx_ep]
@[simp] theorem State.postCtx_job (s : State) (c code source arg0 arg1 : Nat) (k_ : Nat) : (s.postCtx c code source arg0 arg1).job k_ = s.job k_ := by
  simp only [State.job, State.postCtx_ep]

/-- A fold whose every step changes only the rings and host memory changes only those. -/
theorem foldl_ring_frame {α : Type} (f : State → α → State)
    (hf : ∀ s a, f s a = { s with link := (f s a).link, fns := (f s a).fns }) (l : List α) :
    ∀ s, l.foldl f s = { s with link := (l.foldl f s).link, fns := (l.foldl f s).fns } := by
  induction l with
  | nil => intro s; rfl
  | cons a l ih => intro s; rw [List.foldl_cons, ih (f s a), hf s a]


/-- `postAll` changes only link, fns. -/
theorem State.postAll_frame (s : State) (code source arg0 arg1 : Nat) :
    s.postAll code source arg0 arg1 = { s with link := (s.postAll code source arg0 arg1).link, fns := (s.postAll code source arg0 arg1).fns } := by
  simp only [State.postAll]
  rw [State.postPf_frame, foldl_ring_frame _ (fun s a => State.postCtx_frame s a code source arg0 arg1)]

@[simp] theorem State.postAll_ident (s : State) (code source arg0 arg1 : Nat) : (s.postAll code source arg0 arg1).ident = s.ident := by rw [State.postAll_frame]
@[simp] theorem State.postAll_tcb (s : State) (code source arg0 arg1 : Nat) : (s.postAll code source arg0 arg1).tcb = s.tcb := by rw [State.postAll_frame]
@[simp] theorem State.postAll_fs (s : State) (code source arg0 arg1 : Nat) : (s.postAll code source arg0 arg1).fs = s.fs := by rw [State.postAll_frame]
@[simp] theorem State.postAll_tel (s : State) (code source arg0 arg1 : Nat) : (s.postAll code source arg0 arg1).tel = s.tel := by rw [State.postAll_frame]
@[simp] theorem State.postAll_panel (s : State) (code source arg0 arg1 : Nat) : (s.postAll code source arg0 arg1).panel = s.panel := by rw [State.postAll_frame]
@[simp] theorem State.postAll_ports (s : State) (code source arg0 arg1 : Nat) : (s.postAll code source arg0 arg1).ports = s.ports := by rw [State.postAll_frame]
@[simp] theorem State.postAll_ctxs (s : State) (code source arg0 arg1 : Nat) : (s.postAll code source arg0 arg1).ctxs = s.ctxs := by rw [State.postAll_frame]
@[simp] theorem State.postAll_ep (s : State) (code source arg0 arg1 : Nat) : (s.postAll code source arg0 arg1).ep = s.ep := by rw [State.postAll_frame]
@[simp] theorem State.postAll_mg (s : State) (code source arg0 arg1 : Nat) : (s.postAll code source arg0 arg1).mg = s.mg := by rw [State.postAll_frame]
@[simp] theorem State.postAll_sec (s : State) (code source arg0 arg1 : Nat) : (s.postAll code source arg0 arg1).sec = s.sec := by rw [State.postAll_frame]
@[simp] theorem State.postAll_mon (s : State) (code source arg0 arg1 : Nat) : (s.postAll code source arg0 arg1).mon = s.mon := by rw [State.postAll_frame]
@[simp] theorem State.postAll_smb (s : State) (code source arg0 arg1 : Nat) : (s.postAll code source arg0 arg1).smb = s.smb := by rw [State.postAll_frame]
@[simp] theorem State.postAll_lines (s : State) (code source arg0 arg1 : Nat) : (s.postAll code source arg0 arg1).lines = s.lines := by rw [State.postAll_frame]
@[simp] theorem State.postAll_free (s : State) (code source arg0 arg1 : Nat) : (s.postAll code source arg0 arg1).free = s.free := by rw [State.postAll_frame]
@[simp] theorem State.postAll_pending (s : State) (code source arg0 arg1 : Nat) : (s.postAll code source arg0 arg1).pending = s.pending := by rw [State.postAll_frame]
@[simp] theorem State.postAll_core (s : State) (code source arg0 arg1 : Nat) (k_ : Nat) : (s.postAll code source arg0 arg1).core k_ = s.core k_ := by
  simp only [State.core, State.blankCore, State.postAll_panel]
@[simp] theorem State.postAll_port (s : State) (code source arg0 arg1 : Nat) (k_ : Nat) : (s.postAll code source arg0 arg1).port k_ = s.port k_ := by
  simp only [State.port, State.postAll_ports]
@[simp] theorem State.postAll_ctx (s : State) (code source arg0 arg1 : Nat) (k_ : Nat) : (s.postAll code source arg0 arg1).ctx k_ = s.ctx k_ := by
  simp only [State.ctx, State.postAll_ctxs]
@[simp] theorem State.postAll_epPort (s : State) (code source arg0 arg1 : Nat) (k_ : Nat) : (s.postAll code source arg0 arg1).epPort k_ = s.epPort k_ := by
  simp only [State.epPort, State.postAll_ep]
@[simp] theorem State.postAll_job (s : State) (code source arg0 arg1 : Nat) (k_ : Nat) : (s.postAll code source arg0 arg1).job k_ = s.job k_ := by
  simp only [State.job, State.postAll_ep]

/-- `logAs` changes only mg. -/
theorem State.logAs_frame (s : State) (m code cls ctx source arg0 arg1 : Nat) :
    s.logAs m code cls ctx source arg0 arg1 = { s with mg := (s.logAs m code cls ctx source arg0 arg1).mg } := by
  simp only [State.logAs]; split <;> rfl

@[simp] theorem State.logAs_ident (s : State) (m code cls ctx source arg0 arg1 : Nat) : (s.logAs m code cls ctx source arg0 arg1).ident = s.ident := by rw [State.logAs_frame]
@[simp] theorem State.logAs_tcb (s : State) (m code cls ctx source arg0 arg1 : Nat) : (s.logAs m code cls ctx source arg0 arg1).tcb = s.tcb := by rw [State.logAs_frame]
@[simp] theorem State.logAs_fs (s : State) (m code cls ctx source arg0 arg1 : Nat) : (s.logAs m code cls ctx source arg0 arg1).fs = s.fs := by rw [State.logAs_frame]
@[simp] theorem State.logAs_tel (s : State) (m code cls ctx source arg0 arg1 : Nat) : (s.logAs m code cls ctx source arg0 arg1).tel = s.tel := by rw [State.logAs_frame]
@[simp] theorem State.logAs_panel (s : State) (m code cls ctx source arg0 arg1 : Nat) : (s.logAs m code cls ctx source arg0 arg1).panel = s.panel := by rw [State.logAs_frame]
@[simp] theorem State.logAs_ports (s : State) (m code cls ctx source arg0 arg1 : Nat) : (s.logAs m code cls ctx source arg0 arg1).ports = s.ports := by rw [State.logAs_frame]
@[simp] theorem State.logAs_ctxs (s : State) (m code cls ctx source arg0 arg1 : Nat) : (s.logAs m code cls ctx source arg0 arg1).ctxs = s.ctxs := by rw [State.logAs_frame]
@[simp] theorem State.logAs_fns (s : State) (m code cls ctx source arg0 arg1 : Nat) : (s.logAs m code cls ctx source arg0 arg1).fns = s.fns := by rw [State.logAs_frame]
@[simp] theorem State.logAs_link (s : State) (m code cls ctx source arg0 arg1 : Nat) : (s.logAs m code cls ctx source arg0 arg1).link = s.link := by rw [State.logAs_frame]
@[simp] theorem State.logAs_ep (s : State) (m code cls ctx source arg0 arg1 : Nat) : (s.logAs m code cls ctx source arg0 arg1).ep = s.ep := by rw [State.logAs_frame]
@[simp] theorem State.logAs_sec (s : State) (m code cls ctx source arg0 arg1 : Nat) : (s.logAs m code cls ctx source arg0 arg1).sec = s.sec := by rw [State.logAs_frame]
@[simp] theorem State.logAs_mon (s : State) (m code cls ctx source arg0 arg1 : Nat) : (s.logAs m code cls ctx source arg0 arg1).mon = s.mon := by rw [State.logAs_frame]
@[simp] theorem State.logAs_smb (s : State) (m code cls ctx source arg0 arg1 : Nat) : (s.logAs m code cls ctx source arg0 arg1).smb = s.smb := by rw [State.logAs_frame]
@[simp] theorem State.logAs_lines (s : State) (m code cls ctx source arg0 arg1 : Nat) : (s.logAs m code cls ctx source arg0 arg1).lines = s.lines := by rw [State.logAs_frame]
@[simp] theorem State.logAs_free (s : State) (m code cls ctx source arg0 arg1 : Nat) : (s.logAs m code cls ctx source arg0 arg1).free = s.free := by rw [State.logAs_frame]
@[simp] theorem State.logAs_pending (s : State) (m code cls ctx source arg0 arg1 : Nat) : (s.logAs m code cls ctx source arg0 arg1).pending = s.pending := by rw [State.logAs_frame]
@[simp] theorem State.logAs_core (s : State) (m code cls ctx source arg0 arg1 : Nat) (k_ : Nat) : (s.logAs m code cls ctx source arg0 arg1).core k_ = s.core k_ := by
  simp only [State.core, State.blankCore, State.logAs_panel]
@[simp] theorem State.logAs_port (s : State) (m code cls ctx source arg0 arg1 : Nat) (k_ : Nat) : (s.logAs m code cls ctx source arg0 arg1).port k_ = s.port k_ := by
  simp only [State.port, State.logAs_ports]
@[simp] theorem State.logAs_ctx (s : State) (m code cls ctx source arg0 arg1 : Nat) (k_ : Nat) : (s.logAs m code cls ctx source arg0 arg1).ctx k_ = s.ctx k_ := by
  simp only [State.ctx, State.logAs_ctxs]
@[simp] theorem State.logAs_fn (s : State) (m code cls ctx source arg0 arg1 : Nat) (k_ : Nat) : (s.logAs m code cls ctx source arg0 arg1).fn k_ = s.fn k_ := by
  simp only [State.fn, State.logAs_fns]
@[simp] theorem State.logAs_epPort (s : State) (m code cls ctx source arg0 arg1 : Nat) (k_ : Nat) : (s.logAs m code cls ctx source arg0 arg1).epPort k_ = s.epPort k_ := by
  simp only [State.epPort, State.logAs_ep]
@[simp] theorem State.logAs_job (s : State) (m code cls ctx source arg0 arg1 : Nat) (k_ : Nat) : (s.logAs m code cls ctx source arg0 arg1).job k_ = s.job k_ := by
  simp only [State.job, State.logAs_ep]

/-- `logFault` changes only mg. -/
theorem State.logFault_frame (s : State) (code cls ctx source arg0 arg1 : Nat) :
    s.logFault code cls ctx source arg0 arg1 = { s with mg := (s.logFault code cls ctx source arg0 arg1).mg } := by
  simp only [State.logFault]; rw [State.logAs_frame]

@[simp] theorem State.logFault_ident (s : State) (code cls ctx source arg0 arg1 : Nat) : (s.logFault code cls ctx source arg0 arg1).ident = s.ident := by rw [State.logFault_frame]
@[simp] theorem State.logFault_tcb (s : State) (code cls ctx source arg0 arg1 : Nat) : (s.logFault code cls ctx source arg0 arg1).tcb = s.tcb := by rw [State.logFault_frame]
@[simp] theorem State.logFault_fs (s : State) (code cls ctx source arg0 arg1 : Nat) : (s.logFault code cls ctx source arg0 arg1).fs = s.fs := by rw [State.logFault_frame]
@[simp] theorem State.logFault_tel (s : State) (code cls ctx source arg0 arg1 : Nat) : (s.logFault code cls ctx source arg0 arg1).tel = s.tel := by rw [State.logFault_frame]
@[simp] theorem State.logFault_panel (s : State) (code cls ctx source arg0 arg1 : Nat) : (s.logFault code cls ctx source arg0 arg1).panel = s.panel := by rw [State.logFault_frame]
@[simp] theorem State.logFault_ports (s : State) (code cls ctx source arg0 arg1 : Nat) : (s.logFault code cls ctx source arg0 arg1).ports = s.ports := by rw [State.logFault_frame]
@[simp] theorem State.logFault_ctxs (s : State) (code cls ctx source arg0 arg1 : Nat) : (s.logFault code cls ctx source arg0 arg1).ctxs = s.ctxs := by rw [State.logFault_frame]
@[simp] theorem State.logFault_fns (s : State) (code cls ctx source arg0 arg1 : Nat) : (s.logFault code cls ctx source arg0 arg1).fns = s.fns := by rw [State.logFault_frame]
@[simp] theorem State.logFault_link (s : State) (code cls ctx source arg0 arg1 : Nat) : (s.logFault code cls ctx source arg0 arg1).link = s.link := by rw [State.logFault_frame]
@[simp] theorem State.logFault_ep (s : State) (code cls ctx source arg0 arg1 : Nat) : (s.logFault code cls ctx source arg0 arg1).ep = s.ep := by rw [State.logFault_frame]
@[simp] theorem State.logFault_sec (s : State) (code cls ctx source arg0 arg1 : Nat) : (s.logFault code cls ctx source arg0 arg1).sec = s.sec := by rw [State.logFault_frame]
@[simp] theorem State.logFault_mon (s : State) (code cls ctx source arg0 arg1 : Nat) : (s.logFault code cls ctx source arg0 arg1).mon = s.mon := by rw [State.logFault_frame]
@[simp] theorem State.logFault_smb (s : State) (code cls ctx source arg0 arg1 : Nat) : (s.logFault code cls ctx source arg0 arg1).smb = s.smb := by rw [State.logFault_frame]
@[simp] theorem State.logFault_lines (s : State) (code cls ctx source arg0 arg1 : Nat) : (s.logFault code cls ctx source arg0 arg1).lines = s.lines := by rw [State.logFault_frame]
@[simp] theorem State.logFault_free (s : State) (code cls ctx source arg0 arg1 : Nat) : (s.logFault code cls ctx source arg0 arg1).free = s.free := by rw [State.logFault_frame]
@[simp] theorem State.logFault_pending (s : State) (code cls ctx source arg0 arg1 : Nat) : (s.logFault code cls ctx source arg0 arg1).pending = s.pending := by rw [State.logFault_frame]
@[simp] theorem State.logFault_core (s : State) (code cls ctx source arg0 arg1 : Nat) (k_ : Nat) : (s.logFault code cls ctx source arg0 arg1).core k_ = s.core k_ := by
  simp only [State.core, State.blankCore, State.logFault_panel]
@[simp] theorem State.logFault_port (s : State) (code cls ctx source arg0 arg1 : Nat) (k_ : Nat) : (s.logFault code cls ctx source arg0 arg1).port k_ = s.port k_ := by
  simp only [State.port, State.logFault_ports]
@[simp] theorem State.logFault_ctx (s : State) (code cls ctx source arg0 arg1 : Nat) (k_ : Nat) : (s.logFault code cls ctx source arg0 arg1).ctx k_ = s.ctx k_ := by
  simp only [State.ctx, State.logFault_ctxs]
@[simp] theorem State.logFault_fn (s : State) (code cls ctx source arg0 arg1 : Nat) (k_ : Nat) : (s.logFault code cls ctx source arg0 arg1).fn k_ = s.fn k_ := by
  simp only [State.fn, State.logFault_fns]
@[simp] theorem State.logFault_epPort (s : State) (code cls ctx source arg0 arg1 : Nat) (k_ : Nat) : (s.logFault code cls ctx source arg0 arg1).epPort k_ = s.epPort k_ := by
  simp only [State.epPort, State.logFault_ep]
@[simp] theorem State.logFault_job (s : State) (code cls ctx source arg0 arg1 : Nat) (k_ : Nat) : (s.logFault code cls ctx source arg0 arg1).job k_ = s.job k_ := by
  simp only [State.job, State.logFault_ep]

@[simp] theorem State.record_ident (s : State) (d : Taken) (status detail epoch lvf frame : Nat) (late rrec : Bool) : (s.record d status detail epoch lvf frame late rrec).ident = s.ident := by
  simp only [State.record]; split <;> (try split) <;> simp only [State.setFn_ident, State.hostWrite_ident]
@[simp] theorem State.record_tcb (s : State) (d : Taken) (status detail epoch lvf frame : Nat) (late rrec : Bool) : (s.record d status detail epoch lvf frame late rrec).tcb = s.tcb := by
  simp only [State.record]; split <;> (try split) <;> simp only [State.setFn_tcb, State.hostWrite_tcb]
@[simp] theorem State.record_fs (s : State) (d : Taken) (status detail epoch lvf frame : Nat) (late rrec : Bool) : (s.record d status detail epoch lvf frame late rrec).fs = s.fs := by
  simp only [State.record]; split <;> (try split) <;> simp only [State.setFn_fs, State.hostWrite_fs]
@[simp] theorem State.record_tel (s : State) (d : Taken) (status detail epoch lvf frame : Nat) (late rrec : Bool) : (s.record d status detail epoch lvf frame late rrec).tel = s.tel := by
  simp only [State.record]; split <;> (try split) <;> simp only [State.setFn_tel, State.hostWrite_tel]
@[simp] theorem State.record_panel (s : State) (d : Taken) (status detail epoch lvf frame : Nat) (late rrec : Bool) : (s.record d status detail epoch lvf frame late rrec).panel = s.panel := by
  simp only [State.record]; split <;> (try split) <;> simp only [State.setFn_panel, State.hostWrite_panel]
@[simp] theorem State.record_ports (s : State) (d : Taken) (status detail epoch lvf frame : Nat) (late rrec : Bool) : (s.record d status detail epoch lvf frame late rrec).ports = s.ports := by
  simp only [State.record]; split <;> (try split) <;> simp only [State.setFn_ports, State.hostWrite_ports]
@[simp] theorem State.record_ctxs (s : State) (d : Taken) (status detail epoch lvf frame : Nat) (late rrec : Bool) : (s.record d status detail epoch lvf frame late rrec).ctxs = s.ctxs := by
  simp only [State.record]; split <;> (try split) <;> simp only [State.setFn_ctxs, State.hostWrite_ctxs]
@[simp] theorem State.record_ep (s : State) (d : Taken) (status detail epoch lvf frame : Nat) (late rrec : Bool) : (s.record d status detail epoch lvf frame late rrec).ep = s.ep := by
  simp only [State.record]; split <;> (try split) <;> simp only [State.setFn_ep, State.hostWrite_ep]
@[simp] theorem State.record_mg (s : State) (d : Taken) (status detail epoch lvf frame : Nat) (late rrec : Bool) : (s.record d status detail epoch lvf frame late rrec).mg = s.mg := by
  simp only [State.record]; split <;> (try split) <;> simp only [State.setFn_mg, State.hostWrite_mg]
@[simp] theorem State.record_sec (s : State) (d : Taken) (status detail epoch lvf frame : Nat) (late rrec : Bool) : (s.record d status detail epoch lvf frame late rrec).sec = s.sec := by
  simp only [State.record]; split <;> (try split) <;> simp only [State.setFn_sec, State.hostWrite_sec]
@[simp] theorem State.record_mon (s : State) (d : Taken) (status detail epoch lvf frame : Nat) (late rrec : Bool) : (s.record d status detail epoch lvf frame late rrec).mon = s.mon := by
  simp only [State.record]; split <;> (try split) <;> simp only [State.setFn_mon, State.hostWrite_mon]
@[simp] theorem State.record_smb (s : State) (d : Taken) (status detail epoch lvf frame : Nat) (late rrec : Bool) : (s.record d status detail epoch lvf frame late rrec).smb = s.smb := by
  simp only [State.record]; split <;> (try split) <;> simp only [State.setFn_smb, State.hostWrite_smb]
@[simp] theorem State.record_lines (s : State) (d : Taken) (status detail epoch lvf frame : Nat) (late rrec : Bool) : (s.record d status detail epoch lvf frame late rrec).lines = s.lines := by
  simp only [State.record]; split <;> (try split) <;> simp only [State.setFn_lines, State.hostWrite_lines]
@[simp] theorem State.record_free (s : State) (d : Taken) (status detail epoch lvf frame : Nat) (late rrec : Bool) : (s.record d status detail epoch lvf frame late rrec).free = s.free := by
  simp only [State.record]; split <;> (try split) <;> simp only [State.setFn_free, State.hostWrite_free]
@[simp] theorem State.record_pending (s : State) (d : Taken) (status detail epoch lvf frame : Nat) (late rrec : Bool) : (s.record d status detail epoch lvf frame late rrec).pending = s.pending := by
  simp only [State.record]; split <;> (try split) <;> simp only [State.setFn_pending, State.hostWrite_pending]
/-- `record` changes only link, fns. -/
theorem State.record_frame (s : State) (d : Taken) (status detail epoch lvf frame : Nat) (late rrec : Bool) :
    s.record d status detail epoch lvf frame late rrec = { s with link := (s.record d status detail epoch lvf frame late rrec).link, fns := (s.record d status detail epoch lvf frame late rrec).fns } := by
  apply ring_only <;> simp only [State.record_ident, State.record_tcb, State.record_fs, State.record_tel, State.record_panel, State.record_ports, State.record_ctxs, State.record_ep, State.record_mg, State.record_sec, State.record_mon, State.record_smb, State.record_lines, State.record_free, State.record_pending]

@[simp] theorem State.record_core (s : State) (d : Taken) (status detail epoch lvf frame : Nat) (late rrec : Bool) (k_ : Nat) : (s.record d status detail epoch lvf frame late rrec).core k_ = s.core k_ := by
  simp only [State.core, State.blankCore, State.record_panel]
@[simp] theorem State.record_port (s : State) (d : Taken) (status detail epoch lvf frame : Nat) (late rrec : Bool) (k_ : Nat) : (s.record d status detail epoch lvf frame late rrec).port k_ = s.port k_ := by
  simp only [State.port, State.record_ports]
@[simp] theorem State.record_ctx (s : State) (d : Taken) (status detail epoch lvf frame : Nat) (late rrec : Bool) (k_ : Nat) : (s.record d status detail epoch lvf frame late rrec).ctx k_ = s.ctx k_ := by
  simp only [State.ctx, State.record_ctxs]
@[simp] theorem State.record_epPort (s : State) (d : Taken) (status detail epoch lvf frame : Nat) (late rrec : Bool) (k_ : Nat) : (s.record d status detail epoch lvf frame late rrec).epPort k_ = s.epPort k_ := by
  simp only [State.epPort, State.record_ep]
@[simp] theorem State.record_job (s : State) (d : Taken) (status detail epoch lvf frame : Nat) (late rrec : Bool) (k_ : Nat) : (s.record d status detail epoch lvf frame late rrec).job k_ = s.job k_ := by
  simp only [State.job, State.record_ep]

/-- `complete` changes only link, fns. -/
theorem State.complete_frame (s : State) (d : Taken) (status detail : Nat) :
    s.complete d status detail = { s with link := (s.complete d status detail).link, fns := (s.complete d status detail).fns } := by
  simp only [State.complete, State.dropDesc, State.modFn, State.setFn]; split
  · rw [State.record_frame]
  · rfl

@[simp] theorem State.complete_ident (s : State) (d : Taken) (status detail : Nat) : (s.complete d status detail).ident = s.ident := by rw [State.complete_frame]
@[simp] theorem State.complete_tcb (s : State) (d : Taken) (status detail : Nat) : (s.complete d status detail).tcb = s.tcb := by rw [State.complete_frame]
@[simp] theorem State.complete_fs (s : State) (d : Taken) (status detail : Nat) : (s.complete d status detail).fs = s.fs := by rw [State.complete_frame]
@[simp] theorem State.complete_tel (s : State) (d : Taken) (status detail : Nat) : (s.complete d status detail).tel = s.tel := by rw [State.complete_frame]
@[simp] theorem State.complete_panel (s : State) (d : Taken) (status detail : Nat) : (s.complete d status detail).panel = s.panel := by rw [State.complete_frame]
@[simp] theorem State.complete_ports (s : State) (d : Taken) (status detail : Nat) : (s.complete d status detail).ports = s.ports := by rw [State.complete_frame]
@[simp] theorem State.complete_ctxs (s : State) (d : Taken) (status detail : Nat) : (s.complete d status detail).ctxs = s.ctxs := by rw [State.complete_frame]
@[simp] theorem State.complete_ep (s : State) (d : Taken) (status detail : Nat) : (s.complete d status detail).ep = s.ep := by rw [State.complete_frame]
@[simp] theorem State.complete_mg (s : State) (d : Taken) (status detail : Nat) : (s.complete d status detail).mg = s.mg := by rw [State.complete_frame]
@[simp] theorem State.complete_sec (s : State) (d : Taken) (status detail : Nat) : (s.complete d status detail).sec = s.sec := by rw [State.complete_frame]
@[simp] theorem State.complete_mon (s : State) (d : Taken) (status detail : Nat) : (s.complete d status detail).mon = s.mon := by rw [State.complete_frame]
@[simp] theorem State.complete_smb (s : State) (d : Taken) (status detail : Nat) : (s.complete d status detail).smb = s.smb := by rw [State.complete_frame]
@[simp] theorem State.complete_lines (s : State) (d : Taken) (status detail : Nat) : (s.complete d status detail).lines = s.lines := by rw [State.complete_frame]
@[simp] theorem State.complete_free (s : State) (d : Taken) (status detail : Nat) : (s.complete d status detail).free = s.free := by rw [State.complete_frame]
@[simp] theorem State.complete_pending (s : State) (d : Taken) (status detail : Nat) : (s.complete d status detail).pending = s.pending := by rw [State.complete_frame]
@[simp] theorem State.complete_core (s : State) (d : Taken) (status detail : Nat) (k_ : Nat) : (s.complete d status detail).core k_ = s.core k_ := by
  simp only [State.core, State.blankCore, State.complete_panel]
@[simp] theorem State.complete_port (s : State) (d : Taken) (status detail : Nat) (k_ : Nat) : (s.complete d status detail).port k_ = s.port k_ := by
  simp only [State.port, State.complete_ports]
@[simp] theorem State.complete_ctx (s : State) (d : Taken) (status detail : Nat) (k_ : Nat) : (s.complete d status detail).ctx k_ = s.ctx k_ := by
  simp only [State.ctx, State.complete_ctxs]
@[simp] theorem State.complete_epPort (s : State) (d : Taken) (status detail : Nat) (k_ : Nat) : (s.complete d status detail).epPort k_ = s.epPort k_ := by
  simp only [State.epPort, State.complete_ep]
@[simp] theorem State.complete_job (s : State) (d : Taken) (status detail : Nat) (k_ : Nat) : (s.complete d status detail).job k_ = s.job k_ := by
  simp only [State.job, State.complete_ep]

/-- `completeSubmit` changes only link, fns, ctxs. -/
theorem State.completeSubmit_frame (s : State) (d : Taken) (status detail : Nat) :
    s.completeSubmit d status detail = { s with link := (s.completeSubmit d status detail).link, fns := (s.completeSubmit d status detail).fns, ctxs := (s.completeSubmit d status detail).ctxs } := by
  simp only [State.completeSubmit, State.dropDesc, State.modFn, State.setFn]; split
  · split
    · rw [State.record_frame]; rfl
    · rw [State.record_frame]
  · rfl

@[simp] theorem State.completeSubmit_ident (s : State) (d : Taken) (status detail : Nat) : (s.completeSubmit d status detail).ident = s.ident := by rw [State.completeSubmit_frame]
@[simp] theorem State.completeSubmit_tcb (s : State) (d : Taken) (status detail : Nat) : (s.completeSubmit d status detail).tcb = s.tcb := by rw [State.completeSubmit_frame]
@[simp] theorem State.completeSubmit_fs (s : State) (d : Taken) (status detail : Nat) : (s.completeSubmit d status detail).fs = s.fs := by rw [State.completeSubmit_frame]
@[simp] theorem State.completeSubmit_tel (s : State) (d : Taken) (status detail : Nat) : (s.completeSubmit d status detail).tel = s.tel := by rw [State.completeSubmit_frame]
@[simp] theorem State.completeSubmit_panel (s : State) (d : Taken) (status detail : Nat) : (s.completeSubmit d status detail).panel = s.panel := by rw [State.completeSubmit_frame]
@[simp] theorem State.completeSubmit_ports (s : State) (d : Taken) (status detail : Nat) : (s.completeSubmit d status detail).ports = s.ports := by rw [State.completeSubmit_frame]
@[simp] theorem State.completeSubmit_ep (s : State) (d : Taken) (status detail : Nat) : (s.completeSubmit d status detail).ep = s.ep := by rw [State.completeSubmit_frame]
@[simp] theorem State.completeSubmit_mg (s : State) (d : Taken) (status detail : Nat) : (s.completeSubmit d status detail).mg = s.mg := by rw [State.completeSubmit_frame]
@[simp] theorem State.completeSubmit_sec (s : State) (d : Taken) (status detail : Nat) : (s.completeSubmit d status detail).sec = s.sec := by rw [State.completeSubmit_frame]
@[simp] theorem State.completeSubmit_mon (s : State) (d : Taken) (status detail : Nat) : (s.completeSubmit d status detail).mon = s.mon := by rw [State.completeSubmit_frame]
@[simp] theorem State.completeSubmit_smb (s : State) (d : Taken) (status detail : Nat) : (s.completeSubmit d status detail).smb = s.smb := by rw [State.completeSubmit_frame]
@[simp] theorem State.completeSubmit_lines (s : State) (d : Taken) (status detail : Nat) : (s.completeSubmit d status detail).lines = s.lines := by rw [State.completeSubmit_frame]
@[simp] theorem State.completeSubmit_free (s : State) (d : Taken) (status detail : Nat) : (s.completeSubmit d status detail).free = s.free := by rw [State.completeSubmit_frame]
@[simp] theorem State.completeSubmit_pending (s : State) (d : Taken) (status detail : Nat) : (s.completeSubmit d status detail).pending = s.pending := by rw [State.completeSubmit_frame]
@[simp] theorem State.completeSubmit_core (s : State) (d : Taken) (status detail : Nat) (k_ : Nat) : (s.completeSubmit d status detail).core k_ = s.core k_ := by
  simp only [State.core, State.blankCore, State.completeSubmit_panel]
@[simp] theorem State.completeSubmit_port (s : State) (d : Taken) (status detail : Nat) (k_ : Nat) : (s.completeSubmit d status detail).port k_ = s.port k_ := by
  simp only [State.port, State.completeSubmit_ports]
@[simp] theorem State.completeSubmit_epPort (s : State) (d : Taken) (status detail : Nat) (k_ : Nat) : (s.completeSubmit d status detail).epPort k_ = s.epPort k_ := by
  simp only [State.epPort, State.completeSubmit_ep]
@[simp] theorem State.completeSubmit_job (s : State) (d : Taken) (status detail : Nat) (k_ : Nat) : (s.completeSubmit d status detail).job k_ = s.job k_ := by
  simp only [State.job, State.completeSubmit_ep]

/-- `endBatch` changes only link, fns, ctxs. -/
theorem State.endBatch_frame (s : State) (c : Nat) (b : Batch) (status detail : Nat) (rrec : Bool) :
    s.endBatch c b status detail rrec = { s with link := (s.endBatch c b status detail rrec).link, fns := (s.endBatch c b status detail rrec).fns, ctxs := (s.endBatch c b status detail rrec).ctxs } := by
  simp only [State.endBatch, State.modCtx, State.setCtx]
  rw [State.record_frame]

@[simp] theorem State.endBatch_ident (s : State) (c : Nat) (b : Batch) (status detail : Nat) (rrec : Bool) : (s.endBatch c b status detail rrec).ident = s.ident := by rw [State.endBatch_frame]
@[simp] theorem State.endBatch_tcb (s : State) (c : Nat) (b : Batch) (status detail : Nat) (rrec : Bool) : (s.endBatch c b status detail rrec).tcb = s.tcb := by rw [State.endBatch_frame]
@[simp] theorem State.endBatch_fs (s : State) (c : Nat) (b : Batch) (status detail : Nat) (rrec : Bool) : (s.endBatch c b status detail rrec).fs = s.fs := by rw [State.endBatch_frame]
@[simp] theorem State.endBatch_tel (s : State) (c : Nat) (b : Batch) (status detail : Nat) (rrec : Bool) : (s.endBatch c b status detail rrec).tel = s.tel := by rw [State.endBatch_frame]
@[simp] theorem State.endBatch_panel (s : State) (c : Nat) (b : Batch) (status detail : Nat) (rrec : Bool) : (s.endBatch c b status detail rrec).panel = s.panel := by rw [State.endBatch_frame]
@[simp] theorem State.endBatch_ports (s : State) (c : Nat) (b : Batch) (status detail : Nat) (rrec : Bool) : (s.endBatch c b status detail rrec).ports = s.ports := by rw [State.endBatch_frame]
@[simp] theorem State.endBatch_ep (s : State) (c : Nat) (b : Batch) (status detail : Nat) (rrec : Bool) : (s.endBatch c b status detail rrec).ep = s.ep := by rw [State.endBatch_frame]
@[simp] theorem State.endBatch_mg (s : State) (c : Nat) (b : Batch) (status detail : Nat) (rrec : Bool) : (s.endBatch c b status detail rrec).mg = s.mg := by rw [State.endBatch_frame]
@[simp] theorem State.endBatch_sec (s : State) (c : Nat) (b : Batch) (status detail : Nat) (rrec : Bool) : (s.endBatch c b status detail rrec).sec = s.sec := by rw [State.endBatch_frame]
@[simp] theorem State.endBatch_mon (s : State) (c : Nat) (b : Batch) (status detail : Nat) (rrec : Bool) : (s.endBatch c b status detail rrec).mon = s.mon := by rw [State.endBatch_frame]
@[simp] theorem State.endBatch_smb (s : State) (c : Nat) (b : Batch) (status detail : Nat) (rrec : Bool) : (s.endBatch c b status detail rrec).smb = s.smb := by rw [State.endBatch_frame]
@[simp] theorem State.endBatch_lines (s : State) (c : Nat) (b : Batch) (status detail : Nat) (rrec : Bool) : (s.endBatch c b status detail rrec).lines = s.lines := by rw [State.endBatch_frame]
@[simp] theorem State.endBatch_free (s : State) (c : Nat) (b : Batch) (status detail : Nat) (rrec : Bool) : (s.endBatch c b status detail rrec).free = s.free := by rw [State.endBatch_frame]
@[simp] theorem State.endBatch_pending (s : State) (c : Nat) (b : Batch) (status detail : Nat) (rrec : Bool) : (s.endBatch c b status detail rrec).pending = s.pending := by rw [State.endBatch_frame]
@[simp] theorem State.endBatch_core (s : State) (c : Nat) (b : Batch) (status detail : Nat) (rrec : Bool) (k_ : Nat) : (s.endBatch c b status detail rrec).core k_ = s.core k_ := by
  simp only [State.core, State.blankCore, State.endBatch_panel]
@[simp] theorem State.endBatch_port (s : State) (c : Nat) (b : Batch) (status detail : Nat) (rrec : Bool) (k_ : Nat) : (s.endBatch c b status detail rrec).port k_ = s.port k_ := by
  simp only [State.port, State.endBatch_ports]
@[simp] theorem State.endBatch_epPort (s : State) (c : Nat) (b : Batch) (status detail : Nat) (rrec : Bool) (k_ : Nat) : (s.endBatch c b status detail rrec).epPort k_ = s.epPort k_ := by
  simp only [State.epPort, State.endBatch_ep]
@[simp] theorem State.endBatch_job (s : State) (c : Nat) (b : Batch) (status detail : Nat) (rrec : Bool) (k_ : Nat) : (s.endBatch c b status detail rrec).job k_ = s.job k_ := by
  simp only [State.job, State.endBatch_ep]

/-- `endBatches` changes only link, fns, ctxs. -/
theorem State.endBatches_frame (s : State) (c status detail : Nat) :
    s.endBatches c status detail = { s with link := (s.endBatches c status detail).link, fns := (s.endBatches c status detail).fns, ctxs := (s.endBatches c status detail).ctxs } := by
  simp only [State.endBatches]
  generalize (s.ctx c).batches = l
  induction l generalizing s with
  | nil => rfl
  | cons a l ih =>
    rw [List.foldl_cons, ih, State.endBatch_frame]

@[simp] theorem State.endBatches_ident (s : State) (c status detail : Nat) : (s.endBatches c status detail).ident = s.ident := by rw [State.endBatches_frame]
@[simp] theorem State.endBatches_tcb (s : State) (c status detail : Nat) : (s.endBatches c status detail).tcb = s.tcb := by rw [State.endBatches_frame]
@[simp] theorem State.endBatches_fs (s : State) (c status detail : Nat) : (s.endBatches c status detail).fs = s.fs := by rw [State.endBatches_frame]
@[simp] theorem State.endBatches_tel (s : State) (c status detail : Nat) : (s.endBatches c status detail).tel = s.tel := by rw [State.endBatches_frame]
@[simp] theorem State.endBatches_panel (s : State) (c status detail : Nat) : (s.endBatches c status detail).panel = s.panel := by rw [State.endBatches_frame]
@[simp] theorem State.endBatches_ports (s : State) (c status detail : Nat) : (s.endBatches c status detail).ports = s.ports := by rw [State.endBatches_frame]
@[simp] theorem State.endBatches_ep (s : State) (c status detail : Nat) : (s.endBatches c status detail).ep = s.ep := by rw [State.endBatches_frame]
@[simp] theorem State.endBatches_mg (s : State) (c status detail : Nat) : (s.endBatches c status detail).mg = s.mg := by rw [State.endBatches_frame]
@[simp] theorem State.endBatches_sec (s : State) (c status detail : Nat) : (s.endBatches c status detail).sec = s.sec := by rw [State.endBatches_frame]
@[simp] theorem State.endBatches_mon (s : State) (c status detail : Nat) : (s.endBatches c status detail).mon = s.mon := by rw [State.endBatches_frame]
@[simp] theorem State.endBatches_smb (s : State) (c status detail : Nat) : (s.endBatches c status detail).smb = s.smb := by rw [State.endBatches_frame]
@[simp] theorem State.endBatches_lines (s : State) (c status detail : Nat) : (s.endBatches c status detail).lines = s.lines := by rw [State.endBatches_frame]
@[simp] theorem State.endBatches_free (s : State) (c status detail : Nat) : (s.endBatches c status detail).free = s.free := by rw [State.endBatches_frame]
@[simp] theorem State.endBatches_pending (s : State) (c status detail : Nat) : (s.endBatches c status detail).pending = s.pending := by rw [State.endBatches_frame]
@[simp] theorem State.endBatches_core (s : State) (c status detail : Nat) (k_ : Nat) : (s.endBatches c status detail).core k_ = s.core k_ := by
  simp only [State.core, State.blankCore, State.endBatches_panel]
@[simp] theorem State.endBatches_port (s : State) (c status detail : Nat) (k_ : Nat) : (s.endBatches c status detail).port k_ = s.port k_ := by
  simp only [State.port, State.endBatches_ports]
@[simp] theorem State.endBatches_epPort (s : State) (c status detail : Nat) (k_ : Nat) : (s.endBatches c status detail).epPort k_ = s.epPort k_ := by
  simp only [State.epPort, State.endBatches_ep]
@[simp] theorem State.endBatches_job (s : State) (c status detail : Nat) (k_ : Nat) : (s.endBatches c status detail).job k_ = s.job k_ := by
  simp only [State.job, State.endBatches_ep]

/-- `tellFault` changes only link, fns, mg. -/
theorem State.tellFault_frame (s : State) (c code source arg0 arg1 : Nat) :
    s.tellFault c code source arg0 arg1 = { s with link := (s.tellFault c code source arg0 arg1).link, fns := (s.tellFault c code source arg0 arg1).fns, mg := (s.tellFault c code source arg0 arg1).mg } := by
  simp only [State.tellFault]; rw [State.logFault_frame, State.post_frame]

@[simp] theorem State.tellFault_ident (s : State) (c code source arg0 arg1 : Nat) : (s.tellFault c code source arg0 arg1).ident = s.ident := by rw [State.tellFault_frame]
@[simp] theorem State.tellFault_tcb (s : State) (c code source arg0 arg1 : Nat) : (s.tellFault c code source arg0 arg1).tcb = s.tcb := by rw [State.tellFault_frame]
@[simp] theorem State.tellFault_fs (s : State) (c code source arg0 arg1 : Nat) : (s.tellFault c code source arg0 arg1).fs = s.fs := by rw [State.tellFault_frame]
@[simp] theorem State.tellFault_tel (s : State) (c code source arg0 arg1 : Nat) : (s.tellFault c code source arg0 arg1).tel = s.tel := by rw [State.tellFault_frame]
@[simp] theorem State.tellFault_panel (s : State) (c code source arg0 arg1 : Nat) : (s.tellFault c code source arg0 arg1).panel = s.panel := by rw [State.tellFault_frame]
@[simp] theorem State.tellFault_ports (s : State) (c code source arg0 arg1 : Nat) : (s.tellFault c code source arg0 arg1).ports = s.ports := by rw [State.tellFault_frame]
@[simp] theorem State.tellFault_ctxs (s : State) (c code source arg0 arg1 : Nat) : (s.tellFault c code source arg0 arg1).ctxs = s.ctxs := by rw [State.tellFault_frame]
@[simp] theorem State.tellFault_ep (s : State) (c code source arg0 arg1 : Nat) : (s.tellFault c code source arg0 arg1).ep = s.ep := by rw [State.tellFault_frame]
@[simp] theorem State.tellFault_sec (s : State) (c code source arg0 arg1 : Nat) : (s.tellFault c code source arg0 arg1).sec = s.sec := by rw [State.tellFault_frame]
@[simp] theorem State.tellFault_mon (s : State) (c code source arg0 arg1 : Nat) : (s.tellFault c code source arg0 arg1).mon = s.mon := by rw [State.tellFault_frame]
@[simp] theorem State.tellFault_smb (s : State) (c code source arg0 arg1 : Nat) : (s.tellFault c code source arg0 arg1).smb = s.smb := by rw [State.tellFault_frame]
@[simp] theorem State.tellFault_lines (s : State) (c code source arg0 arg1 : Nat) : (s.tellFault c code source arg0 arg1).lines = s.lines := by rw [State.tellFault_frame]
@[simp] theorem State.tellFault_free (s : State) (c code source arg0 arg1 : Nat) : (s.tellFault c code source arg0 arg1).free = s.free := by rw [State.tellFault_frame]
@[simp] theorem State.tellFault_pending (s : State) (c code source arg0 arg1 : Nat) : (s.tellFault c code source arg0 arg1).pending = s.pending := by rw [State.tellFault_frame]
@[simp] theorem State.tellFault_core (s : State) (c code source arg0 arg1 : Nat) (k_ : Nat) : (s.tellFault c code source arg0 arg1).core k_ = s.core k_ := by
  simp only [State.core, State.blankCore, State.tellFault_panel]
@[simp] theorem State.tellFault_port (s : State) (c code source arg0 arg1 : Nat) (k_ : Nat) : (s.tellFault c code source arg0 arg1).port k_ = s.port k_ := by
  simp only [State.port, State.tellFault_ports]
@[simp] theorem State.tellFault_ctx (s : State) (c code source arg0 arg1 : Nat) (k_ : Nat) : (s.tellFault c code source arg0 arg1).ctx k_ = s.ctx k_ := by
  simp only [State.ctx, State.tellFault_ctxs]
@[simp] theorem State.tellFault_epPort (s : State) (c code source arg0 arg1 : Nat) (k_ : Nat) : (s.tellFault c code source arg0 arg1).epPort k_ = s.epPort k_ := by
  simp only [State.epPort, State.tellFault_ep]
@[simp] theorem State.tellFault_job (s : State) (c code source arg0 arg1 : Nat) (k_ : Nat) : (s.tellFault c code source arg0 arg1).job k_ = s.job k_ := by
  simp only [State.job, State.tellFault_ep]

/-- `reportFault` changes only ep. -/
theorem State.reportFault_frame (s : State) (c code source arg0 arg1 : Nat) :
    s.reportFault c code source arg0 arg1 = { s with ep := (s.reportFault c code source arg0 arg1).ep } := by
  simp only [State.reportFault]; split <;> rfl

@[simp] theorem State.reportFault_ident (s : State) (c code source arg0 arg1 : Nat) : (s.reportFault c code source arg0 arg1).ident = s.ident := by rw [State.reportFault_frame]
@[simp] theorem State.reportFault_tcb (s : State) (c code source arg0 arg1 : Nat) : (s.reportFault c code source arg0 arg1).tcb = s.tcb := by rw [State.reportFault_frame]
@[simp] theorem State.reportFault_fs (s : State) (c code source arg0 arg1 : Nat) : (s.reportFault c code source arg0 arg1).fs = s.fs := by rw [State.reportFault_frame]
@[simp] theorem State.reportFault_tel (s : State) (c code source arg0 arg1 : Nat) : (s.reportFault c code source arg0 arg1).tel = s.tel := by rw [State.reportFault_frame]
@[simp] theorem State.reportFault_panel (s : State) (c code source arg0 arg1 : Nat) : (s.reportFault c code source arg0 arg1).panel = s.panel := by rw [State.reportFault_frame]
@[simp] theorem State.reportFault_ports (s : State) (c code source arg0 arg1 : Nat) : (s.reportFault c code source arg0 arg1).ports = s.ports := by rw [State.reportFault_frame]
@[simp] theorem State.reportFault_ctxs (s : State) (c code source arg0 arg1 : Nat) : (s.reportFault c code source arg0 arg1).ctxs = s.ctxs := by rw [State.reportFault_frame]
@[simp] theorem State.reportFault_fns (s : State) (c code source arg0 arg1 : Nat) : (s.reportFault c code source arg0 arg1).fns = s.fns := by rw [State.reportFault_frame]
@[simp] theorem State.reportFault_link (s : State) (c code source arg0 arg1 : Nat) : (s.reportFault c code source arg0 arg1).link = s.link := by rw [State.reportFault_frame]
@[simp] theorem State.reportFault_mg (s : State) (c code source arg0 arg1 : Nat) : (s.reportFault c code source arg0 arg1).mg = s.mg := by rw [State.reportFault_frame]
@[simp] theorem State.reportFault_sec (s : State) (c code source arg0 arg1 : Nat) : (s.reportFault c code source arg0 arg1).sec = s.sec := by rw [State.reportFault_frame]
@[simp] theorem State.reportFault_mon (s : State) (c code source arg0 arg1 : Nat) : (s.reportFault c code source arg0 arg1).mon = s.mon := by rw [State.reportFault_frame]
@[simp] theorem State.reportFault_smb (s : State) (c code source arg0 arg1 : Nat) : (s.reportFault c code source arg0 arg1).smb = s.smb := by rw [State.reportFault_frame]
@[simp] theorem State.reportFault_lines (s : State) (c code source arg0 arg1 : Nat) : (s.reportFault c code source arg0 arg1).lines = s.lines := by rw [State.reportFault_frame]
@[simp] theorem State.reportFault_free (s : State) (c code source arg0 arg1 : Nat) : (s.reportFault c code source arg0 arg1).free = s.free := by rw [State.reportFault_frame]
@[simp] theorem State.reportFault_pending (s : State) (c code source arg0 arg1 : Nat) : (s.reportFault c code source arg0 arg1).pending = s.pending := by rw [State.reportFault_frame]
@[simp] theorem State.reportFault_core (s : State) (c code source arg0 arg1 : Nat) (k_ : Nat) : (s.reportFault c code source arg0 arg1).core k_ = s.core k_ := by
  simp only [State.core, State.blankCore, State.reportFault_panel]
@[simp] theorem State.reportFault_port (s : State) (c code source arg0 arg1 : Nat) (k_ : Nat) : (s.reportFault c code source arg0 arg1).port k_ = s.port k_ := by
  simp only [State.port, State.reportFault_ports]
@[simp] theorem State.reportFault_ctx (s : State) (c code source arg0 arg1 : Nat) (k_ : Nat) : (s.reportFault c code source arg0 arg1).ctx k_ = s.ctx k_ := by
  simp only [State.ctx, State.reportFault_ctxs]
@[simp] theorem State.reportFault_fn (s : State) (c code source arg0 arg1 : Nat) (k_ : Nat) : (s.reportFault c code source arg0 arg1).fn k_ = s.fn k_ := by
  simp only [State.fn, State.reportFault_fns]

/-- `ctxFault` changes only link, fns, mg, ctxs, ep. -/
theorem State.ctxFault_frame (s : State) (c code source arg0 arg1 : Nat) :
    s.ctxFault c code source arg0 arg1 = { s with link := (s.ctxFault c code source arg0 arg1).link, fns := (s.ctxFault c code source arg0 arg1).fns, mg := (s.ctxFault c code source arg0 arg1).mg, ctxs := (s.ctxFault c code source arg0 arg1).ctxs, ep := (s.ctxFault c code source arg0 arg1).ep } := by
  simp only [State.ctxFault]
  split <;> (try rw [State.reportFault_frame, State.modCtx, State.setCtx, State.endBatches_frame]) <;>
    rw [State.tellFault_frame]

@[simp] theorem State.ctxFault_ident (s : State) (c code source arg0 arg1 : Nat) : (s.ctxFault c code source arg0 arg1).ident = s.ident := by rw [State.ctxFault_frame]
@[simp] theorem State.ctxFault_tcb (s : State) (c code source arg0 arg1 : Nat) : (s.ctxFault c code source arg0 arg1).tcb = s.tcb := by rw [State.ctxFault_frame]
@[simp] theorem State.ctxFault_fs (s : State) (c code source arg0 arg1 : Nat) : (s.ctxFault c code source arg0 arg1).fs = s.fs := by rw [State.ctxFault_frame]
@[simp] theorem State.ctxFault_tel (s : State) (c code source arg0 arg1 : Nat) : (s.ctxFault c code source arg0 arg1).tel = s.tel := by rw [State.ctxFault_frame]
@[simp] theorem State.ctxFault_panel (s : State) (c code source arg0 arg1 : Nat) : (s.ctxFault c code source arg0 arg1).panel = s.panel := by rw [State.ctxFault_frame]
@[simp] theorem State.ctxFault_ports (s : State) (c code source arg0 arg1 : Nat) : (s.ctxFault c code source arg0 arg1).ports = s.ports := by rw [State.ctxFault_frame]
@[simp] theorem State.ctxFault_sec (s : State) (c code source arg0 arg1 : Nat) : (s.ctxFault c code source arg0 arg1).sec = s.sec := by rw [State.ctxFault_frame]
@[simp] theorem State.ctxFault_mon (s : State) (c code source arg0 arg1 : Nat) : (s.ctxFault c code source arg0 arg1).mon = s.mon := by rw [State.ctxFault_frame]
@[simp] theorem State.ctxFault_smb (s : State) (c code source arg0 arg1 : Nat) : (s.ctxFault c code source arg0 arg1).smb = s.smb := by rw [State.ctxFault_frame]
@[simp] theorem State.ctxFault_lines (s : State) (c code source arg0 arg1 : Nat) : (s.ctxFault c code source arg0 arg1).lines = s.lines := by rw [State.ctxFault_frame]
@[simp] theorem State.ctxFault_free (s : State) (c code source arg0 arg1 : Nat) : (s.ctxFault c code source arg0 arg1).free = s.free := by rw [State.ctxFault_frame]
@[simp] theorem State.ctxFault_pending (s : State) (c code source arg0 arg1 : Nat) : (s.ctxFault c code source arg0 arg1).pending = s.pending := by rw [State.ctxFault_frame]
@[simp] theorem State.ctxFault_core (s : State) (c code source arg0 arg1 : Nat) (k_ : Nat) : (s.ctxFault c code source arg0 arg1).core k_ = s.core k_ := by
  simp only [State.core, State.blankCore, State.ctxFault_panel]
@[simp] theorem State.ctxFault_port (s : State) (c code source arg0 arg1 : Nat) (k_ : Nat) : (s.ctxFault c code source arg0 arg1).port k_ = s.port k_ := by
  simp only [State.port, State.ctxFault_ports]

/-- `coreFault` changes only link, fns, mg, ctxs, ep. -/
theorem State.coreFault_frame (s : State) (i code arg0 arg1 : Nat) :
    s.coreFault i code arg0 arg1 = { s with link := (s.coreFault i code arg0 arg1).link, fns := (s.coreFault i code arg0 arg1).fns, mg := (s.coreFault i code arg0 arg1).mg, ctxs := (s.coreFault i code arg0 arg1).ctxs, ep := (s.coreFault i code arg0 arg1).ep } := by
  simp only [State.coreFault]; split
  · rw [State.ctxFault_frame]
  · rfl

@[simp] theorem State.coreFault_ident (s : State) (i code arg0 arg1 : Nat) : (s.coreFault i code arg0 arg1).ident = s.ident := by rw [State.coreFault_frame]
@[simp] theorem State.coreFault_tcb (s : State) (i code arg0 arg1 : Nat) : (s.coreFault i code arg0 arg1).tcb = s.tcb := by rw [State.coreFault_frame]
@[simp] theorem State.coreFault_fs (s : State) (i code arg0 arg1 : Nat) : (s.coreFault i code arg0 arg1).fs = s.fs := by rw [State.coreFault_frame]
@[simp] theorem State.coreFault_tel (s : State) (i code arg0 arg1 : Nat) : (s.coreFault i code arg0 arg1).tel = s.tel := by rw [State.coreFault_frame]
@[simp] theorem State.coreFault_panel (s : State) (i code arg0 arg1 : Nat) : (s.coreFault i code arg0 arg1).panel = s.panel := by rw [State.coreFault_frame]
@[simp] theorem State.coreFault_ports (s : State) (i code arg0 arg1 : Nat) : (s.coreFault i code arg0 arg1).ports = s.ports := by rw [State.coreFault_frame]
@[simp] theorem State.coreFault_sec (s : State) (i code arg0 arg1 : Nat) : (s.coreFault i code arg0 arg1).sec = s.sec := by rw [State.coreFault_frame]
@[simp] theorem State.coreFault_mon (s : State) (i code arg0 arg1 : Nat) : (s.coreFault i code arg0 arg1).mon = s.mon := by rw [State.coreFault_frame]
@[simp] theorem State.coreFault_smb (s : State) (i code arg0 arg1 : Nat) : (s.coreFault i code arg0 arg1).smb = s.smb := by rw [State.coreFault_frame]
@[simp] theorem State.coreFault_lines (s : State) (i code arg0 arg1 : Nat) : (s.coreFault i code arg0 arg1).lines = s.lines := by rw [State.coreFault_frame]
@[simp] theorem State.coreFault_free (s : State) (i code arg0 arg1 : Nat) : (s.coreFault i code arg0 arg1).free = s.free := by rw [State.coreFault_frame]
@[simp] theorem State.coreFault_pending (s : State) (i code arg0 arg1 : Nat) : (s.coreFault i code arg0 arg1).pending = s.pending := by rw [State.coreFault_frame]
@[simp] theorem State.coreFault_core (s : State) (i code arg0 arg1 : Nat) (k_ : Nat) : (s.coreFault i code arg0 arg1).core k_ = s.core k_ := by
  simp only [State.core, State.blankCore, State.coreFault_panel]
@[simp] theorem State.coreFault_port (s : State) (i code arg0 arg1 : Nat) (k_ : Nat) : (s.coreFault i code arg0 arg1).port k_ = s.port k_ := by
  simp only [State.port, State.coreFault_ports]

end Sys2Proof.Machine
end

