-- ==== Sys2Proof/Laws/Issue.lean ====
section
/-! SUPPORT. Issue of a bundle: when it issues, what each slot can change in the core, and what it can
change outside it. -/
namespace Sys2Proof.Machine

open Sys2Proof

/-! ## When a bundle issues -/

theorem exec_slot {i : Instr} {x : CoreId} {b : Bundle} (h : slotOf i = some (x, b)) (s : State) :
    exec i s = runBundle x b s := by
  cases i <;> simp only [slotOf, Option.some.injEq, Prod.mk.injEq, reduceCtorEq] at h <;>
    (obtain ⟨rfl, rfl⟩ := h; rfl)

/-- A bundle that issues does so in the cycle of `issueCore`. -/
theorem runBundle_issues {x : CoreId} {b : Bundle} {s : State} (hx : inArray x = true)
    (h : Issues s (coreIdx x) b = true) :
    runBundle x b s =
      .next (issueNow s (s.ownerOf (coreIdx x)) (coreIdx x) (s.issueCore (coreIdx x) b) b) := by
  simp only [Issues, Bool.and_eq_true, Bool.not_eq_true', Option.isNone_iff_eq_none] at h
  obtain ⟨⟨⟨⟨hl, hr⟩, hf⟩, he⟩, hs⟩ := h
  simp only [runBundle, atCore, hx, if_true, tryIssue, hl, Bool.not_true, Bool.false_eq_true, if_false,
    Bool.false_and]
  rw [show (s.core (coreIdx x)).owner.getD 0 = s.ownerOf (coreIdx x) from rfl, hr]
  simp only [Bool.not_true, Bool.false_eq_true, if_false]
  rw [show (sendWatch (s.core (coreIdx x)) b.sy).pass ((sendWatch (s.core (coreIdx x)) b.sy).earliest -
    (sendWatch (s.core (coreIdx x)) b.sy).cyc) = s.waitedCore (coreIdx x) b from rfl, hf, he]
  rw [show (s.waitedCore (coreIdx x) b).slipBy (readyAt (s.waitedCore (coreIdx x) b) b -
    (s.waitedCore (coreIdx x) b).cyc) = s.issueCore (coreIdx x) b from rfl, hs]
  simp

/-! ## The core as the bundle finds it -/

theorem sendWatch_frame (c : Core) (op : SyOp) : sendWatch c op = { c with watch := (sendWatch c op).watch } := by
  cases op <;> simp only [sendWatch] <;> (try split) <;> rfl

theorem Core.slipBy_frame (c : Core) (n : Nat) :
    c.slipBy n = { c with cyc := (c.slipBy n).cyc, phase := (c.slipBy n).phase, slip := (c.slipBy n).slip,
                          slipTotal := (c.slipBy n).slipTotal } := by
  simp only [Core.slipBy]; split <;> rfl

/-- Waiting changes only the clock, the phase, the slip counts and the watch. -/
theorem State.issueCore_frame (s : State) (i : Nat) (b : Bundle) :
    s.issueCore i b = { s.core i with
      cyc := (s.issueCore i b).cyc, phase := (s.issueCore i b).phase, slip := (s.issueCore i b).slip,
      slipTotal := (s.issueCore i b).slipTotal, watch := (s.issueCore i b).watch } := by
  simp only [State.issueCore, State.waitedCore]
  rw [Core.slipBy_frame, sendWatch_frame]
  rfl

/-! ## What each slot can change in its core -/

theorem scApply_frame (c0 c : Core) (op : ScOp) :
    scApply c0 c op = { c with ctrs := (scApply c0 c op).ctrs, cmps := (scApply c0 c op).cmps,
                               stopped := (scApply c0 c op).stopped } := by
  cases op <;> rfl

theorem tickLatch_frame (c : Core) (op : SyOp) :
    tickLatch c op = { c with
      latSlip := (tickLatch c op).latSlip, latIdle := (tickLatch c op).latIdle,
      latFlags := (tickLatch c op).latFlags, latSlips := (tickLatch c op).latSlips,
      newFlags := (tickLatch c op).newFlags, counted := (tickLatch c op).counted,
      slip := (tickLatch c op).slip, idle := (tickLatch c op).idle, flags := (tickLatch c op).flags } := by
  cases op <;> rfl

/-- Only TICK latches (R64). -/
theorem tickLatch_of_ne {op : SyOp} (h : op ≠ .tick) (c : Core) : tickLatch c op = c := by
  cases op <;> first | rfl | exact absurd rfl h

theorem syApply_frame (c0 c : Core) (op : SyOp) :
    syApply c0 c op = { c with
      pendTicks := (syApply c0 c op).pendTicks, waitTick := (syApply c0 c op).waitTick,
      earliest := (syApply c0 c op).earliest,
      qnotes := (syApply c0 c op).qnotes, watch := (syApply c0 c op).watch,
      nextId := (syApply c0 c op).nextId, ranges := (syApply c0 c op).ranges,
      unclaimed := (syApply c0 c op).unclaimed } := by
  cases op <;> rfl

theorem lsApply_frame (c0 c : Core) (st : Bool) (op : LsOp) :
    lsApply c0 c st op = { c with
      nextId := (lsApply c0 c st op).nextId, ranges := (lsApply c0 c st op).ranges,
      ld := (lsApply c0 c st op).ld, st := (lsApply c0 c st op).st } := by
  cases op <;> rfl

theorem mxApply_frame (c0 c : Core) (op : MxOp) :
    mxApply c0 c op = { c with
      acc := (mxApply c0 c op).acc, flags := (mxApply c0 c op).flags, sticky := (mxApply c0 c op).sticky } := by
  cases op <;> simp only [mxApply, Core.raise]

/-- A fold whose every step changes only the registers, memory and flags of a core changes only those. -/
theorem foldl_ve_frame {α : Type} (f : Core → α → Core)
    (hf : ∀ c a, f c a = { c with tile := (f c a).tile, vec := (f c a).vec, mem := (f c a).mem,
                                  flags := (f c a).flags, sticky := (f c a).sticky }) (l : List α) :
    ∀ c, l.foldl f c = { c with
      tile := (l.foldl f c).tile, vec := (l.foldl f c).vec, mem := (l.foldl f c).mem,
      flags := (l.foldl f c).flags, sticky := (l.foldl f c).sticky } := by
  induction l with
  | nil => intro c; rfl
  | cons a l ih =>
    intro c
    rw [List.foldl_cons, ih (f c a), hf c a]

theorem Core.correct_frame (c : Core) (a n : Nat) :
    c.correct a n = { c with eccSingle := (c.correct a n).eccSingle, correctable := (c.correct a n).correctable } := by
  simp only [Core.correct]; split <;> rfl

theorem Core.overwritten_frame (c : Core) (a n : Nat) :
    c.overwritten a n = { c with eccSingle := (c.overwritten a n).eccSingle, eccDouble := (c.overwritten a n).eccDouble,
                                 correctable := (c.overwritten a n).correctable } := by
  simp only [Core.overwritten]; split
  · rfl
  · rw [Core.correct_frame]

/-- A fold whose every step changes only the error marks and their count changes only those. -/
theorem foldl_ecc_frame {α : Type} (f : Core → α → Core)
    (hf : ∀ c a, f c a = { c with eccSingle := (f c a).eccSingle, eccDouble := (f c a).eccDouble,
                                  correctable := (f c a).correctable }) (l : List α) :
    ∀ c, l.foldl f c = { c with eccSingle := (l.foldl f c).eccSingle, eccDouble := (l.foldl f c).eccDouble,
                                correctable := (l.foldl f c).correctable } := by
  induction l with
  | nil => intro c; rfl
  | cons a l ih =>
    intro c
    rw [List.foldl_cons, ih (f c a), hf c a]

/-- Error correction beside an issue changes only the error marks and their count (R112). -/
theorem Core.eccAfter_frame (c c0 : Core) (b : Bundle) :
    c.eccAfter c0 b = { c with eccSingle := (c.eccAfter c0 b).eccSingle, eccDouble := (c.eccAfter c0 b).eccDouble,
                               correctable := (c.eccAfter c0 b).correctable } := by
  simp only [Core.eccAfter]; split
  · rfl
  · rw [foldl_ecc_frame _ (fun k r => Core.overwritten_frame k r.1 r.2),
      foldl_ecc_frame _ (fun k r => by rw [Core.correct_frame])]

theorem veApply_frame (c0 c : Core) (op : VeOp) :
    veApply c0 c op = { c with
      lenRow := (veApply c0 c op).lenRow, lenCol := (veApply c0 c op).lenCol, tile := (veApply c0 c op).tile,
      vec := (veApply c0 c op).vec, acc := (veApply c0 c op).acc, mem := (veApply c0 c op).mem,
      flags := (veApply c0 c op).flags, sticky := (veApply c0 c op).sticky } := by
  cases op with
  | vstt f => simp only [veApply]; rw [foldl_ve_frame _ (fun c a => rfl)]
  | vsmax t v w => simp only [veApply]; rw [foldl_ve_frame _ (fun c a => rfl)]
  | vssum t v w => simp only [veApply]; rw [foldl_ve_frame _ (fun c a => rfl)]
  | vacc t a clr => simp only [veApply, Core.putLanes]; split <;> simp only
  | vmovv t v sub => simp only [veApply, Core.putVlanes]; split <;> simp only
  | _ => simp only [veApply, Core.putLanes, Core.putVlanes, Core.raise]

/-! ## Field by field -/

@[simp] theorem timing_ctrs (lat : Nat) (c0 c : Core) (b : Bundle) : (timing lat c0 c b).ctrs = c.ctrs := rfl
@[simp] theorem timing_cmps (lat : Nat) (c0 c : Core) (b : Bundle) : (timing lat c0 c b).cmps = c.cmps := rfl
@[simp] theorem timing_bidx (lat : Nat) (c0 c : Core) (b : Bundle) : (timing lat c0 c b).bidx = c.bidx := rfl
@[simp] theorem timing_issuing (lat : Nat) (c0 c : Core) (b : Bundle) : (timing lat c0 c b).issuing = c.issuing := rfl
@[simp] theorem timing_stopped (lat : Nat) (c0 c : Core) (b : Bundle) : (timing lat c0 c b).stopped = c.stopped := rfl
@[simp] theorem timing_cyc (lat : Nat) (c0 c : Core) (b : Bundle) : (timing lat c0 c b).cyc = c.cyc := rfl
@[simp] theorem timing_earliest (lat : Nat) (c0 c : Core) (b : Bundle) : (timing lat c0 c b).earliest = c.earliest := rfl
@[simp] theorem timing_phase (lat : Nat) (c0 c : Core) (b : Bundle) : (timing lat c0 c b).phase = c.phase := rfl
@[simp] theorem timing_pendTicks (lat : Nat) (c0 c : Core) (b : Bundle) : (timing lat c0 c b).pendTicks = c.pendTicks := rfl
@[simp] theorem timing_waitTick (lat : Nat) (c0 c : Core) (b : Bundle) : (timing lat c0 c b).waitTick = c.waitTick := rfl
@[simp] theorem timing_idle (lat : Nat) (c0 c : Core) (b : Bundle) : (timing lat c0 c b).idle = c.idle := rfl
@[simp] theorem timing_slip (lat : Nat) (c0 c : Core) (b : Bundle) : (timing lat c0 c b).slip = c.slip := rfl
@[simp] theorem timing_slipTotal (lat : Nat) (c0 c : Core) (b : Bundle) : (timing lat c0 c b).slipTotal = c.slipTotal := rfl
@[simp] theorem timing_latSlip (lat : Nat) (c0 c : Core) (b : Bundle) : (timing lat c0 c b).latSlip = c.latSlip := rfl
@[simp] theorem timing_latIdle (lat : Nat) (c0 c : Core) (b : Bundle) : (timing lat c0 c b).latIdle = c.latIdle := rfl
@[simp] theorem timing_latFlags (lat : Nat) (c0 c : Core) (b : Bundle) : (timing lat c0 c b).latFlags = c.latFlags := rfl
@[simp] theorem timing_latSlips (lat : Nat) (c0 c : Core) (b : Bundle) : (timing lat c0 c b).latSlips = c.latSlips := rfl
@[simp] theorem timing_newFlags (lat : Nat) (c0 c : Core) (b : Bundle) : (timing lat c0 c b).newFlags = c.newFlags := rfl
@[simp] theorem timing_counted (lat : Nat) (c0 c : Core) (b : Bundle) : (timing lat c0 c b).counted = c.counted := rfl
@[simp] theorem timing_flags (lat : Nat) (c0 c : Core) (b : Bundle) : (timing lat c0 c b).flags = c.flags := rfl
@[simp] theorem timing_sticky (lat : Nat) (c0 c : Core) (b : Bundle) : (timing lat c0 c b).sticky = c.sticky := rfl
@[simp] theorem timing_acc (lat : Nat) (c0 c : Core) (b : Bundle) : (timing lat c0 c b).acc = c.acc := rfl
@[simp] theorem timing_tile (lat : Nat) (c0 c : Core) (b : Bundle) : (timing lat c0 c b).tile = c.tile := rfl
@[simp] theorem timing_vec (lat : Nat) (c0 c : Core) (b : Bundle) : (timing lat c0 c b).vec = c.vec := rfl
@[simp] theorem timing_lenRow (lat : Nat) (c0 c : Core) (b : Bundle) : (timing lat c0 c b).lenRow = c.lenRow := rfl
@[simp] theorem timing_lenCol (lat : Nat) (c0 c : Core) (b : Bundle) : (timing lat c0 c b).lenCol = c.lenCol := rfl
@[simp] theorem timing_tested (lat : Nat) (c0 c : Core) (b : Bundle) : (timing lat c0 c b).tested = c.tested := rfl
@[simp] theorem timing_nextId (lat : Nat) (c0 c : Core) (b : Bundle) : (timing lat c0 c b).nextId = c.nextId := rfl
@[simp] theorem timing_ld (lat : Nat) (c0 c : Core) (b : Bundle) : (timing lat c0 c b).ld = c.ld := rfl
@[simp] theorem timing_st (lat : Nat) (c0 c : Core) (b : Bundle) : (timing lat c0 c b).st = c.st := rfl
@[simp] theorem timing_unclaimed (lat : Nat) (c0 c : Core) (b : Bundle) : (timing lat c0 c b).unclaimed = c.unclaimed := rfl
@[simp] theorem timing_due (lat : Nat) (c0 c : Core) (b : Bundle) : (timing lat c0 c b).due = c.due := rfl
@[simp] theorem timing_qnotes (lat : Nat) (c0 c : Core) (b : Bundle) : (timing lat c0 c b).qnotes = c.qnotes := rfl
@[simp] theorem timing_watch (lat : Nat) (c0 c : Core) (b : Bundle) : (timing lat c0 c b).watch = c.watch := rfl
@[simp] theorem timing_mem (lat : Nat) (c0 c : Core) (b : Bundle) : (timing lat c0 c b).mem = c.mem := rfl
@[simp] theorem timing_istore (lat : Nat) (c0 c : Core) (b : Bundle) : (timing lat c0 c b).istore = c.istore := rfl
@[simp] theorem timing_dstore (lat : Nat) (c0 c : Core) (b : Bundle) : (timing lat c0 c b).dstore = c.dstore := rfl
@[simp] theorem timing_handles (lat : Nat) (c0 c : Core) (b : Bundle) : (timing lat c0 c b).handles = c.handles := rfl
@[simp] theorem timing_eccSingle (lat : Nat) (c0 c : Core) (b : Bundle) : (timing lat c0 c b).eccSingle = c.eccSingle := rfl
@[simp] theorem timing_eccDouble (lat : Nat) (c0 c : Core) (b : Bundle) : (timing lat c0 c b).eccDouble = c.eccDouble := rfl
@[simp] theorem timing_correctable (lat : Nat) (c0 c : Core) (b : Bundle) : (timing lat c0 c b).correctable = c.correctable := rfl
@[simp] theorem timing_uncorr (lat : Nat) (c0 c : Core) (b : Bundle) : (timing lat c0 c b).uncorr = c.uncorr := rfl
@[simp] theorem timing_owner (lat : Nat) (c0 c : Core) (b : Bundle) : (timing lat c0 c b).owner = c.owner := rfl
@[simp] theorem timing_keys (lat : Nat) (c0 c : Core) (b : Bundle) : (timing lat c0 c b).keys = c.keys := rfl
@[simp] theorem timing_redWait (lat : Nat) (c0 c : Core) (b : Bundle) : (timing lat c0 c b).redWait = c.redWait := rfl
@[simp] theorem timing_lent (lat : Nat) (c0 c : Core) (b : Bundle) : (timing lat c0 c b).lent = c.lent := rfl
@[simp] theorem timing_selfFail (lat : Nat) (c0 c : Core) (b : Bundle) : (timing lat c0 c b).selfFail = c.selfFail := rfl

@[simp] theorem scApply_bidx (c0 c : Core) (op : ScOp) : (scApply c0 c op).bidx = c.bidx := by rw [scApply_frame]
@[simp] theorem scApply_issuing (c0 c : Core) (op : ScOp) : (scApply c0 c op).issuing = c.issuing := by rw [scApply_frame]
@[simp] theorem scApply_cyc (c0 c : Core) (op : ScOp) : (scApply c0 c op).cyc = c.cyc := by rw [scApply_frame]
@[simp] theorem scApply_earliest (c0 c : Core) (op : ScOp) : (scApply c0 c op).earliest = c.earliest := by rw [scApply_frame]
@[simp] theorem scApply_phase (c0 c : Core) (op : ScOp) : (scApply c0 c op).phase = c.phase := by rw [scApply_frame]
@[simp] theorem scApply_pendTicks (c0 c : Core) (op : ScOp) : (scApply c0 c op).pendTicks = c.pendTicks := by rw [scApply_frame]
@[simp] theorem scApply_waitTick (c0 c : Core) (op : ScOp) : (scApply c0 c op).waitTick = c.waitTick := by rw [scApply_frame]
@[simp] theorem scApply_idle (c0 c : Core) (op : ScOp) : (scApply c0 c op).idle = c.idle := by rw [scApply_frame]
@[simp] theorem scApply_slip (c0 c : Core) (op : ScOp) : (scApply c0 c op).slip = c.slip := by rw [scApply_frame]
@[simp] theorem scApply_slipTotal (c0 c : Core) (op : ScOp) : (scApply c0 c op).slipTotal = c.slipTotal := by rw [scApply_frame]
@[simp] theorem scApply_latSlip (c0 c : Core) (op : ScOp) : (scApply c0 c op).latSlip = c.latSlip := by rw [scApply_frame]
@[simp] theorem scApply_latIdle (c0 c : Core) (op : ScOp) : (scApply c0 c op).latIdle = c.latIdle := by rw [scApply_frame]
@[simp] theorem scApply_latFlags (c0 c : Core) (op : ScOp) : (scApply c0 c op).latFlags = c.latFlags := by rw [scApply_frame]
@[simp] theorem scApply_latSlips (c0 c : Core) (op : ScOp) : (scApply c0 c op).latSlips = c.latSlips := by rw [scApply_frame]
@[simp] theorem scApply_newFlags (c0 c : Core) (op : ScOp) : (scApply c0 c op).newFlags = c.newFlags := by rw [scApply_frame]
@[simp] theorem scApply_counted (c0 c : Core) (op : ScOp) : (scApply c0 c op).counted = c.counted := by rw [scApply_frame]
@[simp] theorem scApply_flags (c0 c : Core) (op : ScOp) : (scApply c0 c op).flags = c.flags := by rw [scApply_frame]
@[simp] theorem scApply_sticky (c0 c : Core) (op : ScOp) : (scApply c0 c op).sticky = c.sticky := by rw [scApply_frame]
@[simp] theorem scApply_acc (c0 c : Core) (op : ScOp) : (scApply c0 c op).acc = c.acc := by rw [scApply_frame]
@[simp] theorem scApply_tile (c0 c : Core) (op : ScOp) : (scApply c0 c op).tile = c.tile := by rw [scApply_frame]
@[simp] theorem scApply_vec (c0 c : Core) (op : ScOp) : (scApply c0 c op).vec = c.vec := by rw [scApply_frame]
@[simp] theorem scApply_lenRow (c0 c : Core) (op : ScOp) : (scApply c0 c op).lenRow = c.lenRow := by rw [scApply_frame]
@[simp] theorem scApply_lenCol (c0 c : Core) (op : ScOp) : (scApply c0 c op).lenCol = c.lenCol := by rw [scApply_frame]
@[simp] theorem scApply_mxFree (c0 c : Core) (op : ScOp) : (scApply c0 c op).mxFree = c.mxFree := by rw [scApply_frame]
@[simp] theorem scApply_mxAcc (c0 c : Core) (op : ScOp) : (scApply c0 c op).mxAcc = c.mxAcc := by rw [scApply_frame]
@[simp] theorem scApply_veFree (c0 c : Core) (op : ScOp) : (scApply c0 c op).veFree = c.veFree := by rw [scApply_frame]
@[simp] theorem scApply_tileFree (c0 c : Core) (op : ScOp) : (scApply c0 c op).tileFree = c.tileFree := by rw [scApply_frame]
@[simp] theorem scApply_moves (c0 c : Core) (op : ScOp) : (scApply c0 c op).moves = c.moves := by rw [scApply_frame]
@[simp] theorem scApply_fetch (c0 c : Core) (op : ScOp) : (scApply c0 c op).fetch = c.fetch := by rw [scApply_frame]
@[simp] theorem scApply_tested (c0 c : Core) (op : ScOp) : (scApply c0 c op).tested = c.tested := by rw [scApply_frame]
@[simp] theorem scApply_regs (c0 c : Core) (op : ScOp) : (scApply c0 c op).regs = c.regs := by rw [scApply_frame]
@[simp] theorem scApply_ranges (c0 c : Core) (op : ScOp) : (scApply c0 c op).ranges = c.ranges := by rw [scApply_frame]
@[simp] theorem scApply_nextId (c0 c : Core) (op : ScOp) : (scApply c0 c op).nextId = c.nextId := by rw [scApply_frame]
@[simp] theorem scApply_ld (c0 c : Core) (op : ScOp) : (scApply c0 c op).ld = c.ld := by rw [scApply_frame]
@[simp] theorem scApply_st (c0 c : Core) (op : ScOp) : (scApply c0 c op).st = c.st := by rw [scApply_frame]
@[simp] theorem scApply_unclaimed (c0 c : Core) (op : ScOp) : (scApply c0 c op).unclaimed = c.unclaimed := by rw [scApply_frame]
@[simp] theorem scApply_due (c0 c : Core) (op : ScOp) : (scApply c0 c op).due = c.due := by rw [scApply_frame]
@[simp] theorem scApply_qnotes (c0 c : Core) (op : ScOp) : (scApply c0 c op).qnotes = c.qnotes := by rw [scApply_frame]
@[simp] theorem scApply_watch (c0 c : Core) (op : ScOp) : (scApply c0 c op).watch = c.watch := by rw [scApply_frame]
@[simp] theorem scApply_mem (c0 c : Core) (op : ScOp) : (scApply c0 c op).mem = c.mem := by rw [scApply_frame]
@[simp] theorem scApply_istore (c0 c : Core) (op : ScOp) : (scApply c0 c op).istore = c.istore := by rw [scApply_frame]
@[simp] theorem scApply_dstore (c0 c : Core) (op : ScOp) : (scApply c0 c op).dstore = c.dstore := by rw [scApply_frame]
@[simp] theorem scApply_handles (c0 c : Core) (op : ScOp) : (scApply c0 c op).handles = c.handles := by rw [scApply_frame]
@[simp] theorem scApply_eccSingle (c0 c : Core) (op : ScOp) : (scApply c0 c op).eccSingle = c.eccSingle := by rw [scApply_frame]
@[simp] theorem scApply_eccDouble (c0 c : Core) (op : ScOp) : (scApply c0 c op).eccDouble = c.eccDouble := by rw [scApply_frame]
@[simp] theorem scApply_correctable (c0 c : Core) (op : ScOp) : (scApply c0 c op).correctable = c.correctable := by rw [scApply_frame]
@[simp] theorem scApply_uncorr (c0 c : Core) (op : ScOp) : (scApply c0 c op).uncorr = c.uncorr := by rw [scApply_frame]
@[simp] theorem scApply_owner (c0 c : Core) (op : ScOp) : (scApply c0 c op).owner = c.owner := by rw [scApply_frame]
@[simp] theorem scApply_keys (c0 c : Core) (op : ScOp) : (scApply c0 c op).keys = c.keys := by rw [scApply_frame]
@[simp] theorem scApply_redWait (c0 c : Core) (op : ScOp) : (scApply c0 c op).redWait = c.redWait := by rw [scApply_frame]
@[simp] theorem scApply_lent (c0 c : Core) (op : ScOp) : (scApply c0 c op).lent = c.lent := by rw [scApply_frame]
@[simp] theorem scApply_selfFail (c0 c : Core) (op : ScOp) : (scApply c0 c op).selfFail = c.selfFail := by rw [scApply_frame]

@[simp] theorem veApply_ctrs (c0 c : Core) (op : VeOp) : (veApply c0 c op).ctrs = c.ctrs := by rw [veApply_frame]
@[simp] theorem veApply_cmps (c0 c : Core) (op : VeOp) : (veApply c0 c op).cmps = c.cmps := by rw [veApply_frame]
@[simp] theorem veApply_bidx (c0 c : Core) (op : VeOp) : (veApply c0 c op).bidx = c.bidx := by rw [veApply_frame]
@[simp] theorem veApply_issuing (c0 c : Core) (op : VeOp) : (veApply c0 c op).issuing = c.issuing := by rw [veApply_frame]
@[simp] theorem veApply_stopped (c0 c : Core) (op : VeOp) : (veApply c0 c op).stopped = c.stopped := by rw [veApply_frame]
@[simp] theorem veApply_cyc (c0 c : Core) (op : VeOp) : (veApply c0 c op).cyc = c.cyc := by rw [veApply_frame]
@[simp] theorem veApply_earliest (c0 c : Core) (op : VeOp) : (veApply c0 c op).earliest = c.earliest := by rw [veApply_frame]
@[simp] theorem veApply_phase (c0 c : Core) (op : VeOp) : (veApply c0 c op).phase = c.phase := by rw [veApply_frame]
@[simp] theorem veApply_pendTicks (c0 c : Core) (op : VeOp) : (veApply c0 c op).pendTicks = c.pendTicks := by rw [veApply_frame]
@[simp] theorem veApply_waitTick (c0 c : Core) (op : VeOp) : (veApply c0 c op).waitTick = c.waitTick := by rw [veApply_frame]
@[simp] theorem veApply_idle (c0 c : Core) (op : VeOp) : (veApply c0 c op).idle = c.idle := by rw [veApply_frame]
@[simp] theorem veApply_slip (c0 c : Core) (op : VeOp) : (veApply c0 c op).slip = c.slip := by rw [veApply_frame]
@[simp] theorem veApply_slipTotal (c0 c : Core) (op : VeOp) : (veApply c0 c op).slipTotal = c.slipTotal := by rw [veApply_frame]
@[simp] theorem veApply_latSlip (c0 c : Core) (op : VeOp) : (veApply c0 c op).latSlip = c.latSlip := by rw [veApply_frame]
@[simp] theorem veApply_latIdle (c0 c : Core) (op : VeOp) : (veApply c0 c op).latIdle = c.latIdle := by rw [veApply_frame]
@[simp] theorem veApply_latFlags (c0 c : Core) (op : VeOp) : (veApply c0 c op).latFlags = c.latFlags := by rw [veApply_frame]
@[simp] theorem veApply_latSlips (c0 c : Core) (op : VeOp) : (veApply c0 c op).latSlips = c.latSlips := by rw [veApply_frame]
@[simp] theorem veApply_newFlags (c0 c : Core) (op : VeOp) : (veApply c0 c op).newFlags = c.newFlags := by rw [veApply_frame]
@[simp] theorem veApply_counted (c0 c : Core) (op : VeOp) : (veApply c0 c op).counted = c.counted := by rw [veApply_frame]
@[simp] theorem veApply_mxFree (c0 c : Core) (op : VeOp) : (veApply c0 c op).mxFree = c.mxFree := by rw [veApply_frame]
@[simp] theorem veApply_mxAcc (c0 c : Core) (op : VeOp) : (veApply c0 c op).mxAcc = c.mxAcc := by rw [veApply_frame]
@[simp] theorem veApply_veFree (c0 c : Core) (op : VeOp) : (veApply c0 c op).veFree = c.veFree := by rw [veApply_frame]
@[simp] theorem veApply_tileFree (c0 c : Core) (op : VeOp) : (veApply c0 c op).tileFree = c.tileFree := by rw [veApply_frame]
@[simp] theorem veApply_moves (c0 c : Core) (op : VeOp) : (veApply c0 c op).moves = c.moves := by rw [veApply_frame]
@[simp] theorem veApply_fetch (c0 c : Core) (op : VeOp) : (veApply c0 c op).fetch = c.fetch := by rw [veApply_frame]
@[simp] theorem veApply_tested (c0 c : Core) (op : VeOp) : (veApply c0 c op).tested = c.tested := by rw [veApply_frame]
@[simp] theorem veApply_regs (c0 c : Core) (op : VeOp) : (veApply c0 c op).regs = c.regs := by rw [veApply_frame]
@[simp] theorem veApply_ranges (c0 c : Core) (op : VeOp) : (veApply c0 c op).ranges = c.ranges := by rw [veApply_frame]
@[simp] theorem veApply_nextId (c0 c : Core) (op : VeOp) : (veApply c0 c op).nextId = c.nextId := by rw [veApply_frame]
@[simp] theorem veApply_ld (c0 c : Core) (op : VeOp) : (veApply c0 c op).ld = c.ld := by rw [veApply_frame]
@[simp] theorem veApply_st (c0 c : Core) (op : VeOp) : (veApply c0 c op).st = c.st := by rw [veApply_frame]
@[simp] theorem veApply_unclaimed (c0 c : Core) (op : VeOp) : (veApply c0 c op).unclaimed = c.unclaimed := by rw [veApply_frame]
@[simp] theorem veApply_due (c0 c : Core) (op : VeOp) : (veApply c0 c op).due = c.due := by rw [veApply_frame]
@[simp] theorem veApply_qnotes (c0 c : Core) (op : VeOp) : (veApply c0 c op).qnotes = c.qnotes := by rw [veApply_frame]
@[simp] theorem veApply_watch (c0 c : Core) (op : VeOp) : (veApply c0 c op).watch = c.watch := by rw [veApply_frame]
@[simp] theorem veApply_istore (c0 c : Core) (op : VeOp) : (veApply c0 c op).istore = c.istore := by rw [veApply_frame]
@[simp] theorem veApply_dstore (c0 c : Core) (op : VeOp) : (veApply c0 c op).dstore = c.dstore := by rw [veApply_frame]
@[simp] theorem veApply_handles (c0 c : Core) (op : VeOp) : (veApply c0 c op).handles = c.handles := by rw [veApply_frame]
@[simp] theorem veApply_eccSingle (c0 c : Core) (op : VeOp) : (veApply c0 c op).eccSingle = c.eccSingle := by rw [veApply_frame]
@[simp] theorem veApply_eccDouble (c0 c : Core) (op : VeOp) : (veApply c0 c op).eccDouble = c.eccDouble := by rw [veApply_frame]
@[simp] theorem veApply_correctable (c0 c : Core) (op : VeOp) : (veApply c0 c op).correctable = c.correctable := by rw [veApply_frame]
@[simp] theorem veApply_uncorr (c0 c : Core) (op : VeOp) : (veApply c0 c op).uncorr = c.uncorr := by rw [veApply_frame]
@[simp] theorem veApply_owner (c0 c : Core) (op : VeOp) : (veApply c0 c op).owner = c.owner := by rw [veApply_frame]
@[simp] theorem veApply_keys (c0 c : Core) (op : VeOp) : (veApply c0 c op).keys = c.keys := by rw [veApply_frame]
@[simp] theorem veApply_redWait (c0 c : Core) (op : VeOp) : (veApply c0 c op).redWait = c.redWait := by rw [veApply_frame]
@[simp] theorem veApply_lent (c0 c : Core) (op : VeOp) : (veApply c0 c op).lent = c.lent := by rw [veApply_frame]
@[simp] theorem veApply_selfFail (c0 c : Core) (op : VeOp) : (veApply c0 c op).selfFail = c.selfFail := by rw [veApply_frame]

@[simp] theorem mxApply_ctrs (c0 c : Core) (op : MxOp) : (mxApply c0 c op).ctrs = c.ctrs := by rw [mxApply_frame]
@[simp] theorem mxApply_cmps (c0 c : Core) (op : MxOp) : (mxApply c0 c op).cmps = c.cmps := by rw [mxApply_frame]
@[simp] theorem mxApply_bidx (c0 c : Core) (op : MxOp) : (mxApply c0 c op).bidx = c.bidx := by rw [mxApply_frame]
@[simp] theorem mxApply_issuing (c0 c : Core) (op : MxOp) : (mxApply c0 c op).issuing = c.issuing := by rw [mxApply_frame]
@[simp] theorem mxApply_stopped (c0 c : Core) (op : MxOp) : (mxApply c0 c op).stopped = c.stopped := by rw [mxApply_frame]
@[simp] theorem mxApply_cyc (c0 c : Core) (op : MxOp) : (mxApply c0 c op).cyc = c.cyc := by rw [mxApply_frame]
@[simp] theorem mxApply_earliest (c0 c : Core) (op : MxOp) : (mxApply c0 c op).earliest = c.earliest := by rw [mxApply_frame]
@[simp] theorem mxApply_phase (c0 c : Core) (op : MxOp) : (mxApply c0 c op).phase = c.phase := by rw [mxApply_frame]
@[simp] theorem mxApply_pendTicks (c0 c : Core) (op : MxOp) : (mxApply c0 c op).pendTicks = c.pendTicks := by rw [mxApply_frame]
@[simp] theorem mxApply_waitTick (c0 c : Core) (op : MxOp) : (mxApply c0 c op).waitTick = c.waitTick := by rw [mxApply_frame]
@[simp] theorem mxApply_idle (c0 c : Core) (op : MxOp) : (mxApply c0 c op).idle = c.idle := by rw [mxApply_frame]
@[simp] theorem mxApply_slip (c0 c : Core) (op : MxOp) : (mxApply c0 c op).slip = c.slip := by rw [mxApply_frame]
@[simp] theorem mxApply_slipTotal (c0 c : Core) (op : MxOp) : (mxApply c0 c op).slipTotal = c.slipTotal := by rw [mxApply_frame]
@[simp] theorem mxApply_latSlip (c0 c : Core) (op : MxOp) : (mxApply c0 c op).latSlip = c.latSlip := by rw [mxApply_frame]
@[simp] theorem mxApply_latIdle (c0 c : Core) (op : MxOp) : (mxApply c0 c op).latIdle = c.latIdle := by rw [mxApply_frame]
@[simp] theorem mxApply_latFlags (c0 c : Core) (op : MxOp) : (mxApply c0 c op).latFlags = c.latFlags := by rw [mxApply_frame]
@[simp] theorem mxApply_latSlips (c0 c : Core) (op : MxOp) : (mxApply c0 c op).latSlips = c.latSlips := by rw [mxApply_frame]
@[simp] theorem mxApply_newFlags (c0 c : Core) (op : MxOp) : (mxApply c0 c op).newFlags = c.newFlags := by rw [mxApply_frame]
@[simp] theorem mxApply_counted (c0 c : Core) (op : MxOp) : (mxApply c0 c op).counted = c.counted := by rw [mxApply_frame]
@[simp] theorem mxApply_tile (c0 c : Core) (op : MxOp) : (mxApply c0 c op).tile = c.tile := by rw [mxApply_frame]
@[simp] theorem mxApply_vec (c0 c : Core) (op : MxOp) : (mxApply c0 c op).vec = c.vec := by rw [mxApply_frame]
@[simp] theorem mxApply_lenRow (c0 c : Core) (op : MxOp) : (mxApply c0 c op).lenRow = c.lenRow := by rw [mxApply_frame]
@[simp] theorem mxApply_lenCol (c0 c : Core) (op : MxOp) : (mxApply c0 c op).lenCol = c.lenCol := by rw [mxApply_frame]
@[simp] theorem mxApply_mxFree (c0 c : Core) (op : MxOp) : (mxApply c0 c op).mxFree = c.mxFree := by rw [mxApply_frame]
@[simp] theorem mxApply_mxAcc (c0 c : Core) (op : MxOp) : (mxApply c0 c op).mxAcc = c.mxAcc := by rw [mxApply_frame]
@[simp] theorem mxApply_veFree (c0 c : Core) (op : MxOp) : (mxApply c0 c op).veFree = c.veFree := by rw [mxApply_frame]
@[simp] theorem mxApply_tileFree (c0 c : Core) (op : MxOp) : (mxApply c0 c op).tileFree = c.tileFree := by rw [mxApply_frame]
@[simp] theorem mxApply_moves (c0 c : Core) (op : MxOp) : (mxApply c0 c op).moves = c.moves := by rw [mxApply_frame]
@[simp] theorem mxApply_fetch (c0 c : Core) (op : MxOp) : (mxApply c0 c op).fetch = c.fetch := by rw [mxApply_frame]
@[simp] theorem mxApply_tested (c0 c : Core) (op : MxOp) : (mxApply c0 c op).tested = c.tested := by rw [mxApply_frame]
@[simp] theorem mxApply_regs (c0 c : Core) (op : MxOp) : (mxApply c0 c op).regs = c.regs := by rw [mxApply_frame]
@[simp] theorem mxApply_ranges (c0 c : Core) (op : MxOp) : (mxApply c0 c op).ranges = c.ranges := by rw [mxApply_frame]
@[simp] theorem mxApply_nextId (c0 c : Core) (op : MxOp) : (mxApply c0 c op).nextId = c.nextId := by rw [mxApply_frame]
@[simp] theorem mxApply_ld (c0 c : Core) (op : MxOp) : (mxApply c0 c op).ld = c.ld := by rw [mxApply_frame]
@[simp] theorem mxApply_st (c0 c : Core) (op : MxOp) : (mxApply c0 c op).st = c.st := by rw [mxApply_frame]
@[simp] theorem mxApply_unclaimed (c0 c : Core) (op : MxOp) : (mxApply c0 c op).unclaimed = c.unclaimed := by rw [mxApply_frame]
@[simp] theorem mxApply_due (c0 c : Core) (op : MxOp) : (mxApply c0 c op).due = c.due := by rw [mxApply_frame]
@[simp] theorem mxApply_qnotes (c0 c : Core) (op : MxOp) : (mxApply c0 c op).qnotes = c.qnotes := by rw [mxApply_frame]
@[simp] theorem mxApply_watch (c0 c : Core) (op : MxOp) : (mxApply c0 c op).watch = c.watch := by rw [mxApply_frame]
@[simp] theorem mxApply_mem (c0 c : Core) (op : MxOp) : (mxApply c0 c op).mem = c.mem := by rw [mxApply_frame]
@[simp] theorem mxApply_istore (c0 c : Core) (op : MxOp) : (mxApply c0 c op).istore = c.istore := by rw [mxApply_frame]
@[simp] theorem mxApply_dstore (c0 c : Core) (op : MxOp) : (mxApply c0 c op).dstore = c.dstore := by rw [mxApply_frame]
@[simp] theorem mxApply_handles (c0 c : Core) (op : MxOp) : (mxApply c0 c op).handles = c.handles := by rw [mxApply_frame]
@[simp] theorem mxApply_eccSingle (c0 c : Core) (op : MxOp) : (mxApply c0 c op).eccSingle = c.eccSingle := by rw [mxApply_frame]
@[simp] theorem mxApply_eccDouble (c0 c : Core) (op : MxOp) : (mxApply c0 c op).eccDouble = c.eccDouble := by rw [mxApply_frame]
@[simp] theorem mxApply_correctable (c0 c : Core) (op : MxOp) : (mxApply c0 c op).correctable = c.correctable := by rw [mxApply_frame]
@[simp] theorem mxApply_uncorr (c0 c : Core) (op : MxOp) : (mxApply c0 c op).uncorr = c.uncorr := by rw [mxApply_frame]
@[simp] theorem mxApply_owner (c0 c : Core) (op : MxOp) : (mxApply c0 c op).owner = c.owner := by rw [mxApply_frame]
@[simp] theorem mxApply_keys (c0 c : Core) (op : MxOp) : (mxApply c0 c op).keys = c.keys := by rw [mxApply_frame]
@[simp] theorem mxApply_redWait (c0 c : Core) (op : MxOp) : (mxApply c0 c op).redWait = c.redWait := by rw [mxApply_frame]
@[simp] theorem mxApply_lent (c0 c : Core) (op : MxOp) : (mxApply c0 c op).lent = c.lent := by rw [mxApply_frame]
@[simp] theorem mxApply_selfFail (c0 c : Core) (op : MxOp) : (mxApply c0 c op).selfFail = c.selfFail := by rw [mxApply_frame]

@[simp] theorem lsApply_ctrs (c0 c : Core) (b : Bool) (op : LsOp) : (lsApply c0 c b op).ctrs = c.ctrs := by rw [lsApply_frame]
@[simp] theorem lsApply_cmps (c0 c : Core) (b : Bool) (op : LsOp) : (lsApply c0 c b op).cmps = c.cmps := by rw [lsApply_frame]
@[simp] theorem lsApply_bidx (c0 c : Core) (b : Bool) (op : LsOp) : (lsApply c0 c b op).bidx = c.bidx := by rw [lsApply_frame]
@[simp] theorem lsApply_issuing (c0 c : Core) (b : Bool) (op : LsOp) : (lsApply c0 c b op).issuing = c.issuing := by rw [lsApply_frame]
@[simp] theorem lsApply_stopped (c0 c : Core) (b : Bool) (op : LsOp) : (lsApply c0 c b op).stopped = c.stopped := by rw [lsApply_frame]
@[simp] theorem lsApply_cyc (c0 c : Core) (b : Bool) (op : LsOp) : (lsApply c0 c b op).cyc = c.cyc := by rw [lsApply_frame]
@[simp] theorem lsApply_earliest (c0 c : Core) (b : Bool) (op : LsOp) : (lsApply c0 c b op).earliest = c.earliest := by rw [lsApply_frame]
@[simp] theorem lsApply_phase (c0 c : Core) (b : Bool) (op : LsOp) : (lsApply c0 c b op).phase = c.phase := by rw [lsApply_frame]
@[simp] theorem lsApply_pendTicks (c0 c : Core) (b : Bool) (op : LsOp) : (lsApply c0 c b op).pendTicks = c.pendTicks := by rw [lsApply_frame]
@[simp] theorem lsApply_waitTick (c0 c : Core) (b : Bool) (op : LsOp) : (lsApply c0 c b op).waitTick = c.waitTick := by rw [lsApply_frame]
@[simp] theorem lsApply_idle (c0 c : Core) (b : Bool) (op : LsOp) : (lsApply c0 c b op).idle = c.idle := by rw [lsApply_frame]
@[simp] theorem lsApply_slip (c0 c : Core) (b : Bool) (op : LsOp) : (lsApply c0 c b op).slip = c.slip := by rw [lsApply_frame]
@[simp] theorem lsApply_slipTotal (c0 c : Core) (b : Bool) (op : LsOp) : (lsApply c0 c b op).slipTotal = c.slipTotal := by rw [lsApply_frame]
@[simp] theorem lsApply_latSlip (c0 c : Core) (b : Bool) (op : LsOp) : (lsApply c0 c b op).latSlip = c.latSlip := by rw [lsApply_frame]
@[simp] theorem lsApply_latIdle (c0 c : Core) (b : Bool) (op : LsOp) : (lsApply c0 c b op).latIdle = c.latIdle := by rw [lsApply_frame]
@[simp] theorem lsApply_latFlags (c0 c : Core) (b : Bool) (op : LsOp) : (lsApply c0 c b op).latFlags = c.latFlags := by rw [lsApply_frame]
@[simp] theorem lsApply_latSlips (c0 c : Core) (b : Bool) (op : LsOp) : (lsApply c0 c b op).latSlips = c.latSlips := by rw [lsApply_frame]
@[simp] theorem lsApply_newFlags (c0 c : Core) (b : Bool) (op : LsOp) : (lsApply c0 c b op).newFlags = c.newFlags := by rw [lsApply_frame]
@[simp] theorem lsApply_counted (c0 c : Core) (b : Bool) (op : LsOp) : (lsApply c0 c b op).counted = c.counted := by rw [lsApply_frame]
@[simp] theorem lsApply_flags (c0 c : Core) (b : Bool) (op : LsOp) : (lsApply c0 c b op).flags = c.flags := by rw [lsApply_frame]
@[simp] theorem lsApply_sticky (c0 c : Core) (b : Bool) (op : LsOp) : (lsApply c0 c b op).sticky = c.sticky := by rw [lsApply_frame]
@[simp] theorem lsApply_acc (c0 c : Core) (b : Bool) (op : LsOp) : (lsApply c0 c b op).acc = c.acc := by rw [lsApply_frame]
@[simp] theorem lsApply_tile (c0 c : Core) (b : Bool) (op : LsOp) : (lsApply c0 c b op).tile = c.tile := by rw [lsApply_frame]
@[simp] theorem lsApply_vec (c0 c : Core) (b : Bool) (op : LsOp) : (lsApply c0 c b op).vec = c.vec := by rw [lsApply_frame]
@[simp] theorem lsApply_lenRow (c0 c : Core) (b : Bool) (op : LsOp) : (lsApply c0 c b op).lenRow = c.lenRow := by rw [lsApply_frame]
@[simp] theorem lsApply_lenCol (c0 c : Core) (b : Bool) (op : LsOp) : (lsApply c0 c b op).lenCol = c.lenCol := by rw [lsApply_frame]
@[simp] theorem lsApply_mxFree (c0 c : Core) (b : Bool) (op : LsOp) : (lsApply c0 c b op).mxFree = c.mxFree := by rw [lsApply_frame]
@[simp] theorem lsApply_mxAcc (c0 c : Core) (b : Bool) (op : LsOp) : (lsApply c0 c b op).mxAcc = c.mxAcc := by rw [lsApply_frame]
@[simp] theorem lsApply_veFree (c0 c : Core) (b : Bool) (op : LsOp) : (lsApply c0 c b op).veFree = c.veFree := by rw [lsApply_frame]
@[simp] theorem lsApply_tileFree (c0 c : Core) (b : Bool) (op : LsOp) : (lsApply c0 c b op).tileFree = c.tileFree := by rw [lsApply_frame]
@[simp] theorem lsApply_moves (c0 c : Core) (b : Bool) (op : LsOp) : (lsApply c0 c b op).moves = c.moves := by rw [lsApply_frame]
@[simp] theorem lsApply_fetch (c0 c : Core) (b : Bool) (op : LsOp) : (lsApply c0 c b op).fetch = c.fetch := by rw [lsApply_frame]
@[simp] theorem lsApply_tested (c0 c : Core) (b : Bool) (op : LsOp) : (lsApply c0 c b op).tested = c.tested := by rw [lsApply_frame]
@[simp] theorem lsApply_regs (c0 c : Core) (b : Bool) (op : LsOp) : (lsApply c0 c b op).regs = c.regs := by rw [lsApply_frame]
@[simp] theorem lsApply_unclaimed (c0 c : Core) (b : Bool) (op : LsOp) : (lsApply c0 c b op).unclaimed = c.unclaimed := by rw [lsApply_frame]
@[simp] theorem lsApply_due (c0 c : Core) (b : Bool) (op : LsOp) : (lsApply c0 c b op).due = c.due := by rw [lsApply_frame]
@[simp] theorem lsApply_qnotes (c0 c : Core) (b : Bool) (op : LsOp) : (lsApply c0 c b op).qnotes = c.qnotes := by rw [lsApply_frame]
@[simp] theorem lsApply_watch (c0 c : Core) (b : Bool) (op : LsOp) : (lsApply c0 c b op).watch = c.watch := by rw [lsApply_frame]
@[simp] theorem lsApply_mem (c0 c : Core) (b : Bool) (op : LsOp) : (lsApply c0 c b op).mem = c.mem := by rw [lsApply_frame]
@[simp] theorem lsApply_istore (c0 c : Core) (b : Bool) (op : LsOp) : (lsApply c0 c b op).istore = c.istore := by rw [lsApply_frame]
@[simp] theorem lsApply_dstore (c0 c : Core) (b : Bool) (op : LsOp) : (lsApply c0 c b op).dstore = c.dstore := by rw [lsApply_frame]
@[simp] theorem lsApply_handles (c0 c : Core) (b : Bool) (op : LsOp) : (lsApply c0 c b op).handles = c.handles := by rw [lsApply_frame]
@[simp] theorem lsApply_eccSingle (c0 c : Core) (b : Bool) (op : LsOp) : (lsApply c0 c b op).eccSingle = c.eccSingle := by rw [lsApply_frame]
@[simp] theorem lsApply_eccDouble (c0 c : Core) (b : Bool) (op : LsOp) : (lsApply c0 c b op).eccDouble = c.eccDouble := by rw [lsApply_frame]
@[simp] theorem lsApply_correctable (c0 c : Core) (b : Bool) (op : LsOp) : (lsApply c0 c b op).correctable = c.correctable := by rw [lsApply_frame]
@[simp] theorem lsApply_uncorr (c0 c : Core) (b : Bool) (op : LsOp) : (lsApply c0 c b op).uncorr = c.uncorr := by rw [lsApply_frame]
@[simp] theorem lsApply_owner (c0 c : Core) (b : Bool) (op : LsOp) : (lsApply c0 c b op).owner = c.owner := by rw [lsApply_frame]
@[simp] theorem lsApply_keys (c0 c : Core) (b : Bool) (op : LsOp) : (lsApply c0 c b op).keys = c.keys := by rw [lsApply_frame]
@[simp] theorem lsApply_redWait (c0 c : Core) (b : Bool) (op : LsOp) : (lsApply c0 c b op).redWait = c.redWait := by rw [lsApply_frame]
@[simp] theorem lsApply_lent (c0 c : Core) (b : Bool) (op : LsOp) : (lsApply c0 c b op).lent = c.lent := by rw [lsApply_frame]
@[simp] theorem lsApply_selfFail (c0 c : Core) (b : Bool) (op : LsOp) : (lsApply c0 c b op).selfFail = c.selfFail := by rw [lsApply_frame]

@[simp] theorem syApply_ctrs (c0 c : Core) (op : SyOp) : (syApply c0 c op).ctrs = c.ctrs := by rw [syApply_frame]
@[simp] theorem syApply_cmps (c0 c : Core) (op : SyOp) : (syApply c0 c op).cmps = c.cmps := by rw [syApply_frame]
@[simp] theorem syApply_bidx (c0 c : Core) (op : SyOp) : (syApply c0 c op).bidx = c.bidx := by rw [syApply_frame]
@[simp] theorem syApply_issuing (c0 c : Core) (op : SyOp) : (syApply c0 c op).issuing = c.issuing := by rw [syApply_frame]
@[simp] theorem syApply_stopped (c0 c : Core) (op : SyOp) : (syApply c0 c op).stopped = c.stopped := by rw [syApply_frame]
@[simp] theorem syApply_cyc (c0 c : Core) (op : SyOp) : (syApply c0 c op).cyc = c.cyc := by rw [syApply_frame]
@[simp] theorem syApply_phase (c0 c : Core) (op : SyOp) : (syApply c0 c op).phase = c.phase := by rw [syApply_frame]
@[simp] theorem syApply_idle (c0 c : Core) (op : SyOp) : (syApply c0 c op).idle = c.idle := by rw [syApply_frame]
@[simp] theorem syApply_slip (c0 c : Core) (op : SyOp) : (syApply c0 c op).slip = c.slip := by rw [syApply_frame]
@[simp] theorem syApply_slipTotal (c0 c : Core) (op : SyOp) : (syApply c0 c op).slipTotal = c.slipTotal := by rw [syApply_frame]
@[simp] theorem syApply_latSlip (c0 c : Core) (op : SyOp) : (syApply c0 c op).latSlip = c.latSlip := by rw [syApply_frame]
@[simp] theorem syApply_latIdle (c0 c : Core) (op : SyOp) : (syApply c0 c op).latIdle = c.latIdle := by rw [syApply_frame]
@[simp] theorem syApply_latFlags (c0 c : Core) (op : SyOp) : (syApply c0 c op).latFlags = c.latFlags := by rw [syApply_frame]
@[simp] theorem syApply_latSlips (c0 c : Core) (op : SyOp) : (syApply c0 c op).latSlips = c.latSlips := by rw [syApply_frame]
@[simp] theorem syApply_newFlags (c0 c : Core) (op : SyOp) : (syApply c0 c op).newFlags = c.newFlags := by rw [syApply_frame]
@[simp] theorem syApply_counted (c0 c : Core) (op : SyOp) : (syApply c0 c op).counted = c.counted := by rw [syApply_frame]
@[simp] theorem syApply_flags (c0 c : Core) (op : SyOp) : (syApply c0 c op).flags = c.flags := by rw [syApply_frame]
@[simp] theorem syApply_sticky (c0 c : Core) (op : SyOp) : (syApply c0 c op).sticky = c.sticky := by rw [syApply_frame]
@[simp] theorem syApply_acc (c0 c : Core) (op : SyOp) : (syApply c0 c op).acc = c.acc := by rw [syApply_frame]
@[simp] theorem syApply_tile (c0 c : Core) (op : SyOp) : (syApply c0 c op).tile = c.tile := by rw [syApply_frame]
@[simp] theorem syApply_vec (c0 c : Core) (op : SyOp) : (syApply c0 c op).vec = c.vec := by rw [syApply_frame]
@[simp] theorem syApply_lenRow (c0 c : Core) (op : SyOp) : (syApply c0 c op).lenRow = c.lenRow := by rw [syApply_frame]
@[simp] theorem syApply_lenCol (c0 c : Core) (op : SyOp) : (syApply c0 c op).lenCol = c.lenCol := by rw [syApply_frame]
@[simp] theorem syApply_mxFree (c0 c : Core) (op : SyOp) : (syApply c0 c op).mxFree = c.mxFree := by rw [syApply_frame]
@[simp] theorem syApply_mxAcc (c0 c : Core) (op : SyOp) : (syApply c0 c op).mxAcc = c.mxAcc := by rw [syApply_frame]
@[simp] theorem syApply_veFree (c0 c : Core) (op : SyOp) : (syApply c0 c op).veFree = c.veFree := by rw [syApply_frame]
@[simp] theorem syApply_tileFree (c0 c : Core) (op : SyOp) : (syApply c0 c op).tileFree = c.tileFree := by rw [syApply_frame]
@[simp] theorem syApply_moves (c0 c : Core) (op : SyOp) : (syApply c0 c op).moves = c.moves := by rw [syApply_frame]
@[simp] theorem syApply_fetch (c0 c : Core) (op : SyOp) : (syApply c0 c op).fetch = c.fetch := by rw [syApply_frame]
@[simp] theorem syApply_tested (c0 c : Core) (op : SyOp) : (syApply c0 c op).tested = c.tested := by rw [syApply_frame]
@[simp] theorem syApply_regs (c0 c : Core) (op : SyOp) : (syApply c0 c op).regs = c.regs := by rw [syApply_frame]
@[simp] theorem syApply_ld (c0 c : Core) (op : SyOp) : (syApply c0 c op).ld = c.ld := by rw [syApply_frame]
@[simp] theorem syApply_st (c0 c : Core) (op : SyOp) : (syApply c0 c op).st = c.st := by rw [syApply_frame]
@[simp] theorem syApply_due (c0 c : Core) (op : SyOp) : (syApply c0 c op).due = c.due := by rw [syApply_frame]
@[simp] theorem syApply_mem (c0 c : Core) (op : SyOp) : (syApply c0 c op).mem = c.mem := by rw [syApply_frame]
@[simp] theorem syApply_istore (c0 c : Core) (op : SyOp) : (syApply c0 c op).istore = c.istore := by rw [syApply_frame]
@[simp] theorem syApply_dstore (c0 c : Core) (op : SyOp) : (syApply c0 c op).dstore = c.dstore := by rw [syApply_frame]
@[simp] theorem syApply_handles (c0 c : Core) (op : SyOp) : (syApply c0 c op).handles = c.handles := by rw [syApply_frame]
@[simp] theorem syApply_eccSingle (c0 c : Core) (op : SyOp) : (syApply c0 c op).eccSingle = c.eccSingle := by rw [syApply_frame]
@[simp] theorem syApply_eccDouble (c0 c : Core) (op : SyOp) : (syApply c0 c op).eccDouble = c.eccDouble := by rw [syApply_frame]
@[simp] theorem syApply_correctable (c0 c : Core) (op : SyOp) : (syApply c0 c op).correctable = c.correctable := by rw [syApply_frame]
@[simp] theorem syApply_uncorr (c0 c : Core) (op : SyOp) : (syApply c0 c op).uncorr = c.uncorr := by rw [syApply_frame]
@[simp] theorem syApply_owner (c0 c : Core) (op : SyOp) : (syApply c0 c op).owner = c.owner := by rw [syApply_frame]
@[simp] theorem syApply_keys (c0 c : Core) (op : SyOp) : (syApply c0 c op).keys = c.keys := by rw [syApply_frame]
@[simp] theorem syApply_redWait (c0 c : Core) (op : SyOp) : (syApply c0 c op).redWait = c.redWait := by rw [syApply_frame]
@[simp] theorem syApply_lent (c0 c : Core) (op : SyOp) : (syApply c0 c op).lent = c.lent := by rw [syApply_frame]
@[simp] theorem syApply_selfFail (c0 c : Core) (op : SyOp) : (syApply c0 c op).selfFail = c.selfFail := by rw [syApply_frame]

@[simp] theorem tickLatch_ctrs (c : Core) (op : SyOp) : (tickLatch c op).ctrs = c.ctrs := by rw [tickLatch_frame]
@[simp] theorem tickLatch_cmps (c : Core) (op : SyOp) : (tickLatch c op).cmps = c.cmps := by rw [tickLatch_frame]
@[simp] theorem tickLatch_bidx (c : Core) (op : SyOp) : (tickLatch c op).bidx = c.bidx := by rw [tickLatch_frame]
@[simp] theorem tickLatch_issuing (c : Core) (op : SyOp) : (tickLatch c op).issuing = c.issuing := by rw [tickLatch_frame]
@[simp] theorem tickLatch_stopped (c : Core) (op : SyOp) : (tickLatch c op).stopped = c.stopped := by rw [tickLatch_frame]
@[simp] theorem tickLatch_cyc (c : Core) (op : SyOp) : (tickLatch c op).cyc = c.cyc := by rw [tickLatch_frame]
@[simp] theorem tickLatch_earliest (c : Core) (op : SyOp) : (tickLatch c op).earliest = c.earliest := by rw [tickLatch_frame]
@[simp] theorem tickLatch_phase (c : Core) (op : SyOp) : (tickLatch c op).phase = c.phase := by rw [tickLatch_frame]
@[simp] theorem tickLatch_pendTicks (c : Core) (op : SyOp) : (tickLatch c op).pendTicks = c.pendTicks := by rw [tickLatch_frame]
@[simp] theorem tickLatch_waitTick (c : Core) (op : SyOp) : (tickLatch c op).waitTick = c.waitTick := by rw [tickLatch_frame]
@[simp] theorem tickLatch_slipTotal (c : Core) (op : SyOp) : (tickLatch c op).slipTotal = c.slipTotal := by rw [tickLatch_frame]
@[simp] theorem tickLatch_sticky (c : Core) (op : SyOp) : (tickLatch c op).sticky = c.sticky := by rw [tickLatch_frame]
@[simp] theorem tickLatch_acc (c : Core) (op : SyOp) : (tickLatch c op).acc = c.acc := by rw [tickLatch_frame]
@[simp] theorem tickLatch_tile (c : Core) (op : SyOp) : (tickLatch c op).tile = c.tile := by rw [tickLatch_frame]
@[simp] theorem tickLatch_vec (c : Core) (op : SyOp) : (tickLatch c op).vec = c.vec := by rw [tickLatch_frame]
@[simp] theorem tickLatch_lenRow (c : Core) (op : SyOp) : (tickLatch c op).lenRow = c.lenRow := by rw [tickLatch_frame]
@[simp] theorem tickLatch_lenCol (c : Core) (op : SyOp) : (tickLatch c op).lenCol = c.lenCol := by rw [tickLatch_frame]
@[simp] theorem tickLatch_mxFree (c : Core) (op : SyOp) : (tickLatch c op).mxFree = c.mxFree := by rw [tickLatch_frame]
@[simp] theorem tickLatch_mxAcc (c : Core) (op : SyOp) : (tickLatch c op).mxAcc = c.mxAcc := by rw [tickLatch_frame]
@[simp] theorem tickLatch_veFree (c : Core) (op : SyOp) : (tickLatch c op).veFree = c.veFree := by rw [tickLatch_frame]
@[simp] theorem tickLatch_tileFree (c : Core) (op : SyOp) : (tickLatch c op).tileFree = c.tileFree := by rw [tickLatch_frame]
@[simp] theorem tickLatch_moves (c : Core) (op : SyOp) : (tickLatch c op).moves = c.moves := by rw [tickLatch_frame]
@[simp] theorem tickLatch_fetch (c : Core) (op : SyOp) : (tickLatch c op).fetch = c.fetch := by rw [tickLatch_frame]
@[simp] theorem tickLatch_tested (c : Core) (op : SyOp) : (tickLatch c op).tested = c.tested := by rw [tickLatch_frame]
@[simp] theorem tickLatch_regs (c : Core) (op : SyOp) : (tickLatch c op).regs = c.regs := by rw [tickLatch_frame]
@[simp] theorem tickLatch_ranges (c : Core) (op : SyOp) : (tickLatch c op).ranges = c.ranges := by rw [tickLatch_frame]
@[simp] theorem tickLatch_nextId (c : Core) (op : SyOp) : (tickLatch c op).nextId = c.nextId := by rw [tickLatch_frame]
@[simp] theorem tickLatch_ld (c : Core) (op : SyOp) : (tickLatch c op).ld = c.ld := by rw [tickLatch_frame]
@[simp] theorem tickLatch_st (c : Core) (op : SyOp) : (tickLatch c op).st = c.st := by rw [tickLatch_frame]
@[simp] theorem tickLatch_unclaimed (c : Core) (op : SyOp) : (tickLatch c op).unclaimed = c.unclaimed := by rw [tickLatch_frame]
@[simp] theorem tickLatch_due (c : Core) (op : SyOp) : (tickLatch c op).due = c.due := by rw [tickLatch_frame]
@[simp] theorem tickLatch_qnotes (c : Core) (op : SyOp) : (tickLatch c op).qnotes = c.qnotes := by rw [tickLatch_frame]
@[simp] theorem tickLatch_watch (c : Core) (op : SyOp) : (tickLatch c op).watch = c.watch := by rw [tickLatch_frame]
@[simp] theorem tickLatch_mem (c : Core) (op : SyOp) : (tickLatch c op).mem = c.mem := by rw [tickLatch_frame]
@[simp] theorem tickLatch_istore (c : Core) (op : SyOp) : (tickLatch c op).istore = c.istore := by rw [tickLatch_frame]
@[simp] theorem tickLatch_dstore (c : Core) (op : SyOp) : (tickLatch c op).dstore = c.dstore := by rw [tickLatch_frame]
@[simp] theorem tickLatch_handles (c : Core) (op : SyOp) : (tickLatch c op).handles = c.handles := by rw [tickLatch_frame]
@[simp] theorem tickLatch_eccSingle (c : Core) (op : SyOp) : (tickLatch c op).eccSingle = c.eccSingle := by rw [tickLatch_frame]
@[simp] theorem tickLatch_eccDouble (c : Core) (op : SyOp) : (tickLatch c op).eccDouble = c.eccDouble := by rw [tickLatch_frame]
@[simp] theorem tickLatch_correctable (c : Core) (op : SyOp) : (tickLatch c op).correctable = c.correctable := by rw [tickLatch_frame]
@[simp] theorem tickLatch_uncorr (c : Core) (op : SyOp) : (tickLatch c op).uncorr = c.uncorr := by rw [tickLatch_frame]
@[simp] theorem tickLatch_owner (c : Core) (op : SyOp) : (tickLatch c op).owner = c.owner := by rw [tickLatch_frame]
@[simp] theorem tickLatch_keys (c : Core) (op : SyOp) : (tickLatch c op).keys = c.keys := by rw [tickLatch_frame]
@[simp] theorem tickLatch_redWait (c : Core) (op : SyOp) : (tickLatch c op).redWait = c.redWait := by rw [tickLatch_frame]
@[simp] theorem tickLatch_lent (c : Core) (op : SyOp) : (tickLatch c op).lent = c.lent := by rw [tickLatch_frame]
@[simp] theorem tickLatch_selfFail (c : Core) (op : SyOp) : (tickLatch c op).selfFail = c.selfFail := by rw [tickLatch_frame]

@[simp] theorem Core.eccAfter_ctrs (c c0 : Core) (b : Bundle) : (Core.eccAfter c c0 b).ctrs = c.ctrs := by rw [Core.eccAfter_frame]
@[simp] theorem Core.eccAfter_cmps (c c0 : Core) (b : Bundle) : (Core.eccAfter c c0 b).cmps = c.cmps := by rw [Core.eccAfter_frame]
@[simp] theorem Core.eccAfter_bidx (c c0 : Core) (b : Bundle) : (Core.eccAfter c c0 b).bidx = c.bidx := by rw [Core.eccAfter_frame]
@[simp] theorem Core.eccAfter_issuing (c c0 : Core) (b : Bundle) : (Core.eccAfter c c0 b).issuing = c.issuing := by rw [Core.eccAfter_frame]
@[simp] theorem Core.eccAfter_stopped (c c0 : Core) (b : Bundle) : (Core.eccAfter c c0 b).stopped = c.stopped := by rw [Core.eccAfter_frame]
@[simp] theorem Core.eccAfter_cyc (c c0 : Core) (b : Bundle) : (Core.eccAfter c c0 b).cyc = c.cyc := by rw [Core.eccAfter_frame]
@[simp] theorem Core.eccAfter_earliest (c c0 : Core) (b : Bundle) : (Core.eccAfter c c0 b).earliest = c.earliest := by rw [Core.eccAfter_frame]
@[simp] theorem Core.eccAfter_phase (c c0 : Core) (b : Bundle) : (Core.eccAfter c c0 b).phase = c.phase := by rw [Core.eccAfter_frame]
@[simp] theorem Core.eccAfter_pendTicks (c c0 : Core) (b : Bundle) : (Core.eccAfter c c0 b).pendTicks = c.pendTicks := by rw [Core.eccAfter_frame]
@[simp] theorem Core.eccAfter_waitTick (c c0 : Core) (b : Bundle) : (Core.eccAfter c c0 b).waitTick = c.waitTick := by rw [Core.eccAfter_frame]
@[simp] theorem Core.eccAfter_idle (c c0 : Core) (b : Bundle) : (Core.eccAfter c c0 b).idle = c.idle := by rw [Core.eccAfter_frame]
@[simp] theorem Core.eccAfter_slip (c c0 : Core) (b : Bundle) : (Core.eccAfter c c0 b).slip = c.slip := by rw [Core.eccAfter_frame]
@[simp] theorem Core.eccAfter_slipTotal (c c0 : Core) (b : Bundle) : (Core.eccAfter c c0 b).slipTotal = c.slipTotal := by rw [Core.eccAfter_frame]
@[simp] theorem Core.eccAfter_latSlip (c c0 : Core) (b : Bundle) : (Core.eccAfter c c0 b).latSlip = c.latSlip := by rw [Core.eccAfter_frame]
@[simp] theorem Core.eccAfter_latIdle (c c0 : Core) (b : Bundle) : (Core.eccAfter c c0 b).latIdle = c.latIdle := by rw [Core.eccAfter_frame]
@[simp] theorem Core.eccAfter_latFlags (c c0 : Core) (b : Bundle) : (Core.eccAfter c c0 b).latFlags = c.latFlags := by rw [Core.eccAfter_frame]
@[simp] theorem Core.eccAfter_latSlips (c c0 : Core) (b : Bundle) : (Core.eccAfter c c0 b).latSlips = c.latSlips := by rw [Core.eccAfter_frame]
@[simp] theorem Core.eccAfter_newFlags (c c0 : Core) (b : Bundle) : (Core.eccAfter c c0 b).newFlags = c.newFlags := by rw [Core.eccAfter_frame]
@[simp] theorem Core.eccAfter_counted (c c0 : Core) (b : Bundle) : (Core.eccAfter c c0 b).counted = c.counted := by rw [Core.eccAfter_frame]
@[simp] theorem Core.eccAfter_flags (c c0 : Core) (b : Bundle) : (Core.eccAfter c c0 b).flags = c.flags := by rw [Core.eccAfter_frame]
@[simp] theorem Core.eccAfter_sticky (c c0 : Core) (b : Bundle) : (Core.eccAfter c c0 b).sticky = c.sticky := by rw [Core.eccAfter_frame]
@[simp] theorem Core.eccAfter_acc (c c0 : Core) (b : Bundle) : (Core.eccAfter c c0 b).acc = c.acc := by rw [Core.eccAfter_frame]
@[simp] theorem Core.eccAfter_tile (c c0 : Core) (b : Bundle) : (Core.eccAfter c c0 b).tile = c.tile := by rw [Core.eccAfter_frame]
@[simp] theorem Core.eccAfter_vec (c c0 : Core) (b : Bundle) : (Core.eccAfter c c0 b).vec = c.vec := by rw [Core.eccAfter_frame]
@[simp] theorem Core.eccAfter_lenRow (c c0 : Core) (b : Bundle) : (Core.eccAfter c c0 b).lenRow = c.lenRow := by rw [Core.eccAfter_frame]
@[simp] theorem Core.eccAfter_lenCol (c c0 : Core) (b : Bundle) : (Core.eccAfter c c0 b).lenCol = c.lenCol := by rw [Core.eccAfter_frame]
@[simp] theorem Core.eccAfter_mxFree (c c0 : Core) (b : Bundle) : (Core.eccAfter c c0 b).mxFree = c.mxFree := by rw [Core.eccAfter_frame]
@[simp] theorem Core.eccAfter_mxAcc (c c0 : Core) (b : Bundle) : (Core.eccAfter c c0 b).mxAcc = c.mxAcc := by rw [Core.eccAfter_frame]
@[simp] theorem Core.eccAfter_veFree (c c0 : Core) (b : Bundle) : (Core.eccAfter c c0 b).veFree = c.veFree := by rw [Core.eccAfter_frame]
@[simp] theorem Core.eccAfter_tileFree (c c0 : Core) (b : Bundle) : (Core.eccAfter c c0 b).tileFree = c.tileFree := by rw [Core.eccAfter_frame]
@[simp] theorem Core.eccAfter_moves (c c0 : Core) (b : Bundle) : (Core.eccAfter c c0 b).moves = c.moves := by rw [Core.eccAfter_frame]
@[simp] theorem Core.eccAfter_fetch (c c0 : Core) (b : Bundle) : (Core.eccAfter c c0 b).fetch = c.fetch := by rw [Core.eccAfter_frame]
@[simp] theorem Core.eccAfter_tested (c c0 : Core) (b : Bundle) : (Core.eccAfter c c0 b).tested = c.tested := by rw [Core.eccAfter_frame]
@[simp] theorem Core.eccAfter_regs (c c0 : Core) (b : Bundle) : (Core.eccAfter c c0 b).regs = c.regs := by rw [Core.eccAfter_frame]
@[simp] theorem Core.eccAfter_ranges (c c0 : Core) (b : Bundle) : (Core.eccAfter c c0 b).ranges = c.ranges := by rw [Core.eccAfter_frame]
@[simp] theorem Core.eccAfter_nextId (c c0 : Core) (b : Bundle) : (Core.eccAfter c c0 b).nextId = c.nextId := by rw [Core.eccAfter_frame]
@[simp] theorem Core.eccAfter_ld (c c0 : Core) (b : Bundle) : (Core.eccAfter c c0 b).ld = c.ld := by rw [Core.eccAfter_frame]
@[simp] theorem Core.eccAfter_st (c c0 : Core) (b : Bundle) : (Core.eccAfter c c0 b).st = c.st := by rw [Core.eccAfter_frame]
@[simp] theorem Core.eccAfter_unclaimed (c c0 : Core) (b : Bundle) : (Core.eccAfter c c0 b).unclaimed = c.unclaimed := by rw [Core.eccAfter_frame]
@[simp] theorem Core.eccAfter_due (c c0 : Core) (b : Bundle) : (Core.eccAfter c c0 b).due = c.due := by rw [Core.eccAfter_frame]
@[simp] theorem Core.eccAfter_qnotes (c c0 : Core) (b : Bundle) : (Core.eccAfter c c0 b).qnotes = c.qnotes := by rw [Core.eccAfter_frame]
@[simp] theorem Core.eccAfter_watch (c c0 : Core) (b : Bundle) : (Core.eccAfter c c0 b).watch = c.watch := by rw [Core.eccAfter_frame]
@[simp] theorem Core.eccAfter_mem (c c0 : Core) (b : Bundle) : (Core.eccAfter c c0 b).mem = c.mem := by rw [Core.eccAfter_frame]
@[simp] theorem Core.eccAfter_istore (c c0 : Core) (b : Bundle) : (Core.eccAfter c c0 b).istore = c.istore := by rw [Core.eccAfter_frame]
@[simp] theorem Core.eccAfter_dstore (c c0 : Core) (b : Bundle) : (Core.eccAfter c c0 b).dstore = c.dstore := by rw [Core.eccAfter_frame]
@[simp] theorem Core.eccAfter_handles (c c0 : Core) (b : Bundle) : (Core.eccAfter c c0 b).handles = c.handles := by rw [Core.eccAfter_frame]
@[simp] theorem Core.eccAfter_uncorr (c c0 : Core) (b : Bundle) : (Core.eccAfter c c0 b).uncorr = c.uncorr := by rw [Core.eccAfter_frame]
@[simp] theorem Core.eccAfter_owner (c c0 : Core) (b : Bundle) : (Core.eccAfter c c0 b).owner = c.owner := by rw [Core.eccAfter_frame]
@[simp] theorem Core.eccAfter_keys (c c0 : Core) (b : Bundle) : (Core.eccAfter c c0 b).keys = c.keys := by rw [Core.eccAfter_frame]
@[simp] theorem Core.eccAfter_redWait (c c0 : Core) (b : Bundle) : (Core.eccAfter c c0 b).redWait = c.redWait := by rw [Core.eccAfter_frame]
@[simp] theorem Core.eccAfter_lent (c c0 : Core) (b : Bundle) : (Core.eccAfter c c0 b).lent = c.lent := by rw [Core.eccAfter_frame]
@[simp] theorem Core.eccAfter_selfFail (c c0 : Core) (b : Bundle) : (Core.eccAfter c c0 b).selfFail = c.selfFail := by rw [Core.eccAfter_frame]

@[simp] theorem Core.pass_ctrs (c : Core) (n : Nat) : (Core.pass c n).ctrs = c.ctrs := rfl
@[simp] theorem Core.pass_cmps (c : Core) (n : Nat) : (Core.pass c n).cmps = c.cmps := rfl
@[simp] theorem Core.pass_bidx (c : Core) (n : Nat) : (Core.pass c n).bidx = c.bidx := rfl
@[simp] theorem Core.pass_issuing (c : Core) (n : Nat) : (Core.pass c n).issuing = c.issuing := rfl
@[simp] theorem Core.pass_stopped (c : Core) (n : Nat) : (Core.pass c n).stopped = c.stopped := rfl
@[simp] theorem Core.pass_earliest (c : Core) (n : Nat) : (Core.pass c n).earliest = c.earliest := rfl
@[simp] theorem Core.pass_pendTicks (c : Core) (n : Nat) : (Core.pass c n).pendTicks = c.pendTicks := rfl
@[simp] theorem Core.pass_waitTick (c : Core) (n : Nat) : (Core.pass c n).waitTick = c.waitTick := rfl
@[simp] theorem Core.pass_idle (c : Core) (n : Nat) : (Core.pass c n).idle = c.idle := rfl
@[simp] theorem Core.pass_slip (c : Core) (n : Nat) : (Core.pass c n).slip = c.slip := rfl
@[simp] theorem Core.pass_slipTotal (c : Core) (n : Nat) : (Core.pass c n).slipTotal = c.slipTotal := rfl
@[simp] theorem Core.pass_latSlip (c : Core) (n : Nat) : (Core.pass c n).latSlip = c.latSlip := rfl
@[simp] theorem Core.pass_latIdle (c : Core) (n : Nat) : (Core.pass c n).latIdle = c.latIdle := rfl
@[simp] theorem Core.pass_latFlags (c : Core) (n : Nat) : (Core.pass c n).latFlags = c.latFlags := rfl
@[simp] theorem Core.pass_latSlips (c : Core) (n : Nat) : (Core.pass c n).latSlips = c.latSlips := rfl
@[simp] theorem Core.pass_newFlags (c : Core) (n : Nat) : (Core.pass c n).newFlags = c.newFlags := rfl
@[simp] theorem Core.pass_counted (c : Core) (n : Nat) : (Core.pass c n).counted = c.counted := rfl
@[simp] theorem Core.pass_flags (c : Core) (n : Nat) : (Core.pass c n).flags = c.flags := rfl
@[simp] theorem Core.pass_sticky (c : Core) (n : Nat) : (Core.pass c n).sticky = c.sticky := rfl
@[simp] theorem Core.pass_acc (c : Core) (n : Nat) : (Core.pass c n).acc = c.acc := rfl
@[simp] theorem Core.pass_tile (c : Core) (n : Nat) : (Core.pass c n).tile = c.tile := rfl
@[simp] theorem Core.pass_vec (c : Core) (n : Nat) : (Core.pass c n).vec = c.vec := rfl
@[simp] theorem Core.pass_lenRow (c : Core) (n : Nat) : (Core.pass c n).lenRow = c.lenRow := rfl
@[simp] theorem Core.pass_lenCol (c : Core) (n : Nat) : (Core.pass c n).lenCol = c.lenCol := rfl
@[simp] theorem Core.pass_mxFree (c : Core) (n : Nat) : (Core.pass c n).mxFree = c.mxFree := rfl
@[simp] theorem Core.pass_mxAcc (c : Core) (n : Nat) : (Core.pass c n).mxAcc = c.mxAcc := rfl
@[simp] theorem Core.pass_veFree (c : Core) (n : Nat) : (Core.pass c n).veFree = c.veFree := rfl
@[simp] theorem Core.pass_tileFree (c : Core) (n : Nat) : (Core.pass c n).tileFree = c.tileFree := rfl
@[simp] theorem Core.pass_moves (c : Core) (n : Nat) : (Core.pass c n).moves = c.moves := rfl
@[simp] theorem Core.pass_fetch (c : Core) (n : Nat) : (Core.pass c n).fetch = c.fetch := rfl
@[simp] theorem Core.pass_tested (c : Core) (n : Nat) : (Core.pass c n).tested = c.tested := rfl
@[simp] theorem Core.pass_regs (c : Core) (n : Nat) : (Core.pass c n).regs = c.regs := rfl
@[simp] theorem Core.pass_ranges (c : Core) (n : Nat) : (Core.pass c n).ranges = c.ranges := rfl
@[simp] theorem Core.pass_nextId (c : Core) (n : Nat) : (Core.pass c n).nextId = c.nextId := rfl
@[simp] theorem Core.pass_ld (c : Core) (n : Nat) : (Core.pass c n).ld = c.ld := rfl
@[simp] theorem Core.pass_st (c : Core) (n : Nat) : (Core.pass c n).st = c.st := rfl
@[simp] theorem Core.pass_unclaimed (c : Core) (n : Nat) : (Core.pass c n).unclaimed = c.unclaimed := rfl
@[simp] theorem Core.pass_due (c : Core) (n : Nat) : (Core.pass c n).due = c.due := rfl
@[simp] theorem Core.pass_qnotes (c : Core) (n : Nat) : (Core.pass c n).qnotes = c.qnotes := rfl
@[simp] theorem Core.pass_watch (c : Core) (n : Nat) : (Core.pass c n).watch = c.watch := rfl
@[simp] theorem Core.pass_mem (c : Core) (n : Nat) : (Core.pass c n).mem = c.mem := rfl
@[simp] theorem Core.pass_istore (c : Core) (n : Nat) : (Core.pass c n).istore = c.istore := rfl
@[simp] theorem Core.pass_dstore (c : Core) (n : Nat) : (Core.pass c n).dstore = c.dstore := rfl
@[simp] theorem Core.pass_handles (c : Core) (n : Nat) : (Core.pass c n).handles = c.handles := rfl
@[simp] theorem Core.pass_eccSingle (c : Core) (n : Nat) : (Core.pass c n).eccSingle = c.eccSingle := rfl
@[simp] theorem Core.pass_eccDouble (c : Core) (n : Nat) : (Core.pass c n).eccDouble = c.eccDouble := rfl
@[simp] theorem Core.pass_correctable (c : Core) (n : Nat) : (Core.pass c n).correctable = c.correctable := rfl
@[simp] theorem Core.pass_uncorr (c : Core) (n : Nat) : (Core.pass c n).uncorr = c.uncorr := rfl
@[simp] theorem Core.pass_owner (c : Core) (n : Nat) : (Core.pass c n).owner = c.owner := rfl
@[simp] theorem Core.pass_keys (c : Core) (n : Nat) : (Core.pass c n).keys = c.keys := rfl
@[simp] theorem Core.pass_redWait (c : Core) (n : Nat) : (Core.pass c n).redWait = c.redWait := rfl
@[simp] theorem Core.pass_lent (c : Core) (n : Nat) : (Core.pass c n).lent = c.lent := rfl
@[simp] theorem Core.pass_selfFail (c : Core) (n : Nat) : (Core.pass c n).selfFail = c.selfFail := rfl

@[simp] theorem Core.slipBy_ctrs (c : Core) (n : Nat) : (Core.slipBy c n).ctrs = c.ctrs := by rw [Core.slipBy_frame]
@[simp] theorem Core.slipBy_cmps (c : Core) (n : Nat) : (Core.slipBy c n).cmps = c.cmps := by rw [Core.slipBy_frame]
@[simp] theorem Core.slipBy_bidx (c : Core) (n : Nat) : (Core.slipBy c n).bidx = c.bidx := by rw [Core.slipBy_frame]
@[simp] theorem Core.slipBy_issuing (c : Core) (n : Nat) : (Core.slipBy c n).issuing = c.issuing := by rw [Core.slipBy_frame]
@[simp] theorem Core.slipBy_stopped (c : Core) (n : Nat) : (Core.slipBy c n).stopped = c.stopped := by rw [Core.slipBy_frame]
@[simp] theorem Core.slipBy_earliest (c : Core) (n : Nat) : (Core.slipBy c n).earliest = c.earliest := by rw [Core.slipBy_frame]
@[simp] theorem Core.slipBy_pendTicks (c : Core) (n : Nat) : (Core.slipBy c n).pendTicks = c.pendTicks := by rw [Core.slipBy_frame]
@[simp] theorem Core.slipBy_waitTick (c : Core) (n : Nat) : (Core.slipBy c n).waitTick = c.waitTick := by rw [Core.slipBy_frame]
@[simp] theorem Core.slipBy_idle (c : Core) (n : Nat) : (Core.slipBy c n).idle = c.idle := by rw [Core.slipBy_frame]
@[simp] theorem Core.slipBy_latSlip (c : Core) (n : Nat) : (Core.slipBy c n).latSlip = c.latSlip := by rw [Core.slipBy_frame]
@[simp] theorem Core.slipBy_latIdle (c : Core) (n : Nat) : (Core.slipBy c n).latIdle = c.latIdle := by rw [Core.slipBy_frame]
@[simp] theorem Core.slipBy_latFlags (c : Core) (n : Nat) : (Core.slipBy c n).latFlags = c.latFlags := by rw [Core.slipBy_frame]
@[simp] theorem Core.slipBy_latSlips (c : Core) (n : Nat) : (Core.slipBy c n).latSlips = c.latSlips := by rw [Core.slipBy_frame]
@[simp] theorem Core.slipBy_newFlags (c : Core) (n : Nat) : (Core.slipBy c n).newFlags = c.newFlags := by rw [Core.slipBy_frame]
@[simp] theorem Core.slipBy_counted (c : Core) (n : Nat) : (Core.slipBy c n).counted = c.counted := by rw [Core.slipBy_frame]
@[simp] theorem Core.slipBy_flags (c : Core) (n : Nat) : (Core.slipBy c n).flags = c.flags := by rw [Core.slipBy_frame]
@[simp] theorem Core.slipBy_sticky (c : Core) (n : Nat) : (Core.slipBy c n).sticky = c.sticky := by rw [Core.slipBy_frame]
@[simp] theorem Core.slipBy_acc (c : Core) (n : Nat) : (Core.slipBy c n).acc = c.acc := by rw [Core.slipBy_frame]
@[simp] theorem Core.slipBy_tile (c : Core) (n : Nat) : (Core.slipBy c n).tile = c.tile := by rw [Core.slipBy_frame]
@[simp] theorem Core.slipBy_vec (c : Core) (n : Nat) : (Core.slipBy c n).vec = c.vec := by rw [Core.slipBy_frame]
@[simp] theorem Core.slipBy_lenRow (c : Core) (n : Nat) : (Core.slipBy c n).lenRow = c.lenRow := by rw [Core.slipBy_frame]
@[simp] theorem Core.slipBy_lenCol (c : Core) (n : Nat) : (Core.slipBy c n).lenCol = c.lenCol := by rw [Core.slipBy_frame]
@[simp] theorem Core.slipBy_mxFree (c : Core) (n : Nat) : (Core.slipBy c n).mxFree = c.mxFree := by rw [Core.slipBy_frame]
@[simp] theorem Core.slipBy_mxAcc (c : Core) (n : Nat) : (Core.slipBy c n).mxAcc = c.mxAcc := by rw [Core.slipBy_frame]
@[simp] theorem Core.slipBy_veFree (c : Core) (n : Nat) : (Core.slipBy c n).veFree = c.veFree := by rw [Core.slipBy_frame]
@[simp] theorem Core.slipBy_tileFree (c : Core) (n : Nat) : (Core.slipBy c n).tileFree = c.tileFree := by rw [Core.slipBy_frame]
@[simp] theorem Core.slipBy_moves (c : Core) (n : Nat) : (Core.slipBy c n).moves = c.moves := by rw [Core.slipBy_frame]
@[simp] theorem Core.slipBy_fetch (c : Core) (n : Nat) : (Core.slipBy c n).fetch = c.fetch := by rw [Core.slipBy_frame]
@[simp] theorem Core.slipBy_tested (c : Core) (n : Nat) : (Core.slipBy c n).tested = c.tested := by rw [Core.slipBy_frame]
@[simp] theorem Core.slipBy_regs (c : Core) (n : Nat) : (Core.slipBy c n).regs = c.regs := by rw [Core.slipBy_frame]
@[simp] theorem Core.slipBy_ranges (c : Core) (n : Nat) : (Core.slipBy c n).ranges = c.ranges := by rw [Core.slipBy_frame]
@[simp] theorem Core.slipBy_nextId (c : Core) (n : Nat) : (Core.slipBy c n).nextId = c.nextId := by rw [Core.slipBy_frame]
@[simp] theorem Core.slipBy_ld (c : Core) (n : Nat) : (Core.slipBy c n).ld = c.ld := by rw [Core.slipBy_frame]
@[simp] theorem Core.slipBy_st (c : Core) (n : Nat) : (Core.slipBy c n).st = c.st := by rw [Core.slipBy_frame]
@[simp] theorem Core.slipBy_unclaimed (c : Core) (n : Nat) : (Core.slipBy c n).unclaimed = c.unclaimed := by rw [Core.slipBy_frame]
@[simp] theorem Core.slipBy_due (c : Core) (n : Nat) : (Core.slipBy c n).due = c.due := by rw [Core.slipBy_frame]
@[simp] theorem Core.slipBy_qnotes (c : Core) (n : Nat) : (Core.slipBy c n).qnotes = c.qnotes := by rw [Core.slipBy_frame]
@[simp] theorem Core.slipBy_watch (c : Core) (n : Nat) : (Core.slipBy c n).watch = c.watch := by rw [Core.slipBy_frame]
@[simp] theorem Core.slipBy_mem (c : Core) (n : Nat) : (Core.slipBy c n).mem = c.mem := by rw [Core.slipBy_frame]
@[simp] theorem Core.slipBy_istore (c : Core) (n : Nat) : (Core.slipBy c n).istore = c.istore := by rw [Core.slipBy_frame]
@[simp] theorem Core.slipBy_dstore (c : Core) (n : Nat) : (Core.slipBy c n).dstore = c.dstore := by rw [Core.slipBy_frame]
@[simp] theorem Core.slipBy_handles (c : Core) (n : Nat) : (Core.slipBy c n).handles = c.handles := by rw [Core.slipBy_frame]
@[simp] theorem Core.slipBy_eccSingle (c : Core) (n : Nat) : (Core.slipBy c n).eccSingle = c.eccSingle := by rw [Core.slipBy_frame]
@[simp] theorem Core.slipBy_eccDouble (c : Core) (n : Nat) : (Core.slipBy c n).eccDouble = c.eccDouble := by rw [Core.slipBy_frame]
@[simp] theorem Core.slipBy_correctable (c : Core) (n : Nat) : (Core.slipBy c n).correctable = c.correctable := by rw [Core.slipBy_frame]
@[simp] theorem Core.slipBy_uncorr (c : Core) (n : Nat) : (Core.slipBy c n).uncorr = c.uncorr := by rw [Core.slipBy_frame]
@[simp] theorem Core.slipBy_owner (c : Core) (n : Nat) : (Core.slipBy c n).owner = c.owner := by rw [Core.slipBy_frame]
@[simp] theorem Core.slipBy_keys (c : Core) (n : Nat) : (Core.slipBy c n).keys = c.keys := by rw [Core.slipBy_frame]
@[simp] theorem Core.slipBy_redWait (c : Core) (n : Nat) : (Core.slipBy c n).redWait = c.redWait := by rw [Core.slipBy_frame]
@[simp] theorem Core.slipBy_lent (c : Core) (n : Nat) : (Core.slipBy c n).lent = c.lent := by rw [Core.slipBy_frame]
@[simp] theorem Core.slipBy_selfFail (c : Core) (n : Nat) : (Core.slipBy c n).selfFail = c.selfFail := by rw [Core.slipBy_frame]

@[simp] theorem sendWatch_ctrs (c : Core) (op : SyOp) : (sendWatch c op).ctrs = c.ctrs := by rw [sendWatch_frame]
@[simp] theorem sendWatch_cmps (c : Core) (op : SyOp) : (sendWatch c op).cmps = c.cmps := by rw [sendWatch_frame]
@[simp] theorem sendWatch_bidx (c : Core) (op : SyOp) : (sendWatch c op).bidx = c.bidx := by rw [sendWatch_frame]
@[simp] theorem sendWatch_issuing (c : Core) (op : SyOp) : (sendWatch c op).issuing = c.issuing := by rw [sendWatch_frame]
@[simp] theorem sendWatch_stopped (c : Core) (op : SyOp) : (sendWatch c op).stopped = c.stopped := by rw [sendWatch_frame]
@[simp] theorem sendWatch_cyc (c : Core) (op : SyOp) : (sendWatch c op).cyc = c.cyc := by rw [sendWatch_frame]
@[simp] theorem sendWatch_earliest (c : Core) (op : SyOp) : (sendWatch c op).earliest = c.earliest := by rw [sendWatch_frame]
@[simp] theorem sendWatch_phase (c : Core) (op : SyOp) : (sendWatch c op).phase = c.phase := by rw [sendWatch_frame]
@[simp] theorem sendWatch_pendTicks (c : Core) (op : SyOp) : (sendWatch c op).pendTicks = c.pendTicks := by rw [sendWatch_frame]
@[simp] theorem sendWatch_waitTick (c : Core) (op : SyOp) : (sendWatch c op).waitTick = c.waitTick := by rw [sendWatch_frame]
@[simp] theorem sendWatch_idle (c : Core) (op : SyOp) : (sendWatch c op).idle = c.idle := by rw [sendWatch_frame]
@[simp] theorem sendWatch_slip (c : Core) (op : SyOp) : (sendWatch c op).slip = c.slip := by rw [sendWatch_frame]
@[simp] theorem sendWatch_slipTotal (c : Core) (op : SyOp) : (sendWatch c op).slipTotal = c.slipTotal := by rw [sendWatch_frame]
@[simp] theorem sendWatch_latSlip (c : Core) (op : SyOp) : (sendWatch c op).latSlip = c.latSlip := by rw [sendWatch_frame]
@[simp] theorem sendWatch_latIdle (c : Core) (op : SyOp) : (sendWatch c op).latIdle = c.latIdle := by rw [sendWatch_frame]
@[simp] theorem sendWatch_latFlags (c : Core) (op : SyOp) : (sendWatch c op).latFlags = c.latFlags := by rw [sendWatch_frame]
@[simp] theorem sendWatch_latSlips (c : Core) (op : SyOp) : (sendWatch c op).latSlips = c.latSlips := by rw [sendWatch_frame]
@[simp] theorem sendWatch_newFlags (c : Core) (op : SyOp) : (sendWatch c op).newFlags = c.newFlags := by rw [sendWatch_frame]
@[simp] theorem sendWatch_counted (c : Core) (op : SyOp) : (sendWatch c op).counted = c.counted := by rw [sendWatch_frame]
@[simp] theorem sendWatch_flags (c : Core) (op : SyOp) : (sendWatch c op).flags = c.flags := by rw [sendWatch_frame]
@[simp] theorem sendWatch_sticky (c : Core) (op : SyOp) : (sendWatch c op).sticky = c.sticky := by rw [sendWatch_frame]
@[simp] theorem sendWatch_acc (c : Core) (op : SyOp) : (sendWatch c op).acc = c.acc := by rw [sendWatch_frame]
@[simp] theorem sendWatch_tile (c : Core) (op : SyOp) : (sendWatch c op).tile = c.tile := by rw [sendWatch_frame]
@[simp] theorem sendWatch_vec (c : Core) (op : SyOp) : (sendWatch c op).vec = c.vec := by rw [sendWatch_frame]
@[simp] theorem sendWatch_lenRow (c : Core) (op : SyOp) : (sendWatch c op).lenRow = c.lenRow := by rw [sendWatch_frame]
@[simp] theorem sendWatch_lenCol (c : Core) (op : SyOp) : (sendWatch c op).lenCol = c.lenCol := by rw [sendWatch_frame]
@[simp] theorem sendWatch_mxFree (c : Core) (op : SyOp) : (sendWatch c op).mxFree = c.mxFree := by rw [sendWatch_frame]
@[simp] theorem sendWatch_mxAcc (c : Core) (op : SyOp) : (sendWatch c op).mxAcc = c.mxAcc := by rw [sendWatch_frame]
@[simp] theorem sendWatch_veFree (c : Core) (op : SyOp) : (sendWatch c op).veFree = c.veFree := by rw [sendWatch_frame]
@[simp] theorem sendWatch_tileFree (c : Core) (op : SyOp) : (sendWatch c op).tileFree = c.tileFree := by rw [sendWatch_frame]
@[simp] theorem sendWatch_moves (c : Core) (op : SyOp) : (sendWatch c op).moves = c.moves := by rw [sendWatch_frame]
@[simp] theorem sendWatch_fetch (c : Core) (op : SyOp) : (sendWatch c op).fetch = c.fetch := by rw [sendWatch_frame]
@[simp] theorem sendWatch_tested (c : Core) (op : SyOp) : (sendWatch c op).tested = c.tested := by rw [sendWatch_frame]
@[simp] theorem sendWatch_regs (c : Core) (op : SyOp) : (sendWatch c op).regs = c.regs := by rw [sendWatch_frame]
@[simp] theorem sendWatch_ranges (c : Core) (op : SyOp) : (sendWatch c op).ranges = c.ranges := by rw [sendWatch_frame]
@[simp] theorem sendWatch_nextId (c : Core) (op : SyOp) : (sendWatch c op).nextId = c.nextId := by rw [sendWatch_frame]
@[simp] theorem sendWatch_ld (c : Core) (op : SyOp) : (sendWatch c op).ld = c.ld := by rw [sendWatch_frame]
@[simp] theorem sendWatch_st (c : Core) (op : SyOp) : (sendWatch c op).st = c.st := by rw [sendWatch_frame]
@[simp] theorem sendWatch_unclaimed (c : Core) (op : SyOp) : (sendWatch c op).unclaimed = c.unclaimed := by rw [sendWatch_frame]
@[simp] theorem sendWatch_due (c : Core) (op : SyOp) : (sendWatch c op).due = c.due := by rw [sendWatch_frame]
@[simp] theorem sendWatch_qnotes (c : Core) (op : SyOp) : (sendWatch c op).qnotes = c.qnotes := by rw [sendWatch_frame]
@[simp] theorem sendWatch_mem (c : Core) (op : SyOp) : (sendWatch c op).mem = c.mem := by rw [sendWatch_frame]
@[simp] theorem sendWatch_istore (c : Core) (op : SyOp) : (sendWatch c op).istore = c.istore := by rw [sendWatch_frame]
@[simp] theorem sendWatch_dstore (c : Core) (op : SyOp) : (sendWatch c op).dstore = c.dstore := by rw [sendWatch_frame]
@[simp] theorem sendWatch_handles (c : Core) (op : SyOp) : (sendWatch c op).handles = c.handles := by rw [sendWatch_frame]
@[simp] theorem sendWatch_eccSingle (c : Core) (op : SyOp) : (sendWatch c op).eccSingle = c.eccSingle := by rw [sendWatch_frame]
@[simp] theorem sendWatch_eccDouble (c : Core) (op : SyOp) : (sendWatch c op).eccDouble = c.eccDouble := by rw [sendWatch_frame]
@[simp] theorem sendWatch_correctable (c : Core) (op : SyOp) : (sendWatch c op).correctable = c.correctable := by rw [sendWatch_frame]
@[simp] theorem sendWatch_uncorr (c : Core) (op : SyOp) : (sendWatch c op).uncorr = c.uncorr := by rw [sendWatch_frame]
@[simp] theorem sendWatch_owner (c : Core) (op : SyOp) : (sendWatch c op).owner = c.owner := by rw [sendWatch_frame]
@[simp] theorem sendWatch_keys (c : Core) (op : SyOp) : (sendWatch c op).keys = c.keys := by rw [sendWatch_frame]
@[simp] theorem sendWatch_redWait (c : Core) (op : SyOp) : (sendWatch c op).redWait = c.redWait := by rw [sendWatch_frame]
@[simp] theorem sendWatch_lent (c : Core) (op : SyOp) : (sendWatch c op).lent = c.lent := by rw [sendWatch_frame]
@[simp] theorem sendWatch_selfFail (c : Core) (op : SyOp) : (sendWatch c op).selfFail = c.selfFail := by rw [sendWatch_frame]

@[simp] theorem State.issueCore_ctrs (s : State) (i : Nat) (b : Bundle) : (State.issueCore s i b).ctrs = (s.core i).ctrs := by rw [State.issueCore_frame]
@[simp] theorem State.issueCore_cmps (s : State) (i : Nat) (b : Bundle) : (State.issueCore s i b).cmps = (s.core i).cmps := by rw [State.issueCore_frame]
@[simp] theorem State.issueCore_bidx (s : State) (i : Nat) (b : Bundle) : (State.issueCore s i b).bidx = (s.core i).bidx := by rw [State.issueCore_frame]
@[simp] theorem State.issueCore_issuing (s : State) (i : Nat) (b : Bundle) : (State.issueCore s i b).issuing = (s.core i).issuing := by rw [State.issueCore_frame]
@[simp] theorem State.issueCore_stopped (s : State) (i : Nat) (b : Bundle) : (State.issueCore s i b).stopped = (s.core i).stopped := by rw [State.issueCore_frame]
@[simp] theorem State.issueCore_earliest (s : State) (i : Nat) (b : Bundle) : (State.issueCore s i b).earliest = (s.core i).earliest := by rw [State.issueCore_frame]
@[simp] theorem State.issueCore_pendTicks (s : State) (i : Nat) (b : Bundle) : (State.issueCore s i b).pendTicks = (s.core i).pendTicks := by rw [State.issueCore_frame]
@[simp] theorem State.issueCore_waitTick (s : State) (i : Nat) (b : Bundle) : (State.issueCore s i b).waitTick = (s.core i).waitTick := by rw [State.issueCore_frame]
@[simp] theorem State.issueCore_idle (s : State) (i : Nat) (b : Bundle) : (State.issueCore s i b).idle = (s.core i).idle := by rw [State.issueCore_frame]
@[simp] theorem State.issueCore_latSlip (s : State) (i : Nat) (b : Bundle) : (State.issueCore s i b).latSlip = (s.core i).latSlip := by rw [State.issueCore_frame]
@[simp] theorem State.issueCore_latIdle (s : State) (i : Nat) (b : Bundle) : (State.issueCore s i b).latIdle = (s.core i).latIdle := by rw [State.issueCore_frame]
@[simp] theorem State.issueCore_latFlags (s : State) (i : Nat) (b : Bundle) : (State.issueCore s i b).latFlags = (s.core i).latFlags := by rw [State.issueCore_frame]
@[simp] theorem State.issueCore_latSlips (s : State) (i : Nat) (b : Bundle) : (State.issueCore s i b).latSlips = (s.core i).latSlips := by rw [State.issueCore_frame]
@[simp] theorem State.issueCore_newFlags (s : State) (i : Nat) (b : Bundle) : (State.issueCore s i b).newFlags = (s.core i).newFlags := by rw [State.issueCore_frame]
@[simp] theorem State.issueCore_counted (s : State) (i : Nat) (b : Bundle) : (State.issueCore s i b).counted = (s.core i).counted := by rw [State.issueCore_frame]
@[simp] theorem State.issueCore_flags (s : State) (i : Nat) (b : Bundle) : (State.issueCore s i b).flags = (s.core i).flags := by rw [State.issueCore_frame]
@[simp] theorem State.issueCore_sticky (s : State) (i : Nat) (b : Bundle) : (State.issueCore s i b).sticky = (s.core i).sticky := by rw [State.issueCore_frame]
@[simp] theorem State.issueCore_acc (s : State) (i : Nat) (b : Bundle) : (State.issueCore s i b).acc = (s.core i).acc := by rw [State.issueCore_frame]
@[simp] theorem State.issueCore_tile (s : State) (i : Nat) (b : Bundle) : (State.issueCore s i b).tile = (s.core i).tile := by rw [State.issueCore_frame]
@[simp] theorem State.issueCore_vec (s : State) (i : Nat) (b : Bundle) : (State.issueCore s i b).vec = (s.core i).vec := by rw [State.issueCore_frame]
@[simp] theorem State.issueCore_lenRow (s : State) (i : Nat) (b : Bundle) : (State.issueCore s i b).lenRow = (s.core i).lenRow := by rw [State.issueCore_frame]
@[simp] theorem State.issueCore_lenCol (s : State) (i : Nat) (b : Bundle) : (State.issueCore s i b).lenCol = (s.core i).lenCol := by rw [State.issueCore_frame]
@[simp] theorem State.issueCore_mxFree (s : State) (i : Nat) (b : Bundle) : (State.issueCore s i b).mxFree = (s.core i).mxFree := by rw [State.issueCore_frame]
@[simp] theorem State.issueCore_mxAcc (s : State) (i : Nat) (b : Bundle) : (State.issueCore s i b).mxAcc = (s.core i).mxAcc := by rw [State.issueCore_frame]
@[simp] theorem State.issueCore_veFree (s : State) (i : Nat) (b : Bundle) : (State.issueCore s i b).veFree = (s.core i).veFree := by rw [State.issueCore_frame]
@[simp] theorem State.issueCore_tileFree (s : State) (i : Nat) (b : Bundle) : (State.issueCore s i b).tileFree = (s.core i).tileFree := by rw [State.issueCore_frame]
@[simp] theorem State.issueCore_moves (s : State) (i : Nat) (b : Bundle) : (State.issueCore s i b).moves = (s.core i).moves := by rw [State.issueCore_frame]
@[simp] theorem State.issueCore_fetch (s : State) (i : Nat) (b : Bundle) : (State.issueCore s i b).fetch = (s.core i).fetch := by rw [State.issueCore_frame]
@[simp] theorem State.issueCore_tested (s : State) (i : Nat) (b : Bundle) : (State.issueCore s i b).tested = (s.core i).tested := by rw [State.issueCore_frame]
@[simp] theorem State.issueCore_regs (s : State) (i : Nat) (b : Bundle) : (State.issueCore s i b).regs = (s.core i).regs := by rw [State.issueCore_frame]
@[simp] theorem State.issueCore_ranges (s : State) (i : Nat) (b : Bundle) : (State.issueCore s i b).ranges = (s.core i).ranges := by rw [State.issueCore_frame]
@[simp] theorem State.issueCore_nextId (s : State) (i : Nat) (b : Bundle) : (State.issueCore s i b).nextId = (s.core i).nextId := by rw [State.issueCore_frame]
@[simp] theorem State.issueCore_ld (s : State) (i : Nat) (b : Bundle) : (State.issueCore s i b).ld = (s.core i).ld := by rw [State.issueCore_frame]
@[simp] theorem State.issueCore_st (s : State) (i : Nat) (b : Bundle) : (State.issueCore s i b).st = (s.core i).st := by rw [State.issueCore_frame]
@[simp] theorem State.issueCore_unclaimed (s : State) (i : Nat) (b : Bundle) : (State.issueCore s i b).unclaimed = (s.core i).unclaimed := by rw [State.issueCore_frame]
@[simp] theorem State.issueCore_due (s : State) (i : Nat) (b : Bundle) : (State.issueCore s i b).due = (s.core i).due := by rw [State.issueCore_frame]
@[simp] theorem State.issueCore_qnotes (s : State) (i : Nat) (b : Bundle) : (State.issueCore s i b).qnotes = (s.core i).qnotes := by rw [State.issueCore_frame]
@[simp] theorem State.issueCore_mem (s : State) (i : Nat) (b : Bundle) : (State.issueCore s i b).mem = (s.core i).mem := by rw [State.issueCore_frame]
@[simp] theorem State.issueCore_istore (s : State) (i : Nat) (b : Bundle) : (State.issueCore s i b).istore = (s.core i).istore := by rw [State.issueCore_frame]
@[simp] theorem State.issueCore_dstore (s : State) (i : Nat) (b : Bundle) : (State.issueCore s i b).dstore = (s.core i).dstore := by rw [State.issueCore_frame]
@[simp] theorem State.issueCore_handles (s : State) (i : Nat) (b : Bundle) : (State.issueCore s i b).handles = (s.core i).handles := by rw [State.issueCore_frame]
@[simp] theorem State.issueCore_eccSingle (s : State) (i : Nat) (b : Bundle) : (State.issueCore s i b).eccSingle = (s.core i).eccSingle := by rw [State.issueCore_frame]
@[simp] theorem State.issueCore_eccDouble (s : State) (i : Nat) (b : Bundle) : (State.issueCore s i b).eccDouble = (s.core i).eccDouble := by rw [State.issueCore_frame]
@[simp] theorem State.issueCore_correctable (s : State) (i : Nat) (b : Bundle) : (State.issueCore s i b).correctable = (s.core i).correctable := by rw [State.issueCore_frame]
@[simp] theorem State.issueCore_uncorr (s : State) (i : Nat) (b : Bundle) : (State.issueCore s i b).uncorr = (s.core i).uncorr := by rw [State.issueCore_frame]
@[simp] theorem State.issueCore_owner (s : State) (i : Nat) (b : Bundle) : (State.issueCore s i b).owner = (s.core i).owner := by rw [State.issueCore_frame]
@[simp] theorem State.issueCore_keys (s : State) (i : Nat) (b : Bundle) : (State.issueCore s i b).keys = (s.core i).keys := by rw [State.issueCore_frame]
@[simp] theorem State.issueCore_redWait (s : State) (i : Nat) (b : Bundle) : (State.issueCore s i b).redWait = (s.core i).redWait := by rw [State.issueCore_frame]
@[simp] theorem State.issueCore_lent (s : State) (i : Nat) (b : Bundle) : (State.issueCore s i b).lent = (s.core i).lent := by rw [State.issueCore_frame]
@[simp] theorem State.issueCore_selfFail (s : State) (i : Nat) (b : Bundle) : (State.issueCore s i b).selfFail = (s.core i).selfFail := by rw [State.issueCore_frame]

/-! ## The whole bundle -/

/-- What every step of a fold keeps, the fold keeps. -/
theorem foldl_keeps {α γ : Type} (g : State → γ) (f : State → α → State) (hf : ∀ t a, g (f t a) = g t) (l : List α) :
    ∀ t, g (l.foldl f t) = g t := by
  induction l with
  | nil => intro t; rfl
  | cons a l ih => intro t; rw [List.foldl_cons, ih, hf]

theorem State.inject_keeps (s : State) (p : MeshPacket) :
    (s.inject p).panel.cores = s.panel.cores ∧ (s.inject p).panel.phase = s.panel.phase ∧
    (s.inject p).panel.seqs = s.panel.seqs ∧ (s.inject p).ports = s.ports := ⟨rfl, rfl, rfl, rfl⟩

/-- The request of an RREAD touches no core, no sequencer and no port. -/
theorem State.sendRead_keeps (s : State) (x i : Nat) (r : StreamRec) :
    (s.sendRead x i r).panel.cores = s.panel.cores ∧ (s.sendRead x i r).panel.phase = s.panel.phase ∧
    (s.sendRead x i r).panel.seqs = s.panel.seqs ∧ (s.sendRead x i r).ports = s.ports := by
  unfold State.sendRead
  dsimp only
  split
  · split
    · simp only [State.ctxFault_panel, State.ctxFault_ports, and_self]
    · exact State.inject_keeps ..
  · split
    · simp only [State.ctxFault_panel, State.ctxFault_ports, and_self]
    · exact ⟨foldl_keeps (fun t => t.panel.cores) _ (by intros; rfl) _ s, foldl_keeps (fun t => t.panel.phase) _ (by intros; rfl) _ s,
        foldl_keeps (fun t => t.panel.seqs) _ (by intros; rfl) _ s, foldl_keeps (fun t => t.ports) _ (by intros; rfl) _ s⟩
  · simp only [State.rankFault, State.ctxFault_panel, State.ctxFault_ports, and_self]
  · simp only [State.rankFault, State.ctxFault_panel, State.ctxFault_ports, and_self]

theorem postPacket_panel (x i : Nat) (r : StreamRec) (s : State) : (postPacket x i r s).panel = s.panel := rfl

theorem sendPacket_panel (x i : Nat) (r : StreamRec) (s : State) : (sendPacket x i r s).panel = s.panel := by
  simp only [sendPacket]; split
  · rfl
  · rw [State.ctxFault_panel]

/-- The LD and ST slots touch no core and no sequencer but through their own core. -/
theorem lsPost_keeps (x i : Nat) (c0 : Core) (id : Nat) (op : LsOp) (s : State) :
    (lsPost x i c0 id op s).panel.cores = s.panel.cores ∧ (lsPost x i c0 id op s).panel.phase = s.panel.phase ∧
    (lsPost x i c0 id op s).panel.seqs = s.panel.seqs := by
  unfold lsPost
  split
  · split
    · rw [sendPacket_panel]; exact ⟨rfl, rfl, rfl⟩
    · split
      · exact ⟨(State.sendRead_keeps ..).1, (State.sendRead_keeps ..).2.1, (State.sendRead_keeps ..).2.2.1⟩
      · exact ⟨rfl, rfl, rfl⟩
  · exact ⟨rfl, rfl, rfl⟩

@[simp] theorem lsPost_core (x i : Nat) (c0 : Core) (id : Nat) (op : LsOp) (s : State) (j : Nat) :
    (lsPost x i c0 id op s).core j = s.core j := by
  simp only [State.core, State.blankCore, lsPost_keeps]

@[simp] theorem syPost_core (x i : Nat) (c0 : Core) (id : Nat) (op : SyOp) (s : State) (j : Nat) :
    (syPost x i c0 id op s).core j = s.core j := by
  cases op <;> rfl

/-- What a bundle that issues leaves in its core: the effects of its six slots on the core as it stood, one cycle
later, at the bundle that its SC slot names (R47, R48). -/
def issuedCore (s : State) (c0 : Core) (b : Bundle) : Core :=
  let c2 := scApply c0 (tickLatch (timing s.ident.lattab.toNat c0 c0 b) b.sy) b.sc
  let c4 := mxApply c0 (veApply c0 c2 b.ve) b.mx
  let c7 := syApply c0 (lsApply c0 (lsApply c0 c4 false b.ld) true b.st) b.sy
  { ((c7.eccAfter c0 b).pass 1) with bidx := scNext c0 b.sc, tested := none }

/-- A bundle that issues leaves every other core as it was (R48). -/
theorem issueNow_core (s : State) (x i : Nat) (c0 : Core) (b : Bundle) (j : Nat) :
    (issueNow s x i c0 b).core j = if i = j then issuedCore s c0 b else s.core j := by
  simp only [issueNow, syPost_core, lsPost_core, State.core_setCore]
  rfl

theorem issueNow_core_self (s : State) (x i : Nat) (c0 : Core) (b : Bundle) :
    (issueNow s x i c0 b).core i = issuedCore s c0 b := by rw [issueNow_core, if_pos rfl]

end Sys2Proof.Machine
end

