-- ==== Sys2Proof/Laws/Lanes.lean ====
section
/-! SUPPORT. What a write of every lane of a rectangle leaves in a register file. -/
namespace Sys2Proof.Machine

open Sys2Proof

theorem mem_lanes (r l : Nat) (p : Nat × Nat) : p ∈ lanes r l ↔ p.1 < r ∧ p.2 < l := by
  simp only [lanes, List.mem_flatMap, List.mem_map, List.mem_range]
  constructor
  · rintro ⟨a, ha, b, hb, rfl⟩; exact ⟨ha, hb⟩
  · rintro ⟨ha, hb⟩; exact ⟨p.1, ha, p.2, hb, rfl⟩

/-- A register file of 16 by 16 registers after a write of the lanes inside R by C of register d. -/
theorem get_put_lanes (c : Cells (BitVec 32)) (hc : Cells.wf 0 c = true) (d R C n r l : Nat)
    (g : Nat × Nat → BitVec 32) (hC : C ≤ 16) (hR : R ≤ 16) (hr : r < 16) (hl : l < 16) :
    Cells.get 0 (((lanes R C).map (fun p => (256 * d + 16 * p.1 + p.2, g p))).foldl
      (fun t p => Cells.set 0 t p.1 p.2) c) (256 * n + 16 * r + l) =
      if n = d ∧ r < R ∧ l < C then g (r, l) else Cells.get 0 c (256 * n + 16 * r + l) := by
  rw [List.foldl_map]
  by_cases h : n = d ∧ r < R ∧ l < C
  · rw [if_pos h]
    obtain ⟨rfl, h1, h2⟩ := h
    have hm : (r, l) ∈ lanes R C := (mem_lanes R C _).mpr ⟨h1, h2⟩
    exact Cells.get_foldl_set_mem 0 (fun p : Nat × Nat => 256 * n + 16 * p.1 + p.2) g (r, l) _ c hc hm
      (fun e he hf => by
        obtain ⟨a, b⟩ := e
        have := (mem_lanes R C _).mp he
        simp only at hf this
        have h3 : a = r := by omega
        have h4 : b = l := by omega
        rw [h3, h4])
  · rw [if_neg h]
    exact Cells.get_foldl_set_ne 0 (fun p : Nat × Nat => 256 * d + 16 * p.1 + p.2) g _ _ c hc
      (fun e he hf => by
        obtain ⟨a, b⟩ := e
        have := (mem_lanes R C _).mp he
        simp only at hf this
        exact h ⟨by omega, by omega, by omega⟩)

/-- A vector file of 16 lanes after a write of the first N lanes of vector v. -/
theorem get_put_vlanes (c : Cells (BitVec 32)) (hc : Cells.wf 0 c = true) (v N w l : Nat)
    (g : Nat → BitVec 32) (hN : N ≤ 16) (hl : l < 16) :
    Cells.get 0 (((List.range N).map (fun k => (k, g k))).foldl
      (fun t p => Cells.set 0 t (16 * v + p.1) p.2) c) (16 * w + l) =
      if w = v ∧ l < N then g l else Cells.get 0 c (16 * w + l) := by
  rw [List.foldl_map]
  by_cases h : w = v ∧ l < N
  · rw [if_pos h]
    obtain ⟨rfl, h1⟩ := h
    exact Cells.get_foldl_set_mem 0 (fun k : Nat => 16 * w + k) g l _ c hc (List.mem_range.mpr h1)
      (fun e he hf => by have := List.mem_range.mp he; omega)
  · rw [if_neg h]
    exact Cells.get_foldl_set_ne 0 (fun k : Nat => 16 * v + k) g _ _ c hc
      (fun e he hf => h (by have := List.mem_range.mp he; omega))

end Sys2Proof.Machine
end

