-- ==== Sys2Proof/Laws/PerInstr.lean ====
section
/-! SUPPORT. Per-command lemmas: a slot command is well formed when its core exists (R10, R44). -/
namespace Sys2Proof.Laws.SlotWf

open Sys2Proof Sys2Proof.Machine

/-- A slot command names nothing but its core, so it is well formed exactly when that core exists. -/
def Statement (i : Instr) : Prop := ∀ x b, slotOf i = some (x, b) → i.wf = x.wf

theorem setc (x : CoreId) (c : BitVec 3) (hi : Bool) (imm : BitVec 16) (rest : Bundle) : Statement (.setc x c hi imm rest) := by intro _ _ h; cases h; rfl
theorem incc (x : CoreId) (c : BitVec 3) (stp : BitVec 16) (rest : Bundle) : Statement (.incc x c stp rest) := by intro _ _ h; cases h; rfl
theorem setk (x : CoreId) (k : BitVec 2) (c : BitVec 3) (cond : BitVec 2) (limit : BitVec 20) (rest : Bundle) : Statement (.setk x k c cond limit rest) := by intro _ _ h; cases h; rfl
theorem jmp (x : CoreId) (target : BitVec 10) (rest : Bundle) : Statement (.jmp x target rest) := by intro _ _ h; cases h; rfl
theorem br (x : CoreId) (k : BitVec 2) (sense : Bool) (target : BitVec 10) (rest : Bundle) : Statement (.br x k sense target rest) := by intro _ _ h; cases h; rfl
theorem loop (x : CoreId) (c : BitVec 3) (k : BitVec 2) (stp : BitVec 8) (target : BitVec 10) (rest : Bundle) : Statement (.loop x c k stp target rest) := by intro _ _ h; cases h; rfl
theorem stop (x : CoreId) (rest : Bundle) : Statement (.stop x rest) := by intro _ _ h; cases h; rfl
theorem trap (x : CoreId) (rest : Bundle) : Statement (.trap x rest) := by intro _ _ h; cases h; rfl
theorem tick (x : CoreId) (rest : Bundle) : Statement (.tick x rest) := by intro _ _ h; cases h; rfl
theorem waitcy (x : CoreId) (n : BitVec 16) (rest : Bundle) : Statement (.waitcy x n rest) := by intro _ _ h; cases h; rfl
theorem qwait (x : CoreId) (port : BitVec 5) (qp : BitVec 8) (rest : Bundle) : Statement (.qwait x port qp rest) := by intro _ _ h; cases h; rfl
theorem qlev (x : CoreId) (port : BitVec 5) (qp : BitVec 8) (dir : Bool) (geLe : Bool) (n : BitVec 12) (rest : Bundle) : Statement (.qlev x port qp dir geLe n rest) := by intro _ _ h; cases h; rfl
theorem expect (x : CoreId) (h : BitVec 6) (offset : BitVec 10) (length : BitVec 8) (tag : BitVec 3) (rest : Bundle) : Statement (.expect x h offset length tag rest) := by intro _ _ h; cases h; rfl
theorem mwait (x : CoreId) (tag : BitVec 3) (rest : Bundle) : Statement (.mwait x tag rest) := by intro _ _ h; cases h; rfl
theorem fwait (x : CoreId) (c : BitVec 3) (rest : Bundle) : Statement (.fwait x c rest) := by intro _ _ h; cases h; rfl
theorem attend (x : CoreId) (h : BitVec 6) (offset : BitVec 10) (rest : Bundle) : Statement (.attend x h offset rest) := by intro _ _ h; cases h; rfl
theorem drain (x : CoreId) (rest : Bundle) : Statement (.drain x rest) := by intro _ _ h; cases h; rfl
theorem mma (x : CoreId) (m : MxFields) (rest : Bundle) : Statement (.mma x m rest) := by intro _ _ h; cases h; rfl
theorem mmaz (x : CoreId) (m : MxFields) (rest : Bundle) : Statement (.mmaz x m rest) := by intro _ _ h; cases h; rfl
theorem mzero (x : CoreId) (acc : BitVec 2) (rest : Bundle) : Statement (.mzero x acc rest) := by intro _ _ h; cases h; rfl
theorem vsetlen (x : CoreId) (rows : BitVec 5) (cols : BitVec 5) (rest : Bundle) : Statement (.vsetlen x rows cols rest) := by intro _ _ h; cases h; rfl
theorem vldt (x : CoreId) (f : VmFields) (rest : Bundle) : Statement (.vldt x f rest) := by intro _ _ h; cases h; rfl
theorem vstt (x : CoreId) (f : VmFields) (rest : Bundle) : Statement (.vstt x f rest) := by intro _ _ h; cases h; rfl
theorem vacc (x : CoreId) (t : BitVec 4) (acc : BitVec 2) (clr : Bool) (rest : Bundle) : Statement (.vacc x t acc clr rest) := by intro _ _ h; cases h; rfl
theorem vmovv (x : CoreId) (t : BitVec 4) (v : BitVec 3) (sub : BitVec 3) (rest : Bundle) : Statement (.vmovv x t v sub rest) := by intro _ _ h; cases h; rfl
theorem vbct (x : CoreId) (t : BitVec 4) (v : BitVec 3) (sub : BitVec 3) (rest : Bundle) : Statement (.vbct x t v sub rest) := by intro _ _ h; cases h; rfl
theorem vadd (x : CoreId) (f : VaFields) (rest : Bundle) : Statement (.vadd x f rest) := by intro _ _ h; cases h; rfl
theorem vmul (x : CoreId) (f : VaFields) (rest : Bundle) : Statement (.vmul x f rest) := by intro _ _ h; cases h; rfl
theorem vfma (x : CoreId) (f : VaFields) (rest : Bundle) : Statement (.vfma x f rest) := by intro _ _ h; cases h; rfl
theorem vmax (x : CoreId) (f : VaFields) (rest : Bundle) : Statement (.vmax x f rest) := by intro _ _ h; cases h; rfl
theorem vmin (x : CoreId) (f : VaFields) (rest : Bundle) : Statement (.vmin x f rest) := by intro _ _ h; cases h; rfl
theorem vcmp (x : CoreId) (f : VaFields) (rest : Bundle) : Statement (.vcmp x f rest) := by intro _ _ h; cases h; rfl
theorem vsel (x : CoreId) (f : VaFields) (rest : Bundle) : Statement (.vsel x f rest) := by intro _ _ h; cases h; rfl
theorem vcvt (x : CoreId) (f : VaFields) (rest : Bundle) : Statement (.vcvt x f rest) := by intro _ _ h; cases h; rfl
theorem vexp2 (x : CoreId) (f : VaFields) (rest : Bundle) : Statement (.vexp2 x f rest) := by intro _ _ h; cases h; rfl
theorem vrcp (x : CoreId) (f : VaFields) (rest : Bundle) : Statement (.vrcp x f rest) := by intro _ _ h; cases h; rfl
theorem vrsq (x : CoreId) (f : VaFields) (rest : Bundle) : Statement (.vrsq x f rest) := by intro _ _ h; cases h; rfl
theorem vredr (x : CoreId) (t : BitVec 4) (v : BitVec 3) (sub : BitVec 3) (rest : Bundle) : Statement (.vredr x t v sub rest) := by intro _ _ h; cases h; rfl
theorem vredc (x : CoreId) (t : BitVec 4) (v : BitVec 3) (sub : BitVec 3) (rest : Bundle) : Statement (.vredc x t v sub rest) := by intro _ _ h; cases h; rfl
theorem vsmax (x : CoreId) (t : BitVec 4) (v : BitVec 3) (w : BitVec 3) (rest : Bundle) : Statement (.vsmax x t v w rest) := by intro _ _ h; cases h; rfl
theorem vssum (x : CoreId) (t : BitVec 4) (v : BitVec 3) (w : BitVec 3) (rest : Bundle) : Statement (.vssum x t v w rest) := by intro _ _ h; cases h; rfl
theorem qread (x : CoreId) (f : StreamFields) (rest : Bundle) : Statement (.qread x f rest) := by intro _ _ h; cases h; rfl
theorem gather (x : CoreId) (f : StreamFields) (rest : Bundle) : Statement (.gather x f rest) := by intro _ _ h; cases h; rfl
theorem rread (x : CoreId) (f : StreamFields) (rest : Bundle) : Statement (.rread x f rest) := by intro _ _ h; cases h; rfl
theorem qwrite (x : CoreId) (f : StreamFields) (rest : Bundle) : Statement (.qwrite x f rest) := by intro _ _ h; cases h; rfl
theorem scatter (x : CoreId) (f : StreamFields) (rest : Bundle) : Statement (.scatter x f rest) := by intro _ _ h; cases h; rfl
theorem msend (x : CoreId) (f : StreamFields) (rest : Bundle) : Statement (.msend x f rest) := by intro _ _ h; cases h; rfl
theorem streamComplete (x : CoreId) (st : Bool) (id : Nat) : Statement (.streamComplete x st id) := by intro _ _ h; cases h
theorem meshPacketLand (src : CoreId) (dst : CoreId) (chan : BitVec 4) : Statement (.meshPacketLand src dst chan) := by intro _ _ h; cases h
theorem meshNotice (x : CoreId) (tag : BitVec 3) : Statement (.meshNotice x tag) := by intro _ _ h; cases h
theorem rreadRequest (src : CoreId) (dst : CoreId) (chan : BitVec 4) : Statement (.rreadRequest src dst chan) := by intro _ _ h; cases h
theorem reduceAddPacket (src : CoreId) (dst : CoreId) : Statement (.reduceAddPacket src dst) := by intro _ _ h; cases h
theorem portSlotService (port : BitVec 5) (slot : BitVec 6) : Statement (.portSlotService port slot) := by intro _ _ h; cases h
theorem returnLine (port : BitVec 5) (x : CoreId) : Statement (.returnLine port x) := by intro _ _ h; cases h
theorem qlevAnswer (x : CoreId) : Statement (.qlevAnswer x) := by intro _ _ h; cases h
theorem qrFlush (c : BitVec 6) (port : BitVec 5) (qp : BitVec 8) : Statement (.qrFlush c port qp) := by intro _ _ h; cases h
theorem portRefresh (port : BitVec 5) : Statement (.portRefresh port) := by intro _ _ h; cases h
theorem patrolScrub (port : BitVec 5) (atoms : Nat) : Statement (.patrolScrub port atoms) := by intro _ _ h; cases h
theorem selfRefreshEntry (port : BitVec 5) : Statement (.selfRefreshEntry port) := by intro _ _ h; cases h
theorem attendAccept (pod : BitVec 8) : Statement (.attendAccept pod) := by intro _ _ h; cases h
theorem attendMemberRelease (pod : BitVec 8) (member : Nat) : Statement (.attendMemberRelease pod member) := by intro _ _ h; cases h
theorem attendComplete (pod : BitVec 8) : Statement (.attendComplete pod) := by intro _ _ h; cases h
theorem contextTick (c : BitVec 6) : Statement (.contextTick c) := by intro _ _ h; cases h
theorem frameRunaway (c : BitVec 6) : Statement (.frameRunaway c) := by intro _ _ h; cases h
theorem completionPost (c : BitVec 6) (seq : Nat) (dma : Dma) : Statement (.completionPost c seq dma) := by intro _ _ h; cases h
theorem inputFetchDone (c : BitVec 6) (dma : Dma) : Statement (.inputFetchDone c dma) := by intro _ _ h; cases h
theorem syncPulse : Statement .syncPulse := by intro _ _ h; cases h
theorem referenceLock : Statement .referenceLock := by intro _ _ h; cases h
theorem tcHoldover : Statement .tcHoldover := by intro _ _ h; cases h
theorem timeLost : Statement .timeLost := by intro _ _ h; cases h
theorem referenceReturn (off : Int) : Statement (.referenceReturn off) := by intro _ _ h; cases h
theorem counterSlew : Statement .counterSlew := by intro _ _ h; cases h
theorem timeTreeExchange (t1 : Nat) (t2 : Nat) (t3 : Nat) (t4 : Nat) : Statement (.timeTreeExchange t1 t2 t3 t4) := by intro _ _ h; cases h
theorem ferrMeasure (err : BitVec 16) : Statement (.ferrMeasure err) := by intro _ _ h; cases h
theorem timeDrift (m : BitVec 10) (aligned : Bool) : Statement (.timeDrift m aligned) := by intro _ _ h; cases h
theorem tcNowLoRead (path : Path) : Statement (.tcNowLoRead path) := by intro _ _ h; cases h
theorem cxFcountLoRead (path : Path) (c : BitVec 6) : Statement (.cxFcountLoRead path c) := by intro _ _ h; cases h
theorem prepare (p : PrepareMsg) : Statement (.prepare p) := by intro _ _ h; cases h
theorem mergedReply (r : MergedMsg) : Statement (.mergedReply r) := by intro _ _ h; cases h
theorem exchangeDecision : Statement .exchangeDecision := by intro _ _ h; cases h
theorem go (c : BitVec 6) : Statement (.go c) := by intro _ _ h; cases h
theorem nogo (c : BitVec 6) : Statement (.nogo c) := by intro _ _ h; cases h
theorem abort (c : BitVec 6) (m : BitVec 10) (reason : BitVec 16) : Statement (.abort c m reason) := by intro _ _ h; cases h
theorem launchCount (c : BitVec 6) : Statement (.launchCount c) := by intro _ _ h; cases h
theorem startCollectionDeadline : Statement .startCollectionDeadline := by intro _ _ h; cases h
theorem stretchRequest (c : BitVec 6) (stp : StretchNeed) : Statement (.stretchRequest c stp) := by intro _ _ h; cases h
theorem stretchOn (c : BitVec 6) : Statement (.stretchOn c) := by intro _ _ h; cases h
theorem stretchOff (c : StretchEnd) : Statement (.stretchOff c) := by intro _ _ h; cases h
theorem stepEvaluation (v : Sensors) : Statement (.stepEvaluation v) := by intro _ _ h; cases h
theorem stepChange (stp : BitVec 3) : Statement (.stepChange stp) := by intro _ _ h; cases h
theorem forcedStep (cond : ForcedCond) (at_ : BitVec 32) : Statement (.forcedStep cond at_) := by intro _ _ h; cases h
theorem forcedStepRelease : Statement .forcedStepRelease := by intro _ _ h; cases h
theorem voltageDroop (field : BitVec 6) (mv : Nat) : Statement (.voltageDroop field mv) := by intro _ _ h; cases h
theorem vdroop (field : BitVec 6) : Statement (.vdroop field) := by intro _ _ h; cases h
theorem supplyFail (cause : SupplyCause) : Statement (.supplyFail cause) := by intro _ _ h; cases h
theorem xskew (edge : BitVec 32) : Statement (.xskew edge) := by intro _ _ h; cases h
theorem thermalTrip (sensor : BitVec 32) (reading : BitVec 16) : Statement (.thermalTrip sensor reading) := by intro _ _ h; cases h
theorem coolantOk : Statement .coolantOk := by intro _ _ h; cases h
theorem supplyHigh (v : BitVec 16) : Statement (.supplyHigh v) := by intro _ _ h; cases h
theorem supplyLow (v : BitVec 16) : Statement (.supplyLow v) := by intro _ _ h; cases h
theorem watchdog : Statement .watchdog := by intro _ _ h; cases h
theorem hiDbSqt (fn : Nat) (v : BitVec 32) : Statement (.hiDbSqt fn v) := by intro _ _ h; cases h
theorem hiDbCqh (fn : Nat) (v : BitVec 32) : Statement (.hiDbCqh fn v) := by intro _ _ h; cases h
theorem hiDbEqh (fn : Nat) (v : BitVec 32) : Statement (.hiDbEqh fn v) := by intro _ _ h; cases h
theorem hiDbCommit (fn : Nat) (v : BitVec 32) : Statement (.hiDbCommit fn v) := by intro _ _ h; cases h
theorem hiRctlEnable (fn : Nat) (v : BitVec 32) : Statement (.hiRctlEnable fn v) := by intro _ _ h; cases h
theorem descriptorTake (fn : Nat) : Statement (.descriptorTake fn) := by intro _ _ h; cases h
theorem descriptorTimeout (fn : Nat) (slot : Nat) : Statement (.descriptorTimeout fn slot) := by intro _ _ h; cases h
theorem eventLost (fn : Nat) : Statement (.eventLost fn) := by intro _ _ h; cases h
theorem hostRingLost (fn : Nat) : Statement (.hostRingLost fn) := by intro _ _ h; cases h
theorem submit (fn : Nat) : Statement (.submit fn) := by intro _ _ h; cases h
theorem programLoad (fn : Nat) (dma : Dma) : Statement (.programLoad fn dma) := by intro _ _ h; cases h
theorem handle (fn : Nat) : Statement (.handle fn) := by intro _ _ h; cases h
theorem queueCreate (fn : Nat) : Statement (.queueCreate fn) := by intro _ _ h; cases h
theorem queueConfigure (fn : Nat) : Statement (.queueConfigure fn) := by intro _ _ h; cases h
theorem queueDelete (fn : Nat) : Statement (.queueDelete fn) := by intro _ _ h; cases h
theorem wsetLoad (fn : Nat) (dma : Dma) : Statement (.wsetLoad fn dma) := by intro _ _ h; cases h
theorem wsetSwap (fn : Nat) (dma : Dma) : Statement (.wsetSwap fn dma) := by intro _ _ h; cases h
theorem swapSwitch (c : BitVec 6) : Statement (.swapSwitch c) := by intro _ _ h; cases h
theorem shardTransferStart (c : BitVec 6) (i : Nat) : Statement (.shardTransferStart c i) := by intro _ _ h; cases h
theorem shardVerdict (c : BitVec 6) (i : Nat) (dma : Dma) : Statement (.shardVerdict c i dma) := by intro _ _ h; cases h
theorem swapResume (c : BitVec 6) : Statement (.swapResume c) := by intro _ _ h; cases h
theorem swapLoadedReport (job : BitVec 16) (m : BitVec 10) (failed : Option (List (BitVec 16))) : Statement (.swapLoadedReport job m failed) := by intro _ _ h; cases h
theorem recheckVerdict (c : BitVec 6) : Statement (.recheckVerdict c) := by intro _ _ h; cases h
theorem recheckAbandon (c : BitVec 6) : Statement (.recheckAbandon c) := by intro _ _ h; cases h
theorem editPagetableInit (fn : Nat) (dma : Dma) : Statement (.editPagetableInit fn dma) := by intro _ _ h; cases h
theorem editPagetableEdit (fn : Nat) (dma : Dma) : Statement (.editPagetableEdit fn dma) := by intro _ _ h; cases h
theorem ptEditPerform (c : BitVec 6) (port : BitVec 5) (base : Nat) : Statement (.ptEditPerform c port base) := by intro _ _ h; cases h
theorem ptEditComplete (c : BitVec 6) (port : BitVec 5) (base : Nat) : Statement (.ptEditComplete c port base) := by intro _ _ h; cases h
theorem editPagetableRelease (fn : Nat) : Statement (.editPagetableRelease fn) := by intro _ _ h; cases h
theorem start (fn : Nat) : Statement (.start fn) := by intro _ _ h; cases h
theorem quiesce (fn : Nat) : Statement (.quiesce fn) := by intro _ _ h; cases h
theorem quiesceTick (c : BitVec 6) : Statement (.quiesceTick c) := by intro _ _ h; cases h
theorem resume (fn : Nat) : Statement (.resume fn) := by intro _ _ h; cases h
theorem hostXfer (fn : Nat) : Statement (.hostXfer fn) := by intro _ _ h; cases h
theorem hostXferDone (fn : Nat) (dma : Dma) : Statement (.hostXferDone fn dma) := by intro _ _ h; cases h
theorem debugRead (fn : Nat) (dma : Dma) : Statement (.debugRead fn dma) := by intro _ _ h; cases h
theorem createContext : Statement .createContext := by intro _ _ h; cases h
theorem bind : Statement .bind := by intro _ _ h; cases h
theorem rebind : Statement .rebind := by intro _ _ h; cases h
theorem rebindProceed (c : BitVec 6) (bad : List (BitVec 8)) (took : Nat) : Statement (.rebindProceed c bad took) := by intro _ _ h; cases h
theorem teardown (bad : List (BitVec 8)) (dma : Dma) : Statement (.teardown bad dma) := by intro _ _ h; cases h
theorem windowScrubDone (port : BitVec 5) : Statement (.windowScrubDone port) := by intro _ _ h; cases h
theorem windowGrant : Statement .windowGrant := by intro _ _ h; cases h
theorem windowRelease : Statement .windowRelease := by intro _ _ h; cases h
theorem retainedFree : Statement .retainedFree := by intro _ _ h; cases h
theorem slotGrant : Statement .slotGrant := by intro _ _ h; cases h
theorem libraryInstall (dma : Dma) : Statement (.libraryInstall dma) := by intro _ _ h; cases h
theorem libraryInstallDone (n : Nat) (dma : Dma) : Statement (.libraryInstallDone n dma) := by intro _ _ h; cases h
theorem libraryGrant : Statement .libraryGrant := by intro _ _ h; cases h
theorem libraryRemove : Statement .libraryRemove := by intro _ _ h; cases h
theorem contextReset : Statement .contextReset := by intro _ _ h; cases h
theorem engineHung (c : BitVec 6) (source : BitVec 32) : Statement (.engineHung c source) := by intro _ _ h; cases h
theorem engineReset : Statement .engineReset := by intro _ _ h; cases h
theorem engineResetDone (source : BitVec 32) (good : Bool) : Statement (.engineResetDone source good) := by intro _ _ h; cases h
theorem engineFault (source : BitVec 32) : Statement (.engineFault source) := by intro _ _ h; cases h
theorem partitionReset (bad : List (BitVec 8)) : Statement (.partitionReset bad) := by intro _ _ h; cases h
theorem moduleReset : Statement .moduleReset := by intro _ _ h; cases h
theorem flr (c : BitVec 6) : Statement (.flr c) := by intro _ _ h; cases h
theorem flrDone (c : BitVec 6) (hung : Option (BitVec 32)) : Statement (.flrDone c hung) := by intro _ _ h; cases h
theorem jobCreate (dma : Dma) (bad : List Nat) : Statement (.jobCreate dma bad) := by intro _ _ h; cases h
theorem jobEnd : Statement .jobEnd := by intro _ _ h; cases h
theorem jobLaunch : Statement .jobLaunch := by intro _ _ h; cases h
theorem jobQuiesce : Statement .jobQuiesce := by intro _ _ h; cases h
theorem jobResume : Statement .jobResume := by intro _ _ h; cases h
theorem jobSwap : Statement .jobSwap := by intro _ _ h; cases h
theorem managerTake (found : List FoundMod) : Statement (.managerTake found) := by intro _ _ h; cases h
theorem readmit (bad : Option (BitVec 3)) : Statement (.readmit bad) := by intro _ _ h; cases h
theorem exclude (dma : Dma) : Statement (.exclude dma) := by intro _ _ h; cases h
theorem ringFormation (v : BitVec 2) (found : List FoundMod) : Statement (.ringFormation v found) := by intro _ _ h; cases h
theorem adoption (a : AdoptMsg) : Statement (.adoption a) := by intro _ _ h; cases h
theorem beacon : Statement .beacon := by intro _ _ h; cases h
theorem heartbeat (m : BitVec 10) : Statement (.heartbeat m) := by intro _ _ h; cases h
theorem managerLost : Statement .managerLost := by intro _ _ h; cases h
theorem moduleFailed (m : BitVec 10) (link : Option (BitVec 3)) : Statement (.moduleFailed m link) := by intro _ _ h; cases h
theorem faultReport (m : BitVec 10) (code : BitVec 16) (cls : BitVec 3) (c : BitVec 6) (source : BitVec 32) (arg0 : BitVec 32) (arg1 : BitVec 32) : Statement (.faultReport m code cls c source arg0 arg1) := by intro _ _ h; cases h
theorem tableChange (t : Option TableChange) : Statement (.tableChange t) := by intro _ _ h; cases h
theorem cableChange (port : BitVec 3) (cable : CableClass) : Statement (.cableChange port cable) := by intro _ _ h; cases h
theorem cageOvercurrent (port : BitVec 3) : Statement (.cageOvercurrent port) := by intro _ _ h; cases h
theorem linkTrained (port : BitVec 3) : Statement (.linkTrained port) := by intro _ _ h; cases h
theorem linkTrainingTimeout (port : BitVec 3) : Statement (.linkTrainingTimeout port) := by intro _ _ h; cases h
theorem linkTrainingRetry (port : BitVec 3) : Statement (.linkTrainingRetry port) := by intro _ _ h; cases h
theorem linkAligned (port : BitVec 3) (nbr : BitVec 10) (nport : BitVec 3) (delay : BitVec 16) : Statement (.linkAligned port nbr nport delay) := by intro _ _ h; cases h
theorem linkAlignTimeout (port : BitVec 3) : Statement (.linkAlignTimeout port) := by intro _ _ h; cases h
theorem linkDown (port : BitVec 3) (lanes : BitVec 8) : Statement (.linkDown port lanes) := by intro _ _ h; cases h
theorem codewordGroupRx (port : BitVec 3) (g : Group) : Statement (.codewordGroupRx port g) := by intro _ _ h; cases h
theorem replayResend (port : BitVec 3) (pip : BitVec 6) : Statement (.replayResend port pip) := by intro _ _ h; cases h
theorem epfinPacketTx (n : Nat) : Statement (.epfinPacketTx n) := by intro _ _ h; cases h
theorem epfinForward (port : BitVec 3) (pkt : EpPacket) : Statement (.epfinForward port pkt) := by intro _ _ h; cases h
theorem epfinPacketRx (port : BitVec 3) (pkt : EpPacket) : Statement (.epfinPacketRx port pkt) := by intro _ _ h; cases h
theorem ideFail (stream : BitVec 3) : Statement (.ideFail stream) := by intro _ _ h; cases h
theorem perst : Statement .perst := by intro _ _ h; cases h
theorem pwrEnRise : Statement .pwrEnRise := by intro _ _ h; cases h
theorem pwrEnFall : Statement .pwrEnFall := by intro _ _ h; cases h
theorem modRstN : Statement .modRstN := by intro _ _ h; cases h
theorem moduleStartStage (r : StageResult) : Statement (.moduleStartStage r) := by intro _ _ h; cases h
theorem refAbsent : Statement .refAbsent := by intro _ _ h; cases h
theorem temperatureGateClear : Statement .temperatureGateClear := by intro _ _ h; cases h
theorem mgReset (window : Bool) (v : BitVec 32) : Statement (.mgReset window v) := by intro _ _ h; cases h
theorem mgFlogack (v : BitVec 32) : Statement (.mgFlogack v) := by intro _ _ h; cases h
theorem fsPcap (v : BitVec 32) : Statement (.fsPcap v) := by intro _ _ h; cases h
theorem registerWrite (space : Space) (off : BitVec 32) (v : BitVec 32) (be : BitVec 4) : Statement (.registerWrite space off v be) := by intro _ _ h; cases h
theorem recoveryEnter (v : BitVec 32) : Statement (.recoveryEnter v) := by intro _ _ h; cases h
theorem recoveryTransfer (dma : Dma) (flashOk : Bool) : Statement (.recoveryTransfer dma flashOk) := by intro _ _ h; cases h
theorem getVersion : Statement .getVersion := by intro _ _ h; cases h
theorem getCapabilities : Statement .getCapabilities := by intro _ _ h; cases h
theorem negotiateAlgorithms (offer : AlgOffer) : Statement (.negotiateAlgorithms offer) := by intro _ _ h; cases h
theorem getDigests : Statement .getDigests := by intro _ _ h; cases h
theorem getCertificate (slot : BitVec 4) (off : BitVec 16) (len : BitVec 16) : Statement (.getCertificate slot off len) := by intro _ _ h; cases h
theorem challenge (slot : BitVec 4) (nonce : BitVec 256) : Statement (.challenge slot nonce) := by intro _ _ h; cases h
theorem getMeasurements (index : BitVec 8) (nonce : BitVec 256) : Statement (.getMeasurements index nonce) := by intro _ _ h; cases h
theorem keyExchange (slot : BitVec 4) (nonce : BitVec 256) (share : BitVec 512) : Statement (.keyExchange slot nonce share) := by intro _ _ h; cases h
theorem finish (good : Bool) : Statement (.finish good) := by intro _ _ h; cases h
theorem endSession : Statement .endSession := by intro _ _ h; cases h
theorem ideKm (stream : BitVec 3) (key : BitVec 256) : Statement (.ideKm stream key) := by intro _ _ h; cases h
theorem smbusRead (off : BitVec 32) : Statement (.smbusRead off) := by intro _ _ h; cases h
theorem smbusReset (v : BitVec 32) : Statement (.smbusReset v) := by intro _ _ h; cases h
theorem smbusPcap (v : BitVec 16) : Statement (.smbusPcap v) := by intro _ _ h; cases h
theorem monitorLine (line : List (BitVec 8)) : Statement (.monitorLine line) := by intro _ _ h; cases h
theorem monitorAbort : Statement .monitorAbort := by intro _ _ h; cases h
theorem monitorId : Statement .monitorId := by intro _ _ h; cases h
theorem monitorReg (off : Nat) (n : Nat) : Statement (.monitorReg off n) := by intro _ _ h; cases h
theorem monitorStart : Statement .monitorStart := by intro _ _ h; cases h
theorem monitorTemp : Statement .monitorTemp := by intro _ _ h; cases h
theorem monitorLog (n : Nat) : Statement (.monitorLog n) := by intro _ _ h; cases h
theorem monitorLogFlash (n : Nat) : Statement (.monitorLogFlash n) := by intro _ _ h; cases h
theorem monitorCtx (c : Nat) : Statement (.monitorCtx c) := by intro _ _ h; cases h
theorem monitorCore (cx : Nat) (cy : Nat) : Statement (.monitorCore cx cy) := by intro _ _ h; cases h
theorem monitorHandle (cx : Nat) (cy : Nat) (h : Option Nat) : Statement (.monitorHandle cx cy h) := by intro _ _ h; cases h
theorem monitorMem (cx : Nat) (cy : Nat) (addr : Nat) (len : Nat) : Statement (.monitorMem cx cy addr len) := by intro _ _ h; cases h
theorem monitorIstore (cx : Nat) (cy : Nat) (b : Nat) (n : Nat) : Statement (.monitorIstore cx cy b n) := by intro _ _ h; cases h
theorem monitorPort (n : Nat) : Statement (.monitorPort n) := by intro _ _ h; cases h
theorem monitorPips (n : Nat) : Statement (.monitorPips n) := by intro _ _ h; cases h
theorem monitorRank (job : Nat) : Statement (.monitorRank job) := by intro _ _ h; cases h
theorem monitorRoute (job : Nat) : Statement (.monitorRoute job) := by intro _ _ h; cases h
theorem monitorBmask : Statement .monitorBmask := by intro _ _ h; cases h
theorem monitorDist (bx : Nat) (by_ : Nat) : Statement (.monitorDist bx by_) := by intro _ _ h; cases h
theorem monitorChallenge : Statement .monitorChallenge := by intro _ _ h; cases h
theorem monitorUnlock (cert : List (BitVec 8)) : Statement (.monitorUnlock cert) := by intro _ _ h; cases h
theorem monitorLock : Statement .monitorLock := by intro _ _ h; cases h
theorem monitorWreg (off : Nat) (v : BitVec 32) : Statement (.monitorWreg off v) := by intro _ _ h; cases h
theorem monitorWmem (cx : Nat) (cy : Nat) (addr : Nat) (v : BitVec 32) : Statement (.monitorWmem cx cy addr v) := by intro _ _ h; cases h
theorem monitorWistore (cx : Nat) (cy : Nat) (b : Nat) (ws : List (BitVec 32)) : Statement (.monitorWistore cx cy b ws) := by intro _ _ h; cases h
theorem monitorReset : Statement .monitorReset := by intro _ _ h; cases h
theorem inputPowerLoss : Statement .inputPowerLoss := by intro _ _ h; cases h
theorem perstDeassert : Statement .perstDeassert := by intro _ _ h; cases h
theorem hostLinkDown : Statement .hostLinkDown := by intro _ _ h; cases h
theorem modRstNRelease : Statement .modRstNRelease := by intro _ _ h; cases h
theorem memberFault (c : BitVec 6) (m : BitVec 10) (code : MemberCode) : Statement (.memberFault c m code) := by intro _ _ h; cases h

end Sys2Proof.Laws.SlotWf
end

