-- ==== Sys2Proof/Tests/Slice0.lean ====
section
/-! SUPPORT. The author's own tests: well-formedness refuses what names nothing, worked examples of the
spec, and for each statement a state and operands that meet its hypotheses, clause by clause. -/
namespace Sys2Proof.Tests

open Sys2Proof Sys2Proof.Machine

set_option Elab.async false

/-! ## Helpers -/

/-- Core 0, of pod 0. -/
def c0 : CoreId := { cx := 0, cy := 0 }
/-- The last core of the array, of pod 191. -/
def cLast : CoreId := { cx := 639, cy := 479 }
/-- A bundle with every slot empty. -/
def nop : Bundle := {}
/-- The state a command answers. -/
def after (i : Instr) (s : State) : State := match exec i s with
  | .next t => t
  | _ => s
/-- The command answers a next state. -/
def runs (i : Instr) (s : State) : Bool := match exec i s with
  | .next _ => true
  | _ => false
/-- A module that serves: powered, READY, its clocks on, PERST# high. -/
def served : State :=
  { mg := { ready := true, stage := 9, powered := true }, link := { perst := false, up := true }, fs := { clocked := true, coreRails := true } }
/-- A RUNNING context 3 with pod 0, two stages and one program. -/
def ctx3 : Context :=
  { st := .running, started := true, part := some { bx := 0, by_ := 0, w := 1, h := 1 }, fcount := 5, nextTick := 200000,
    prog := some { s := 2, inp := { size := 64, n := 2 }, out := { size := 64, n := 2 } },
    wset := { st := 2, shards := [{ st := .good }] } }
/-- Handles: H1 descriptors at byte 131,072, H2 data, H3 a window open to rank 0, H4 data. -/
def handles1 : Cells (BitVec 128) :=
  [(1, mkHandle 1 3 true true false 0 0 0 64 512), (2, mkHandle 1 3 true false false 0 0 0 64 0),
   (3, mkHandle 1 3 true false true 3 0 0 64 64), (4, mkHandle 1 3 true false false 0 0 0 64 128)]
/-- A core of context 3 that issues. -/
def core1 : Core := { owner := some 3, issuing := true, handles := handles1 }
/-- Context 3 with core 0 in a given state. -/
def with0 (k : Core) : State := { served with ctxs := [(3, ctx3)], panel := { cores := [(0, k)] } }
def live : State := with0 core1
/-- A descriptor in the store at H1, entry n. -/
def withDesc (k : Core) (n : Nat) (ws : List (BitVec 32)) : Core :=
  { k with dstore := Cells.write 0 k.dstore (131072 + 64 * n) (ws.flatMap (fun w => leBytes 4 w.toNat)) }
/-- Port 0 with the pair (3, 5), a window of two blocks and slot 0 granted to context 3. -/
def port0 : StackPort := { pairs := [(773, {})], wins := [(3, { base := 1, blocks := 2 })], slots := [(0, 3)] }
def withPort (s : State) (p : StackPort) : State := { s with ports := [(0, p)] }

/-! ## Witnesses: the queue and the issue of a bundle -/

theorem witness_EveryWellFormedCommandAnswers :
    (Instr.setc c0 0 false 0 nop).wf = true ∧ (Instr.setc cLast 0 false 0 nop).wf = true ∧
    (Instr.setc { cx := 640, cy := 0 } 0 false 0 nop).wf = false ∧ (Instr.submit 64).wf = true ∧
    (Instr.submit 65).wf = false ∧ (Instr.linkTrained 5).wf = true ∧ (Instr.linkTrained 6).wf = false ∧
    (Instr.attendAccept 191).wf = true ∧ (Instr.attendAccept 192).wf = false ∧
    (Instr.vdroop 47).wf = true ∧ (Instr.vdroop 48).wf = false := by decide

theorem witness_SlotCommandIssuesItsBundle :
    slotOf (.setc c0 7 true 0xFFFF nop) = some (c0, { sc := .setc 7 true 0xFFFF }) ∧ inArray c0 = true ∧
    Issues live (coreIdx c0) { sc := .setc 7 true 0xFFFF } = true := by decide +kernel

theorem witness_CounterCommandsWriteOneCounter :
    inArray c0 = true ∧ Issues live 0 { sc := .setc 0 false 1 } = true ∧ Issues live 0 { sc := .incc 7 0x8000 } = true ∧
    Issues live 0 { sc := .setk 3 7 2 0xFFFFF } = true := by decide +kernel

theorem witness_BranchCommandsNameTheNextBundle :
    inArray c0 = true ∧ Issues live 0 { sc := .jmp 1023 } = true ∧ Issues live 0 { sc := .br 3 true 0 } = true ∧
    Issues live 0 { sc := .stop } = true := by decide +kernel

theorem witness_LoopTestsTheIncrementedCounter :
    inArray c0 = true ∧ Issues live 0 { sc := .loop 1 3 0xFF 40 } = true := by decide +kernel

theorem witness_WaitcySetsTheEarliestCycle :
    inArray c0 = true ∧ Issues live 0 { sy := .waitcy 0xFFFF } = true := by decide +kernel

/-- A core with two ticks pending, a packet notice of (0, 5) and an unclaimed notice of tag 7. -/
def noticed : Core := { core1 with pendTicks := 2, qnotes := [(5, 255)], unclaimed := [(7, 1)] }

theorem witness_BlockingCommandsTakeWhatTheyWaitFor :
    inArray c0 = true ∧ Issues (with0 noticed) 0 { sy := .tick } = true ∧
    Issues (withPort (with0 noticed) port0) 0 { sy := .qwait 0 5 } = true ∧
    Issues (withPort (with0 { core1 with watch := some { port := 0, qp := 5, held := true } }) port0) 0
      { sy := .qlev 0 5 false false 0 } = true ∧
    Issues (with0 noticed) 0 { sy := .mwait 7 } = true ∧
    Issues (with0 { core1 with ctrs := [(0, 5)] }) 0 { sy := .fwait 0 } = true ∧
    Issues live 0 { sy := .drain } = true := by decide +kernel

/-- An ATTEND descriptor of one query token, head dimension 64, one head, queries and output in H2 and H4. -/
def attend1 : List (BitVec 32) :=
  [0x00210000, 0x00010001, 0, 0, 1, 0, 0xA0, 0, 0, 2, 4, 4, 0, 0, 0, 0]

theorem witness_ExpectAndAttendRegisterTheirRanges :
    inArray c0 = true ∧ Issues live 0 { sy := .expect 2 63 1 7 } = true ∧
    Issues (with0 (withDesc core1 0 attend1)) 0 { sy := .attend 1 0 } = true := by decide +kernel

theorem witness_MatrixCommandsWriteOneAccumulator :
    inArray c0 = true ∧ (live.core (coreIdx c0)).canonical = true ∧
    Issues live 0 { mx := .mma false { acc := 3, fmt := 6, bh := 2, ah := 4 } } = true ∧
    Issues live 0 { mx := .mma true { acc := 0, fmt := 0, bh := 2, ah := 2 } } = true ∧
    Issues live 0 { mx := .mzero 3 } = true := by decide +kernel

theorem witness_LengthTileAndRegisterMovesCopyLanes :
    inArray c0 = true ∧ (live.core (coreIdx c0)).canonical = true ∧
    Issues live 0 { ve := .vsetlen 1 16 } = true ∧ Issues live 0 { ve := .vldt { t := 15, h := 2 } } = true ∧
    Issues live 0 { ve := .vstt { t := 0, h := 4 } } = true ∧ Issues live 0 { ve := .vacc 15 3 true } = true ∧
    Issues live 0 { ve := .vmovv 0 7 0 } = true ∧ Issues live 0 { ve := .vmovv 0 7 1 } = true ∧
    Issues live 0 { ve := .vbct 15 0 1 } = true := by decide +kernel

theorem witness_LaneArithmeticWritesTheLanesInsideLen :
    inArray c0 = true ∧ (live.core (coreIdx c0)).canonical = true ∧
    Issues live 0 { ve := .va .vfma { dst := 15, srca := 1, bmode := 2, vsel := 7, srcc := 3 } } = true ∧
    Issues live 0 { ve := .va .vcvt { dst := 1, sub := 1 } } = true ∧
    Issues live 0 { ve := .va .vcvt { dst := 1, sub := 7 } } = true ∧
    Issues live 0 { ve := .va .vrsq { dst := 2, srca := 2 } } = true := by decide +kernel

theorem witness_VcvtStagesEachRow :
    inArray c0 = true ∧ (live.core (coreIdx c0)).canonical = true ∧
    Issues live 0 { ve := .va .vcvt { dst := 1, sub := 2 } } = true ∧
    Issues live 0 { ve := .va .vcvt { dst := 1, sub := 6 } } = true := by decide +kernel

theorem witness_ReductionsWriteOneResultPerRow :
    inArray c0 = true ∧ (live.core (coreIdx c0)).canonical = true ∧
    Issues live 0 { ve := .vred false 15 7 0 } = true ∧ Issues live 0 { ve := .vred true 0 0 2 } = true ∧
    Issues live 0 { ve := .vsmax 15 7 0 } = true ∧ Issues live 0 { ve := .vssum 15 0 7 } = true := by decide +kernel

/-- Stream descriptors of four words: from H2 to H4, from the pair (0, 5) to H4, from H2 to the pair, a read
of core 0's window H3 to H4, and a send of H2 to it. -/
def gather1 : List (BitVec 32) := [0x00042000, 0x02000000, 0, 0, 0, 0x04000000, 0, 0, 0, 0, 0, 0, 0, 0, 0, 0]
def qread1 : List (BitVec 32) := [0x00042000, 0, 0, 0, 0, 0x04000000, 0, 0, 0, 0xA0, 0, 0, 0, 0, 0, 0]
def qwrite1 : List (BitVec 32) := [0x00042000, 0x02000000, 0, 0, 0, 0, 0, 0, 0, 0xA0, 0, 0, 0, 0, 0, 0]
def rread1 : List (BitVec 32) := [0x00042000, 0, 0, 0, 0, 0x04000000, 0, 0, 0, 0x0C000000, 0x200, 0, 0, 0, 0, 0]
def msend1 : List (BitVec 32) := [0x00042000, 0x02000000, 0, 0, 0, 0, 0, 0, 0, 0x0C000000, 0x200, 0, 0, 0, 0, 0]
def streaming : Core :=
  withDesc (withDesc (withDesc (withDesc (withDesc core1 0 gather1) 1 qread1) 2 qwrite1) 3 rread1) 4 msend1
def streams : State := withPort (with0 streaming) port0

/-- Core 0 with a QREAD on port 8, whose entries it does not reach around pods 16 and 17. -/
def apart : State := { with0 (withDesc core1 1 (qread1.set 9 0xA8)) with
  ports := [(8, port0)], mg := { served.mg with startMap := ([], [16, 17], [], []) } }

theorem witness_StreamCommandsTakeTheirSlot :
    inArray c0 = true ∧
    Issues streams 0 (withStream .gather { dh := 1, di := 0 } nop) = true ∧
    Issues streams 0 (withStream .scatter { dh := 1, di := 0 } nop) = true ∧
    Issues streams 0 (withStream .qread { dh := 1, di := 1 } nop) = true ∧
    Issues streams 0 (withStream .qwrite { dh := 1, di := 2 } nop) = true ∧
    Issues streams 0 (withStream .rread { dh := 1, di := 3 } nop) = true ∧
    Issues streams 0 (withStream .msend { dh := 1, di := 4 } nop) = true ∧ (streams.portEntry 0 0).isSome = true ∧
    Issues apart 0 (withStream .qread { dh := 1, di := 1 } nop) = true ∧ apart.portEntry 0 8 = none := by decide +kernel

theorem witness_TrapFaultsItsContext :
    inArray c0 = true ∧ (live.core 0).tested = none ∧ live.coreLive 0 = true ∧ syReady live 3 0 (sendWatch (live.core 0) .nop) .nop = true ∧
    ({ sc := .trap } : Bundle).illegal? = none := by decide +kernel

theorem witness_FaultAtIssueLeavesEverySlotUndone :
    slotOf (.vldt c0 { h := 5 } nop) = some (c0, { ve := .vldt { h := 5 } }) ∧ inArray c0 = true ∧ live.coreLive 0 = true ∧
    (live.core 0).tested = none ∧
    syReady live 3 0 (sendWatch (live.core 0) .nop) .nop = true ∧
    issueFault live 3 0 (live.waitedCore 0 { ve := .vldt { h := 5 } }) { ve := .vldt { h := 5 } } = some (0x0201, 5, 0) ∧
    issueFault live 3 0 (live.waitedCore 0 { sc := .trap, ve := .vsetlen 17 1 }) { sc := .trap, ve := .vsetlen 17 1 } = some (0x0101, 0, 1) ∧
    ({ sc := .trap, ve := .vsetlen 17 1 } : Bundle).illegal? = some 1 := by decide +kernel

/-- A core whose EXPECT holds the first 64 bytes of H2. -/
def expecting : Core := { core1 with ranges := [{ lo := 0, hi := 64, write := true, owner := .expect 0 1 }] }

theorem witness_CyclesWithoutIssueAreWaitsOrSlips :
    slotOf (.tick c0 nop) = some (c0, { sy := .tick }) ∧ slotOf (.vldt c0 { h := 2 } nop) = some (c0, { ve := .vldt { h := 2 } }) ∧
    inArray c0 = true ∧ live.coreLive 0 = true ∧ syReady live 3 0 (sendWatch (live.core 0) .tick) .tick = false ∧
    (with0 expecting).coreLive 0 = true ∧ syReady (with0 expecting) 3 0 (sendWatch expecting .nop) .nop = true ∧
    bundleFault (with0 expecting) 3 0 ((with0 expecting).waitedCore 0 { ve := .vldt { h := 2 } }) { ve := .vldt { h := 2 } } = none ∧
    eccHit ((with0 expecting).waitedCore 0 { ve := .vldt { h := 2 } }) { ve := .vldt { h := 2 } } = none ∧
    stalls (with0 expecting) 3 0 ((with0 expecting).issueCore 0 { ve := .vldt { h := 2 } }) { ve := .vldt { h := 2 } } = true := by
  decide +kernel

theorem witness_IssueFrameInTheCore :
    slotOf (.vmul c0 {} nop) = some (c0, { ve := .va .vmul {} }) ∧ inArray c0 = true ∧
    Issues live 0 { ve := .va .vmul {} } = true := by decide +kernel

theorem witness_IssueFrameOutsideTheCore :
    slotOf (.msend c0 { dh := 1, di := 4 } nop) = some (c0, withStream .msend { dh := 1, di := 4 } nop) ∧ inArray c0 = true ∧
    Issues streams 0 (withStream .msend { dh := 1, di := 4 } nop) = true ∧
    Issues streams 0 (withStream .qread { dh := 1, di := 1 } nop) = true ∧ (streams.portEntry 0 (dPort qread1)).isSome = true := by
  decide +kernel

theorem witness_SumsIgnoreTheOrderOfTheirTerms : [1, 2, 3].Perm [3, 1, 2] := by decide

/-! ## Witnesses: data in motion -/

/-- A stream as it stands in its slot, of descriptor d, with its handles H2 and H4. -/
def stream (o : StreamOp) (id : Nat) (d : List (BitVec 32)) : StreamRec :=
  { id := id, op := o, desc := d, dh := 1, count := 4, srcH := core1.handle 2, dstH := core1.handle 4 }
def moving : State := withPort (with0 { core1 with
  ld := [{ stream .qread 1 qread1 with closed := true }, { stream .rread 2 rread1 with closed := true }, stream .gather 3 gather1],
  st := [stream .qwrite 4 qwrite1, stream .msend 5 msend1, stream .scatter 6 gather1] }) port0

theorem witness_StreamCompletionReleasesTheStream :
    inArray c0 = true ∧ moving.streamsGo 0 = true ∧
    ((moving.core 0).ld.find? (fun q => q.id = 1) = some { stream .qread 1 qread1 with closed := true }) ∧
    (moving.core 0).qnotes.get (256 * dPort qread1 + dQp qread1) 0 < 255 ∧
    ((moving.core 0).ld.find? (fun q => q.id = 2) = some { stream .rread 2 rread1 with closed := true }) ∧
    ((moving.core 0).st.find? (fun q => q.id = 4) = some (stream .qwrite 4 qwrite1)) ∧
    (sourceBytes (stream .qwrite 4 qwrite1) (moving.core 0)).2 = none ∧
    ((moving.core 0).st.find? (fun q => q.id = 5) = some (stream .msend 5 msend1)) ∧
    (sourceBytes (stream .msend 5 msend1) (moving.core 0)).2 = none ∧ moving.resolve 3 (dRank msend1) = .loc ∧
    moving.sendFault 3 0 (dCx msend1) (dCy msend1) (dWh msend1) (remoteOff msend1 (dDst msend1) 0) = none ∧
    ((moving.core 0).ld.find? (fun q => q.id = 3) = some (stream .gather 3 gather1)) ∧ dPack gather1 = false ∧
    (copyElems (stream .gather 3 gather1) (moving.core 0)).2 = none := by decide +kernel

/-- A packet of context 3 from core 0 to core 1, into its window H3. -/
def packet (n : Nat) (o : MeshOp) : MeshPacket :=
  { num := n, ctx := 3, src := 0, dst := 1, op := o, wh := 3, wgen := 1, len := 4, data := [1, 2, 3, 4] }
def c1 : CoreId := { cx := 1, cy := 0 }
/-- Core 1 owned by context 3 or another, with packets on their way to it. -/
def toward (k : Core) (ps : List MeshPacket) : State :=
  { live with panel := { cores := [(0, core1), (1, k)], flight := ps, nextNum := 9 } }
def last4 : MeshPacket := { packet 1 .write with off := 64 * 256 - 4, last := true, tag := 7 }
def over4 : MeshPacket := { packet 1 .write with off := 64 * 256 - 3 }

theorem witness_PacketsLandInTheirWindow :
    inArray c0 = true ∧ inArray c1 = true ∧
    (toward core1 [last4]).oldestOn 0 1 0 (MeshPacket.lands 0) = some last4 ∧ last4.op = .write ∧ last4.dst = 1 ∧
    core1.owner = some last4.ctx ∧ windowOk core1 last4 4 = true ∧
    core1.eccMerge (hByte (core1.handle 3) + last4.off) 4 = none ∧ core1.canonical = true ∧
    (toward core1 [over4]).oldestOn 0 1 0 (MeshPacket.lands 0) = some over4 ∧ windowOk core1 over4 4 = false ∧
    (toward { core1 with owner := some 2 } [last4]).oldestOn 0 1 0 (MeshPacket.lands 0) = some last4 ∧
    ({ core1 with owner := some 2 } : Core).owner ≠ some last4.ctx ∧
    ([7] : List (BitVec 3)).contains 7 = true ∧
    expecting.ranges.find? (fun e => match e.owner with | .expect _ g => g == 1 | _ => false) =
      some { lo := 0, hi := 64, write := true, owner := .expect 0 1 } ∧
    core1.ranges.find? (fun e => match e.owner with | .expect _ g => g == 7 | _ => false) = none ∧
    Table.get [(7, 254)] 7 0 < 255 := by decide +kernel

def readReq1 : MeshPacket := { packet 1 .readReq with data := [] }
def reduce1 : MeshPacket := { packet 1 .reduceAdd with rcount := 3, data := [0, 0, 0x80, 0x3F] }
/-- An open key of that reduction, one contribution in, and a router whose accumulators are all in use. -/
def key1 : RedKey := { ctx := 3, wh := 3, off := 0, len := 4, rcount := 3, count := 1, elems := [{}] }
def fullKey : RedKey := { ctx := 3, wh := 3, off := 512, len := 512, rcount := 3, count := 1, elems := List.replicate 128 {} }

theorem witness_ReadsAreAnsweredAndContributionsAdded :
    inArray c0 = true ∧ inArray c1 = true ∧
    (toward core1 [readReq1]).oldestOn 0 1 0 (fun q => decide (q.op = .readReq) && decide (q.chan = 0)) = some readReq1 ∧
    core1.owner = some readReq1.ctx ∧ windowOk core1 readReq1 4 = true ∧
    core1.eccRead (hByte (core1.handle 3)) 4 = none ∧ readReq1.via = none ∧
    (toward core1 [reduce1]).oldestOn 0 1 1 (fun q => decide (q.op = .reduceAdd)) = some reduce1 ∧ reduce1.dst = 1 ∧
    (toward core1 [reduce1]).redBlocked reduce1 = false ∧
    redWaits { core1 with keys := [fullKey] } reduce1 = true ∧
    redWaits core1 reduce1 = false ∧ windowOk core1 reduce1 4 = true ∧ core1.keys.find? (fun k => k.matches reduce1) = none ∧
    reduce1.rcount ≠ 1 ∧ redWaits { core1 with keys := [key1] } reduce1 = false ∧
    [key1].find? (fun k => k.matches reduce1) = some key1 ∧ key1.rfmt = reduce1.rfmt ∧ key1.rcount = reduce1.rcount ∧
    key1.count + 1 ≠ key1.rcount := by decide +kernel

/-- A QWRITE and a QREAD of 16 bytes at the head of the pair (0, 5). -/
def qw1 : QPacket := { num := 1, core := 0, read := false, s := stream .qwrite 4 qwrite1, handed := true, data := List.replicate 16 7 }
def qr1 : QPacket := { num := 1, core := 0, read := true, s := stream .qread 1 qread1 }
def portWith (k : QPacket) : StackPort := { port0 with pairs := [(773, { reqs := [k] })] }

/-- An STK write of context 3 that crosses an atom, a QWRITE with its place in a ring of 4,096 bytes, and the page read of
block 0 of member 1 of the ATTEND of pod 0. -/
def stk1 : StkWrite := { ctx := 3, off := 60, data := [1, 2, 3, 4, 5] }
def portStk : StackPort := { port0 with stkQ := [stk1] }
def qw2 : QPacket := { qw1 with ringAt := some 0 }
def ring1 : Pair := { mode := 1, rsize := 64, ring := [{ num := 1, len := 16 }], reqs := [qw2] }
def portRing : StackPort := { port0 with pairs := [(773, ring1)] }
def acc1 : AttAcc := { pod := 0, kind := .page 1 0, first := 67108864, len := 64 }
def page1 : QPacket := { num := 1, read := true, att := some acc1 }

theorem witness_PortSlotsServeOneAccess_settled :
    (withPort live port0).settlePort 0 = withPort live port0 ∧ (withPort live portStk).settlePort 0 = withPort live portStk ∧
    (withPort live (portWith qw1)).settlePort 0 = withPort live (portWith qw1) ∧
    (withPort live (portWith qr1)).settlePort 0 = withPort live (portWith qr1) ∧
    (withPort live portRing).settlePort 0 = withPort live portRing ∧
    (withPort live (portWith page1)).settlePort 0 = withPort live (portWith page1) := ⟨rfl, rfl, rfl, rfl, rfl, rfl⟩

theorem witness_PortSlotsServeOneAccess :
    port0.slots.find? 1 = none ∧ port0.nextPair? 3 = none ∧
    port0.stkQ.find? (fun w => w.ctx = 3) = none ∧
    (withPort live portStk).portServes 0 = true ∧
    portStk.nextPair? 3 = none ∧ portStk.stkQ.find? (fun w => w.ctx = 3) = some stk1 ∧
    portStk.addr? 3 60 4 = some 67108924 ∧ portStk.eccMerge 67108924 4 = none ∧
    (portWith qw1).eccAt (((portWith qw1).addr? 3 (qw1.byteOff core1 0) 1).getD 0 / 64 * 64) 64 = none ∧
    portRing.nextPair? 3 = some 5 ∧ ring1.next? = some qw2 ∧
    ring1.ring.find? (fun w => w.num = qw2.num) = some { num := 1, len := 16 } ∧ ringRun ring1 0 16 = 16 ∧
    portRing.ringClear 3 ring1 qw2 0 16 = 16 ∧ portRing.eccMerge (portRing.ringAddr 3 ring1 0) 16 = none ∧
    (portWith page1).nextPair? 3 = some 5 ∧
    ((portWith page1).pair 3 5).next? = some page1 ∧ (portWith page1).eccAt 67108864 64 = none ∧
    live.portServes 0 = true ∧ ({ live with ident := { grade := 0x0E } } : State).portServes 31 = false ∧
    (withPort live (portWith qw1)).portServes 0 = true ∧ (portWith qw1).slots.find? 0 = some 3 ∧
    (portWith qw1).nextPair? 3 = some 5 ∧ ((portWith qw1).pair 3 5).next? = some qw1 ∧ ((portWith qw1).pair 3 5).mode ≠ 1 ∧
    qw1.att = none ∧ qw1.pos < qw1.total ∧ Cells.wf 0 (portWith qw1).mem = true ∧
    qw1.elemFault (portWith qw1) 0 3 core1 0 = none ∧ qw1.data.length = qw1.total ∧
    ((portWith qr1).pair 3 5).next? = some qr1 ∧ qr1.elemFault (portWith qr1) 0 3 core1 0 = none ∧
    (List.range qr1.total).all (fun n => (qr1.dstAddr core1 n).isLeft) = true ∧
    qr1.runEnd (portWith qr1) 0 3 core1 0 qr1.total 0 = qr1.total := by decide +kernel

def line1 : RetLine := { core := 0, ctx := 3, sid := 1, first := 0, data := [1, 2, 3, 4], fin := true }
def watch1 : Watch := { port := 0, qp := 5, n := 0 }

theorem witness_PortAnswersReachTheirCore :
    inArray c0 = true ∧ [line1].find? (fun q => q.core = 0) = some line1 ∧ core1.owner = some line1.ctx ∧
    ({ core1 with owner := some 2 } : Core).owner ≠ some line1.ctx ∧
    ({ core1 with ld := [stream .qread 1 qread1] } : Core).stream? 1 = some (stream .qread 1 qread1) ∧
    (({ core1 with ld := [stream .qread 1 qread1] } : Core).deliver (stream .qread 1 qread1) 0 line1.data).2 = none ∧
    ((with0 { core1 with watch := some watch1 }).core 0).watch = some watch1 ∧ core1.owner = some 3 ∧
    watch1.test (port0.pair 3 5) = true ∧ ({ watch1 with n := 4095 } : Watch).test (port0.pair 3 5) = false ∧
    live.barLive = true ∧ port0.hasPair 3 5 = true := by decide +kernel

theorem witness_PortHousekeepingKeepsEveryByte :
    served.portServes 23 = true ∧ (served.port 23).selfRef = false ∧ served.tierAQuiet = true ∧ served.portIdle 23 = true ∧
    (withPort served { selfRef := true }).port 0 = { selfRef := true } := by decide +kernel

/-- The ATTEND of core 0: one head on a team of one core, two cores of one subteam, or two heads on two. -/
def job1 : AttendJob := { core := 0, ctx := 3, desc := attend1, qaddr := 0, oaddr := 32768 }
def job2 : AttendJob := { job1 with accepted := true, lentCores := [0, 1], todo := [(0, []), (1, [])], desc := attend1.set 8 0x1000 }
def job3 : AttendJob := { job1 with accepted := true, lentCores := [0, 1], todo := [(0, []), (1, [])], desc := (attend1.set 8 0x1000).set 1 0x00020002 }
/-- A table at the start of context 3's window: one layer whose one ring block lies at window byte 65,536. -/
def table1 : List Byte :=
  List.replicate 64 0 ++ leBytes 8 (2 ^ 28 + 1) ++ leBytes 8 (2 ^ 63 + 12 * 2 ^ 58 + 2 ^ 50 + 16 * 2 ^ 22)
def port1 : StackPort :=
  { port0 with regions := [{ ctx := 3, base := 0, layers := 1, maxent := 8 }], mem := Cells.write 0 [] 67108864 table1 }
def sequenced (j : AttendJob) : State :=
  { withPort live port1 with panel := { cores := [(0, core1), (1, core1)], seqs := [(0, j)] } }

theorem witness_TheSequencerRunsItsDescriptor :
    (sequenced job1).panel.seqs.find? 0 = some job1 ∧ (sequenced job1).streamsGo 0 = true ∧
    (sequenced job1).engineDown (srcSeq 0) = false ∧ job1.accepted = false ∧ (sequenced job1).seqUp 0 = true ∧
    (sequenced job1).teamOk 0 job1 = true ∧ (sequenced job1).portUp 0 = true ∧ aPort attend1 = 0 ∧ aQp attend1 = 5 ∧
    port1.region? 3 (aBase attend1) = some { ctx := 3, base := 0, layers := 1, maxent := 8 } ∧ aLayer attend1 < 1 ∧
    port1.hasPair 3 5 = true ∧ (port1.pair 3 5).mode ≠ 1 ∧ (sequenced job1).teamFree 0 job1 = true ∧
    (sequenced job2).panel.seqs.find? 0 = some job2 ∧ job2.readDone 1 = true ∧ job2.ns = 2 ∧ mergeFrom job2.ns (1 % job2.ns) = [] ∧
    1 % job2.ns ≠ 0 ∧
    job3.ns = 1 ∧ mergeFrom job3.ns (1 % job3.ns) = [] ∧ 1 % job3.ns = 0 ∧ memberCore 0 job3.desc 1 ≠ job3.core ∧ job3.readDone 1 = true ∧
    core1.eccMerge (job3.oaddr + 4096) 4096 = none ∧ (job3.output (job3.memberState 1 0)).1.length = 4096 ∧
    core1.canonical = true ∧
    ({ job1 with accepted := true, outs := [0] } : AttendJob).outs.length = aHk attend1 := by decide +kernel

/-! ## Witnesses: ticks, microbatches and time -/

/-- A descriptor of operation o on ring f, with the words of its bytes from 0x10 on, taken and waiting. -/
def taken (f o : Nat) (ws : List (BitVec 32)) : Taken := { w := [BitVec.ofNat 32 o, 100, 0, 0] ++ ws, fn := f }
/-- Function f with that descriptor at the head of its control, transfer or admission queue, one entry reserved. -/
def control (f : Nat) (d : Taken) (s : State) : State := { s with fns := [(f, { enable := true, ctlq := [d], res := 1, sqt := 1, sqh := 1 })] }
def transfer (f : Nat) (d : Taken) (s : State) : State := { s with fns := [(f, { enable := true, xferq := [d], res := 1, sqt := 1, sqh := 1 })] }
def admission (f : Nat) (d : Taken) (s : State) : State := { s with fns := [(f, { enable := true, admq := [d], res := 1, sqt := 1, sqh := 1 })] }
/-- Context 3 changed. -/
def ctxIs (x : Context) : State := { live with ctxs := [(3, x)] }

theorem witness_TickCountsAndReachesEveryCore :
    ctx3.st ≠ .free ∧ live.runaway? 3 = none ∧ ctx3.quiesce = none ∧ ctx3.resumeAt = none ∧ ctx3.stretchTo = none ∧
    ctx3.budgetAt = none ∧ ctx3.wset.load = none ∧ ctx3.wset.resumeAt = none ∧ ctx3.started = true ∧ ctx3.st = .running ∧
    0 < ctx3.fcount ∧ ctx3.shadow = {} ∧ live.stagedOf 3 = [] ∧ live.panel.cores.has 0 = true ∧
    (live.core 0).owner = some 3 ∧ (live.core 0).issuing = true ∧ (live.core 0).stopped = false ∧ ctx3.coreHeld 0 = false := by
  decide +kernel

theorem witness_RunawayAndQuiesceStopTheContext :
    (with0 { core1 with pendTicks := 3 }).runaway? 3 = some 0 ∧ (with0 { core1 with pendTicks := 2 }).runaway? 3 = none ∧
    ctx3.st = .running ∧ ({ ctx3 with quiesce := some { cut := true, at_ := 200000 } } : Context).quiesce = some { cut := true, at_ := 200000 } ∧
    ({ cut := true, at_ := 200000 } : Quiesce).q = none ∧ ({ cut := false, at_ := 200000 } : Quiesce).cut = false ∧ 1 < ctx3.stages := by
  decide +kernel

def submit1 : Taken := taken 4 1 [0x1000, 0, 64, 64, 0x2000, 0, 0x3000, 0]
def fetching1 : Taken := { submit1 with st := .fetching, inSlot := some 1 }
def batch1 : Batch := { seq := 2, tick := 3, d := { submit1 with w := submit1.w.set 0 0x101 }, copying := true }
def batching : State := withPort (ctxIs { ctx3 with batches := [batch1] }) port0

theorem witness_InputsAreFetchedAndResultsPosted :
    ((admission 4 fetching1 live).fn 4).admq.find? (fun e => e.st == .fetching) = some fetching1 ∧
    ctx3.prog.isSome = true ∧
    (withPort live port0).port 0 = port0 ∧ port0.addr? 3 (64 : Nat) 64 = some 67108928 ∧ port0.eccMerge 67108928 64 = none ∧
    Cells.wf 0 port0.mem = true ∧
    (batching.ctx 3).batches.find? (fun e => decide (e.seq = 2) && e.copying && batching.lastDone 3 e) = some batch1 ∧
    (batching.slotRead 3 { size := 64, n := 2 } 0 64).isLeft = true ∧ Cells.wf 0 batching.link.mem = true ∧
    batch1.d.wantsResult = true ∧ submit1.wantsResult = false := by decide +kernel

theorem witness_CompletionWritesTheRecord :
    (control 4 (taken 4 8 []) live).holds (taken 4 8 []) = true ∧ (control 4 (taken 4 8 []) live).muted (taken 4 8 []) = false ∧
    Cells.wf 0 (control 4 (taken 4 8 []) live).link.mem = true := by decide +kernel

def locked : State := { served with tcb := { lock := true, synced := true, now := 999999998 } }
def parented : State := { served with tcb := { parent := some 1, exchN := 1023, slewLeft := -1 } }

theorem witness_TheCounterIsGovernedSlewedAndRead :
    served.mg.powered = true ∧ served.tcb.holdover = false ∧ locked.tcb.lock = true ∧ locked.anyCtx = false ∧
    locked.tcb.arm = false ∧ locked.tcb.synced = true ∧ locked.tcb.holdover = false ∧ (pulseDiff locked.tcb.now).natAbs = 2 ∧
    (pulseDiff 999999997).natAbs = 3 ∧ ({ locked.tcb with arm := true } : TimeBlock).arm = true ∧
    ({ locked.tcb with holdover := true, lock := false } : TimeBlock).holdover = true ∧
    ({ locked.tcb with holdover := true, lock := false } : TimeBlock).lock = false ∧ locked.anyCtx = false ∧ live.anyCtx = true ∧
    served.tcb.exchN + 1 < 1024 ∧
    (ctxIs { ctx3 with job := 1 }).spansModules 1 = false ∧
    ({ ctxIs { ctx3 with job := 1 } with ep := { role := 1, coord := some (0, 0, 0), ranks := [(1, [(0, 0xC0030000), (1, 0xC0030001)])] } } : State).spansModules 1 = true ∧
    (ctxIs ctx3).spansModules 0 = false ∧
    parented.tcb.slewLeft ≠ 0 ∧ parented.tcb.parent.isSome = true ∧ 1024 ≤ parented.tcb.exchN + 1 ∧
    (10000 : Int).natAbs ≤ 10000 ∧ ({ served with ep := { role := 2, drift := [(7, (5, 5))] } } : State).ep.role = 2 ∧
    Table.find? [(7, ((5, 5) : Nat × Nat))] 7 = some (5, 5) ∧ served.pathLive .bar0 = true ∧ served.pathLive .smbus = true := by
  decide +kernel

/-! ## Witnesses: agreed counts, stretch, steps and supply -/

def prepare1 : PrepareMsg :=
  { kind := .launch, job := 1, ctx := 3, at_ := 5000000, k := 0, period := 50000, floor := 0, prog := 0, wset := 0,
    cross := false, cut := false, epoch := 0, port := 5 }
/-- The exchange of a launch at this module for context 3 of job 1. -/
def exch1 : Exchange := { kind := .launch, job := 1, ctx := 3, at_ := 5000000, upPort := 5, replied := true, acked := true }
def member (e : Option Exchange) : State :=
  { ctxIs { ctx3 with job := 1, st := .bound } with tcb := { lock := true, synced := true }, ep := { role := 1, coord := some (0, 0, 0), ex := e, formed := true } }

theorem witness_ExchangesCollectEveryAnswer :
    (member none).ep.role = 1 ∧ (member none).ep.mgrLost = false ∧ prepare1.port.toNat < 6 ∧ (member none).exBusy = false ∧
    (member (some exch1)).exBusy = true ∧ (member none).children 5 = [] ∧
    ({ member none with ep := { (member none).ep with bmask := 1, ports := [(0, { st := 3, nbr := some (1, 1) })] } } : State).children 5 = [0] ∧
    (member none).jobCtx 1 = some 3 ∧ (member none).jobCtx 2 = none ∧
    ({ exch1 with waiting := [0], manager := true } : Exchange).waiting.contains 0 = true ∧
    (member none).missing { exch1 with manager := true } = none ∧
    ((member none).missing { exch1 with manager := true, waiting := [0] }).isSome = true ∧ (member none).ep.tableQ = [] ∧
    prepare1.kind ≠ .tables ∧ ({ prepare1 with kind := .tables } : PrepareMsg).kind = .tables ∧ (member none).ep.req ≠ 1 := by
  decide +kernel

/-- The manager's exchange of a quiesce of job 1, whose member it holds itself, and one of tables that ends descriptor d. -/
def exchQ : Exchange :=
  { exch1 with kind := .quiesce, manager := true, go := true, d := some (taken 0 0x25 [1]) }
def exchT : Exchange := { kind := .tables, job := 1, ctx := 64, at_ := 5000000, manager := true, go := true, replied := true }
def launchedJob (e : Exchange) : State :=
  { member (some e) with ep := { (member (some e)).ep with role := 2, tableQ := if e.kind = .tables then [(some (taken 0 0x23 [1], 0), [])] else [] } }

theorem witness_MembersActAtTheAgreedCount :
    (member (some exch1)).ep.mgrLost = false ∧ exch1.lost = false ∧ exch1.of 3 = true ∧ exchT.of 64 = true ∧
    (launchedJob { exch1 with manager := true, go := true, started := 1, d := some (taken 0 0x24 [1]) }).ep.tableQ = [] ∧
    exchQ.manager = true ∧ exchQ.ctx = 3 ∧ exchQ.acked = true ∧ exchQ.go = true ∧ exchQ.started = 0 ∧ exchQ.lost = false ∧
    (launchedJob exchQ).timeLost exchQ.cross = false ∧ (launchedJob exchQ).ep.ex = some exchQ ∧
    exchT.go = true ∧ (launchedJob exchT).missing exchT = none ∧
    (launchedJob exchT).ep.tableQ = [(some (taken 0 0x23 [1], 0), [])] ∧
    exch1.ctx < 64 ∧ exch1.of 3 = true ∧ exch1.manager = false ∧ exch1.go = false ∧ exch1.replied = true ∧ exch1.nak = none ∧
    (member (some exch1)).tcb.now ≤ exch1.at_ - 200000 ∧ exch1.acked = true ∧ exch1.started = 0 ∧
    exch1.kind = .launch ∧ (member (some { exch1 with go := true })).timeLost exch1.cross = false ∧
    ((member (some exch1)).ctx 3).st = .bound ∧
    (member none).missing { exch1 with manager := true, go := true, started := 1 } = none := by decide +kernel

def stretched : Context := { ctx3 with period := 50000, runPeriod := 50000, prog := some { d := 110000 } }

/-- A running job 1 that module 0 has asked to stretch, and its manager. -/
def stretchedJob : Job := { members := [(0, 0), (1, 1)], st := .running, k := 1, askers := [0] }
def asking (j : Job) : State :=
  { served with ep := { role := 2, coord := some (0, 0, 0), formed := true, jobs := [(1, j)] } }

theorem witness_StretchMultipliesThePeriod :
    (asking stretchedJob).ep.role = 2 ∧ (asking stretchedJob).ep.jobs.has 1 = true ∧ (asking stretchedJob).exBusy = false ∧
    stretchedJob.k = 1 ∧ (asking stretchedJob).job 1 = stretchedJob ∧ stretchK 50000 210000 1 = some 2 ∧
    (∀ m ∈ stretchedJob.askers, m = (0 : BitVec 10).toNat) ∧ stretchedJob.k ≠ 0 ∧ (member none).ep.role = 1 ∧
    stretched.st = .running ∧ stretched.floor < (1 : BitVec 3).toNat ∧ stretched.stretchTo = none ∧ stretched.job = 0 ∧
    0 < stretched.period ∧ stretchK 50000 110000 1 = some 1 ∧ 1 ≠ stretched.stretch ∧ stretchK 50000 1000000000 7 = none ∧
    ({ stretched with stretchTo := some (200000, 1) } : Context).stretchTo = some (200000, 0 + 1) ∧
    ({ stretched with stretch := 1, floorSince := some 0 } : Context).stretch ≠ 0 ∧
    0 < ({ stretched with stretch := 1, floorSince := some 0 } : Context).eff := by decide +kernel

theorem witness_StepsAreEvaluatedChangedAndForced :
    served.mg.powered = true ∧ served.mg.ready = true ∧ served.fs.sPow ≤ 7 ∧ served.fs.sTherm ≤ 7 ∧
    ({ served.fs with changing := some 7 } : FreqBlock).changing = some (7 : BitVec 3).toNat ∧ served.fs.clocked = true ∧
    ({ served.fs with forced := true, clearSince := some 5 } : FreqBlock).forced = true ∧
    ({ served.fs with forced := true, clearSince := some 5 } : FreqBlock).clearSince = some 5 := by decide

theorem witness_SupplyAndHeatProtectTheModule :
    (47 : BitVec 6).toNat < 48 ∧ served.fs.clocked = true ∧ 15 < 16 ∧ served.mg.powered = true ∧ served.mg.supplyFail = false ∧
    ({ served.fs with coreRails := true } : FreqBlock).coreRails = true ∧ (79 : BitVec 32).toNat < 80 ∧
    tripAt 47 ≤ (1150 : BitVec 16).toInt ∧ tripAt 48 ≤ (1050 : BitVec 16).toInt ∧
    ({ served.fs with coolPosted := true, coolOkSince := some 5 } : FreqBlock).coolPosted = true ∧
    4100 < (4101 : BitVec 16).toNat ∧ (4200 : BitVec 16).toNat ≤ 4200 ∧ served.lines.highPosted = false ∧
    3000 ≤ (3000 : BitVec 16).toNat ∧ (3199 : BitVec 16).toNat < 3200 ∧ served.lines.lowPosted = false := by decide +kernel


/-! ## Witnesses: host rings, programs and transfers -/

/-- Words as bytes. -/
def wordsOf (ws : List (BitVec 32)) : List Byte := ws.flatMap (fun w => leBytes 4 w.toNat)
/-- The state with those words in the host's memory. -/
def host (a : Nat) (ws : List (BitVec 32)) (s : State) : State :=
  { s with link := { s.link with mem := Cells.write 0 s.link.mem a (wordsOf ws) } }
/-- Function 4 with rings of 256 entries and a descriptor of a START, or of operation 0x0D, to take. -/
def ringed : State :=
  { live with fns := [(4, { enable := true, sqLo := 4, cqLo := 0x1004, eqLo := 0x2004, sqt := 2, eqVec := 3, lost := 7 })] }
def ringedStart : State := host 0 [8, 100] ringed
def ringedBad : State := host 0 [0x0D, 100] ringed
/-- Context 3 with a valid and an invalid entry of core 0 staged. -/
def staging (e : BitVec 128) : State := ctxIs { ctx3 with shadow := { handles := [(0, 5, e)] } }

theorem witness_DoorbellsMoveTheirIndexOrNone :
    ringed.barLive = true ∧ ringSize (ringed.fn 4).sqLo = 256 ∧
    (256 - (ringed.fn 4).sqh).toNat ≤ ringSize (ringed.fn 4).sqLo ∧ ¬(257 - (ringed.fn 4).sqh).toNat ≤ ringSize (ringed.fn 4).sqLo ∧
    ((ringed.fn 4).cqt - 0).toNat ≤ ringSize (ringed.fn 4).cqLo ∧ ¬((ringed.fn 4).cqt - 1).toNat ≤ ringSize (ringed.fn 4).cqLo ∧
    ((ringed.fn 4).eqt - 0).toNat ≤ ringSize (ringed.fn 4).eqLo ∧ ¬((ringed.fn 4).eqt - 1).toNat ≤ ringSize (ringed.fn 4).eqLo ∧
    ((staging (mkHandle 0 0 true false false 0 0 0 64 128)).ctx 3).shadow ≠ {} ∧
    (staging (mkHandle 0 0 true false false 0 0 0 64 128)).commitFault ((staging (mkHandle 0 0 true false false 0 0 0 64 128)).ctx 3).shadow = none ∧
    ((staging (mkHandle 0 0 true false false 0 0 0 64 1000)).commitFault
      ((staging (mkHandle 0 0 true false false 0 0 0 64 1000)).ctx 3).shadow).isSome = true ∧
    (ringed.fn 4).busy = true ∧ (live.fn 4).busy = false ∧ maxVec 4 = 30 ∧ maxVec 0 = 63 := by decide +kernel

/-- A START of function 4 and one of function 0 whose counts have reached their TIMEOUT. -/
def late4 : Taken := { taken 4 8 [] with ticks := 100 }
def late0 : Taken := { taken 0 0x20 [5] with ticks := 1 }
def lateSubmit : Taken := { submit1 with ticks := 100 }

theorem witness_DescriptorsAreTakenAndTimedOut :
    (ringedStart.fn 4).enable = true ∧ (ringedStart.fn 4).flr = false ∧ (ringedStart.fn 4).sqt ≠ (ringedStart.fn 4).sqh ∧
    0 < (ringedStart.fn 4).cqFree ∧
    descTest (ringedStart.setFn 4 { ringedStart.fn 4 with sqh := 1, res := 1 }) (ringedStart.descAt 4) = none ∧
    descTest (ringedBad.setFn 4 { ringedBad.fn 4 with sqh := 1, res := 1 }) (ringedBad.descAt 4) = some (9, 0) ∧
    ringedBad.muted (ringedBad.descAt 4) = false ∧
    (control 4 late4 live).descOf 4 0 = some late4 ∧ late4.st = .waiting ∧ late4.fn = 4 ∧ late4.op ≠ 5 ∧ late4.op ≠ 6 ∧
    late4.expired = true ∧ late4.op ≠ 1 ∧ (control 0 late0 live).descOf 0 0 = some late0 ∧ late0.st = .waiting ∧
    (admission 4 lateSubmit live).descOf 4 0 = some lateSubmit ∧ lateSubmit.expired = true ∧ lateSubmit.op = 1 ∧
    (ringed.fn 4).lost ≠ 0 ∧ (ringed.fn 4).eqFree ≠ 0 ∧ Cells.wf 0 ringed.link.mem = true := by decide +kernel

/-- A program image for one pod: STOP on core (0, 0) of stage 0, H1 and H2 valid, eight bytes of data in H2, input and
output in H2 of that core, the admission line in H1 (Tables 13.1 to 13.4). -/
def image1 : List Byte :=
  wordsOf [0x3149504A, 0x03000001, 0x00010101, 1000, 4, 0x1A0, 0, 0] ++ List.replicate 96 0 ++
  wordsOf [1, 0xC0, 48, 1, 2, 0x100, 64, 2, 3, 0x140, 32, 1, 4, 0x160, 64, 1] ++
  wordsOf [0, 0x00010001, 1, 0, 0x38000000, 0, 0, 0, 0, 0, 0, 0] ++ List.replicate 16 0 ++
  wordsOf [0, 0x00010001, 0x41, 0x00400080, 0, 0, 0, 0] ++ wordsOf [0, 0x00010001, 0x42, 0x00400000, 0, 0, 0, 0] ++
  wordsOf [0, 0x00010001, 2, 64, 8, 0, 0x11111111, 0x22222222] ++
  wordsOf [0x00020001, 0, 0x00010001, 0, 0, 0, 0x4001] ++ wordsOf [0x00020001, 0, 0x00010001, 0, 0x100, 0, 0x4001] ++
  wordsOf [1, 0]
/-- Context 3 BOUND with an empty set. -/
def bound3 : Context := { ctx3 with st := .bound, started := false, prog := none, wset := {}, fcount := 0 }
def loadD (len : BitVec 32) : Taken := taken 4 2 [0x10000, 0, len, 0, 0, 0]
/-- PROGRAM_LOAD of an image on a module of grade CG-48A. -/
def loading (m : List Byte) : State :=
  let s := control 4 (loadD (BitVec.ofNat 32 m.length)) { live with ctxs := [(3, bound3)] }
  { s with link := { s.link with mem := Cells.write 0 [] 0x10000 m } }
def handleD : Taken := taken 4 3 [0x00270027, 0x00010001, 0x42, 0x00400080, 0]

theorem witness_SubmitLoadAndHandleDoTheirWork :
    ((admission 4 submit1 live).fn 4).admq.find? (fun e => e.st == .waiting) = some submit1 ∧ ctx3.prog.isSome = true ∧
    submit1.word 6 = 64 ∧ submit1.word 7 = 64 ∧ ctx3.inBusy.contains ctx3.nextIn = false ∧
    image1.length = 0x1A0 ∧
    (loading image1).ctlHead 4 2 = some (loadD 0x1A0) ∧ (loadD 0x1A0).expired = false ∧
    (loading image1).hostRead 0x10000 0x1A0 = image1 ∧
    ((loading (image1.set 0 0)).ctlHead 4 2) = some (loadD 0x1A0) ∧
    (loadD 0x1A0).seen = none ∧ (loading image1).genList (loadD 0x1A0) = [] ∧
    (verify ((loading (image1.set 0 0)).asTaken 3 (loadD 0x1A0)) 3 0x1A0 [] ((loading (image1.set 0 0)).hostRead 0x10000 0x1A0)).map (·.reason) = some 3 ∧
    (control 4 handleD live).ctlHead 4 3 = some handleD := by decide +kernel

/-- Every check of the verifier passes (Table 13.5). -/
theorem witness_SubmitLoadAndHandleDoTheirWork_passes :
    verify ((loading image1).asTaken 3 { loadD 0x1A0 with seen := some ((loading image1).seenBy 3) }) 3 0x1A0 [] image1 = none := by decide +kernel

/-- QUEUE descriptors: create, configure and delete the pair (3, 5) of port 0. -/
def queueD (act : BitVec 32) : Taken := taken 4 4 [0x00050000 + act, 0x44000010, 100, 4096, 64]
def queued (act : BitVec 32) (ps : Table Pair) : State := withPort (control 4 (queueD act) live) { port0 with pairs := ps, trained := true }

theorem witness_QueuesAreCreatedConfiguredAndDeleted :
    (queued 0 []).queueHead 4 0 = some (queueD 0) ∧ ((queued 0 []).ctx 3).st ≠ .free ∧ (queued 0 []).portUp (queueD 0).qPort = true ∧
    ((queued 0 []).port 0).hasPair 3 (queueD 0).qPair = false ∧ (queueD 0).qPair = 5 ∧ (queueD 0).qPort = 0 ∧
    (queued 1 [(773, {})]).queueHead 4 1 = some (queueD 1) ∧ ((queued 1 [(773, {})]).port 0).hasPair 3 5 = true ∧
    (((queued 1 [(773, {})]).port 0).pair 3 5).busy = false ∧
    ({ reqs := [{}] } : Pair).busy = true ∧
    1 ≤ fld 0x44000010 29 23 ∧ fld 0x44000010 29 23 ≤ 64 ∧ rqcapOk (fld 0x40000010 29 23) = false ∧
    (queued 2 [(773, {})]).queueHead 4 2 = some (queueD 2) ∧ ((queued 2 [(773, {})]).port 0).hasPair 3 5 = true := by decide +kernel

/-- Context 3 BOUND with its program and its READY set, and QUIESCED. -/
def ready3 : Context := { ctx3 with st := .bound, started := false, prog := some { d := 1000 } }
def ctl3 (x : Context) (d : Taken) : State := control 4 d { live with ctxs := [(3, x)] }

theorem witness_ContextsStartQuiesceAndResume :
    (ctl3 ready3 (taken 4 8 [])).ctlHead 4 0x08 = some (taken 4 8 []) ∧ ready3.st = .bound ∧ ready3.startFault = none ∧
    ctx3.st ≠ .bound ∧ (ctl3 ctx3 (taken 4 9 [1])).ctlHead 4 0x09 = some (taken 4 9 [1]) ∧ ctx3.job = 0 ∧
    ctx3.quiesce = none ∧ ctx3.wset.load = none ∧
    (ctl3 { ready3 with st := .quiesced } (taken 4 10 [])).ctlHead 4 0x0A = some (taken 4 10 []) ∧
    ({ ready3 with st := .quiesced } : Context).startFault = none := by decide +kernel

/-- Transfers of 64 bytes: H2 of core 0 to the host, the window to the host, the host to the window; and a debug read. -/
def xferH : Taken := { taken 4 0x0B [0x20001, 0, 0x00010001, 64, 0x3000, 0, 64, 0, 0, 0] with st := .waiting }
def xferW (k : BitVec 32) : Taken := taken 4 0x0B [k, 0, 0, 0, 0x3000, 0, 64, 0, 128, 0]
def xferring (d : Taken) : State := withPort (transfer 4 { d with st := .running } live) port0
def debugD : Taken := taken 4 0x0C [1, 0, 0x00010001, 0, 0x3000, 0, 40]

theorem witness_TransfersMoveTheirBytes :
    (transfer 4 xferH live).xferHead 4 0x0B = some xferH ∧ (transfer 4 xferH live).xferFault 3 xferH = none ∧ xferH.kind = 0 ∧
    xferH.fn = 4 ∧ (xferring (xferW 3)).xferFault 3 (xferW 3) = none ∧ (xferW 3).kind = 1 ∧
    (xferring (xferW 3)).xferNow 4 = some { xferW 3 with st := .running } ∧ (xferring (xferW 3)).xferOwned 3 (xferW 3) = false ∧
    (xferW 3).toHost = true ∧ ((xferring (xferW 3)).moveOut 3 (xferW 3)).isLeft = true ∧
    (xferring xferH).xferNow 4 = some { xferH with st := .running } ∧ ((xferring xferH).moveOut 3 xferH).isLeft = true ∧
    Cells.wf 0 (xferring xferH).link.mem = true ∧
    (xferring (xferW 2)).xferNow 4 = some { xferW 2 with st := .running } ∧ (xferW 2).toHost = false ∧ (xferW 2).kind = 1 ∧
    (xferring (xferW 2)).unsent 3 (xferW 2) = false ∧ Cells.wf 0 port0.mem = true ∧
    port0.addr? 3 ((xferW 2).xferOff : Nat) (xferW 2).xferLen = some 67108992 ∧ port0.eccMerge 67108992 64 = none ∧
    (transfer 4 debugD live).xferHead 4 0x0C = some debugD ∧
    ([0, 1, 2, 6].contains (debugD.word 4 % 16) && ((transfer 4 debugD live).ctx 3).part.isNone) = false ∧
    ((transfer 4 debugD live).debugRecords 3 debugD).isLeft = true := by decide +kernel

/-! ## Witnesses: weight sets and page tables -/

/-- A signed manifest of one shard of 64 bytes, 0 to 63, for H2 of core (0, 0) of a one-pod partition; the owner key is
that of private key 1 of P-256 (Tables 9.1 and 9.2). -/
def manifest1 : List (BitVec 32) :=
  [0x3153574A, 0x10001, 0x1, 0x101, 0x40, 0x0, 0x0, 0x0, 0xACB9EAFD, 0x620371F3, 0xCD5826BD, 0x8F9EA2C9, 0xCF7F759C,
  0x3A601198, 0xD17C448C, 0x81115D9] ++ List.replicate 8 0 ++ [0x5B5155A9, 0x2924FB71, 0x55801810, 0x9D11642C,
  0x2BF4966, 0xAFDE27B4, 0xE5B339AE, 0x970712FC] ++ List.replicate 32 0 ++ [0xACB9EAFD, 0x620371F3, 0xCD5826BD,
  0x8F9EA2C9, 0xCF7F759C, 0x3A601198, 0xD17C448C, 0x81115D9, 0x40] ++ List.replicate 4 0 ++ [0x10001, 0x2, 0x1,
  0xF9DAD812, 0xF9F921E9, 0x5B649CC9, 0xB2F73394, 0x8B3A9122, 0x669187E1, 0xEE9E34A, 0x26EFCEBD, 0xB11FBE7D,
  0x3E9F46CF, 0x58751473, 0xE105EF4, 0xBB42E428, 0x4B5615DB, 0xEABA5177, 0xAED117D7]
def owner1 : Owner := { key := 0xA955515B71FB2429101880552C64119D6649BF02B427DEAFAE39B3E5FC120797, enrolled := true }
/-- The digest of the shard. -/
def digest1 : BitVec 256 := sha256 ((List.range 64).map (BitVec.ofNat 8))
/-- The image at 0x20000 of the host, the manifest at 0x40000, the owner enrolled, and one descriptor. -/
def imaged : Cells Byte := Cells.write 0 [] 0x20000 ((List.range 64).map (BitVec.ofNat 8))
def setting (x : Context) (d : Taken) : State :=
  let s := ctl3 x d
  { s with link := { s.link with mem := Cells.write 0 imaged 0x40000 (wordsOf manifest1) }, sec := { s.sec with owners := [(0, owner1)] } }
def loadSet (op flags : Nat) : Taken := taken 4 op [0x40000, 0, 0x180, BitVec.ofNat 32 (0x80000 + flags), 0x20000, 0, 0, 0, 0, 0]
def sound (s : State) (d : Taken) : Option (Nat × Nat) :=
  (s.manifestFault (s.manifestOf d) (s.repairList d)).or (s.loadFault 3 d (parseManifest (s.manifestOf d)))
/-- Context 3 BOUND with its program and an EMPTY set, and with a set that lacks its shard. -/
def empty3 : Context := { ready3 with wset := {} }
def lacking3 : Context := { ready3 with wset := { st := 1, epoch := 8, root := digest1, shards := [{ digest := digest1, st := .bad }] } }

theorem witness_WeightSetsAreCheckedAndLoaded :
    (setting empty3 (loadSet 5 0)).ctlHead 4 0x05 = some (loadSet 5 0) ∧ (loadSet 5 0).wsRepair = false ∧
    (setting lacking3 (loadSet 5 4)).ctlHead 4 0x05 = some (loadSet 5 4) ∧ (loadSet 5 4).wsRepair = true ∧
    repairTodo lacking3.wset.shards ((setting lacking3 (loadSet 5 4)).repairList (loadSet 5 4)) ≠ [] ∧
    (setting empty3 (loadSet 6 0)).ctlHead 4 0x06 = some (loadSet 6 0) ∧ (loadSet 6 0).wsJob = false ∧
    [CtxState.bound, .running, .quiesced].contains empty3.st = true ∧
    [CtxState.bound, .running, .quiesced].contains ({ empty3 with st := .created } : Context).st = false := by decide +kernel

theorem manifest_length : (wordsOf manifest1).length = 0x180 := by decide +kernel
theorem setting_read (x : Context) (d : Taken) : (setting x d).hostRead 0x40000 0x180 = wordsOf manifest1 := by
  have h := Cells.read_write 0 imaged 0x40000 (wordsOf manifest1) (by decide +kernel)
  rw [manifest_length] at h
  simp only [State.hostRead, setting]
  exact h
/-- Items 1 to 3 of Table 9.5 depend on the owner keys alone. -/
theorem manifestFault_owners (s t : State) (h : s.sec = t.sec) (m : List Byte) (r : List Nat) :
    s.manifestFault m r = t.manifestFault m r := by
  have ht : s.trusts = t.trusts := by funext k; simp only [State.trusts, h]
  unfold State.manifestFault
  rw [ht]
theorem manifest_good : (setting {} {}).manifestFault (wordsOf manifest1) [] = none := by decide +kernel
/-- The manifest passes every check (Table 9.5); where the host's memory holds none, the first fails. -/
theorem witness_WeightSetsAreCheckedAndLoaded_load : sound (setting empty3 (loadSet 5 0)) (loadSet 5 0) = none := by
  have h4 : (loadSet 5 0).dword 4 = 0x40000 := by decide
  have h6 : (loadSet 5 0).word 6 = 0x180 := by decide
  have hr : (setting empty3 (loadSet 5 0)).repairList (loadSet 5 0) = [] := by decide
  rw [sound, State.manifestOf, h4, h6, hr, setting_read,
    manifestFault_owners (setting empty3 (loadSet 5 0)) (setting {} {}) rfl, manifest_good]
  decide +kernel
theorem witness_WeightSetsAreCheckedAndLoaded_repair : sound (setting lacking3 (loadSet 5 4)) (loadSet 5 4) = none := by
  have h4 : (loadSet 5 4).dword 4 = 0x40000 := by decide
  have h6 : (loadSet 5 4).word 6 = 0x180 := by decide
  have hr : (setting lacking3 (loadSet 5 4)).repairList (loadSet 5 4) = [] := by decide
  rw [sound, State.manifestOf, h4, h6, hr, setting_read,
    manifestFault_owners (setting lacking3 (loadSet 5 4)) (setting {} {}) rfl, manifest_good]
  decide +kernel
theorem witness_WeightSetsAreCheckedAndLoaded_swap : sound (setting empty3 (loadSet 6 0)) (loadSet 6 0) = none := by
  have h4 : (loadSet 6 0).dword 4 = 0x40000 := by decide
  have h6 : (loadSet 6 0).word 6 = 0x180 := by decide
  have hr : (setting empty3 (loadSet 6 0)).repairList (loadSet 6 0) = [] := by decide
  rw [sound, State.manifestOf, h4, h6, hr, setting_read,
    manifestFault_owners (setting empty3 (loadSet 6 0)) (setting {} {}) rfl, manifest_good]
  decide +kernel
theorem witness_WeightSetsAreCheckedAndLoaded_fails : sound (ctl3 empty3 (loadSet 5 0)) (loadSet 5 0) = some (0x0200, 0) := by
  decide +kernel

/-- A load under way from the host, its shard not yet moved, or arriving. -/
def loading1 (st : ShardSt) : Context :=
  { ready3 with wset := { st := 1, epoch := 8, root := digest1, load := some { d := loadSet 5 0, addr := 0x20000, todo := [0] },
                          shards := [{ digest := digest1, len := 64, w := 1, h := 1, hd := 2, per := 1, st := st }] } }
def load1 : Load := { d := loadSet 5 0, addr := 0x20000, todo := [0] }
/-- The load comes from the tier-B stacks; the engine of port 24 is free, or holds another shard. -/
def load2 : Load := { load1 with source := 2 }
def stackLoad (e : Option (Nat × Nat)) : State :=
  { setting { loading1 .absent with wset := { (loading1 .absent).wset with load := some load2 } } (loadSet 5 0) with
    ports := [(24, { trained := true, engine := e, engineQ := [(4, 7), (3, 0)] })] }

theorem witness_WeightSetsAreCheckedAndLoaded_shards :
    (loading1 .absent).wset.load = some load1 ∧ load1.runs = true ∧ load1.todo.contains 0 = true ∧
    (setting (loading1 .absent) (loadSet 5 0)).shardFree 3 load1 ((loading1 .absent).wset.shards.getD 0 {}) = true ∧
    (setting (loading1 .absent) (loadSet 5 0)).hostTurn 3 load1 0 = true ∧ load1.engine 0 = none ∧
    ({ load1 with source := 2 } : Load).engine 9 = some 25 ∧ (stackLoad none).portServes 24 = true ∧ load2.engine 0 = some 24 ∧
    load2.runs = true ∧ load2.todo.contains 0 = true ∧ ((stackLoad none).ctx 3).wset.load = some load2 ∧
    (stackLoad none).shardFree 3 load2 (((stackLoad none).ctx 3).wset.shards.getD 0 {}) = true ∧
    ((stackLoad none).port 24).engine = none ∧ (((stackLoad none).port 24).engineQ.filter (stackLoad none).wantsEngine) = [(3, 0)] ∧
    ((stackLoad (some (4, 7))).port 24).engine = some (4, 7) ∧ (stackLoad none).hostReaches 0 = true ∧
    ((loading1 .arriving).wset.shards.getD 0 {}).st = .arriving ∧
    ((setting (loading1 .arriving) (loadSet 5 0)).shardBytes 3 load1 ((loading1 .arriving).wset.shards.getD 0 {}) 0 .ok).2.2 = none ∧
    ((loading1 .arriving).shardCores ((loading1 .arriving).wset.shards.getD 0 {})) = [0] ∧
    ((live.core 0).hostStore 2 0 [1]).isLeft = true := by decide +kernel

/-- A swap of context 3 that waits for its switch tick, one that resumes, and a re-check of its one shard. -/
def swap1 : Load := { load1 with swap := true, armed := true, at_ := 200000 }
def swapping : Context := { ctx3 with nextTick := 200000, wset := { ctx3.wset with load := some swap1, next := some ([{}], digest1, 9) } }
def resuming : Context := { ctx3 with wset := { ctx3.wset with resumeAt := some 250000 } }
def checked (good : Bool) : Context :=
  { ctx3 with tickNo := 1, wset := { st := 2, recheck := some { shard := 0, tc := 5 },
                                     shards := [{ digest := if good then digest1 else 0, len := 64, w := 1, h := 1, hd := 2, per := 1, st := .good }] } }
def holding : State := with0 { core1 with mem := Cells.write 0 [] 0 ((List.range 64).map (BitVec.ofNat 8)) }
def rechecking : State := { holding with ctxs := [(3, checked true)], ports := [(0, { trained := true, engine := some (3, 0) })] }
def jobSwap : State :=
  { live with
    fns := [(0, { ctlq := [{ taken 0 0x35 [1] with st := .running }] })],
    ep := { role := 2, jobs := [(1, { st := .swapping false, members := [(0, 3), (5, 3)] })] } }

theorem witness_SwapsSwitchResumeAndSetsAreRechecked :
    swapping.wset.load = some swap1 ∧ swapping.swapDue swap1.at_ = true ∧ swapping.wset.next = some ([{}], digest1, 9) ∧
    ({ swap1 with cut := true } : Load).cut = true ∧ resuming.wset.resumeAt = some 250000 ∧
    (checked true).wset.recheck = some { shard := 0, tc := 5 } ∧ (checked true).wset.st = 2 ∧ 0 < (checked true).tickNo ∧
    rechecking.portServes 0 = true ∧ (rechecking.port (0 % 24)).engine = some (3, 0) ∧
    rechecking.shardImage 3 ((checked true).wset.shards.getD 0 {}) = .inl ((List.range 64).map (BitVec.ofNat 8)) ∧
    (jobSwap.swapDesc 1).isSome = true ∧
    holding.shardImage 3 ((checked true).wset.shards.getD 0 {}) = .inl ((List.range 64).map (BitVec.ofNat 8)) ∧
    sha256 ((List.range 64).map (BitVec.ofNat 8)) = digest1 ∧ digest1 ≠ ((checked false).wset.shards.getD 0 {}).digest ∧
    [CtxState.bound, .running, .quiesced].contains (checked false).st = true ∧
    jobSwap.ep.role = 2 ∧ (jobSwap.job 1).st = .swapping false ∧ jobSwap.exBusy = false ∧
    ([0, 5].eraseDups).all (fun m => m < 10) = true ∧
    (jobSwap.job 1).members.all (fun q => (([0] ++ [5]).eraseDups).contains q.1) = true ∧
    (jobSwap.job 1).members.all (fun q => (([] ++ [5]).eraseDups).contains q.1) = false := by decide +kernel

/-- A table of one layer and two pages at byte 4,096 of the window of context 3, and descriptors that make, edit and
release it. -/
def region1 : Region := { ctx := 3, base := 4096, layers := 1, maxent := 2 }
def tableD (act : BitVec 32) : Taken := taken 4 7 [act, 1, 0x6000, 0, 1, 2]
def editD : Taken := taken 4 7 [1, 1, 0x6000, 0, 0, 1]
def tabled (d : Taken) (r : Region) : State :=
  withPort (control 4 d live) { port0 with trained := true, regions := [r] }
def untabled : State := withPort (control 4 (tableD 0) live) { port0 with trained := true }
/-- The layer's entry and page 0 replaced, expecting generation g, the page by one that is not valid. -/
def edit1 (g : BitVec 32) : List (BitVec 32) := [1, 1, 0, 0, 0x10000001, 0, g * 65536, 0, 0, 0]
def editing (r : Region) : State := withPort
  { live with fns := [(4, { bg := [{ editD with num := 6, st := .accepted }] })] } { port0 with trained := true, regions := [r] }

theorem witness_PageTablesAreEditedBesideTheirReaders :
    untabled.ptHead 4 0 = some (tableD 0) ∧ (tableD 0).word 8 = 1 ∧ (tableD 0).word 9 = 2 ∧ (tableD 0).port4 = 0 ∧
    untabled.ptInitOk 3 (tableD 0) region1 = true ∧ (tabled (tableD 0) region1).ptInitOk 3 (tableD 0) region1 = false ∧
    (untabled.port 0).addr? 3 (region1.base : Nat) region1.bytes = some 67112960 ∧
    (untabled.port 0).eccMerge 67112960 region1.bytes = none ∧ Cells.wf 0 (untabled.port 0).mem = true ∧
    (tabled editD region1).ptHead 4 1 = some editD ∧ (tabled editD region1).ptRegion 3 editD = some region1 ∧
    (tabled (tableD 2) region1).ptHead 4 2 = some (tableD 2) ∧ region1.release = none ∧ region1.quiet = true ∧
    ({ region1 with walks0 := 1 } : Region).quiet = false ∧
    ((editing { region1 with edits := [(edit1 0, 6)] }).port 0).region? 3 4096 = some { region1 with edits := [(edit1 0, 6)] } ∧
    ({ region1 with edits := [(edit1 0, 6)] } : Region).walks 1 = 0 ∧
    (editing region1).bgDesc 4 6 = some { editD with num := 6, st := .accepted } ∧
    (editing region1).windowRead 3 0 (region1.base + 64) region1.cs = .inl (List.replicate region1.cs 0) ∧
    genMismatch region1 [0, 0, 0] (edit1 0) = none ∧ genMismatch region1 [0, 0, 0] (edit1 1) = some 0 ∧
    (editing region1).layoutFault region1 (editTable region1 [0, 0, 0] (edit1 0)) (edit1 0) = none ∧
    (editing region1).layoutFault region1 (editTable region1 [0, 0, 0] (edit1 0)) [0, 1, 2, 0, 0, 0] = some 2 ∧
    ({ region1 with flipped := some (6, 0) } : Region).flipped = some (6, 0) ∧
    ({ region1 with flipped := some (6, 0), walks0 := 1 } : Region).walks 0 ≠ 0 := by decide +kernel

/-! ## Witnesses: partitions, windows, the library and resets -/

/-- The physical function with a descriptor. -/
def pf (op : Nat) (ws : List (BitVec 32)) : Taken := taken 0 op ws
def asked (op : Nat) (ws : List (BitVec 32)) (s : State) : State := control 0 (pf op ws) s
/-- Contexts 3, with its partition of one pod, and 5, CREATED. -/
def two (x : Context) : State := { live with ctxs := [(3, x), (5, { st := .created })] }
/-- A re-bind of context 3 to 5 under way, begun at count 0. -/
def rebinding : State :=
  { two { ctx3 with st := .scrubbing, rebindTo := some (5, 0) } with fns := [(0, { ctlq := [{ pf 0x22 [0x503] with st := .running }] })] }

theorem witness_PartitionsAreGivenScrubbedAndTaken :
    (asked 0x20 [3] live).ctlHead 0 0x20 = some (pf 0x20 [3]) ∧ ctx3.st ≠ .free ∧ (asked 0x20 [63] live).ctlHead 0 0x20 = some (pf 0x20 [63]) ∧
    (live.ctx 63).st = .free ∧ live.mg.unknownPart = false ∧
    (asked 0x21 [5, 1] (two ctx3)).ctlHead 0 0x21 = some (pf 0x21 [5, 1]) ∧ ((two ctx3).ctx 5).st = .created ∧
    (two ctx3).partFault (partOf 0) false false = some 0x0102 ∧ (two ctx3).partFault (partOf 1) false false = none ∧
    (two ctx3).partFault (partOf 0xF1) false false = some 0x0101 ∧ (two ctx3).partFault (partOf 0xB00F) false false = none ∧
    (two ctx3).partFault (partOf 0x10F) false false = some 0x0101 ∧
    (asked 0x22 [0x503] (two ctx3)).ctlHead 0 0x22 = some (pf 0x22 [0x503]) ∧ ctx3.st.gives = true ∧ (two ctx3).jobRuns 3 = false ∧
    ctx3.part = some { bx := 0, by_ := 0, w := 1, h := 1 } ∧ (two ctx3).partFault { bx := 0, by_ := 0, w := 1, h := 1 } true false = none ∧
    (two { ctx3 with st := .bound }).jobRuns 3 = false ∧
    (asked 0x23 [3, 0] live).ctlHead 0 0x23 = some (pf 0x23 [3, 0]) ∧ (pf 0x23 [3, 0]).fn = 0 ∧ (pf 0x23 [3, 0]).word 5 = 0 ∧
    (rebinding.ctx 3).rebindTo = some (5, 0) ∧ (rebinding.runningOp 0 0x22).isSome = true ∧ (rebinding.ctx 3).st ≠ .running ∧
    rebinding.badPods { bx := 0, by_ := 0, w := 1, h := 1 } [] = [] ∧ rebinding.badPods { bx := 0, by_ := 0, w := 1, h := 1 } [0] = [0] ∧
    (asked 0x22 [0x503] (two { ctx3 with quiesce := some { cut := false, at_ := 8, why := .desc } })).ctlHead 0 0x22 = some (pf 0x22 [0x503]) ∧
    ({ ctx3 with quiesce := some { cut := false, at_ := 8, why := .desc } } : Context).quiesce = some { cut := false, at_ := 8, why := .desc } := by
  decide +kernel

/-- Every core of this state, listed or not, is canonical. -/
theorem two_canonical (i : Nat) : ((two ctx3).core i).canonical = true := by
  by_cases h : i = 0
  · subst h; decide +kernel
  · have : (two ctx3).core i = {} := by
      show Table.get [(0, core1)] i {} = {}
      simp [Table.get, Table.find?, Ne.symm h]
    rw [this]; decide +kernel

/-- Port 0 that serves, with a retained window 7. -/
def granted : State := withPort live { port0 with trained := true, retained := [(7, { base := 9, blocks := 3 })] }
/-- Tier-B ports that serve, with an owner key, a manifest and one library entry that is complete. -/
def lib1 : LibEntry := { root := digest1, shards := [{ digest := digest1, len := 64 }], blocks := [(24, 1)], complete := true }
def libraryD : Taken := pf 0x28 [0x40000, 0, 0x180, 0, 0x20000, 0]
def installing (d : Taken) (es : Table LibEntry) : State :=
  let s := control 0 d live
  { s with link := { s.link with mem := Cells.write 0 imaged 0x40000 (wordsOf manifest1) }, sec := { s.sec with owners := [(0, owner1)] },
           mg := { s.mg with lib := es }, ports := (List.range 8).map (fun k => (24 + k, { trained := true })) }
def rootD (op : Nat) : Taken := pf op ((List.range 8).map (fun k => BitVec.ofNat 32 (leNat (((digBytes digest1).drop (4 * k)).take 4))))

theorem witness_WindowsSlotsAndLibraryEntriesAreGranted :
    (asked 0x24 [5, 2, 0] granted).ctlHead 0 0x24 = some (pf 0x24 [5, 2, 0]) ∧ (two ctx3).jobRuns 5 = false ∧
    granted.portUp 0 = true ∧ (granted.port 0).wins.has 5 = false ∧ (granted.port 0).freeRun 0 2 = some 3 ∧
    (granted.port 0).freeRun 0 501 = none ∧ (granted.port 0).freeRun 0 500 = some 12 ∧
    (granted.port 0).retained.find? 7 = some { base := 9, blocks := 3 } ∧
    (asked 0x25 [3] granted).ctlHead 0 0x25 = some (pf 0x25 [3]) ∧ (granted.port 0).wins.find? 3 = some { base := 1, blocks := 2 } ∧
    fld ((pf 0x25 [0x10003]).word 4) 16 16 = 1 ∧ fld ((pf 0x25 [3]).word 4) 16 16 ≠ 1 ∧ 24 ≤ fld ((pf 0x25 [0x1803]).word 4) 12 8 ∧
    (asked 0x27 [3, 0, 3, 0] granted).ctlHead 0 0x27 = some (pf 0x27 [3, 0, 3, 0]) ∧ (granted.port 0).slots.find? 0 = some 3 ∧
    granted.liveCtxs = [3] ∧ (granted.port 0).slots = [(0, 3)] ∧ (pf 0x27 [5, 0, 1, 0]).word 4 % 64 = 5 ∧
    (asked 0x26 [7] granted).ctlHead 0 0x26 = some (pf 0x26 [7]) ∧ granted.retainedAt 7 = some (0, { base := 9, blocks := 3 }) ∧
    ({ granted with ctxs := (5, { st := .created }) :: granted.ctxs }.ctx 5).st ≠ .free ∧
    ({ port0 with scrubs := [{ base := 1, blocks := 2, num := some 0 }] } : StackPort).scrubs = [{ base := 1, blocks := 2, num := some 0 }] ∧
    Cells.wf 0 port0.mem = true := by decide +kernel

theorem witness_WindowsSlotsAndLibraryEntriesAreGranted_library :
    (installing libraryD []).ctlHead 0 0x28 = some libraryD ∧ (installing libraryD []).hasSeqs = true ∧
    (live.manifestFault [] []).isSome = true ∧ (parseManifest (wordsOf manifest1)).flags % 2 = 1 ∧
    (installing libraryD []).libFault (parseManifest (wordsOf manifest1)) = none ∧
    (installing (rootD 0x29) [(1, lib1)]).ctlHead 0 0x29 = some (rootD 0x29) ∧
    (installing (rootD 0x29) [(1, lib1)]).libOf (rootD 0x29).libRoot = some (1, lib1) ∧
    (installing (rootD 0x2A) [(1, lib1)]).libReads 1 = false ∧ (!lib1.complete) = false ∧ (!{ lib1 with complete := false }.complete) = true ∧
    (installing libraryD [(1, { lib1 with complete := false })]).mg.lib.find? 1 = some { lib1 with complete := false } ∧
    lib1.blocks.Nodup ∧ (lib1.shards.filter (fun h => sha256 ((List.range 64).map (BitVec.ofNat 8)) ≠ h.digest)) = [] ∧
    (([{ digest := 0, len := 64 }] : List Shard).filter (fun h => sha256 ((List.range 64).map (BitVec.ofNat 8)) ≠ h.digest)) ≠ [] := by
  decide +kernel
theorem witness_WindowsSlotsAndLibraryEntriesAreGranted_manifest :
    (installing libraryD []).manifestFault ((installing libraryD []).manifestOf libraryD) [] = none := by
  have h4 : libraryD.dword 4 = 0x40000 := by decide
  have h6 : libraryD.word 6 = 0x180 := by decide
  have hr : (installing libraryD []).hostRead 0x40000 0x180 = wordsOf manifest1 := by
    have h := Cells.read_write 0 imaged 0x40000 (wordsOf manifest1) (by decide +kernel)
    rw [manifest_length] at h
    simp only [State.hostRead, installing]
    exact h
  rw [State.manifestOf, h4, h6, hr, manifestFault_owners (installing libraryD []) (setting {} {}) rfl, manifest_good]

/-- RESET of a level with its target. -/
def resetD (level target : BitVec 32) : Taken := pf 0x2B [level, target]
def resetAsked (level target : BitVec 32) (s : State) : State := control 0 (resetD level target) s
/-- The engine reset of port 0 under way. -/
def portReset : State := { live with mg := { live.mg with resets := [(0, resetD 2 0)], engFaults := [0x10000000] } }

theorem witness_ResetsRemoveWhatTheirLevelNames :
    (resetAsked 1 3 live).resetHead [1] = some (resetD 1 3) ∧ ctx3.st.resets = true ∧ CtxState.created.resets = false ∧ ctx3.resetting = none ∧
    ((((resetAsked 1 3 live).setSt (resetD 1 3) .running).beginReset 3).stuckOn 3) = none ∧ (resetAsked 1 3 live).selfFailed 3 = false ∧
    (resetD 1 3).word 5 % 64 = (3 : BitVec 6).toNat ∧
    (resetAsked 2 32 live).resetHead [2] = some (resetD 2 32) ∧ live.targetFault 32 = some (9, 0x14) ∧
    (withPort live { port0 with trained := true }).targetFault 0 = none ∧ live.targetFault 0x200000BF = some (9, 0x14) ∧
    live.targetFault 0x20000005 = none ∧ live.mg.resets.any (fun r => decide (r.1.toNat = 0)) = false ∧
    List.find? (fun e => e.1 == (0 : BitVec 32)) portReset.mg.resets = some (0, resetD 2 0) ∧
    portReset.engineDown 0x10000000 = true ∧ live.engineDown 0x10000000 = false ∧ live.liveCtxs = [3] ∧
    live.workOn 3 (3 * 2 ^ 28) = true ∧ live.workOn 3 0 = false ∧
    (resetAsked 3 3 live).resetHead [3] = some (resetD 3 3) ∧ live.ep.ex = none ∧
    live.badPods { bx := 0, by_ := 0, w := 1, h := 1 } [] = [] ∧ ready3.st ≠ .running ∧ ready3.st.resets = true ∧
    (live.fn 4).flr = false ∧ ({ flr := true } : HostFn).flr = true ∧ ({ ctx3 with resetting := some 1 } : Context).resetting = some 1 ∧
    live.ep.role ≠ 2 ∧ (granted.ports.flatMap (fun e => e.2.retained)).length < 60000 ∧ (granted.port 0).wins.find? 3 = some { base := 1, blocks := 2 } ∧
    List.find? (fun e => e.1 == (0x30000000 : BitVec 32)) [((0x30000000 : BitVec 32), resetD 2 0x30000000)] = some (0x30000000, resetD 2 0x30000000) ∧
    srcKind (0x30000000 : BitVec 32).toNat = 3 ∧ srcKind 0 = 0 ∧ live.targetFault 0x30000000 = none ∧
    (resetAsked 4 0 live).resetHead [0, 4] = some (resetD 4 0) ∧ live.mg.powered = true ∧ live.link.perst = false ∧
    live.sec.inRecovery = false ∧ live.barLive = true ∧ live.mg.logAck ≤ (0 : BitVec 32).toNat ∧ (0 : BitVec 32).toNat ≤ live.mg.logNext ∧
    live.mg.logNext < (1 : BitVec 32).toNat := by decide +kernel

/-! ## Witnesses: jobs and links -/

/-- A manager of a ring of two modules, with a job of both, and its link X+ to module 1 UP. -/
def jobA : Job := { members := [(0, 3), (1, 4)], plan := [(0, 1, 2), (1, 0, 2)] }
def managing (j : Job) : State :=
  { live with ep := { role := 2, req := 2, coord := some (0, 0, 0), nx1 := 1, shape := (2, 1, 1), formed := true, jobs := [(1, j)] },
              tcb := { synced := true } }
def jobD (op : Nat) : Taken := pf op [1]
/-- JOB_CREATE of contexts 5 of modules 0 and 1, one pair of two pips: ranks at 0x5000, plan at 0x6000. -/
def createD : Taken := pf 0x30 [2, 1, 0x5000, 0, 0x6000, 0]
def creating (pips : BitVec 32) : State :=
  let s := host 0x6000 [0x10000, pips] (host 0x5000 [0x50000, 0x50001] (control 0 createD (managing jobA)))
  { s with ctxs := (s.ctxs ++ [(5, { st := .created })]) }
/-- A worker at coordinate 1. -/
def worker : State := { live with ep := { role := 1, coord := some (1, 0, 0), nx1 := 1, shape := (2, 1, 1), ports := [(1, { st := 3 })], beaconAt := 5 } }
def free0 : State := { served with ep := { ports := [(1, { st := 3 })] } }
def adopt1 : AdoptMsg :=
  { x := 1, y := 0, z := 0, rsid := 7, nx1 := 1, ny1 := 0, nz1 := 0, control := [], bmask := 0, parent := none, port := 1, mgr := 0 }
def found2 : List FoundMod :=
  [{ idx := 0, running := false, links := [(0, 1, 1), (1, 1, 0)] }, { idx := 1, running := false, links := [(0, 0, 1), (1, 0, 0)] }]

theorem witness_TheManagerFormsRunsAndReshapes :
    live.ep.role ≠ 2 ∧ (control 0 createD live).ctlHead 0 0x30 = some createD ∧ (control 0 (jobD 0x31) live).ctlHead 0 0x31 = some (jobD 0x31) ∧
    (control 0 (jobD 0x32) live).ctlHead 0 0x32 = some (jobD 0x32) ∧
    (creating 2).ctlHead 0 0x30 = some createD ∧ (creating 2).ep.role = 2 ∧ createD.word 4 = 2 ∧
    (List.range 2).find? ((creating 2).rankFails ((creating 2).rankList createD) []) = none ∧
    (List.range 2).find? ((creating 2).rankFails ((creating 2).rankList createD) [1]) = some 1 ∧
    ((creating 2).planList createD).any (badPair 2) = false ∧
    freshJob (creating 2).ep.jobs (creating 2).ep.jobs.length (creating 2).ep.nextJob = 2 ∧
    ((creating 2).layJob 2 { members := (creating 2).rankList createD, plan := (creating 2).planList createD }).isRight = true ∧
    (creating 2).exBusy = false ∧ (creating 2).ep.tableQ = [] ∧
    ({ creating 2 with ep := { (creating 2).ep with linkPips := [(0, (List.range 64).map (fun k => (k, 9)))] } }.layJob 2
      { members := (creating 2).rankList createD, plan := (creating 2).planList createD }).isLeft = true ∧
    (managing jobA).ep.jobs.has 1 = true ∧ ((managing jobA).job 1).st.runs = false ∧
    ({ jobA with st := .running } : Job).st.runs = true ∧ (managing jobA).jobCtx 1 = none ∧ jobA.lost = [] ∧
    (managing jobA).exBusy = false ∧ jobA.st = .idle ∧ (managing jobA).crossJob 1 = false ∧ jobA.short = none ∧
    ((managing jobA).layJob 1 jobA).isRight = true ∧ (managing jobA).ep.tableQ = [] ∧
    (managing jobA).noExchange jobA false = some (0, 1) ∧ (managing jobA).noExchange jobA true = none ∧ JobSt.quiesced.swaps = true ∧
    ({ jobA with lost := [1] } : Job).lost = [1] := by decide +kernel

theorem witness_TheManagerFormsRunsAndReshapes_modules :
    (control 0 (pf 0x36 []) free0).ctlHead 0 0x36 = some (pf 0x36 []) ∧ (free0.jobBusy || found2.any (·.running)) = false ∧
    (free0.jobBusy || ({ idx := 0, running := true, links := [] } :: found2).any (·.running)) = true ∧
    (control 0 (pf 0x37 [1]) (managing jobA)).ctlHead 0 0x37 = some (pf 0x37 [1]) ∧ (managing jobA).ep.isMod 1 = true ∧
    (control 0 (pf 0x38 [1, 0, 0x5000, 0]) (managing jobA)).ctlHead 0 0x38 = some (pf 0x38 [1, 0, 0x5000, 0]) ∧
    (((List.range 1).map (fun k => leNat ((host 0x5000 [1] (managing jobA)).hostRead (0x5000 + 2 * k) 2))).eraseDups.any
      (fun m => !(managing jobA).ep.isMod m || m == (managing jobA).modIndex)) = false ∧
    free0.barLive = true ∧ free0.ep.req = 0 ∧ free0.anyCtx = false ∧ live.anyCtx = true ∧
    (free0.epPort adopt1.port.toNat).st = 3 ∧ (free0.epPort 2).st ≠ 3 ∧ free0.ep.role ≠ 2 ∧
    (managing jobA).ep.req = 2 ∧ (0 : BitVec 2) ≠ 2 ∧ (1 : BitVec 2) ≠ free0.ep.req ∧ (3 : BitVec 2) ≠ free0.ep.req ∧ worker.ep.req = 0 ∧
    free0.ep.role = 0 ∧ (managing jobA).ep.role = 2 ∧ (managing jobA).ep.isMod (1 : BitVec 10).toNat = true ∧ jobA.members.any (fun q => q.1 == 1) = true ∧
    (0x0A01 : BitVec 16) ≠ 0x8103 ∧ (0x0403 : BitVec 16) ≠ 0x8103 ∧ (2 : BitVec 3) = 2 ∧ (1 : BitVec 3) ≠ 2 ∧ (0x0602 : BitVec 16) = 0x0602 ∧
    ({ ctx3 with job := 1 } : Context).job ≠ 0 ∧ ctx3.job = 0 ∧ (0, 3) ∈ jobA.members ∧ worker.ep.role = 1 ∧ worker.ep.mgrLost = false ∧
    (1 : BitVec 10).toNat ∉ (managing jobA).ep.failedMods ∧ (1 : BitVec 10).toNat ≠ (managing jobA).modIndex ∧
    (managing jobA).jobAt 1 4 = some 1 ∧ managerFaults.contains (0x0403 : BitVec 16).toNat = false ∧ (managing jobA).modIndex? = some 0 ∧
    ((managing jobA).ctx 3).st = .running ∧ (ctxIs { ctx3 with job := 1 }).ctxs ≠ [] ∧
    ({ worker.ep with changes := [{ at_ := 5, job := 1 }] } : Epfin).changes = [{ at_ := 5, job := 1 }] ∧
    ({ at_ := 5, job := 1 } : TableChange).ends = false ∧ worker.ep.role ≠ 0 := by decide +kernel

/-- Port 0 UP with module 1 at its far end: job 1 owns pip 1 both ways, and has credit. -/
def linkUp : EpPort := { st := 3, cable := 1, plugged := 1, caged := true, nbr := some (1, 1), pipTx := [(1, 1)], pipRx := [(1, 1)], rxPip := some 0 }
def linked (k : EpPort) : State :=
  { ctxIs { ctx3 with job := 1 } with ep := { role := 2, coord := some (0, 0, 0), nx1 := 1, shape := (2, 1, 1), ports := [(0, k)], ranks := [(1, [(1, 0xC0040001)])] } }
/-- A group of job 1 in pip 1, an idle one in pip 2, and a packet of job 1 from module 1 to a context here. -/
def group1 : Group :=
  { pip := 1, kind := 0, ownchk := 1, nak := false, ackpip := 0, cjob := 0, credit := 0, data := [1, 2], corrected := 0, uncorr := 0 }
def packet0 : EpPacket :=
  { op := 0, chan := 0, length := 2, tag := 0, rfmt := 0, hops := 62, dmod := 0, dctx := 3, smod := 1, sctx := 4, job := 1, srank := 1,
    drank := 0, seq := 0, cx := 0, cy := 0, wh := 2, port := 0, stk := true, rcount := 0, wgen := 1, woff := 64, crc := 0, data := [1, 2],
    resv := false }
def packet1 : EpPacket := { packet0 with crc := packet0.crcOf }
def packet3 : EpPacket := { packet0 with op := 3, stk := false, length := 64, data := [], crc := { packet0 with op := 3, stk := false, length := 64, data := [] }.crcOf }
def ranked : State := withPort (linked linkUp) port0

theorem witness_LinksTrainCarryAndCheck :
    (5 : BitVec 3).toNat < 6 ∧ linkUp.caged = true ∧ linkUp.cable ≠ CableClass.code .none ∧ ({ linkUp with caged := false } : EpPort).caged = false ∧
    linkUp.st = 3 ∧ ({ linkUp with st := 0 } : EpPort).mayTrain = true ∧ linkUp.mayTrain = false ∧
    ((linked linkUp).epPort 0) = linkUp ∧ linkUp.groupFault group1 = none ∧ pipOwner linkUp.pipRx 1 = 1 ∧ linkUp.nakOwner.has 1 = false ∧
    linkUp.groupFault { group1 with uncorr := 3 } = some .uncorr ∧ linkUp.groupFault { group1 with pip := 2 } = some .pip ∧
    linkUp.groupFault { group1 with ownchk := 2 } = some .owner ∧
    ({ linkUp with pipRx := [] }).groupFault { group1 with ownchk := 0 } = some .kind ∧
    ({ linkUp with rxBytes := [(1, List.replicate 15360 0)] }).groupFault group1 = some .room ∧ linkUp.test = 0 ∧ ({ linkUp with st := 4, cutDone := true } : EpPort).cutDone = true ∧
    linkUp.heldFrom 1 = [] ∧ ({ linkUp with replay := [(1, [])], txPip := [(1, 1)] }).heldFrom 1 = [1] ∧
    ({ linkUp with tries := [(1, 8)] }).tries.get 1 0 = 8 ∧ linkUp.tries.get 1 0 < 8 ∧ (linked linkUp).engineDown (srcEp 0) = false ∧
    (linked linkUp).nextPort 1 1 = 0 ∧ (linked linkUp).carries 0 = true ∧ linkUp.hasCredit 1 = true ∧ (linked linkUp).freeTo 0 1 = true ∧
    ({ linkUp with sent := [(1, 15360)] }).hasCredit 1 = false ∧ (linked linkUp).nextPort 1 1 < 6 ∧ (linked linkUp).ep.req ≠ 1 ∧ ((linked linkUp).ctx 3).pipIdle = false ∧
    (linked linkUp).modIndex? = some 0 ∧ (linked linkUp).modIndex? ≠ some (1 : BitVec 10).toNat := by decide +kernel

theorem witness_LinksTrainCarryAndCheck_packets :
    packet1.sound = true ∧ packet0.sound = false ∧ packet1.op ≠ 5 ∧ ranked.modIndex? = some packet1.dmod.toNat ∧ ranked.epCtxOk packet1 = true ∧
    ranked.epCtxOk { packet1 with job := 2 } = false ∧ ranked.ep.rxSeq.get packet1.flow 0 = packet1.seq.toNat ∧
    ranked.ep.rxSeq.get packet1.flow 0 ≠ ({ packet1 with seq := 1 }).seq.toNat ∧ ctx3.deaf = false ∧ packet1.stk = true ∧ packet1.op = 0 ∧
    (packet1.port.toNat < 24 ∧ packet1.data ≠ []) ∧ (ranked.portEntry (640 * (attachPos 0).2 + (attachPos 0).1) 0).isSome = true ∧
    (ranked.port 0).addr? 3 (packet1.woff.toNat : Nat) packet1.data.length = some 67108928 ∧ (ranked.port 0).owned 3 64 2 = false ∧
    (ranked.port 0).eccMerge 67108928 2 = none ∧ packet3.sound = true ∧ packet3.op = 3 ∧ ranked.epTargetOk packet3 = true ∧ ranked.reachable (attachPos 0) (packet3.cx.toNat, packet3.cy.toNat) = true ∧
    (0 : BitVec 6) = packet1.hops - 62 ∧ packet1.hops ≠ 0 ∧ (linked linkUp).modIndex? ≠ some ({ packet1 with dmod := 1 }).dmod.toNat ∧
    ({ packet1 with seq := 1, crc := { packet0 with seq := 1 }.crcOf }).sound = true ∧
    ({ packet1 with job := 2, crc := { packet0 with job := 2 }.crcOf }).sound = true := by decide +kernel

/-! ## Witnesses: lines, registers, identity and the monitor -/

/-- A firmware image with no code, signed with private key 1 of P-256 (Table 17.3). -/
def firmware1 : List (BitVec 32) :=
  [0x3157464A, 0x1, 0x1, 0x0, 0x10002, 0x0, 0x0, 0x0, 0xD898C296, 0xF4A13945, 0x2DEB33A0, 0x77037D81, 0x63A440F2,
  0xF8BCE6E5, 0xE12C4247, 0x6B17D1F2, 0x37BF51F5, 0xCBB64068, 0x6B315ECE, 0x2BCE3357, 0x7C0F9E16, 0x8EE7EB4A,
  0xFE1A7F9B, 0x4FE342E2] ++ List.replicate 8 0 ++ [0xF9DAD812, 0xF9F921E9, 0x5B649CC9, 0xB2F73394, 0x8B3A9122,
  0x669187E1, 0xEE9E34A, 0x26EFCEBD, 0x603D6AC0, 0xAFEDC168, 0x744CB024, 0x40626EB1, 0x25194A01, 0x6D078A16,
  0x6424F1CC, 0xF624A76C]
/-- A module that starts, in stage k. -/
def starts (k : Nat) : State :=
  { mg := { powered := true, stage := k }, sec := { flash := wordsOf firmware1 }, lines := { modRstN := true }, link := { perst := false } }

theorem witness_LinesAndStagesStartAndStopTheModule :
    (starts 0).starting = true ∧ served.starting = false ∧ (starts 1).lines.modRstN = true ∧ (starts 1).sec.forceRecovery = false ∧
    (starts 1).sec.flashBad = false ∧ ({ (starts 1) with sec := { flash := [] } } : State).imageCheck [] = some 1 ∧
    (starts 0).mg.powerUpStart = true ∧ ({ (starts 0).mg with powerUpStart := false } : Mgmt).powerUpStart = false ∧
    ({ (starts 1) with lines := { modRstN := false } } : State).lines.modRstN = false ∧ ({ (starts 1) with lines := { modRstN := false } } : State).starting = true ∧
    ({ (starts 1).sec with forceRecovery := true } : Security).forceRecovery = true ∧ ({ (starts 2) with tcb := { lock := true } } : State).tcb.lock = true ∧
    ({ (starts 3).mg with gateOpen := true } : Mgmt).gateOpen = true ∧ served.ep.role ≠ 2 ∧ served.mg.stoppedGate = false ∧
    (∀ k, k < 10 → (starts k).starting = true ∧ (starts k).mg.stage = k) ∧ ({ served.mg with powered := false } : Mgmt).powered = false ∧ ({ served.mg with ready := false } : Mgmt).ready = false ∧
    (starts 2).tcb.lock = false ∧ (starts 2).mg.refWait = false ∧ (starts 3).gateHot = false ∧ (starts 3).fs.tripHold = false ∧
    ({ (starts 3) with tel := { tfield := [(0, 851)] } } : State).gateHot = true ∧ (starts 8).fitted 0 = true ∧
    served.link.perst = false ∧ served.mg.ready = true ∧ served.mg.powered = true ∧ State.reset.link.perst = true ∧
    (starts 4).mg.ready = false ∧ ((starts 2).starting && decide ((starts 2).mg.stage = 2) && !(starts 2).tcb.lock && !(starts 2).mg.refWait) = true ∧
    ({ served.mg with stoppedGate := true } : Mgmt).stoppedGate = true := by decide +kernel

/-- The image passes where the firmware key of the module (a value the spec leaves open, log 2) is that key. -/
theorem witness_LinesAndStagesStartAndStopTheModule_boots
    (h : Config.fwKey = 0xA955515B71FB2429101880552C64119D6649BF02B427DEAFAE39B3E5FC120797) : (starts 1).imageCheck (starts 1).sec.flash = none := by
  simp only [State.imageCheck]
  rw [h]
  decide +kernel

/-- An owner record that enrols that key in slot 0 (Table 17.5), and the recovery mode with a record or an image to fetch. -/
def record1 : List (BitVec 32) :=
  [0x31454F4A, 0x0, 0xD898C296, 0xF4A13945, 0x2DEB33A0, 0x77037D81, 0x63A440F2, 0xF8BCE6E5, 0xE12C4247, 0x6B17D1F2,
  0x37BF51F5, 0xCBB64068, 0x6B315ECE, 0x2BCE3357, 0x7C0F9E16, 0x8EE7EB4A, 0xFE1A7F9B, 0x4FE342E2] ++ List.replicate
  24 0
def recovering (kind : Bool) (ws : List (BitVec 32)) : State :=
  { host 0x5000 ws served with sec := { flash := [], inRecovery := true, rcvState := 1, rcvKind := kind, rcvLo := 0x5000,
                                        rcvLen := BitVec.ofNat 32 (4 * ws.length) } }

theorem witness_RegistersAreReadWrittenAndRecovered :
    served.barLive = true ∧ (0 : BitVec 32).toNat % 4 = 0 ∧ (3 : BitVec 32).toNat % 4 ≠ 0 ∧ served.sec.inRecovery = false ∧
    served.anyCtx = false ∧ live.anyCtx = true ∧ (5 : BitVec 32) ≠ live.tcb.sec ∧ ctx3.frameBusy = true ∧ ready3.frameBusy = false ∧
    ((withPort live port0).port (0 : BitVec 5).toNat).hasPair 3 (5 : BitVec 8).toNat = true ∧
    BitVec.ofNat 24 (5 : BitVec 32).toNat ≠ (((withPort live port0).port 0).pair 3 5).rbase ∧
    served.mg.powered = true ∧ smbServed 0 = true ∧ smbServed 0x4000 = false ∧ (3 : BitVec 32).toNat % 4 ≠ 0 ∧
    worker.ep.role = 1 ∧ worker.mg.powered = true ∧ ({ worker with ctxs := [] } : State).anyCtx = false ∧ served.ep.role ≠ 1 ∧ Space.pf0 ≠ Space.control ∧
    (0xA5A50005 : BitVec 32) = 0xA5A50005 ∧ (96 ≤ 200 % 512 ∧ 200 % 512 ≤ 300) ∧ ¬(96 ≤ (512 : Nat) % 512 ∧ (512 : Nat) % 512 ≤ 300) ∧
    fld (BitVec.ofNat 32 (5 * 2 ^ 24 + 4000)).toNat 23 0 = 4000 ∧ fld (BitVec.ofNat 32 (5 * 2 ^ 24 + 3999)).toNat 23 0 = 3999 ∧ served.link.perst = false ∧
    (recovering true record1).sec.inRecovery = true ∧ (recovering true record1).sec.rcvState = 1 ∧
    (recovering true record1).sec.rcvLen.toNat = 0xA8 ∧ (recovering false firmware1).sec.rcvLen.toNat = 0x80 + 64 := by decide +kernel

theorem witness_RegistersAreReadWrittenAndRecovered_records :
    ((recovering true record1).ownerRecord (wordsOf record1)).isRight = true ∧
    (recovering true []).ownerRecord [] = .inl 1 ∧ (recovering false []).imageCheck [] = some 1 := by decide +kernel
theorem witness_RegistersAreReadWrittenAndRecovered_image (h : Config.fwKey = 0xA955515B71FB2429101880552C64119D6649BF02B427DEAFAE39B3E5FC120797) :
    (recovering false firmware1).imageCheck (wordsOf firmware1) = none := by
  simp only [State.imageCheck]
  rw [h]
  decide +kernel

/-- A module whose mailbox answers, versions, capabilities and algorithms agreed, with a session of state k. -/
def spoken (k : Nat) : State :=
  { served with link := { served.link with cfgServed := true, keyed := 1 },
                sec := { flash := [], spdm := { version := true, caps := true, algs := true, session := k } } }

theorem witness_SpdmAnswersInItsOrderAndKeysStreams :
    (spoken 0).doeServed = true ∧ served.doeServed = false ∧ ((spoken 0).sec.spdm.version && (spoken 0).sec.spdm.caps && (spoken 0).sec.spdm.algs) = true ∧
    (spoken 1).sec.spdm.session = 1 ∧ (spoken 2).sec.spdm.session = 2 ∧ (spoken 0).sec.spdm.session ≠ 1 ∧ (spoken 0).sec.spdm.session ≠ 2 ∧
    (({ version := true } : Spdm).version && ({ version := true } : Spdm).caps && ({ version := true } : Spdm).algs) = false ∧ ({} : Spdm).version = false ∧
    ((spoken 0).sec.spdm.version && (spoken 0).sec.spdm.caps && true && true && true && true) = true ∧ (1 : BitVec 4) ≠ 0 ∧
    0x40 ≤ (0x40 : BitVec 8).toNat ∧ (0x80 : BitVec 8).toNat ≤ 0x80 ∧
    ((spoken 0).mg.powered && (spoken 0).link.keyed.getLsbD (0 : BitVec 3).toNat) = true ∧
    ((spoken 0).mg.powered && (spoken 0).link.keyed.getLsbD (1 : BitVec 3).toNat) = false := by decide +kernel

/-- A debug certificate with PERMS 5 for the device key 0x1234 and one challenge (Table 17.9). -/
def cert1 : List (BitVec 32) :=
  [0x3143444A, 0x50001] ++ List.replicate 9 0 ++ [0x34120000, 0x33221100, 0x77665544, 0xBBAA9988, 0xFFEEDDCC,
  0x5B5155A9, 0x2924FB71, 0x55801810, 0x9D11642C, 0x2BF4966, 0xAFDE27B4, 0xE5B339AE, 0x970712FC, 0xF9DAD812,
  0xF9F921E9, 0x5B649CC9, 0xB2F73394, 0x8B3A9122, 0x669187E1, 0xEE9E34A, 0x26EFCEBD, 0xFE156C72, 0xFD4C3956,
  0x8400D607, 0xC25E487D, 0x7F4A46E7, 0xF1F65E94, 0x3E898755, 0x239BBA43]
def spelled (l : String) : List Byte := ascii l
def unlockedMon : State := { live with sec := { flash := [], unlocked := true, perms := 7 } }

theorem witness_TheMonitorAnswersUnlocksAndWrites :
    ({ served.mg with powered := false } : Mgmt).powered = false ∧ served.mg.powered = true ∧ 128 < (List.replicate 129 (0x20 : Byte)).length ∧
    (List.replicate 128 (0x20 : Byte)).length ≤ 128 ∧ ({ served.mon with answering := true } : Monitor).answering = true ∧
    served.mon.answering = false ∧ served.mon.collecting = none ∧ lineWords (spelled "  ") = [] ∧ lineWords (spelled " unlock") = [ascii "unlock"] ∧
    lineOk (spelled "core 639 479") = true ∧ lineOk (spelled "core 1") = false ∧ certLine (spelled "core") = none ∧
    ({ served.mon with collecting := some [] } : Monitor).collecting = some [] ∧ certLine (spelled "00000000 00000000 00000000 00000000 00000000 00000000 00000000 0000000a") = some (List.replicate 31 0 ++ [10]) ∧
    (([] : List Byte) ++ (List.replicate 31 0 ++ [10])).length ≠ 160 ∧ (List.replicate 128 (0 : Byte) ++ (List.replicate 31 0 ++ [10])).length = 160 ∧
    ({ served.mon with collecting := some [] } : Monitor).collecting.isSome = true ∧ (wordsOf cert1).length = 160 ∧ ([] : List Byte).length ≠ 160 := by decide +kernel

/-- The certificate is good where the module's key, the manufacturer's key and the challenge are those it was made for (the
spec leaves their values open, log 2 and log 12). -/
theorem witness_TheMonitorAnswersUnlocksAndWrites_good (hd : Config.deviceKey = 0x1234) (hj : Config.jdKey = 0xA955515B71FB2429101880552C64119D6649BF02B427DEAFAE39B3E5FC120797)
    (hr : Config.random 0 = 0x112233445566778899AABBCCDDEEFF00000000000000000000000000000000) : certGood unlockedMon (wordsOf cert1) = true := by
  have hc : unlockedMon.sec.challenge = 0 := rfl
  simp only [certGood]
  rw [hc, hd, hj, hr]
  decide +kernel
theorem witness_TheMonitorAnswersUnlocksAndWrites_bad : certGood served (List.replicate 160 0) = false := by
  have h : leAt (List.replicate 160 0) 0 4 ≠ 0x3143444A := by decide +kernel
  unfold certGood
  rw [decide_eq_false h]
  rfl

theorem witness_MonitorCommandsPrintAndWriteAsPermitted :
    live.fs.coreRails = true ∧ ({ live.fs with coreRails := false } : FreqBlock).coreRails = false ∧ live.mg.powered = true ∧ live.mon.collecting = none ∧ smbServed 0x3000 = true ∧ live.mg.ready = true ∧ live.podTaken (podOf 0) = true ∧
    live.podTaken (podOf 307199) = false ∧ unlockedMon.podTaken (podOf 0) = true ∧ unlockedMon.sec.unlocked = true ∧
    (∀ b, b < 3 → unlockedMon.sec.perms.getLsbD b = true) ∧ unlockedMon.fwRuns = true ∧ live.sec.unlocked = false ∧
    ({ unlockedMon with sec := { unlockedMon.sec with perms := 0 } } : State).sec.perms.getLsbD 2 = false ∧
    0x1000 ∈ (List.range 2).map (fun k => 0x1000 + 4 * k) ∧ smbServed 0x1000 = true ∧ smbServed 0x1004 = true ∧
    (!unlockedMon.podTaken (podOf 0) || (unlockedMon.sec.unlocked && unlockedMon.sec.perms.getLsbD 0)) = true ∧
    ({ unlockedMon with mg := { unlockedMon.mg with supplyFail := true } } : State).fwRuns = false ∧
    unlockedMon.podScrubs (podOf 0) = false ∧ (two { ctx3 with st := .scrubbing }).podScrubs (podOf 0) = true ∧
    (unlockedMon.core 0).canonical = true ∧ (unlockedMon.core 0).eccDouble = [] ∧ (unlockedMon.core 0).eccSingle = [] ∧
    (starts 7).mg.ready = false ∧ (starts 7).mg.stage ≤ 7 ∧ (unlockedMon.core 0).inDesc 131072 = true ∧ (unlockedMon.core 0).inDesc 0 = false ∧
    ({ live.mg with logNext := 1, log := [(0, { seq := 0 })] } : Mgmt).log.find? 0 = some { seq := 0 } := by decide +kernel

/-! ## Witnesses: the whole machine -/

theorem witness_CommandsLeaveTheQueueAlone : exec (.jmp c0 5 nop) live = .next (after (.jmp c0 5 nop) live) := by rfl

/-- A state that holds data, and a command at its front. -/
def frontJmp : State := { holding with pending := [.jmp c0 5 nop] }
theorem witness_EveryStepKeepsTheCanonicalForm : frontJmp.canonical = true ∧ (match step frontJmp with | .next _ => true | _ => false) = true := by
  decide +kernel

/-! ## Worked examples of the spec -/

/-- Chapter 3, the words of bundle 43 of the projection loop. -/
theorem test_bundle43 :
    decBundle (leNat (wordsOf [0x30004028, 0, 0, 0x4E014000, 0x00003E24, 0, 0, 0x1000001F])) =
      { sc := .loop 0 0 1 40,
        mx := .mma false { acc := 3, fmt := 6, bh := 9, boff := 78, bidx := 0, ah := 5, aoff := 0, aidx := 0 },
        sy := .waitcy 31 } := by decide +kernel

/-- Chapter 4, one rounding per MMA: 2^24 and three products of 0.5 give 0x4B800001 (R75). -/
theorem test_mma_rounds_once :
    (exactSum (dec32 0x4B800000 :: List.replicate 3 (dec32 0x3F000000))).1 = 0x4B800001#32 := by decide +kernel

/-- Chapter 4, converting one block to MXFP8 E4M3 (R85, R86). -/
theorem test_vcvt_block :
    (stageRow 2 ([0x447A0000, 0x3E99999A] ++ List.replicate 14 0) ([0x40400000, 0xBC23D70A] ++ List.replicate 14 0)).1.take 3 =
      [0x00803C7E#32, 0x00808322#32, 0x00800000#32] ∧
    (stageRow 2 ([0x447A0000, 0x3E99999A] ++ List.replicate 14 0) ([0x40400000, 0xBC23D70A] ++ List.replicate 14 0)).2.getLsbD 4 = true := by
  decide +kernel

/-- Chapter 4, Table 4.9, block 1 of the row: VSMAX and VSSUM from -Inf and 0 (R88, R89). -/
theorem test_softmax_block1 :
    (smaxRow 0xFF800000 (0x40400000 :: List.replicate 15 0x3F800000)).1 = 0x40400000#32 ∧
    (smaxRow 0xFF800000 (0x40400000 :: List.replicate 15 0x3F800000)).2.1 = 0xFF800000#32 ∧
    (ssumRow 0 0xFF800000 (0x3F800000 :: List.replicate 15 0x3E800000)).1 = 0x40980000#32 ∧
    (ssumRow 0 0xFF800000 (0x3F800000 :: List.replicate 15 0x3E800000)).2.1 = 0#32 := by decide +kernel
/-- The same table, block 2, a tail of 5. -/
theorem test_softmax_block2 :
    (smaxRow 0x40400000 (0x40800000 :: List.replicate 4 0x40000000)).2.1 = 0xBF800000#32 ∧
    (ssumRow 0x40980000 0xBF800000 (0x3F800000 :: List.replicate 4 0x3E800000)).1 = 0x408C0000#32 ∧
    (ssumRow 0x40980000 0xBF800000 (0x3F800000 :: List.replicate 4 0x3E800000)).2.1 = 0x3F000000#32 := by decide +kernel
/-- VEXP2 of -2 is 0.25, and VRCP of 4.375 is 0x3E6A0EA1. -/
theorem test_vexp2 : (vExp2 0xC0000000).1 = 0x3E800000#32 := by decide +kernel
theorem test_vrcp : (vRcp 0x408C0000).1 = 0x3E6A0EA1#32 := by decide +kernel

/-- Chapter 2: B(50,000, 2), B(45,000, 2), B(200,000, 3), B(200,000, 5) and B(400,000, 5) (R35). -/
theorem test_budget :
    budget 50000 2 = 96947 ∧ budget 45000 2 = 87246 ∧ budget 200000 3 = 358132 ∧ budget 200000 5 = 298433 ∧
    budget 400000 5 = 596930 := by decide +kernel
/-- Chapter 2, stretching Walnut-410 at step 5: k is 2 (R37). -/
theorem test_stretch : stretchK 200000 341000 5 = some 1 := by decide +kernel
/-- Chapter 2, launching Walnut-410: the launch count (R42). -/
theorem test_launch_count : ({ served with tcb := { now := 7305412118903 } } : State).agreed 200000 = 7305414200000 := by decide +kernel

/-- Chapter 6, Table 6.5: 256, 1 and 1 in BF16 give 258 in every order (R131, R132). -/
theorem test_reduction :
    ([[0x4380, 0x3F80, 0x3F80], [0x3F80, 0x3F80, 0x4380], [0x3F80, 0x4380, 0x3F80]].map (fun l =>
      (RedElem.result 1 (l.foldl (fun e v => e.add (decRed 1 (leBytes 2 v))) {})).1)) = [0x4381, 0x4381, 0x4381] := by decide +kernel

/-- Chapter 8, Table 8.9, the first page entry: port 5, window offset 64 MiB, 512 KiB, GEN 3. -/
theorem test_page_entry :
    peValid 0xCC0CA01000000000 = true ∧ pePort 0xCC0CA01000000000 = 5 ∧ peBase 0xCC0CA01000000000 = 67108864 ∧
    peLog2 0xCC0CA01000000000 = 19 ∧ peGen 0xCC0CA01000000000 = 3 := by decide +kernel

/-- Chapter 10: the entry of rank 5 of a Walnut-410 replica (R224). -/
theorem test_rank_entry :
    (({ members := [(80, 0), (81, 0), (82, 0), (83, 0), (84, 0), (85, 3)], plan := [(0, 5, 1)] } : Job).rankTable 80).getD 5 (0, 0) =
      (5, 0xC0030055#32) := by decide +kernel
/-- Chapter 10, Table 10.8: 6 to 0 of a ring of eight goes by X+ through 7, and the tie 5 to 1 by X+ (R226). -/
theorem test_routes :
    (({ shape := (8, 2, 1) } : Epfin).dimRoute 20 6 0) = [(6, 0), (7, 0)] ∧
    (({ shape := (8, 2, 1) } : Epfin).dimRoute 20 5 1) = [(5, 0), (6, 0), (7, 0), (0, 0)] := by decide +kernel

/-- Chapter 12, Table 12.12: the completion record. -/
theorem test_completion_record :
    recordBytes 0x7A31C 0 5 1 3 37 1234603 1234550 0 =
      wordsOf [0x7A31C, 0, 0x01050000, 0x00250003, 0x12D6AB, 0, 0x12D676, 0] := by decide +kernel

/-- Chapter 14 (R305): the counts of codes 0x0101 and 0x0802 in MG_FSUM. -/
theorem test_summary :
    ({ served with mg := { served.mg with sums := [(0, 7), (113, 9)] } } : State).bar0Word .bar0 0xB000 = 7 ∧
    ({ served with mg := { served.mg with sums := [(0, 7), (113, 9)] } } : State).bar0Word .bar0 0xB1C4 = 9 := by decide +kernel
/-- Chapter 19: ID_IDENT of a CG-48A, and the SOURCE of physical core 0x244F2. -/
theorem test_ident : served.bar0Word .monitor 0 = 0x4A43480A := by decide +kernel
/-- Chapter 20: CX_CRJ of pair 2, handle 12, core (0, 80). -/
theorem test_crj : crjWord (640 * 80) 12 2 = 0x8C000050#32 := by decide +kernel

/-- SHA-256 of "abc", from its standard. -/
theorem test_sha256 :
    sha256 [0x61, 0x62, 0x63] = 0xBA7816BF8F01CFEA414140DE5DAE2223B00361A396177A9CB410FF61F20015AD#256 := by decide +kernel

/-! ## The queue -/

/-- Each check of the operands refuses a command that is out of its range (R11, R176, R216, R310, Table 12.1). -/
theorem test_ill_formed :
    (Instr.stop { cx := 0, cy := 480 } nop).wf = false ∧ (Instr.meshNotice { cx := 640, cy := 0 } 0).wf = false ∧
    (Instr.reduceAddPacket c0 { cx := 0, cy := 511 }).wf = false ∧ (Instr.voltageDroop 48 10).wf = false ∧
    (Instr.queueCreate 65).wf = false ∧ (Instr.attendComplete 192).wf = false ∧ (Instr.linkDown 7 0).wf = false ∧
    (Instr.codewordGroupRx 0 { group1 with uncorr := 5, corrected := 3 }).wf = true ∧
    (Instr.codewordGroupRx 0 { group1 with uncorr := 5, corrected := 4 }).wf = false ∧
    (Instr.codewordGroupRx 0 { group1 with data := List.replicate 5121 0 }).wf = false := by decide +kernel

/-- No row of the table has bits; the queue stays as it is. -/
theorem test_no_word : decodeTableWord 32 5 = none ∧ (State.withFetchWord State.reset 32 5).pending = [] := by decide
/-- On an empty queue one count of the counter passes. -/
theorem test_idle : (match step { served with tcb := { running := true, now := 41 } } with | .next t => t.tcb.now | _ => 0) = 42 := by decide +kernel

/-- Boundaries of the reset values the spec gives. -/
theorem test_reset :
    State.reset.tcb.now = 0 ∧ (State.reset.core 0).lenOk = true ∧ (State.reset.ctx 63).st = .free ∧ (State.reset.ctx 0).period = 50000 := by
  decide +kernel
end Sys2Proof.Tests
end

section
/-! Host register writes, SMBus reads and recovery: what a write at each offset does, clause by clause. -/
namespace Sys2Proof.Machine

open Sys2Proof

/-! ## Configuration events change rings and host memory only (R388) -/

@[simp] theorem State.cfgPf_tcb (s : State) (code space off v : Nat) : (s.cfgPf code space off v).tcb = s.tcb := State.postPf_tcb ..
@[simp] theorem State.cfgPf_fs (s : State) (code space off v : Nat) : (s.cfgPf code space off v).fs = s.fs := State.postPf_fs ..
@[simp] theorem State.cfgPf_panel (s : State) (code space off v : Nat) : (s.cfgPf code space off v).panel = s.panel := State.postPf_panel ..
@[simp] theorem State.cfgPf_ctxs (s : State) (code space off v : Nat) : (s.cfgPf code space off v).ctxs = s.ctxs := State.postPf_ctxs ..
@[simp] theorem State.cfgCtx_panel (s : State) (c code space off v : Nat) : (s.cfgCtx c code space off v).panel = s.panel := State.postCtx_panel ..
@[simp] theorem State.cfgCtx_ports (s : State) (c code space off v : Nat) : (s.cfgCtx c code space off v).ports = s.ports := State.postCtx_ports ..
@[simp] theorem State.cfgCtx_ctx (s : State) (c code space off v d : Nat) : (s.cfgCtx c code space off v).ctx d = s.ctx d := State.postCtx_ctx ..
@[simp] theorem State.cfgCtx_port (s : State) (c code space off v p : Nat) : (s.cfgCtx c code space off v).port p = s.port p := State.postCtx_port ..

/-- A sticky bit of CX_CFGST is one more bit of it. -/
@[simp] theorem State.cfgSticky_ctx_self (s : State) (c bit code space off v : Nat) :
    (s.cfgSticky c bit code space off v).ctx c = { s.ctx c with cfgst := (s.ctx c).cfgst ||| BitVec.ofNat 3 (2 ^ bit) } := by
  simp [State.cfgSticky]

/-! ## Changes of one context -/

/-- From `s` to `t` no context but `c` changes, and neither the panel nor a stack port does. -/
def OnlyContext (c : Nat) (s t : State) : Prop := (∀ d, d ≠ c → t.ctx d = s.ctx d) ∧ t.panel = s.panel ∧ t.ports = s.ports

theorem OnlyContext.refl (c : Nat) (s : State) : OnlyContext c s s := ⟨fun _ _ => rfl, rfl, rfl⟩

theorem OnlyContext.trans {c : Nat} {s t u : State} (h : OnlyContext c s t) (k : OnlyContext c t u) : OnlyContext c s u :=
  ⟨fun d hd => (k.1 d hd).trans (h.1 d hd), k.2.1.trans h.2.1, k.2.2.trans h.2.2⟩

theorem OnlyContext.modCtx (s : State) (c : Nat) (f : Context → Context) : OnlyContext c s (s.modCtx c f) :=
  ⟨fun _ hd => s.ctx_modCtx_ne hd f, rfl, rfl⟩

theorem OnlyContext.cfgSticky (s : State) (c bit code space off v : Nat) : OnlyContext c s (s.cfgSticky c bit code space off v) :=
  (OnlyContext.modCtx s c _).trans ⟨fun _ _ => State.cfgCtx_ctx .., State.cfgCtx_panel .., State.cfgCtx_ports ..⟩

/-! ## Where a register write goes (R7, R346, R360, R380) -/

theorem State.barLive_iff (s : State) : s.barLive = true ↔ s.mg.ready = true ∧ s.link.perst = false := by
  simp [State.barLive]

theorem exec_registerWrite_control (off v : BitVec 32) (be : BitVec 4) (s : State) :
    exec (.registerWrite .control off v be) s = .next (s.controlWrite off.toNat v) := rfl

/-- An access that is not aligned, or under PERST#, does nothing (R7, log 76). -/
theorem exec_registerWrite_ignored {space : Space} {off : BitVec 32} {s : State} (v : BitVec 32) (be : BitVec 4)
    (hsp : space ≠ .control) (h : off.toNat % 4 ≠ 0 ∨ s.link.perst = true) :
    exec (.registerWrite space off v be) s = .next s := by
  simp only [exec, execRegisterWrite, if_neg hsp, if_pos h]

theorem exec_registerWrite_partial {space : Space} {off : BitVec 32} {be : BitVec 4} {s : State} (v : BitVec 32)
    (hsp : space ≠ .control) (ha : off.toNat % 4 = 0) (hl : s.barLive = true) (hb : be ≠ 0xF#4) :
    exec (.registerWrite space off v be) s = .next { s with link := { s.link with badwr := satAdd s.link.badwr 1 } } := by
  have hp := (s.barLive_iff.mp hl).2
  simp only [exec, execRegisterWrite, if_neg hsp, ha, hp, hl, if_pos hb]
  simp

theorem exec_registerWrite_pf0 {off : BitVec 32} {s : State} (v : BitVec 32) (ha : off.toNat % 4 = 0) (hl : s.barLive = true) :
    exec (.registerWrite .pf0 off v 0xF#4) s = .next (s.bar0Write off.toNat v) := by
  have hp := (s.barLive_iff.mp hl).2
  simp [exec, execRegisterWrite, ha, hp]

theorem exec_registerWrite_vf0 {n : Nat} {off : BitVec 32} {s : State} (v : BitVec 32) (hn : 1 ≤ n ∧ n ≤ 64)
    (ha : off.toNat % 4 = 0) (hl : s.barLive = true) :
    exec (.registerWrite (.vf0 n) off v 0xF#4) s = .next (s.vfWrite n off.toNat v) := by
  have hp := (s.barLive_iff.mp hl).2
  simp [exec, execRegisterWrite, ha, hp, hn]

theorem exec_registerWrite_vf2 {n : Nat} {off : BitVec 32} {s : State} (v : BitVec 32) (hn : 1 ≤ n ∧ n ≤ 64)
    (ha : off.toNat % 4 = 0) (ho : off.toNat < 0x40000) (hl : s.barLive = true) :
    exec (.registerWrite (.vf2 n) off v 0xF#4) s = .next (s.recordWrite (n - 1) off.toNat v) := by
  have hp := (s.barLive_iff.mp hl).2
  simp [exec, execRegisterWrite, ha, hp, hn, hl, ho]

/-- The identity words of BAR0, and the words that are not there, keep what they read (R7). -/
theorem State.bar0Write_readOnly (s : State) {off : Nat} (v : BitVec 32) (ho : off < 0x1000) : s.bar0Write off v = s := by
  simp only [State.bar0Write]
  rw [if_neg (by omega)]
  split
  · rfl
  · iterate 7 rw [if_neg (by omega)]

section
variable {s : State} (v : BitVec 32) (hl : s.barLive = true) (hr : s.sec.inRecovery = false)
include hl hr

theorem State.bar0Write_tc {o : Nat} (ho : o < 0x100) : s.bar0Write (0x1000 + o) v = s.tcWrite o v := by
  simp only [State.bar0Write]
  rw [if_neg (by omega), if_neg (by simp [hl, hr]), if_pos (by omega), Nat.add_sub_cancel_left]

theorem State.bar0Write_page {c o : Nat} (hc : c < 64) (ho : o < 0x100) :
    s.bar0Write (0x20000 + 256 * c + o) v = s.pageWrite c 0 (0x20000 + 256 * c) o v := by
  have hq : (0x20000 + 256 * c + o - 0x20000) / 0x100 = c := by omega
  have hm : (0x20000 + 256 * c + o) % 0x100 = o := by omega
  simp only [State.bar0Write]
  rw [if_neg (by omega), if_neg (by simp [hl, hr]), if_neg (by omega), if_neg (by omega), if_neg (by omega), if_neg (by omega),
    if_pos (by omega), hq, hm, Nat.add_sub_cancel]

end

theorem State.vfWrite_page {s : State} (v : BitVec 32) (hl : s.barLive = true) (c : Nat) {o : Nat} (ho : o < 0x100) :
    s.vfWrite (c + 1) (0x2000 + o) v = s.pageWrite c 1 0x2000 o v := by
  simp only [State.vfWrite]
  rw [if_neg (by simp [hl]), if_neg (by omega), if_neg (by omega), if_pos (by omega), Nat.add_sub_cancel_left, Nat.add_sub_cancel]

/-! ## The time counter's registers (R22) -/

theorem State.tcWrite_sec_same (s : State) : s.tcWrite 12 s.tcb.sec = s := by simp [State.tcWrite]

theorem State.tcWrite_sec_idle {s : State} (v : BitVec 32) (h : s.anyCtx = false) :
    s.tcWrite 12 v = { s with tcb := { s.tcb with sec := v } } := by
  by_cases hv : v = s.tcb.sec
  · subst hv; exact s.tcWrite_sec_same
  · simp [State.tcWrite, hv, h, State.setTcb]

theorem State.tcWrite_sec_busy {s : State} {v : BitVec 32} (h : s.anyCtx = true) (hv : v ≠ s.tcb.sec) :
    s.tcWrite 12 v = (s.setTcb (fun b => { b with wwb := true })).cfgPf 0x8001 0 0x100C v.toNat := by
  simp [State.tcWrite, hv, h]

/-- TC_CTRL of a module that manages no ring set. -/
theorem State.tcWrite_arm_idle {s : State} (v : BitVec 32) (h : s.anyCtx = false) (hm : s.ep.role ≠ 2) :
    s.tcWrite 8 v = { s with tcb := { s.tcb with arm := v.getLsbD 0 } } := by
  by_cases hv : v[0] = s.tcb.arm
  · simp [State.tcWrite, hv, hm]
  · simp [State.tcWrite, hv, hm, h, State.setTcb]

theorem State.tcWrite_status (s : State) (v : BitVec 32) : s.tcWrite 16 v = { s with tcb := { s.tcb with
    wwb := s.tcb.wwb && !v.getLsbD 10, refLost := s.tcb.refLost && !v.getLsbD 9, pulseErr := s.tcb.pulseErr && !v.getLsbD 8 } } := rfl

/-! ## CX_FRAME (R34, R385, R386) -/

theorem State.frameWrite_onlyContext (s : State) (c space off : Nat) (v : BitVec 32) : OnlyContext c s (s.frameWrite c space off v) := by
  simp only [State.frameWrite]
  split
  · exact .refl c s
  · split
    · exact .cfgSticky ..
    · split
      · split
        · exact (OnlyContext.modCtx s c _).trans (.modCtx ..)
        · exact .modCtx ..
      · exact (OnlyContext.modCtx s c _).trans (.cfgSticky ..)

section
variable {s : State} {c : Nat} {v : BitVec 32} (space off : Nat)

theorem State.frameWrite_same (hp : fld v.toNat 23 0 = (s.ctx c).period) (hf : fld v.toNat 26 24 = (s.ctx c).floor) :
    s.frameWrite c space off v = s := if_pos ⟨hp, hf⟩

variable (hd : ¬(fld v.toNat 23 0 = (s.ctx c).period ∧ fld v.toNat 26 24 = (s.ctx c).floor))
include hd

theorem State.frameWrite_busy (hb : (s.ctx c).frameBusy = true) :
    (s.frameWrite c space off v).ctx c = { s.ctx c with cfgst := (s.ctx c).cfgst ||| 1#3 } := by
  simp [State.frameWrite, if_neg hd, hb]

theorem State.frameWrite_inRange (hb : (s.ctx c).frameBusy = false) (hp : periodOk (fld v.toNat 23 0) = true) :
    ((s.frameWrite c space off v).ctx c).floor = fld v.toNat 26 24 ∧
    ((s.frameWrite c space off v).ctx c).period = fld v.toNat 23 0 ∧ ((s.frameWrite c space off v).ctx c).cfgst = (s.ctx c).cfgst := by
  simp only [State.frameWrite, if_neg hd, hb, hp, if_true, Bool.false_eq_true, if_false]
  split
  · simp [State.restartTicks]
  · simp

theorem State.frameWrite_outOfRange (hb : (s.ctx c).frameBusy = false) (hp : periodOk (fld v.toNat 23 0) = false) :
    ((s.frameWrite c space off v).ctx c).floor = fld v.toNat 26 24 ∧
    ((s.frameWrite c space off v).ctx c).period = (s.ctx c).period ∧
    ((s.frameWrite c space off v).ctx c).cfgst = (s.ctx c).cfgst ||| 2#3 := by
  simp [State.frameWrite, if_neg hd, hb, hp]

/-- An idle CX_FRAME takes its FLOOR, and its PERIOD where that is in range. -/
theorem State.frameWrite_idle (hb : (s.ctx c).frameBusy = false) :
    ((s.frameWrite c space off v).ctx c).floor = fld v.toNat 26 24 ∧
    (4000 ≤ fld v.toNat 23 0 → fld v.toNat 23 0 ≤ 10000000 → ((s.frameWrite c space off v).ctx c).period = fld v.toNat 23 0 ∧
      ((s.frameWrite c space off v).ctx c).cfgst = (s.ctx c).cfgst) ∧
    (¬(4000 ≤ fld v.toNat 23 0 ∧ fld v.toNat 23 0 ≤ 10000000) → ((s.frameWrite c space off v).ctx c).period = (s.ctx c).period ∧
      ((s.frameWrite c space off v).ctx c).cfgst = (s.ctx c).cfgst ||| 2#3) := by
  have hrange : periodOk (fld v.toNat 23 0) = true ↔ 4000 ≤ fld v.toNat 23 0 ∧ fld v.toNat 23 0 ≤ 10000000 := by simp [periodOk]
  by_cases hp : periodOk (fld v.toNat 23 0) = true
  · obtain ⟨hfloor, htaken⟩ := State.frameWrite_inRange space off hd hb hp
    exact ⟨hfloor, fun _ _ => htaken, fun hn => absurd (hrange.mp hp) hn⟩
  · obtain ⟨hfloor, hkept⟩ := State.frameWrite_outOfRange space off hd hb (Bool.eq_false_iff.mpr hp)
    exact ⟨hfloor, fun h1 h2 => absurd (hrange.mpr ⟨h1, h2⟩) hp, fun _ => hkept⟩

end

/-! ## Other words of a context-setup page (R8, R387) -/

theorem State.pageWrite_numst (s : State) (c space base : Nat) (v : BitVec 32) : s.pageWrite c space base 0x44 v =
    s.modCtx c (fun x => { x with numst := x.numst &&& ~~~(BitVec.ofNat 5 v.toNat) }) := rfl

theorem State.pageWrite_gap (s : State) (c space base : Nat) (v : BitVec 32) : s.pageWrite c space base 0x50 v =
    s.modCtx c (fun x => { x with shadow := { x.shadow with gap := some (BitVec.ofNat 16 v.toNat) } }) := rfl

/-! ## Queue-pair records (R143, R384) -/

theorem State.setPair_ctx (s : State) (p c q d : Nat) (k : Pair) : (s.setPair p c q k).ctx d = s.ctx d := rfl
theorem State.setPair_panel (s : State) (p c q : Nat) (k : Pair) : (s.setPair p c q k).panel = s.panel := rfl
@[simp] theorem State.setPair_pair (s : State) (p c q : Nat) (k : Pair) : ((s.setPair p c q k).port p).pair c q = k := by
  simp [State.setPair, StackPort.setPair, StackPort.pair]

section
variable (s : State) (p c q off : Nat) (v : BitVec 32) (f : Pair → Pair)

theorem State.pairStatic_same (ok : Bool) : s.pairStatic p c q off v false ok f = s := rfl

/-- A static field of a pair that changes to a value in range: written where the pair is idle, and kept with WWB set where it is busy. -/
theorem State.pairStatic_changes :
    (∀ d, (s.pairStatic p c q off v true true f).ctx d = s.ctx d) ∧ (s.pairStatic p c q off v true true f).panel = s.panel ∧
    ((s.pairStatic p c q off v true true f).port p).pair c q =
      if ((s.port p).pair c q).busy then { (s.port p).pair c q with wwb := true } else f ((s.port p).pair c q) := by
  simp only [State.pairStatic, Bool.not_true, Bool.false_eq_true, if_false, if_true]
  split
  · simp [State.setPair_ctx, State.setPair_panel]
  · simp [State.setPair_ctx, State.setPair_panel]

end

/-! The offset of a word in the queue-status window names its port, its pair and the word (R143). -/

section
variable {s : State} {c p q off : Nat} (v : BitVec 32) (hp : off / 8192 = p) (hq : off / 32 % 256 = q) (h : (s.port p).hasPair c q = true)
include hp hq h

theorem State.recordWrite_idle (ho : off % 32 = 4) : s.recordWrite c off v =
    s.modCtx c (fun x => { x with shadow := { x.shadow with pairs := x.shadow.pairs ++ [(p, q, 2, 0, v)] } }) := by
  simp [State.recordWrite, hp, hq, ho, h]

theorem State.recordWrite_rbase (ho : off % 32 = 8) : s.recordWrite c off v =
    s.pairStatic p c q off v (decide (BitVec.ofNat 24 v.toNat ≠ ((s.port p).pair c q).rbase)) true
      (fun k => { k with rbase := BitVec.ofNat 24 v.toNat }) := by
  simp [State.recordWrite, hp, hq, ho, h]

end

/-! ## The power cap and SMBus (R338, R365) -/

theorem State.writePcap_inRange {cap : Nat} (s : State) (v : Nat) (h1 : 96 ≤ cap) (h2 : cap ≤ 300) :
    s.writePcap cap v = { s with fs := { s.fs with pcap := BitVec.ofNat 9 cap } } := if_pos ⟨h1, h2⟩

theorem State.writePcap_outOfRange {cap : Nat} (s : State) (v : Nat) (h : ¬(96 ≤ cap ∧ cap ≤ 300)) :
    (s.writePcap cap v).fs = s.fs ∧ (s.writePcap cap v).ctxs = s.ctxs ∧ (s.writePcap cap v).panel = s.panel := by
  simp [State.writePcap, if_neg h]

theorem exec_fsPcap {s : State} (v : BitVec 32) (hl : s.barLive = true) :
    exec (.fsPcap v) s = .next (s.writePcap (v.toNat % 512) v.toNat) := by
  simp [exec, execFsPcap, atBar, hl]

theorem exec_smbusPcap {s : State} (v : BitVec 16) (hp : s.mg.powered = true) :
    exec (.smbusPcap v) s = .next (s.writePcap v.toNat v.toNat) := by
  simp [exec, execSmbusPcap, hp]

/-- No page of a context is served on SMBus, so a read there latches the time counter only (R23). -/
theorem State.latchRead_served (s : State) (p : Path) {o : Nat} (h : smbServed o = true) :
    s.latchRead p o = { s with tcb := (s.latchRead p o).tcb } ∧ (s.latchRead p o).tcb.now = s.tcb.now := by
  have ho : o < 0x20000 := by
    simp only [smbServed, Bool.or_eq_true, Bool.and_eq_true, decide_eq_true_eq] at h
    omega
  simp only [State.latchRead, if_neg (show ¬(0x20000 ≤ o ∧ o < 0x24000 ∧ o % 0x100 = 0x28) by omega)]
  split
  · exact ⟨rfl, rfl⟩
  · exact ⟨rfl, rfl⟩

section
variable {s : State} {off : BitVec 32} (hp : s.mg.powered = true)
include hp

theorem exec_smbusRead_misaligned (ha : off.toNat % 4 ≠ 0) :
    exec (.smbusRead off) s = .next { s with smb := { s.smb with status := 2, value := 0 } } := by
  simp [exec, execSmbusRead, hp, ha]

theorem exec_smbusRead_notServed (ha : off.toNat % 4 = 0) (h : smbServed off.toNat = false) :
    exec (.smbusRead off) s = .next { s with smb := { s.smb with status := 1, value := 0 } } := by
  simp [exec, execSmbusRead, hp, ha, h]

theorem exec_smbusRead_served (ha : off.toNat % 4 = 0) (h : smbServed off.toNat = true) :
    exec (.smbusRead off) s = .next { s.latchRead .smbus off.toNat with
      smb := { (s.latchRead .smbus off.toNat).smb with status := 0, value := BitVec.ofNat 32 (s.bar0Word .smbus off.toNat) } } := by
  simp [exec, execSmbusRead, hp, ha, h]

end

/-! ## The reset into recovery keeps the identity block (R314, R346) -/

theorem State.retainCtx_sec (s : State) (c : Nat) : (s.retainCtx c).sec = s.sec := by
  refine List.foldlRecOn (motive := fun t : State => t.sec = s.sec) _ _ rfl (fun t ht p _ => ?_)
  split
  · exact (State.logFault_sec ..).trans ht
  · exact ht

theorem State.retainAll_sec (s : State) : s.retainAll.sec = s.sec :=
  List.foldlRecOn (motive := fun t : State => t.sec = s.sec) _ _ rfl (fun t ht c _ => (t.retainCtx_sec c).trans ht)

theorem State.leaveUp_sec (s : State) (p st : Nat) : (s.leaveUp p st).sec = s.sec := by
  simp only [State.leaveUp]
  split
  · simp
  · split <;> simp

theorem State.portsDown_sec (s : State) : s.portsDown.sec = s.sec := by
  refine List.foldlRecOn (motive := fun t : State => t.sec = s.sec) _ _ rfl (fun t ht p _ => ?_)
  split
  · exact (t.leaveUp_sec p 0).trans ht
  · exact ht

/-- A module reset ends every context, and keeps the cause, flash and the owners' keys. -/
theorem State.moduleReset_keeps {s : State} (cause : Nat) (hp : s.mg.powered = true) :
    (s.moduleReset cause).ctxs = [] ∧ (s.moduleReset cause).mg.rstCause = BitVec.ofNat 8 cause ∧
    (s.moduleReset cause).sec = s.sec.afterReset := by
  simp [State.moduleReset, hp, Mgmt.afterReset, State.portsDown_sec, State.retainAll_sec]

theorem exec_recoveryEnter_ignored {s : State} {v : BitVec 32} (h : v ≠ 0xA5A50005#32 ∨ s.link.perst = true) :
    exec (.recoveryEnter v) s = .next s := by
  simp only [exec, execRecoveryEnter]
  rw [if_neg]
  rintro ⟨hv, -, hl⟩
  rcases h with h | h
  · exact h hv
  · simp [hl] at h

theorem exec_recoveryEnter {s : State} (hp : s.mg.powered = true) (hl : s.link.perst = false) :
    exec (.recoveryEnter 0xA5A50005#32) s = .next s.toRecovery := by
  simp [exec, execRecoveryEnter, hp, hl]

/-! ## Recovery transfers (R347, R348) -/

theorem exec_recoveryTransfer_ignored {s : State} (dma : Dma) (flashOk : Bool) (h : s.sec.inRecovery = false ∨ s.sec.rcvState ≠ 1) :
    exec (.recoveryTransfer dma flashOk) s = .next s := by
  simp only [exec, execRecoveryTransfer]
  rw [if_pos]
  simpa using h

/-- What a transfer fetches: RCV_LEN bytes at the address of RCV_HI and RCV_LO, in units of 64. -/
def State.rcvBytes (s : State) : List Byte :=
  s.hostRead (2 ^ 32 * s.sec.rcvHi.toNat + s.sec.rcvLo.toNat / 64 * 64) s.sec.rcvLen.toNat

section
variable {s : State} (flashOk : Bool) (hr : s.sec.inRecovery = true) (hs : s.sec.rcvState = 1)
include hr hs

theorem exec_recoveryTransfer_abort (off : Nat) : exec (.recoveryTransfer (.abort off) flashOk) s =
    .next (({ s with link := { s.link with aborts := satAdd s.link.aborts 1 } }).rcvFail 6) := by
  simp [exec, execRecoveryTransfer, hr, hs]

theorem exec_recoveryTransfer_image (hk : s.sec.rcvKind = false) :
    exec (.recoveryTransfer .ok flashOk) s = .next (s.rcvImage s.rcvBytes s.sec.rcvLen.toNat flashOk) := by
  simp [exec, execRecoveryTransfer, hr, hs, hk, State.rcvBytes]

theorem exec_recoveryTransfer_badRecord {code : Nat} (hk : s.sec.rcvKind = true) (hl : s.sec.rcvLen.toNat = 0xA8)
    (ho : s.ownerRecord s.rcvBytes = .inl code) : exec (.recoveryTransfer .ok flashOk) s = .next (s.rcvFail code) := by
  simp only [State.rcvBytes, hl, Nat.reducePow] at ho
  simp [exec, execRecoveryTransfer, hr, hs, hk, hl, ho]

theorem exec_recoveryTransfer_record {os : Table Owner} (hk : s.sec.rcvKind = true) (hl : s.sec.rcvLen.toNat = 0xA8)
    (ho : s.ownerRecord s.rcvBytes = .inr os) :
    exec (.recoveryTransfer .ok flashOk) s = .next ({ s with sec := { s.sec with owners := os } }).boot := by
  simp only [State.rcvBytes, hl, Nat.reducePow] at ho
  simp [exec, execRecoveryTransfer, hr, hs, hk, hl, ho]

end

section
variable {s : State} {m : List Byte} {len : Nat} (hl : len = 0x80 + leAt m 0x0C 4 + 64)
include hl

theorem State.rcvImage_good (h : s.imageCheck m = none) :
    s.rcvImage m len true = ({ s with sec := { s.sec with flash := m, flashBad := false } }).handOff := by
  simp [State.rcvImage, hl, h]

theorem State.rcvImage_damaged (h : s.imageCheck m = none) : s.rcvImage m len false =
    ({ s with sec := { s.sec with flash := Config.damagedFlash s.free, flashBad := true }, free := s.free + 1 }).rcvFail 5 := by
  simp [State.rcvImage, hl, h]

theorem State.rcvImage_bad {code : Nat} (flashOk : Bool) (h : s.imageCheck m = some code) : s.rcvImage m len flashOk = s.rcvFail code := by
  simp [State.rcvImage, hl, h]

end

/-- The boot ROM writes neither flash nor the owners' keys (R344 to R346). -/
theorem State.boot_keeps (s : State) : s.boot.sec.owners = s.sec.owners ∧ s.boot.sec.flash = s.sec.flash := by
  have hc : s.flashCheck.2.sec = s.sec := by
    simp only [State.flashCheck]
    split <;> rfl
  simp only [State.boot]
  split
  · simp [State.handOff, hc]
  · simp [State.enterRecovery, hc]

/-! ## The registers the statement names -/

section
variable {s : State} (v : BitVec 32) (hl : s.barLive = true) (hr : s.sec.inRecovery = false)
include hl hr

theorem exec_write_tc {off : BitVec 32} {o : Nat} (ho : o < 0x100) (ha : o % 4 = 0) (h : off.toNat = 0x1000 + o) :
    exec (.registerWrite .pf0 off v 0xF#4) s = .next (s.tcWrite o v) := by
  rw [exec_registerWrite_pf0 v (by omega) hl, h, State.bar0Write_tc v hl hr ho]

theorem exec_write_page {off : BitVec 32} {c o : Nat} (hc : c < 64) (ho : o < 0x100) (ha : o % 4 = 0)
    (h : off.toNat = 0x20000 + 256 * c + o) :
    exec (.registerWrite .pf0 off v 0xF#4) s = .next (s.pageWrite c 0 (0x20000 + 256 * c) o v) := by
  rw [exec_registerWrite_pf0 v (by omega) hl, h, State.bar0Write_page v hl hr hc ho]

/-- CX_FRAME of context `c` (Table 20.5). -/
theorem answers_write_frame {c : Nat} (hc : c < 64) {P : State → Prop} (h : P (s.frameWrite c 0 (0x20000 + 256 * c + 0x20) v)) :
    Answers (.registerWrite .pf0 (BitVec.ofNat 32 (0x20020 + 256 * c)) v 0xF#4) s (fun t => OnlyContext c s t ∧ P t) :=
  ⟨_, exec_write_page v hl hr hc (o := 0x20) (by decide) (by decide) (by bv_omega), s.frameWrite_onlyContext .., h⟩

/-- CX_NUMST of context `c`: each bit written 1 is cleared (R8). -/
theorem answers_write_numst {c : Nat} (hc : c < 64) :
    Answers (.registerWrite .pf0 (BitVec.ofNat 32 (0x20044 + 256 * c)) v 0xF#4) s (fun t => OnlyContext c s t ∧
      t.ctx c = { s.ctx c with numst := (s.ctx c).numst &&& ~~~(BitVec.ofNat 5 v.toNat) }) := by
  refine ⟨_, exec_write_page v hl hr hc (o := 0x44) (by decide) (by decide) (by bv_omega), ?_⟩
  rw [State.pageWrite_numst]
  exact ⟨.modCtx s c _, s.ctx_modCtx_self c _⟩

end

section
variable {s : State} (v : BitVec 32) (hl : s.barLive = true) {c : Nat} (hc : c < 64)
include hl hc

/-- CX_GAP through the context's own function is staged (R387). -/
theorem answers_write_gap : Answers (.registerWrite (.vf0 (c + 1)) 0x2050 v 0xF#4) s (fun t => OnlyContext c s t ∧
    t.ctx c = { s.ctx c with shadow := { (s.ctx c).shadow with gap := some (BitVec.ofNat 16 v.toNat) } }) := by
  refine ⟨_, exec_registerWrite_vf0 v (by omega) (by decide) hl, ?_⟩
  have hoff : (0x2050 : BitVec 32).toNat = 0x2000 + 0x50 := by decide
  rw [hoff, State.vfWrite_page v hl c (by decide), State.pageWrite_gap]
  exact ⟨.modCtx s c _, s.ctx_modCtx_self c _⟩

variable {port : BitVec 5} {q : BitVec 8} (hq : (s.port port.toNat).hasPair c q.toNat = true)

theorem exec_write_record {o : Nat} (ho : o < 32) (ha : o % 4 = 0) :
    exec (.registerWrite (.vf2 (c + 1)) (BitVec.ofNat 32 (8192 * port.toNat + 32 * q.toNat + o)) v 0xF#4) s =
      .next (s.recordWrite c (8192 * port.toNat + 32 * q.toNat + o) v) := by
  have hoff : (BitVec.ofNat 32 (8192 * port.toNat + 32 * q.toNat + o)).toNat = 8192 * port.toNat + 32 * q.toNat + o := by bv_omega
  rw [exec_registerWrite_vf2 v (by omega) (by omega) (by omega) hl, hoff, Nat.add_sub_cancel]

include hq

/-- IDLE of a pair is a live field: it is staged (R384, R387). -/
theorem answers_write_idle :
    Answers (.registerWrite (.vf2 (c + 1)) (BitVec.ofNat 32 (8192 * port.toNat + 32 * q.toNat + 4)) v 0xF#4) s (fun t =>
      (∀ d, d ≠ c → t.ctx d = s.ctx d) ∧ t.panel = s.panel ∧ t.ports = s.ports ∧
      (t.ctx c).shadow.pairs = (s.ctx c).shadow.pairs ++ [(port.toNat, q.toNat, 2, 0, v)]) := by
  refine ⟨_, exec_write_record v hl hc (by decide) (by decide), ?_⟩
  rw [State.recordWrite_idle v (by omega) (by omega) hq (by omega)]
  exact ⟨fun d hd => s.ctx_modCtx_ne hd _, rfl, rfl, by rw [State.ctx_modCtx_self]⟩

/-- RBASE of a pair is a static field: it keeps its value while the pair is busy (R143, R385). -/
theorem answers_write_rbase :
    Answers (.registerWrite (.vf2 (c + 1)) (BitVec.ofNat 32 (8192 * port.toNat + 32 * q.toNat + 8)) v 0xF#4) s (fun t =>
      (∀ d, t.ctx d = s.ctx d) ∧ t.panel = s.panel ∧
      (BitVec.ofNat 24 v.toNat = ((s.port port.toNat).pair c q.toNat).rbase → t = s) ∧
      (BitVec.ofNat 24 v.toNat ≠ ((s.port port.toNat).pair c q.toNat).rbase → (t.port port.toNat).pair c q.toNat =
        if ((s.port port.toNat).pair c q.toNat).busy then { (s.port port.toNat).pair c q.toNat with wwb := true }
        else { (s.port port.toNat).pair c q.toNat with rbase := BitVec.ofNat 24 v.toNat })) := by
  refine ⟨_, exec_write_record v hl hc (by decide) (by decide), ?_⟩
  rw [State.recordWrite_rbase v (by omega) (by omega) hq (by omega)]
  by_cases hv : BitVec.ofNat 24 v.toNat = ((s.port port.toNat).pair c q.toNat).rbase
  · rw [decide_eq_false (not_not.mpr hv)]
    exact ⟨fun _ => rfl, rfl, fun _ => rfl, fun hn => absurd hv hn⟩
  · rw [decide_eq_true hv]
    obtain ⟨hctx, hpanel, hpair⟩ := s.pairStatic_changes port.toNat c q.toNat (8192 * port.toNat + 32 * q.toNat + 8) v
      (fun k => { k with rbase := BitVec.ofNat 24 v.toNat })
    exact ⟨hctx, hpanel, fun he => absurd he hv, fun _ => hpair⟩

end

/-! ## Control messages (R22) -/

theorem State.controlWrite_ignored {s : State} {off : BitVec 32} (v : BitVec 32)
    (h : s.ep.role ≠ 1 ∨ s.mg.powered = false ∨ (off ≠ 0x1008#32 ∧ off ≠ 0x100C#32)) : s.controlWrite off.toNat v = s := by
  refine if_neg ?_
  rintro ⟨hrole, hpow, hoff⟩
  rcases h with h | h | ⟨h8, hC⟩
  · exact h hrole
  · simp [hpow] at h
  · rcases hoff with e | e
    · exact h8 (BitVec.eq_of_toNat_eq e)
    · exact hC (BitVec.eq_of_toNat_eq e)

theorem State.controlWrite_worker {s : State} {off : Nat} (v : BitVec 32) (hw : s.ep.role = 1) (hp : s.mg.powered = true)
    (ho : off = 0x1008 ∨ off = 0x100C) : s.controlWrite off v = s.tcWrite (off - 0x1000) v := if_pos ⟨hw, hp, ho⟩

/-- Settles O54: each clause is the `exec_` rule of its command followed by the rule of the register it reaches. -/
theorem registersAreReadWrittenAndRecovered : Obligations.RegistersAreReadWrittenAndRecovered := by
  intro s
  refine ⟨fun space off v be => ⟨?_, ?_, ?_, ?_⟩, fun hl hr v => ⟨?_, ?_, ?_, ?_, ?_, fun c hc => ⟨?_, ?_, ?_, ?_, ?_, ?_⟩, ?_, ?_⟩,
    fun hp => ⟨fun off => ⟨?_, ?_, ?_⟩, fun v => ⟨?_, ?_⟩, fun v => ⟨?_, ?_⟩⟩,
    fun dma flashOk => ⟨?_, fun hr hs => ⟨?_, ?_, ?_, ?_, ?_, ?_⟩⟩⟩
  -- Writes that do nothing, or only what their path says.
  · exact fun hsp h => ⟨s, exec_registerWrite_ignored v be hsp h, rfl⟩
  · exact fun h => ⟨_, exec_registerWrite_control off v be s, State.controlWrite_ignored v h⟩
  · intro hw hp ha
    have hm : s.ep.role ≠ 2 := by omega
    refine ⟨⟨_, exec_registerWrite_control .., ?_⟩, ⟨_, exec_registerWrite_control .., ?_⟩⟩
    · exact (State.controlWrite_worker v hw hp (.inr rfl)).trans (State.tcWrite_sec_idle v ha)
    · exact (State.controlWrite_worker v hw hp (.inl rfl)).trans (State.tcWrite_arm_idle v ha hm)
  · exact fun hsp ha hl hb => ⟨_, exec_registerWrite_partial v hsp ha hl hb, rfl⟩
  -- The time counter.
  · exact fun off ho ha => ⟨_, exec_registerWrite_pf0 v ha hl, s.bar0Write_readOnly v ho⟩
  · exact fun ha => ⟨_, exec_write_tc v hl hr (o := 12) (by decide) (by decide) rfl, State.tcWrite_sec_idle v ha⟩
  · rintro rfl
    exact ⟨_, exec_write_tc _ hl hr (o := 12) (by decide) (by decide) rfl, s.tcWrite_sec_same⟩
  · intro ha hv
    refine ⟨_, exec_write_tc v hl hr (o := 12) (by decide) (by decide) rfl, ?_⟩
    rw [State.tcWrite_sec_busy ha hv]
    exact ⟨State.cfgPf_ctxs .., State.cfgPf_panel .., State.cfgPf_tcb ..⟩
  · refine ⟨_, exec_write_tc v hl hr (o := 16) (by decide) (by decide) rfl, ?_⟩
    rw [State.tcWrite_status]
    exact ⟨rfl, rfl⟩
  -- A context's setup page and its pairs.
  · exact fun hp hf => answers_write_frame v hl hr hc (State.frameWrite_same _ _ hp hf)
  · exact fun hd hb => answers_write_frame v hl hr hc (State.frameWrite_busy _ _ hd hb)
  · exact fun hd hb => answers_write_frame v hl hr hc (State.frameWrite_idle _ _ hd hb)
  · exact answers_write_numst v hl hr hc
  · exact answers_write_gap v hl hc
  · exact fun port q hq => ⟨answers_write_idle v hl hc hq, answers_write_rbase v hl hc hq⟩
  -- FS_PCAP, from the host and from SMBus, and SMBus reads.
  · exact fun h1 h2 => ⟨_, exec_fsPcap v hl, s.writePcap_inRange _ h1 h2⟩
  · exact fun h => ⟨_, exec_fsPcap v hl, s.writePcap_outOfRange _ h⟩
  · exact fun ha => ⟨_, exec_smbusRead_misaligned hp ha, rfl, rfl, rfl, rfl⟩
  · exact fun ha h => ⟨_, exec_smbusRead_notServed hp ha h, rfl, rfl, rfl, rfl⟩
  · intro ha h
    obtain ⟨hrest, hnow⟩ := s.latchRead_served .smbus h
    refine ⟨_, exec_smbusRead_served hp ha h, ?_, hnow, rfl, rfl⟩
    rw [hrest]
  · exact fun h1 h2 => ⟨_, exec_smbusPcap v hp, s.writePcap_inRange _ h1 h2⟩
  · exact fun h => ⟨_, exec_smbusPcap v hp, s.writePcap_outOfRange _ h⟩
  -- Recovery.
  · exact fun h => ⟨s, exec_recoveryEnter_ignored h, rfl⟩
  · rintro rfl hl
    obtain ⟨hctx, hcause, hsec⟩ := State.moduleReset_keeps 2 hp
    refine ⟨_, exec_recoveryEnter hp hl, hctx, hcause, rfl, ?_, ?_⟩
    · exact (congrArg Security.flash hsec :)
    · exact (congrArg Security.owners hsec :)
  · exact fun h => ⟨s, exec_recoveryTransfer_ignored dma flashOk h, rfl⟩
  · exact fun off => ⟨_, exec_recoveryTransfer_abort flashOk hr hs off, rfl, rfl⟩
  · rintro hk hi hgood rfl
    have hlen : s.sec.rcvLen.toNat = 0x80 + leAt s.rcvBytes 0x0C 4 + 64 := of_decide_eq_true hi
    refine ⟨_, exec_recoveryTransfer_image true hr hs hk, ?_⟩
    rw [State.rcvImage_good hlen hgood]
    exact ⟨rfl, rfl, rfl, rfl, rfl⟩
  · rintro hk hi hgood rfl
    have hlen : s.sec.rcvLen.toNat = 0x80 + leAt s.rcvBytes 0x0C 4 + 64 := of_decide_eq_true hi
    refine ⟨_, exec_recoveryTransfer_image false hr hs hk, ?_⟩
    rw [State.rcvImage_damaged hlen hgood]
    exact ⟨rfl, hr, rfl, rfl⟩
  · exact fun code hk hi hbad => ⟨_, exec_recoveryTransfer_image flashOk hr hs hk, State.rcvImage_bad (of_decide_eq_true hi) flashOk hbad⟩
  · exact fun code hk hlen ho => ⟨_, exec_recoveryTransfer_badRecord flashOk hr hs hk hlen ho, rfl⟩
  · exact fun os hk hlen ho => ⟨_, exec_recoveryTransfer_record flashOk hr hs hk hlen ho, State.boot_keeps _⟩

end Sys2Proof.Machine
end

section
/-! Input fetches and result copies: which of a function's queues and which bytes they leave as they were. -/
namespace Sys2Proof.Machine

open Sys2Proof

/-! ## Admission queues: neither a record nor a fault touches them (R276, R306) -/

/-- From `s` to `t` no function's admission queue changes. -/
structure SameAdmission (s t : State) : Prop where
  admq : ∀ f, (t.fn f).admq = (s.fn f).admq

theorem SameAdmission.of_fns {s t : State} (h : t.fns = s.fns) : SameAdmission s t :=
  ⟨fun f => by simp only [State.fn, h]⟩

theorem SameAdmission.refl (s : State) : SameAdmission s s := .of_fns rfl

theorem SameAdmission.trans {s t u : State} (h : SameAdmission s t) (k : SameAdmission t u) : SameAdmission s u :=
  ⟨fun f => (k.admq f).trans (h.admq f)⟩

theorem State.setFn_fns (s : State) (f : Nat) (x : HostFn) : (s.setFn f x).fns = s.fns.put f x := rfl

/-- One function gets new values that keep its admission queue. -/
theorem SameAdmission.of_put {s t : State} {f : Nat} {x : HostFn} (h : t.fns = s.fns.put f x)
    (hx : x.admq = (s.fn f).admq) : SameAdmission s t := ⟨fun g => by
  simp only [State.fn, h, Table.get_put]
  split
  next hfg => rw [hx, hfg, State.fn]
  next => rfl⟩

theorem SameAdmission.setFn {s : State} {f : Nat} {x : HostFn} (hx : x.admq = (s.fn f).admq) : SameAdmission s (s.setFn f x) :=
  .of_put (s.setFn_fns f x) hx

theorem State.putEvent_admission (s : State) (f code cls ctx source arg0 arg1 : Nat) :
    SameAdmission s (s.putEvent f code cls ctx source arg0 arg1) := by
  have h : (s.putEvent f code cls ctx source arg0 arg1).fns = s.fns.put f { s.fn f with eqt := (s.fn f).eqt + 1 } := by
    simp only [State.putEvent]
    split <;> simp only [State.setFn_fns, State.hostWrite_fns]
  exact .of_put h rfl

theorem State.flushLost_admission (s : State) (f : Nat) : SameAdmission s (s.flushLost f) := by
  simp only [State.flushLost]
  split
  · exact .refl s
  · refine SameAdmission.trans (.setFn ?_) (State.putEvent_admission ..)
    rfl

theorem State.post_admission (s : State) (f code cls ctx source arg0 arg1 : Nat) :
    SameAdmission s (s.post f code cls ctx source arg0 arg1) := by
  refine (s.flushLost_admission f).trans ?_
  simp only [State.post]
  split
  · exact .setFn rfl
  · exact State.putEvent_admission ..

theorem State.record_admission (s : State) (d : Taken) (status detail epoch lvf frame : Nat) (late rrec : Bool) :
    SameAdmission s (s.record d status detail epoch lvf frame late rrec) := by
  by_cases hm : s.muted d
  · simp only [State.record, hm, if_true]
    exact .setFn rfl
  · have h : (s.record d status detail epoch lvf frame late rrec).fns =
        s.fns.put d.fn { s.fn d.fn with cqt := (s.fn d.fn).cqt + 1, res := (s.fn d.fn).res - 1 } := by
      simp only [State.record, hm, Bool.false_eq_true, if_false]
      split <;> simp only [State.setFn_fns, State.hostWrite_fns]
    exact .of_put h rfl

theorem State.endBatch_admission (s : State) (c : Nat) (b : Batch) (status detail : Nat) (rrec : Bool) :
    SameAdmission s (s.endBatch c b status detail rrec) :=
  (State.record_admission ..).trans (.of_fns rfl)

theorem State.endBatches_admission (s : State) (c status detail : Nat) : SameAdmission s (s.endBatches c status detail) :=
  List.foldlRecOn _ _ (.refl s) fun _ h _ _ => h.trans (State.endBatch_admission ..)

theorem State.tellFault_admission (s : State) (c code source arg0 arg1 : Nat) :
    SameAdmission s (s.tellFault c code source arg0 arg1) :=
  (State.post_admission ..).trans (.of_fns (State.logFault_fns ..))

theorem State.ctxFault_admission (s : State) (c code source arg0 arg1 : Nat) :
    SameAdmission s (s.ctxFault c code source arg0 arg1) := by
  have tell := s.tellFault_admission c code source arg0 arg1
  have stop := tell.trans (State.endBatches_admission _ c 0x0007 code)
  simp only [State.ctxFault]
  split
  iterate 3 exact stop.trans (.of_fns ((State.reportFault_fns ..).trans (State.modCtx_fns ..)))
  exact tell

theorem State.coreFault_admission (s : State) (i code arg0 arg1 : Nat) : SameAdmission s (s.coreFault i code arg0 arg1) := by
  simp only [State.coreFault]
  split
  · exact State.ctxFault_admission ..
  · exact .refl s

theorem State.coreUe_fns (s : State) (i : Nat) : (s.coreUe i).fns = s.fns := by
  simp only [State.coreUe, State.retire, State.retireNo]
  split
  · split
    · rfl
    · exact State.logFault_fns ..
  · rfl

theorem State.dataFault_admission (s : State) (i : Nat) (f : Nat × Nat × Nat) : SameAdmission s (s.dataFault i f) := by
  refine SameAdmission.trans ?_ (State.coreFault_admission ..)
  exact ite_holds (SameAdmission s) (.of_fns (s.coreUe_fns i)) (.refl s)

theorem State.portUe_fns (s : State) (p a : Nat) : (s.portUe p a).fns = s.fns := by
  simp only [State.portUe]
  split
  · rfl
  · exact State.logFault_fns ..

/-! ## A slot's bytes are written with no change of an admission queue (R276, R289) -/

theorem State.windowWrite_admission (s : State) (x p off : Nat) (bs : List Byte) :
    SameAdmission s (s.windowWrite x p off bs) := by
  simp only [State.windowWrite]
  split
  · split
    · exact (SameAdmission.of_fns (s.portUe_fns ..)).trans (State.ctxFault_admission ..)
    · exact .of_fns rfl
  · exact .refl s

theorem State.turnStore_admission (s : State) (i h off : Nat) (bs : List Byte) :
    SameAdmission s (s.turnStore i h off bs) := by
  simp only [State.turnStore]
  split
  · exact .refl s
  · split
    · exact .of_fns rfl
    · exact State.dataFault_admission ..

theorem State.hostFault_admission (s : State) (i : Nat) : SameAdmission s (s.hostFault i) := by
  simp only [State.hostFault]
  split
  · exact State.ctxFault_admission ..
  · exact .refl s

theorem State.hostStore_admission (s : State) (i h off : Nat) (bs : List Byte) : SameAdmission s (s.hostStore i h off bs) :=
  ite_holds (SameAdmission s) (s.hostFault_admission i) (s.turnStore_admission i h off bs)

theorem State.slotWrite_admission (s : State) (c : Nat) (a : IoArea) (slot : Nat) (bs : List Byte) :
    SameAdmission s (s.slotWrite c a slot bs) :=
  ite_holds (SameAdmission s) (State.windowWrite_admission ..)
    (List.foldlRecOn _ _ (.refl s) fun _ h _ _ => h.trans (State.hostStore_admission ..))

/-! ## Bytes of a stack and of the host -/

theorem StackPort.correct_mem (k : StackPort) (a n : Nat) : (k.correct a n).mem = k.mem := by
  simp only [StackPort.correct]
  split <;> rfl

theorem StackPort.overwritten_mem (k : StackPort) (a n : Nat) : (k.overwritten a n).mem = k.mem := by
  simp only [StackPort.overwritten]
  split
  · rfl
  · exact StackPort.correct_mem ..

theorem StackPort.store_mem (k : StackPort) (a : Nat) (bs : List Byte) : (k.store a bs).mem = Cells.write 0 k.mem a bs :=
  StackPort.overwritten_mem ..

/-- A write that its window holds, over atoms that can be read. -/
theorem State.windowWrite_stored {s : State} {x p off a : Nat} {bs : List Byte}
    (ha : (s.port p).addr? x (off : Nat) bs.length = some a) (he : (s.port p).eccMerge a bs.length = none) :
    s.windowWrite x p off bs = s.modPort p (fun k => (k.touch s.tcb.now).store a bs) := by
  simp only [State.windowWrite, ha, he]

theorem State.slotWrite_window {s : State} {c slot a : Nat} {io : IoArea} {bs : List Byte} (hk : io.kind = 0)
    (ha : (s.port io.port).addr? c ((io.off + slot * io.size : Nat) : Int) bs.length = some a)
    (he : (s.port io.port).eccMerge a bs.length = none) :
    s.slotWrite c io slot bs = s.modPort io.port (fun k => (k.touch s.tcb.now).store a bs) :=
  (if_pos hk).trans (State.windowWrite_stored ha he)

theorem State.hostRead_hostWrite {s : State} (a : Nat) (bs : List Byte) (h : Cells.wf 0 s.link.mem = true) :
    (s.hostWrite a bs).hostRead a bs.length = bs := Cells.read_write 0 _ a bs h

/-! ## INPUT_FETCH_DONE (R276) -/

/-- A fetch of `bs` for descriptor `d` has ended: `d` is FETCHED with their digest, and no other descriptor changes. -/
def Taken.fetchedAs (d : Taken) (bs : List Byte) (e : Taken) : Taken :=
  if e.same d then { e with st := .fetched, digest := sha256 bs } else e

theorem Taken.same_refl (d : Taken) : d.same d = true := by simp [Taken.same]

theorem Taken.fetchedAs_self (d : Taken) (bs : List Byte) : d.fetchedAs bs d = { d with st := .fetched, digest := sha256 bs } :=
  if_pos d.same_refl

/-- The admission queue of function `f` once the fetch of `bs` for `d` has ended. -/
def State.endFetch (s : State) (f : Nat) (d : Taken) (bs : List Byte) : State :=
  s.modFn f (fun h => { h with admq := h.admq.map (d.fetchedAs bs) })

theorem State.endFetch_mem {s : State} {f : Nat} {d : Taken} (bs : List Byte) (h : d ∈ (s.fn f).admq) :
    { d with st := .fetched, digest := sha256 bs } ∈ ((s.endFetch f d bs).fn f).admq := by
  rw [State.endFetch, State.fn_modFn_self, ← d.fetchedAs_self bs]
  exact List.mem_map_of_mem h

theorem exec_inputFetchDone_ok {s : State} {c : BitVec 6} {d : Taken} {p : Program}
    (hd : (s.fn (c.toNat + 1)).admq.find? (fun e => e.st == .fetching) = some d) (hp : (s.ctx c.toNat).prog = some p) :
    exec (.inputFetchDone c .ok) s =
      .next ((s.endFetch (c.toNat + 1) d (s.hostRead (d.dword 4) (d.word 6))).slotWrite c.toNat p.inp (d.inSlot.getD 0)
        (s.hostRead (d.dword 4) (d.word 6))) := by
  change execInputFetchDone c .ok s = _
  simp only [execInputFetchDone, hd, hp]
  rfl

/-! ## What reading an output slot leaves (R112, R155) -/

/-- From `s` to `t` contexts, functions, host memory and the bytes of every core and stack stay. -/
structure SameBytes (s t : State) : Prop where
  ctxs : t.ctxs = s.ctxs
  fns : t.fns = s.fns
  link : t.link = s.link
  core : ∀ i, (t.core i).mem = (s.core i).mem
  port : ∀ n, (t.port n).mem = (s.port n).mem

theorem SameBytes.refl (s : State) : SameBytes s s := ⟨rfl, rfl, rfl, fun _ => rfl, fun _ => rfl⟩

theorem SameBytes.trans {s t u : State} (h : SameBytes s t) (k : SameBytes t u) : SameBytes s u :=
  ⟨k.ctxs.trans h.ctxs, k.fns.trans h.fns, k.link.trans h.link, fun i => (k.core i).trans (h.core i),
    fun n => (k.port n).trans (h.port n)⟩

theorem State.windowUsed_sameBytes (s : State) (x p off n : Nat) : SameBytes s (s.windowUsed x p off n) := by
  simp only [State.windowUsed]
  split
  next a _ =>
    refine ⟨rfl, rfl, rfl, fun _ => rfl, fun m => ?_⟩
    rw [State.modPort, State.port_setPort]
    split
    next hpm => rw [StackPort.correct_mem, ← hpm]; rfl
    next => rfl
  next => exact .refl s

theorem State.handleUsed_sameBytes (s : State) (i h off n : Nat) : SameBytes s (s.handleUsed i h off n) := by
  refine ⟨rfl, rfl, rfl, fun j => ?_, fun _ => rfl⟩
  rw [State.handleUsed, State.modCore, State.core_setCore]
  split
  next hij => rw [Core.correct_frame, ← hij]
  next => rfl

theorem State.slotUsed_sameBytes (s : State) (c : Nat) (a : IoArea) (slot n : Nat) : SameBytes s (s.slotUsed c a slot n) :=
  ite_holds (SameBytes s) (State.windowUsed_sameBytes ..)
    (List.foldlRecOn _ _ (.refl s) fun _ h _ _ => h.trans (State.handleUsed_sameBytes ..))

/-! ## COMPLETION_POST (R19, R279, R281) -/

/-- The host's memory with a microbatch's output, and its result record where the SUBMIT wants one. -/
def State.copyResult (s : State) (c : Nat) (b : Batch) (out : List Byte) : State :=
  let v := s.hostWrite (b.d.dword 8) out
  if b.d.wantsResult then v.hostWrite (b.d.dword 10) (v.resultRecord c b out) else v

theorem State.postResult_eq (s : State) (c : Nat) (b : Batch) (out : List Byte) :
    s.postResult c b out = (s.copyResult c b out).endBatch c b 0 0 b.d.wantsResult := rfl

/-- A result copy changes host memory only. -/
theorem State.copyResult_frame (s : State) (c : Nat) (b : Batch) (out : List Byte) :
    s.copyResult c b out = { s with link := (s.copyResult c b out).link } := by
  simp only [State.copyResult]
  split <;> rfl

section
variable {s : State} (c : Nat) {b : Batch} (out : List Byte)

theorem State.copyResult_output (hw : Cells.wf 0 s.link.mem = true) (h : b.d.wantsResult = false) :
    (s.copyResult c b out).hostRead (b.d.dword 8) out.length = out := by
  simp only [State.copyResult, h, Bool.false_eq_true, if_false]
  exact State.hostRead_hostWrite _ out hw

theorem State.copyResult_record (hw : Cells.wf 0 s.link.mem = true) (h : b.d.wantsResult = true) :
    let r := (s.hostWrite (b.d.dword 8) out).resultRecord c b out
    (s.copyResult c b out).hostRead (b.d.dword 10) r.length = r := by
  simp only [State.copyResult, h, if_true]
  exact State.hostRead_hostWrite _ _ (Cells.wf_write 0 out _ _ hw)

end

theorem State.endBatch_batches (s : State) (c : Nat) (b : Batch) (status detail : Nat) (rrec : Bool) :
    ((s.endBatch c b status detail rrec).ctx c).batches = (s.ctx c).batches.filter (fun e => e.seq != b.seq) := by
  simp [State.endBatch]

theorem exec_completionPost_ok {s : State} {c : BitVec 6} {seq : Nat} {b : Batch} {p : Program} {out : List Byte}
    (hb : (s.ctx c.toNat).batches.find? (fun e => decide (e.seq = seq) && e.copying && s.lastDone c.toNat e) = some b)
    (hp : (s.ctx c.toNat).prog = some p)
    (ho : s.slotRead c.toNat p.out ((s.ctx c.toNat).outSlot seq) (b.d.word 7) = .inl out) :
    exec (.completionPost c seq .ok) s =
      .next ((s.slotUsed c.toNat p.out ((s.ctx c.toNat).outSlot seq) (b.d.word 7)).postResult c.toNat b out) := by
  change execCompletionPost c seq .ok s = _
  simp only [execCompletionPost, hb, hp, ho]

/-- Settles O31: a fetch writes the slot after its descriptor is FETCHED, and a posted result is the copy to the host
followed by the microbatch's end. -/
theorem inputsAreFetchedAndResultsPosted : Obligations.InputsAreFetchedAndResultsPosted := by
  intro s c p hp
  refine ⟨fun d hd => ?_, fun seq b out hb ho hw => ⟨_, exec_completionPost_ok hb hp ho, ?_⟩⟩
  · intro bs
    refine ⟨_, exec_inputFetchDone_ok hd hp, ⟨{ d with st := .fetched, digest := sha256 bs }, ?_, d.same_refl, rfl, rfl⟩,
      fun a hk ha he hw => ?_⟩
    · rw [(State.slotWrite_admission ..).admq]
      exact State.endFetch_mem bs (List.mem_of_find?_eq_some hd)
    · have hslot := State.slotWrite_window (s := s.endFetch (c.toNat + 1) d bs) hk ha he
      rw [hslot, State.port_modPort_self, StackPort.store_mem]
      exact ⟨Cells.read_write 0 _ a bs hw, fun b hb => Cells.get_write_ne 0 bs b _ a hw hb, rfl, rfl⟩
  · have used := s.slotUsed_sameBytes c.toNat p.out ((s.ctx c.toNat).outSlot seq) (b.d.word 7)
    generalize s.slotUsed c.toNat p.out ((s.ctx c.toNat).outSlot seq) (b.d.word 7) = v at used ⊢
    have hv : Cells.wf 0 v.link.mem = true := used.link ▸ hw
    have copied := v.copyResult_frame c.toNat b out
    rw [State.postResult_eq]
    refine ⟨⟨v.copyResult c.toNat b out, rfl, State.copyResult_output _ out hv, State.copyResult_record _ out hv, ?_, ?_⟩,
      fun e he => ?_, fun i => ?_, fun n => ?_⟩
    · rw [copied]; exact used.ctxs
    · rw [copied]; exact used.fns
    · rw [State.endBatch_batches] at he
      simpa using (List.mem_filter.mp he).2
    · rw [State.endBatch_core, copied]; exact used.core i
    · rw [State.endBatch_port, copied]; exact used.port n

end Sys2Proof.Machine
end

section
/-! Context faults, context by context: what the end of its microbatches and a fault make of the context they name, and
what a run of faults over several contexts leaves as it was. -/
namespace Sys2Proof.Machine

open Sys2Proof

theorem State.endBatch_ctx (s : State) (c d : Nat) (b : Batch) (status detail : Nat) (rrec : Bool) :
    (s.endBatch c b status detail rrec).ctx d =
      if c = d then { s.ctx c with batches := (s.ctx c).batches.filter (fun e => e.seq != b.seq) } else s.ctx d := by
  simp only [State.endBatch, State.modCtx, State.ctx_setCtx, State.record_ctx]

theorem State.foldl_endBatch_ctx (c status detail : Nat) (l : List Batch) (s : State) :
    (l.foldl (fun t b => t.endBatch c b status detail false) s).ctx c =
      { s.ctx c with batches := (s.ctx c).batches.filter (fun e => l.all (fun b => e.seq != b.seq)) } := by
  induction l generalizing s with
  | nil => simp
  | cons b l ih =>
    rw [List.foldl_cons, ih, State.endBatch_ctx, if_pos rfl]
    simp only [List.filter_filter, List.all_cons, Bool.and_comm]

theorem State.endBatches_ctx_self (s : State) (c status detail : Nat) :
    (s.endBatches c status detail).ctx c = { s.ctx c with batches := [] } := by
  have none_left : (s.ctx c).batches.filter (fun e => (s.ctx c).batches.all (fun b => e.seq != b.seq)) = [] :=
    List.filter_eq_nil_iff.mpr fun e he hall => by simpa using List.all_eq_true.mp hall e he
  rw [State.endBatches, State.foldl_endBatch_ctx, none_left]

theorem State.endBatches_ctx_ne (s : State) {c d : Nat} (h : d ≠ c) (status detail : Nat) :
    (s.endBatches c status detail).ctx d = s.ctx d :=
  List.foldlRecOn (motive := fun t : State => t.ctx d = s.ctx d) _ _ rfl fun t ht b _ => by
    rw [State.endBatch_ctx, if_neg (Ne.symm h), ht]

/-- The states in which a context takes its first fault (R306). -/
def Context.mayFault (x : Context) : Prop := x.st = .bound ∨ x.st = .running ∨ x.st = .quiesced

/-- What the first fault makes of a context (R306). -/
def Context.faulted (x : Context) (code : Nat) : Context :=
  { x with batches := [], st := .faulted, fault := some code, pipIdle := true }

theorem Context.faulted_not_mayFault (x : Context) (code : Nat) : ¬(x.faulted code).mayFault := by
  simp [Context.mayFault, Context.faulted]

theorem State.ctxFault_ctx_live {s : State} {c : Nat} (h : (s.ctx c).mayFault) (code source arg0 arg1 : Nat) :
    (s.ctxFault c code source arg0 arg1).ctx c = (s.ctx c).faulted code := by
  rcases h with h | h | h <;> simp [State.ctxFault, h, State.endBatches_ctx_self, Context.faulted]

theorem State.ctxFault_ctx_dead {s : State} {c : Nat} (h : ¬(s.ctx c).mayFault) (code source arg0 arg1 : Nat) :
    (s.ctxFault c code source arg0 arg1).ctx c = s.ctx c := by
  simp only [Context.mayFault, not_or] at h
  obtain ⟨hb, hr, hq⟩ := h
  cases hst : (s.ctx c).st
  case bound => exact absurd hst hb
  case running => exact absurd hst hr
  case quiesced => exact absurd hst hq
  all_goals simp [State.ctxFault, hst]

theorem State.ctxFault_ctx_ne (s : State) {c d : Nat} (h : d ≠ c) (code source arg0 arg1 : Nat) :
    (s.ctxFault c code source arg0 arg1).ctx d = s.ctx d := by
  have told : (s.tellFault c code source arg0 arg1).ctx d = s.ctx d := State.tellFault_ctx ..
  simp only [State.ctxFault]
  split
  iterate 3 exact (State.reportFault_ctx ..).trans ((State.ctx_modCtx_ne _ h _).trans ((State.endBatches_ctx_ne _ h ..).trans told))
  exact told

theorem State.reportFault_ep (s : State) (c code source arg0 arg1 : Nat) :
    (s.reportFault c code source arg0 arg1).ep = { s.ep with ctl := (s.reportFault c code source arg0 arg1).ep.ctl } := by
  simp only [State.reportFault]
  split <;> rfl

/-- Of the Epfin block a fault changes only the messages that go out. -/
theorem State.ctxFault_ep (s : State) (c code source arg0 arg1 : Nat) :
    (s.ctxFault c code source arg0 arg1).ep = { s.ep with ctl := (s.ctxFault c code source arg0 arg1).ep.ctl } := by
  simp only [State.ctxFault]
  split
  iterate 3 rw [State.reportFault_ep, State.modCtx_ep, State.endBatches_ep, State.tellFault_ep]
  rw [State.tellFault_ep]

theorem State.ctxFault_onlyContext (s : State) (c code source arg0 arg1 : Nat) :
    OnlyContext c s (s.ctxFault c code source arg0 arg1) :=
  ⟨fun _ h => s.ctxFault_ctx_ne h .., State.ctxFault_panel .., State.ctxFault_ports ..⟩

/-- From `s` to `t` some contexts have taken a first fault of this code; panel, stack ports and counter stay, and of the
Epfin block all but the messages that go out. -/
structure FaultsOnly (code : Nat) (s t : State) : Prop where
  ctx : ∀ c, t.ctx c = s.ctx c ∨ (s.ctx c).mayFault ∧ t.ctx c = (s.ctx c).faulted code
  panel : t.panel = s.panel
  ports : t.ports = s.ports
  tcb : t.tcb = s.tcb
  ep : t.ep = { s.ep with ctl := t.ep.ctl }

theorem FaultsOnly.refl (code : Nat) (s : State) : FaultsOnly code s s := ⟨fun _ => .inl rfl, rfl, rfl, rfl, rfl⟩

theorem FaultsOnly.dead {code : Nat} {s t : State} (h : FaultsOnly code s t) {c : Nat} (hc : ¬(s.ctx c).mayFault) : t.ctx c = s.ctx c :=
  (h.ctx c).resolve_right fun k => hc k.1

theorem FaultsOnly.trans {code : Nat} {s t u : State} (h : FaultsOnly code s t) (k : FaultsOnly code t u) : FaultsOnly code s u where
  ctx c := by
    rcases h.ctx c with e | ⟨m, e⟩
    · rw [← e]; exact k.ctx c
    · right
      exact ⟨m, (k.dead (e ▸ (s.ctx c).faulted_not_mayFault code)).trans e⟩
  panel := k.panel.trans h.panel
  ports := k.ports.trans h.ports
  tcb := k.tcb.trans h.tcb
  ep := by rw [k.ep, h.ep]

theorem State.ctxFault_faultsOnly (s : State) (c code source arg0 arg1 : Nat) :
    FaultsOnly code s (s.ctxFault c code source arg0 arg1) where
  ctx d := by
    by_cases hd : d = c
    · subst hd
      by_cases hm : (s.ctx d).mayFault
      · exact .inr ⟨hm, State.ctxFault_ctx_live hm ..⟩
      · exact .inl (State.ctxFault_ctx_dead hm ..)
    · exact .inl (s.ctxFault_ctx_ne hd ..)
  panel := State.ctxFault_panel ..
  ports := State.ctxFault_ports ..
  tcb := State.ctxFault_tcb ..
  ep := s.ctxFault_ep ..

theorem State.ctl_faultsOnly (code : Nat) (s : State) (m : CtlMsg) : FaultsOnly code s (s.ctl m) :=
  ⟨fun _ => .inl rfl, rfl, rfl, rfl, rfl⟩

section
variable {α : Type} {code : Nat} {f : State → α → State} (hf : ∀ t a, FaultsOnly code t (f t a))
include hf

theorem FaultsOnly.foldl (l : List α) (s : State) : FaultsOnly code s (l.foldl f s) :=
  List.foldlRecOn _ _ (.refl code s) fun _ h _ _ => h.trans (hf ..)

/-- A context that one step of a run of faults reaches is FAULTED at the end of the run. -/
theorem FaultsOnly.foldl_mem {l : List α} {a : α} {s : State} {c : Nat} (ha : a ∈ l) (hc : (s.ctx c).mayFault)
    (hit : ∀ t, FaultsOnly code s t → (t.ctx c).mayFault → (f t a).ctx c = (t.ctx c).faulted code) :
    (l.foldl f s).ctx c = (s.ctx c).faulted code := by
  obtain ⟨l₁, l₂, rfl⟩ := List.append_of_mem ha
  rw [List.foldl_append, List.foldl_cons]
  have before := FaultsOnly.foldl hf l₁ s
  have step : (f (l₁.foldl f s) a).ctx c = (s.ctx c).faulted code := by
    rcases before.ctx c with e | ⟨-, e⟩
    · rw [← e]; exact hit _ before (e ▸ hc)
    · exact ((hf ..).dead (e ▸ (s.ctx c).faulted_not_mayFault code)).trans e
  exact ((FaultsOnly.foldl hf l₂ _).dead (step ▸ (s.ctx c).faulted_not_mayFault code)).trans step

end

end Sys2Proof.Machine
end

section
/-! The time counter's own commands: what each makes of the counter and what it leaves. -/
namespace Sys2Proof.Machine

open Sys2Proof

theorem State.mem_liveCtxs (s : State) (c : Nat) : c ∈ s.liveCtxs ↔ c < 64 ∧ (s.ctx c).st ≠ .free := by
  simp [State.liveCtxs]

@[simp] theorem State.passTo_now (s : State) (n : Nat) : (s.passTo n).tcb.now = max s.tcb.now n := rfl

/-! ## Lock and pulses (R21, R27) -/

theorem exec_referenceLock {s : State} (hp : s.mg.powered = true) (hh : s.tcb.holdover = false) :
    exec .referenceLock s = .next (s.setTcb (fun t => { t with lock := true, running := true })) := by
  change execReferenceLock s = _
  simp [execReferenceLock, hp, hh]

theorem exec_syncPulse_load {s : State} (hl : s.tcb.lock = true) (ha : s.tcb.arm = true) (hc : s.anyCtx = false) :
    exec .syncPulse s = .next s.loadCounter := by
  change execSyncPulse s = _
  simp [execSyncPulse, hl, ha, hc]

theorem exec_syncPulse_check {s : State} (hl : s.tcb.lock = true) (ha : s.tcb.arm = false ∨ s.anyCtx = true) (hs : s.tcb.synced = true) :
    exec .syncPulse s = .next s.checkPulse := by
  change execSyncPulse s = _
  have : (s.tcb.arm && !s.anyCtx) = false := by rcases ha with h | h <;> simp [h]
  simp [execSyncPulse, hl, this, hs]

theorem State.checkPulse_near {s : State} (h : (pulseDiff s.tcb.now).natAbs ≤ 2) : s.checkPulse = s := by
  simp only [State.checkPulse, if_pos h]

theorem State.checkPulse_tcb (s : State) :
    s.checkPulse.tcb = { s.tcb with pulseErr := s.tcb.pulseErr || decide (2 < (pulseDiff s.tcb.now).natAbs) } := by
  by_cases h : (pulseDiff s.tcb.now).natAbs ≤ 2
  · simp [State.checkPulse_near h, Nat.not_lt.mpr h]
  · simp [State.checkPulse, h, Nat.lt_of_not_le h, State.setTcb]

theorem State.checkPulse_frame (s : State) : s.checkPulse.panel = s.panel ∧ s.checkPulse.ctxs = s.ctxs := by
  simp only [State.checkPulse]
  split
  · exact ⟨rfl, rfl⟩
  · simp

/-! ## Holdover (R24, R25) -/

theorem exec_timeLost {s : State} (hh : s.tcb.holdover = true) :
    exec .timeLost s = .next (((s.passTo (s.tcb.holdStart + 100000000)).liveCtxs.filter (fun c =>
        (s.passTo (s.tcb.holdStart + 100000000)).spansModules ((s.passTo (s.tcb.holdStart + 100000000)).ctx c).job)).foldl
      (fun t c => t.ctxFault c 0x0603 srcMgmt ((t.tcb.now - t.tcb.holdStart) / 1000000) 0) (s.passTo (s.tcb.holdStart + 100000000))) := by
  change execTimeLost s = _
  simp [execTimeLost, hh]

theorem exec_referenceReturn {s : State} (off : Int) (hh : s.tcb.holdover = true) (hl : s.tcb.lock = false) :
    exec (.referenceReturn off) s = .next (s.setTcb (fun t =>
      if off.natAbs ≤ 10000 then { t with lock := true, holdover := false, slewLeft := -off } else { t with lock := true })) := by
  change execReferenceReturn off s = _
  simp [execReferenceReturn, hh, hl]

/-! ## Slews and averages (R26, R28 to R30) -/

/-- The state in which a slew may take its count: 100,000 tc after the last one. -/
def State.slewable (s : State) : State :=
  match s.tcb.lastSlew with
  | some l => s.passTo (l + 100000)
  | none => s

theorem State.slewable_frame (s : State) : s.slewable.panel = s.panel ∧ s.slewable.ctxs = s.ctxs ∧
    s.slewable.tcb.slewLeft = s.tcb.slewLeft ∧ s.tcb.now ≤ s.slewable.tcb.now ∧
    ∀ l, s.tcb.lastSlew = some l → l + 100000 ≤ s.slewable.tcb.now := by
  simp only [State.slewable]
  split
  next l h => simp [State.passTo, h]
  next h => exact ⟨rfl, rfl, rfl, Nat.le_refl _, fun l hl => by simp [h] at hl⟩

theorem exec_counterSlew {s : State} (h : s.tcb.slewLeft ≠ 0) : exec .counterSlew s = .next (
    if 0 < s.tcb.slewLeft then
      (s.slewable.passTo (s.slewable.tcb.now + 2)).setTcb (fun t => { t with slewLeft := t.slewLeft - 1, lastSlew := some t.now })
    else s.slewable.setTcb (fun t => { t with slewLeft := t.slewLeft + 1, lastSlew := some t.now })) := by
  change execCounterSlew s = _
  simp only [execCounterSlew, if_neg h]
  rfl

theorem State.drifted_frame (s : State) :
    s.drifted.tcb = s.tcb ∧ s.drifted.panel = s.panel ∧ s.drifted.ports = s.ports ∧ s.drifted.ctxs = s.ctxs :=
  List.foldlRecOn (motive := fun t : State => t.tcb = s.tcb ∧ t.panel = s.panel ∧ t.ports = s.ports ∧ t.ctxs = s.ctxs)
    _ _ ⟨rfl, rfl, rfl, rfl⟩ fun t ht c _ => by simpa using ht

/-- ALIGNED follows its conditions, and nothing else of the counter changes (R29, R30). -/
theorem State.realign_frame (s : State) : s.realign.tcb = { s.tcb with aligned := s.tcb.inStep } ∧
    s.realign.panel = s.panel ∧ s.realign.ports = s.ports := by
  simp only [State.realign]
  split
  · obtain ⟨htcb, hpanel, hports, -⟩ := ((s.setTcb (fun t => { t with aligned := s.tcb.inStep })).loseTime true).drifted_frame
    exact ⟨htcb, hpanel, hports⟩
  · exact ⟨rfl, rfl, rfl⟩

/-- The counter with an average taken, before ALIGNED follows it (R28). -/
def State.averaged (s : State) (sum : Int) : State :=
  let s1 := s.setTcb (fun t => { t with exchN := 0, exchSum := 0, avgDone := true, offset := BitVec.ofInt 32 (sum / 128) })
  if !s.anyCtx && !s.tcb.stepped then s1.setTcb (fun t => { t with now := ((t.now : Int) + sum / 2048).toNat, stepped := true })
  else s1.setTcb (fun t => { t with slewLeft := sum / 2048 })

theorem State.takeOffset_eq (s : State) (sum : Int) : s.takeOffset sum = (s.averaged sum).realign := rfl

theorem State.averaged_now (s : State) (sum : Int) :
    if s.anyCtx = false ∧ s.tcb.stepped = false then
      (s.averaged sum).tcb.now = ((s.tcb.now : Int) + sum / 2048).toNat ∧ (s.averaged sum).tcb.stepped = true
    else (s.averaged sum).tcb.now = s.tcb.now ∧ (s.averaged sum).tcb.slewLeft = sum / 2048 := by
  by_cases h : s.anyCtx = false ∧ s.tcb.stepped = false
  · simp [State.averaged, h, State.setTcb]
  · have hb : (!s.anyCtx && !s.tcb.stepped) = false := by simpa [← Bool.not_eq_true] using h
    rw [if_neg h]
    simp [State.averaged, hb, State.setTcb]

theorem State.averaged_frame (s : State) (sum : Int) :
    (s.averaged sum).tcb.exchN = 0 ∧ (s.averaged sum).tcb.exchSum = 0 ∧ (s.averaged sum).tcb.avgDone = true ∧
    (s.averaged sum).tcb.offset = BitVec.ofInt 32 (sum / 128) ∧ (s.averaged sum).panel = s.panel ∧ (s.averaged sum).ports = s.ports :=
  ite_holds (fun u : State => u.tcb.exchN = 0 ∧ u.tcb.exchSum = 0 ∧ u.tcb.avgDone = true ∧
    u.tcb.offset = BitVec.ofInt 32 (sum / 128) ∧ u.panel = s.panel ∧ u.ports = s.ports)
    ⟨rfl, rfl, rfl, rfl, rfl, rfl⟩ ⟨rfl, rfl, rfl, rfl, rfl, rfl⟩

theorem exec_timeTreeExchange {s : State} (t1 t2 t3 t4 : Nat) (hp : s.tcb.parent.isSome = true) :
    exec (.timeTreeExchange t1 t2 t3 t4) s = .next (
      if s.tcb.exchN + 1 < 1024 then
        s.setTcb (fun t => { t with exchN := t.exchN + 1, exchSum := s.tcb.exchSum + (((t2 : Int) - t1) - ((t4 : Int) - t3)) })
      else s.takeOffset (s.tcb.exchSum + (((t2 : Int) - t1) - ((t4 : Int) - t3)))) := by
  change execTimeTreeExchange t1 t2 t3 t4 s = _
  have hn : s.tcb.parent.isNone = false := by simpa [← Option.not_isSome] using hp
  simp [execTimeTreeExchange, hn]

theorem exec_ferrMeasure {s : State} (err : BitVec 16) (hp : s.tcb.parent.isSome = true) :
    exec (.ferrMeasure err) s = .next ((s.passTo (s.tcb.ferrStart + 1000000000)).setTcb (fun t =>
      { t with ferrStart := t.now, ferr := err, freqOk := decide (err.toInt.natAbs ≤ 50) })).realign := by
  change execFerrMeasure err s = _
  have hn : s.tcb.parent.isNone = false := by simpa [← Option.not_isSome] using hp
  simp [execFerrMeasure, hn]

/-! ## Drift at the manager (R259) -/

theorem Table.find?_erase_self {α : Type} (t : Table α) (n : Nat) : (Table.erase t n).find? n = none := by
  induction t with
  | nil => rfl
  | cons e t ih =>
    obtain ⟨k, a⟩ := e
    by_cases hk : k = n
    · simpa [Table.erase, hk] using ih
    · simpa [Table.erase, hk, Table.find?] using ih

/-- Every member of the jobs takes TC_DRIFT's fault on its module, and the jobs no longer run (R259). -/
def State.driftJobs (s : State) (m off : Nat) (js : List (Nat × Job)) : State :=
  js.foldl (fun t e => (e.2.members.foldl (fun t q =>
    if some q.1 = t.modIndex? then t.ctxFault q.2 0x0604 srcMgmt m off else t.ctl (.raise q.1 q.2 0x0604 m off)) t).jobTo e.1 .idle) s

theorem State.driftJobs_frame (s : State) (m off : Nat) (js : List (Nat × Job)) :
    (s.driftJobs m off js).tcb = s.tcb ∧ (s.driftJobs m off js).panel = s.panel ∧ (s.driftJobs m off js).ports = s.ports ∧
    (s.driftJobs m off js).ep.drift = s.ep.drift ∧ (s.driftJobs m off js).ep.noCross = s.ep.noCross := by
  refine List.foldlRecOn (motive := fun t : State => t.tcb = s.tcb ∧ t.panel = s.panel ∧ t.ports = s.ports ∧
    t.ep.drift = s.ep.drift ∧ t.ep.noCross = s.ep.noCross) _ _ ⟨rfl, rfl, rfl, rfl, rfl⟩ fun t ht e _ => ?_
  have run : FaultsOnly 0x0604 t (e.2.members.foldl (fun t q =>
      if some q.1 = t.modIndex? then t.ctxFault q.2 0x0604 srcMgmt m off else t.ctl (.raise q.1 q.2 0x0604 m off)) t) :=
    .foldl (fun t q => ite_holds (FaultsOnly 0x0604 t) (t.ctxFault_faultsOnly ..) (t.ctl_faultsOnly ..)) ..
  obtain ⟨htcb, hpanel, hports, hdrift, hcross⟩ := ht
  have hep := run.ep
  exact ⟨run.tcb.trans htcb, run.panel.trans hpanel, run.ports.trans hports,
    (congrArg Epfin.drift hep).trans hdrift, (congrArg Epfin.noCross hep).trans hcross⟩

theorem exec_timeDrift_again {s : State} (m : BitVec 10) (hr : s.ep.role = 2) : exec (.timeDrift m true) s =
    .next { s with ep := { s.ep with drift := s.ep.drift.erase m.toNat, noCross := s.ep.noCross.filter (· != m.toNat) } } := by
  change execTimeDrift m true s = _
  simp [execTimeDrift, hr]

/-- The manager's books once worker m has been reported adrift for 1,000,000,000 tc. -/
def State.noteDrift (s : State) (m at_ : Nat) : State :=
  let s1 := s.passTo (at_ + 1000000000)
  { s1 with ep := { s1.ep with drift := s1.ep.drift.erase m, noCross := s1.ep.noCross.filter (· != m) ++ [m] } }

theorem exec_timeDrift_late {s : State} (m : BitVec 10) (hr : s.ep.role = 2) {d : Nat × Nat} (hd : s.ep.drift.find? m.toNat = some d) :
    ∃ js, exec (.timeDrift m false) s = .next ((s.noteDrift m.toNat d.1).driftJobs m.toNat d.2 js) := by
  refine ⟨(s.noteDrift m.toNat d.1).ep.jobs.filter (fun e =>
    (s.noteDrift m.toNat d.1).crossJob e.1 && e.2.members.any (fun q => q.1 == m.toNat)), ?_⟩
  change execTimeDrift m false s = _
  simp only [execTimeDrift, hr, hd]
  rfl

/-! ## Latched reads (R23, R32) -/

/-- A 64-bit count is the half that was latched above the half that was read. -/
theorem high_append_low (n : Nat) : (BitVec.ofNat 32 (n / 2 ^ 32) ++ BitVec.ofNat 32 n : BitVec 64) = BitVec.ofNat 64 n := by
  apply BitVec.eq_of_toNat_eq
  rw [BitVec.toNat_append, ← Nat.shiftLeft_add_eq_or_of_lt (BitVec.isLt _)]
  simp only [BitVec.toNat_ofNat, Nat.shiftLeft_eq]
  omega

theorem exec_tcNowLoRead {s : State} {p : Path} (h : s.pathLive p = true) :
    exec (.tcNowLoRead p) s = .next ((s.latchNow p).readOut (BitVec.ofNat 32 s.tcb.now)) := by
  change execTcNowLoRead p s = _
  simp [execTcNowLoRead, h]

theorem exec_cxFcountLoRead {s : State} {p : Path} (c : BitVec 6) (h : s.pathLive p = true) :
    exec (.cxFcountLoRead p c) s = .next ((s.latchFcount p c.toNat).readOut (BitVec.ofNat 32 (s.ctx c.toNat).fcount)) := by
  change execCxFcountLoRead p c s = _
  simp [execCxFcountLoRead, h]

/-- What TIME_LOST makes of the contexts (R24). -/
theorem State.timeLost_ctxs {s : State} (n : Nat) (P : State → Nat → Bool) (hP : ∀ c, P (s.passTo n) c = P s c) (src : Nat) :
    let t := ((s.passTo n).liveCtxs.filter (P (s.passTo n))).foldl
      (fun t c => t.ctxFault c 0x0603 src ((t.tcb.now - t.tcb.holdStart) / 1000000) 0) (s.passTo n)
    FaultsOnly 0x0603 (s.passTo n) t ∧
    (∀ c, c < 64 → (s.ctx c).st = .running → P s c = true → t.ctx c = (s.ctx c).faulted 0x0603) ∧
    (∀ c, P s c = false → t.ctx c = s.ctx c) := by
  refine ⟨.foldl (fun t c => t.ctxFault_faultsOnly ..) .., fun c hc hrun hp => ?_, fun c hp => ?_⟩
  · have hm : (s.ctx c).mayFault := .inr (.inl hrun)
    refine FaultsOnly.foldl_mem (fun t c => t.ctxFault_faultsOnly ..) (a := c) (List.mem_filter.mpr ⟨?_, (hP c).trans hp⟩) hm
      fun t _ h => State.ctxFault_ctx_live h ..
    exact (State.mem_liveCtxs ..).mpr ⟨hc, by simp [hrun]⟩
  · refine List.foldlRecOn (motive := fun t : State => t.ctx c = s.ctx c) _ _ rfl fun t ht d hd => ?_
    have hne : c ≠ d := by
      rintro rfl
      simp [hP, hp] at hd
    rw [State.ctxFault_ctx_ne _ hne, ht]

/-- Settles O33: each clause is the rule of its command above. -/
theorem theCounterIsGovernedSlewedAndRead : Obligations.TheCounterIsGovernedSlewedAndRead := by
  refine ⟨fun s => ⟨fun hp hh => ?_, fun hl ha hc => ?_, fun hl ha hs => ?_, fun hl => ?_, fun hh => ?_, fun off hh hl => ?_⟩,
    fun s => ⟨fun hs => ?_, fun t1 t2 t3 t4 hp => ⟨fun hn => ?_, fun hn => ?_⟩, fun err hp => ?_, fun m hr => ⟨?_, fun d hd => ?_⟩,
      fun p hp => ?_, fun p c hp => ?_⟩⟩
  -- Lock and pulses.
  · exact ⟨_, exec_referenceLock hp hh, rfl, rfl⟩
  · exact ⟨_, exec_syncPulse_load hl ha hc, rfl, Nat.mul_comm .., rfl, rfl, rfl⟩
  · exact ⟨_, exec_syncPulse_check hl ha hs, s.checkPulse_tcb, State.checkPulse_near, s.checkPulse_frame⟩
  -- Holdover, its end and the return of the reference.
  · refine ⟨_, rfl, ?_⟩
    simp [hl, State.setTcb, State.loseTime]
  · obtain ⟨faults, hit, miss⟩ := State.timeLost_ctxs (s := s) (s.tcb.holdStart + 100000000) (fun t c => t.spansModules (t.ctx c).job)
      (fun _ => rfl) srcMgmt
    refine ⟨_, exec_timeLost hh, ?_, ?_, fun c hc hrun hj => ?_, fun c hj => miss c hj, faults.panel, faults.ports⟩
    · rw [faults.tcb]; exact Nat.le_max_right ..
    · rw [faults.tcb]; exact Nat.le_max_left ..
    · rw [hit c hc hrun hj]; exact ⟨rfl, rfl⟩
  · refine ⟨_, exec_referenceReturn off hh hl, rfl, ?_⟩
    by_cases h : off.natAbs ≤ 10000
    · simp [State.setTcb, h, Nat.not_lt.mpr h]
    · simp [State.setTcb, h, Nat.lt_of_not_le h, hh]
  -- Slews.
  · obtain ⟨hpanel, hctxs, hleft, hnow, hlast⟩ := s.slewable_frame
    refine ⟨_, exec_counterSlew hs, ?_⟩
    split
    · refine ⟨?_, ?_, rfl, fun l hl => ?_, hpanel, hctxs⟩
      · change (s.slewable.tcb.slewLeft - 1).natAbs + 1 = _
        omega
      · exact hnow.trans (Nat.le_max_left ..)
      · exact (hlast l hl).trans (Nat.le_max_left ..)
    · refine ⟨?_, hnow, rfl, hlast, hpanel, hctxs⟩
      change (s.slewable.tcb.slewLeft + 1).natAbs + 1 = _
      omega
  -- Exchanges and averages.
  · refine ⟨_, exec_timeTreeExchange t1 t2 t3 t4 hp, ?_⟩
    rw [if_pos hn]
    rfl
  · refine ⟨_, exec_timeTreeExchange t1 t2 t3 t4 hp, ?_⟩
    rw [if_neg (Nat.not_lt.mpr hn), State.takeOffset_eq]
    generalize s.tcb.exchSum + (((t2 : Int) - t1) - ((t4 : Int) - t3)) = sum
    obtain ⟨htcb, hpanel, hports⟩ := (s.averaged sum).realign_frame
    obtain ⟨hn0, hsum0, hdone, hoff, hpanel', hports'⟩ := s.averaged_frame sum
    rw [htcb, hpanel, hports]
    exact ⟨hn0, hsum0, hdone, hoff, rfl, s.averaged_now sum, hpanel', hports'⟩
  · obtain ⟨htcb, hpanel, hports⟩ := ((s.passTo (s.tcb.ferrStart + 1000000000)).setTcb (fun t =>
      { t with ferrStart := t.now, ferr := err, freqOk := decide (err.toInt.natAbs ≤ 50) })).realign_frame
    refine ⟨_, exec_ferrMeasure err hp, ?_⟩
    beta_reduce
    rw [htcb, hpanel, hports]
    exact ⟨rfl, rfl, Nat.le_max_right .., rfl, rfl, rfl, rfl⟩
  -- Drift.
  · exact ⟨_, exec_timeDrift_again m hr, Table.find?_erase_self .., by simp, rfl, rfl⟩
  · obtain ⟨js, hexec⟩ := exec_timeDrift_late m hr hd
    obtain ⟨htcb, hpanel, hports, hdrift, hcross⟩ := (s.noteDrift m.toNat d.1).driftJobs_frame m.toNat d.2 js
    refine ⟨_, hexec, ?_⟩
    beta_reduce
    rw [htcb, hpanel, hports, hdrift, hcross]
    exact ⟨Nat.le_max_right .., Table.find?_erase_self .., List.mem_append_right _ (List.mem_singleton_self _), rfl, rfl⟩
  -- Latched reads.
  · refine ⟨_, exec_tcNowLoRead hp, ?_, rfl, rfl⟩
    rw [← high_append_low]
    simp [State.latchNow, State.setTcb, State.readOut]
  · refine ⟨_, exec_cxFcountLoRead c hp, ?_, ?_, fun d hd => ?_, rfl⟩
    · rw [← high_append_low]
      change (((s.latchFcount p c.toNat).ctx c.toNat).fcLatch.get (pathNo p) 0 ++ _ : BitVec 64) = _
      simp [State.latchFcount, State.readOut]
    · change ((s.latchFcount p c.toNat).ctx c.toNat).fcount = _
      simp [State.latchFcount]
    · change (s.latchFcount p c.toNat).ctx d = _
      exact State.ctx_modCtx_ne _ hd _

end Sys2Proof.Machine
end

section
/-! Exchanges at an agreed count: what opening, answering and passing on an exchange leave as it was, and the arithmetic of
an agreed count. -/
namespace Sys2Proof.Machine

open Sys2Proof

theorem le_ceilMul (t n : Nat) : t ≤ ceilMul t n := by
  simp only [ceilMul]
  split
  · exact Nat.le_refl t
  next h =>
    have whole := Nat.div_add_mod' (t + n - 1) n
    have rest := Nat.mod_lt (t + n - 1) (Nat.pos_of_ne_zero h)
    omega

theorem ceilMul_lt (t : Nat) {n : Nat} (h : 0 < n) : ceilMul t n < t + n := by
  rw [ceilMul, if_neg h.ne']
  have := Nat.div_mul_le_self (t + n - 1) n
  omega

theorem ceilMul_mod (t : Nat) {n : Nat} (h : 0 < n) : ceilMul t n % n = 0 := by
  rw [ceilMul, if_neg h.ne']
  exact Nat.mul_mod_left ..

theorem State.le_agreed (s : State) (n : Nat) : s.tcb.now + 2000000 ≤ s.agreed n := le_ceilMul ..

/-- An event of a stretch goes to a ring of the host, and no further (R39). -/
theorem State.tellStretch_frame (s : State) (c at_ old new : Nat) :
    s.tellStretch c at_ old new = { s with link := (s.tellStretch c at_ old new).link, fns := (s.tellStretch c at_ old new).fns } := by
  simp only [State.tellStretch]
  split <;> exact State.postCtx_frame ..

theorem State.tellStretch_ctx (s : State) (c at_ old new d : Nat) : (s.tellStretch c at_ old new).ctx d = s.ctx d := by
  rw [State.tellStretch_frame]; rfl

@[simp] theorem State.ctl_ctx (s : State) (m : CtlMsg) (c : Nat) : (s.ctl m).ctx c = s.ctx c := rfl

/-- A message to the children changes only what goes out. -/
theorem State.spread_frame (s : State) (p : Nat) (m : CtlMsg) : s.spread p m = { s with ep := { s.ep with ctl := (s.spread p m).ep.ctl } } := by
  simp only [State.spread]
  split <;> rfl

theorem State.openExchange_frame (s : State) (m : PrepareMsg) (d : Option Taken) : s.openExchange m d =
    { s with ep := { s.ep with ctl := (s.spread 6 (.prepare m)).ep.ctl, ex := some (s.newEx m true d) } } := by
  rw [State.openExchange, State.spread_frame]
  rfl

/-- What PREPARE of a job holds: its kind, its job, its factor, and a count 2,000,000 tc ahead (R42). -/
theorem State.jobPrepare_spec (s : State) (kind : ExKind) (job k : Nat) (unit : Nat → Nat) (cut : Bool) (epoch : Nat) :
    let m := s.jobPrepare kind job k unit cut epoch
    m.2 = { s with free := m.2.free } ∧ m.1.kind = kind ∧ m.1.job = BitVec.ofNat 16 job ∧ m.1.k = k ∧
    s.tcb.now + 2000000 ≤ m.1.at_ := by
  simp only [State.jobPrepare]
  split <;> exact ⟨rfl, rfl, rfl, rfl, s.le_agreed _⟩

end Sys2Proof.Machine
end

section
/-! The stretch of a period (R37 to R39). -/
namespace Sys2Proof.Machine

open Sys2Proof

/-- The factor is the least that makes room for D (R37). -/
theorem stretchK_least {p d stp k : Nat} (h : stretchK p d stp = some k) :
    d ≤ budget (2 ^ k * p) stp ∧ ∀ j, 1 ≤ j → j < k → budget (2 ^ j * p) stp < d := by
  rw [stretchK, List.find?_eq_some_iff_getElem] at h
  obtain ⟨fits, i, hi, hk, before⟩ := h
  simp only [Bool.and_eq_true, decide_eq_true_eq] at fits
  simp only [List.getElem_map, List.getElem_range] at hk before
  refine ⟨fits.1, fun j hj hjk => ?_⟩
  have missed := before (j - 1) (by omega)
  rw [Nat.sub_add_cancel hj] at missed
  have shorter : 2 ^ j * p ≤ 10000000 := (Nat.mul_le_mul_right p (Nat.pow_le_pow_right (by omega) hjk.le)).trans fits.2
  simpa [shorter] using missed

/-- A stretch of a context of no job: its count, and no other context's (R37, R39). -/
theorem State.ownStretch_frame (s : State) (c k unit : Nat) :
    (s.ownStretch c k unit).ctx c = { s.ctx c with stretchTo := some (s.agreed unit, k) } ∧
    (∀ d, d ≠ c → (s.ownStretch c k unit).ctx d = s.ctx d) ∧
    (s.ownStretch c k unit).panel = s.panel ∧ (s.ownStretch c k unit).ports = s.ports ∧ (s.ownStretch c k unit).tcb = s.tcb := by
  refine ⟨?_, fun d hd => ?_, ?_, ?_, ?_⟩
  · rw [State.ownStretch, State.tellStretch_ctx, State.ctx_modCtx_self]
  · rw [State.ownStretch, State.tellStretch_ctx, State.ctx_modCtx_ne _ hd]
  all_goals rw [State.ownStretch, State.tellStretch_frame]; rfl

/-- The exchange of a job's stretch opens when no other is open: what it holds, and what it leaves (R37, R39). -/
theorem State.jobStretch_opens {s : State} {id : Nat} (hid : id < 2 ^ 16) (kind : ExKind) (k unit : Nat) (hb : s.exBusy = false) :
    let t := s.jobStretch id kind k unit
    t.ctxs = s.ctxs ∧ t.panel = s.panel ∧ t.ports = s.ports ∧ t.ep.jobs = s.ep.jobs ∧
    ∃ e, t.ep.ex = some e ∧ e.kind = kind ∧ e.job = id ∧ e.k = k ∧ e.manager = true ∧ s.tcb.now + 2000000 ≤ e.at_ := by
  obtain ⟨hfree, hkind, hjob, hk, hat⟩ := s.jobPrepare_spec kind id k (fun _ => unit) false 0
  have hno : ¬(s.exBusy = true) := by simp [hb]
  simp only [State.jobStretch, if_neg hno]
  rw [State.openExchange_frame, hfree]
  refine ⟨rfl, rfl, rfl, rfl, _, rfl, hkind, ?_, hk, rfl, hat⟩
  exact (congrArg BitVec.toNat hjob).trans ((BitVec.toNat_ofNat ..).trans (Nat.mod_eq_of_lt hid))

/-! ## STRETCH_REQUEST -/

section
variable {s : State} {c : BitVec 6} {stp : BitVec 3} {p : Program} (hp : (s.ctx c.toNat).prog = some p)
  (hr : (s.ctx c.toNat).st = .running) (hf : (s.ctx c.toNat).floor < stp.toNat) (ht : (s.ctx c.toNat).stretchTo = none)
include hp hr hf ht

theorem exec_stretchRequest_own (hj : (s.ctx c.toNat).job = 0) {k : Nat}
    (hk : stretchK (s.ctx c.toNat).period p.d stp.toNat = some k) (hne : k ≠ (s.ctx c.toNat).stretch) :
    exec (.stretchRequest c (.own stp)) s =
      .next ((s.modCtx c.toNat (fun y => { y with stretchNext := stp.toNat })).ownStretch c.toNat k (2 ^ k * (s.ctx c.toNat).period)) := by
  change execStretchRequest c (.own stp) s = _
  simp [execStretchRequest, hp, hr, Nat.not_le.mpr hf, ht, hj, hk, hne]

theorem exec_stretchRequest_noRoom (hj : (s.ctx c.toNat).job = 0) (hk : stretchK (s.ctx c.toNat).period p.d stp.toNat = none) :
    exec (.stretchRequest c (.own stp)) s =
      .next (s.modCtx c.toNat (fun y => { y with budgetAt := some (s.agreed (s.ctx c.toNat).period, stp.toNat) })) := by
  change execStretchRequest c (.own stp) s = _
  simp [execStretchRequest, hp, hr, Nat.not_le.mpr hf, ht, hj, hk]

theorem exec_stretchRequest_worker (hj : (s.ctx c.toNat).job ≠ 0) (hw : s.ep.role = 1) :
    exec (.stretchRequest c (.own stp)) s =
      .next ((s.modCtx c.toNat (fun y => { y with stretchNext := stp.toNat })).ctl
        (.askStretch s.modIndex (s.ctx c.toNat).job (s.ctx c.toNat).period p.d stp.toNat)) := by
  change execStretchRequest c (.own stp) s = _
  simp [execStretchRequest, hp, hr, Nat.not_le.mpr hf, ht, hj, hw]

end

theorem exec_stretchRequest_asked {s : State} (c : BitVec 6) (stp : BitVec 3) {a : StretchMsg} (hm : s.ep.role = 2)
    (hj : s.ep.jobs.has a.job.toNat = true) :
    exec (.stretchRequest c (.worker stp a)) s = .next (s.takeAsk a.mod.toNat a.job.toNat a.period a.d stp.toNat) := by
  change execStretchRequest c (.worker stp a) s = _
  simp [execStretchRequest, hm, hj]

/-- A request beyond the factor in force opens an exchange, and the module is among those that asked (R37). -/
theorem State.takeAsk_opens {s : State} {m id p d stp k : Nat} (hid : id < 2 ^ 16) (hb : s.exBusy = false) (hk : stretchK p d stp = some k)
    (hlt : (s.job id).k < k) :
    let t := s.takeAsk m id p d stp
    t.ctxs = s.ctxs ∧ t.panel = s.panel ∧ t.ports = s.ports ∧ m ∈ (t.job id).askers ∧
    ∃ e, t.ep.ex = some e ∧ e.kind = .stretch ∧ e.job = id ∧ e.k = k ∧ e.manager = true ∧ s.tcb.now + 2000000 ≤ e.at_ := by
  simp only [State.takeAsk, hk, if_neg (Nat.not_le.mpr hlt)]
  obtain ⟨hctxs, hpanel, hports, hjobs, hex⟩ := State.jobStretch_opens
    (s := s.setJob id { s.job id with askers := ((s.job id).askers ++ [m]).eraseDups, per := p }) hid .stretch k (2 ^ k * p) hb
  refine ⟨hctxs, hpanel, hports, ?_, hex⟩
  rw [State.job, hjobs]
  simp [State.setJob]

/-! ## STRETCH_ON and STRETCH_OFF -/

theorem State.stretchNow_ctx {s : State} {c at_ k : Nat} (h : (s.ctx c).stretchTo = some (at_, k)) :
    ((s.stretchNow c).ctx c).stretch = k ∧ ((s.stretchNow c).ctx c).stretchTo = none ∧
    ((s.stretchNow c).ctx c).eff = (s.ctx c).runPeriod * 2 ^ k := by
  simp [State.stretchNow, h, Context.eff]

theorem State.stretchNow_frame (s : State) (c : Nat) :
    (∀ d, d ≠ c → (s.stretchNow c).ctx d = s.ctx d) ∧ (s.stretchNow c).panel = s.panel ∧ (s.stretchNow c).ports = s.ports ∧
    (s.stretchNow c).tcb = s.tcb := by
  simp only [State.stretchNow]
  split
  · exact ⟨fun _ _ => rfl, rfl, rfl, rfl⟩
  · exact ⟨fun d hd => State.ctx_modCtx_ne _ hd _, rfl, rfl, rfl⟩

theorem exec_stretchOn {s : State} (c : BitVec 6) {n k : Nat} (h : (s.ctx c.toNat).stretchTo = some (n, k + 1)) :
    exec (.stretchOn c) s = .next ((s.passTo n).stretchNow c.toNat) := by
  change execStretchOn c s = _
  simp [execStretchOn, h]

theorem exec_stretchOff_count {s : State} (c : BitVec 6) {n : Nat} (h : (s.ctx c.toNat).stretchTo = some (n, 0)) :
    exec (.stretchOff (.own c)) s = .next ((s.passTo n).stretchNow c.toNat) := by
  change Host.Outcome.next (s.stretchEnds c.toNat) = _
  simp [State.stretchEnds, h]

section
variable {s : State} {c : BitVec 6} {h : Nat} (ht : (s.ctx c.toNat).stretchTo = none)
  (hh : (s.ctx c.toNat).floorSince = some h) (hk : (s.ctx c.toNat).stretch ≠ 0)
include ht hh hk

theorem exec_stretchOff_own (hj : (s.ctx c.toNat).job = 0) :
    exec (.stretchOff (.own c)) s = .next ((s.passTo (h + 1000000000)).ownStretch c.toNat 0 (s.ctx c.toNat).eff) := by
  change Host.Outcome.next (s.stretchEnds c.toNat) = _
  simp [State.stretchEnds, ht, hh, hk, hj]

theorem exec_stretchOff_worker (hj : (s.ctx c.toNat).job ≠ 0) (hw : s.ep.role = 1) :
    exec (.stretchOff (.own c)) s =
      .next ((s.passTo (h + 1000000000)).ctl (.stepHeld s.modIndex (s.ctx c.toNat).job)) := by
  change Host.Outcome.next (s.stretchEnds c.toNat) = _
  simp only [State.stretchEnds, ht, hh, if_neg hk, if_pos (show (s.ctx c.toNat).job ≠ 0 ∧ s.ep.role = 1 from ⟨hj, hw⟩)]

end

theorem exec_stretchOff_report {s : State} (m : BitVec 10) {id : BitVec 16} (hm : s.ep.role = 2)
    (hj : s.ep.jobs.has id.toNat = true) :
    exec (.stretchOff (.worker m id)) s = .next (s.takeHeld m.toNat id.toNat) := by
  change execStretchOff (.worker m id) s = _
  simp [execStretchOff, hm, hj]

/-- The last of the modules that had asked reports: the restore's exchange opens (R39). -/
theorem State.takeHeld_opens {s : State} {m id : Nat} (hid : id < 2 ^ 16) (hb : s.exBusy = false) (hall : ∀ a ∈ (s.job id).askers, a = m)
    (hk : (s.job id).k ≠ 0) :
    let t := s.takeHeld m id
    t.ctxs = s.ctxs ∧ t.panel = s.panel ∧ t.ports = s.ports ∧ (t.job id).askers = [] ∧
    ∃ e, t.ep.ex = some e ∧ e.kind = .restore ∧ e.job = id ∧ e.manager = true ∧ s.tcb.now + 2000000 ≤ e.at_ := by
  have none_left : (s.job id).askers.filter (· != m) = [] := List.filter_eq_nil_iff.mpr fun a ha => by simp [hall a ha]
  simp only [State.takeHeld, none_left, List.isEmpty_nil, Bool.true_and, decide_eq_true_eq, if_pos hk]
  obtain ⟨hctxs, hpanel, hports, hjobs, e, hex, hkind, hjob, -, hman, hat⟩ := State.jobStretch_opens
    (s := s.setJob id { s.job id with askers := [] }) hid .restore 0 (2 ^ (s.job id).k * (s.job id).per) hb
  refine ⟨hctxs, hpanel, hports, ?_, e, hex, hkind, hjob, hman, hat⟩
  rw [State.job, hjobs]
  simp [State.setJob]

/-- Settles O36: each clause is the rule of its command above. -/
theorem stretchMultipliesThePeriod : Obligations.StretchMultipliesThePeriod := by
  intro s c x only
  refine ⟨fun stp p hp hr hf ht hj hpos => ⟨fun k hk hne => ?_, fun hk => ?_⟩, fun stp p hp hr hf ht hj hw => ?_,
    fun stp a k hm hj hb hk hlt => ?_, fun n k h => ?_, fun n h => ?_, fun h ht hh hk hj hpos => ?_,
    fun h ht hh hk hj hw => ?_, fun m id hm hj hb hall hk => ?_⟩
  -- STRETCH_REQUEST of a context without a job, and of a worker's; at the manager.
  · obtain ⟨least, fewer⟩ := stretchK_least hk
    have hunit : 0 < 2 ^ k * x.period := Nat.mul_pos (Nat.pow_pos (by omega)) hpos
    obtain ⟨hself, hother, hpanel, hports, -⟩ :=
      (s.modCtx c.toNat (fun y => { y with stretchNext := stp.toNat })).ownStretch_frame c.toNat k (2 ^ k * x.period)
    refine ⟨_, exec_stretchRequest_own hp hr hf ht hj hk hne, ⟨fun d hd => ?_, hpanel, hports⟩, least, fewer,
      ceilMul (s.tcb.now + 2000000) (2 ^ k * x.period), ?_, le_ceilMul .., ceilMul_lt _ hunit, ceilMul_mod _ hunit, ?_, ?_⟩
    · exact (hother d hd).trans (State.ctx_modCtx_ne _ hd _)
    · rw [hself]; rfl
    all_goals rw [hself, State.ctx_modCtx_self]
  · refine ⟨_, exec_stretchRequest_noRoom hp hr hf ht hj hk, ⟨fun d hd => State.ctx_modCtx_ne _ hd _, rfl, rfl⟩,
      s.agreed x.period, ?_, s.le_agreed _, ceilMul_mod _ hpos⟩
    rw [State.ctx_modCtx_self]
  · refine ⟨_, exec_stretchRequest_worker hp hr hf ht hj hw, ⟨fun d hd => ?_, rfl, rfl⟩, ?_, rfl⟩
    · rw [State.ctl_ctx, State.ctx_modCtx_ne _ hd]
    · rw [State.ctl_ctx, State.ctx_modCtx_self]
  · exact ⟨_, exec_stretchRequest_asked c stp hm hj, State.takeAsk_opens a.job.isLt hb hk hlt⟩
  -- STRETCH_ON and STRETCH_OFF at their counts.
  · obtain ⟨hother, hpanel, hports, htcb⟩ := (s.passTo n).stretchNow_frame c.toNat
    refine ⟨_, exec_stretchOn c h, ⟨hother, hpanel, hports⟩, ?_, State.stretchNow_ctx (s := s.passTo n) h⟩
    rw [htcb]; exact Nat.le_max_right ..
  · obtain ⟨hother, hpanel, hports, htcb⟩ := (s.passTo n).stretchNow_frame c.toNat
    obtain ⟨hk, hto, heff⟩ := State.stretchNow_ctx (s := s.passTo n) h
    refine ⟨_, exec_stretchOff_count c h, ⟨hother, hpanel, hports⟩, ?_, hk, hto, heff.trans (Nat.mul_one _)⟩
    rw [htcb]; exact Nat.le_max_right ..
  -- The step has been held for the time of R39.
  · obtain ⟨hself, hother, hpanel, hports, htcb⟩ := (s.passTo (h + 1000000000)).ownStretch_frame c.toNat 0 x.eff
    refine ⟨_, exec_stretchOff_own ht hh hk hj, ⟨hother, hpanel, hports⟩, ?_, (s.passTo (h + 1000000000)).agreed x.eff, ?_, ?_,
      ceilMul_mod _ hpos⟩
    · rw [htcb]; exact Nat.le_max_right ..
    · rw [hself]
    · rw [htcb]; exact State.le_agreed ..
  · exact ⟨_, exec_stretchOff_worker ht hh hk hj hw, ⟨fun _ _ => rfl, rfl, rfl⟩, rfl, Nat.le_max_right .., rfl⟩
  · exact ⟨_, exec_stretchOff_report m hm hj, State.takeHeld_opens id.isLt hb hall hk⟩

end Sys2Proof.Machine
end

section
/-! What ends with a CUT: the walks of a context, its packets at the stack ports, and its microbatches (R150, R248). -/
namespace Sys2Proof.Machine

open Sys2Proof

theorem Table.mem_of_find? {α : Type} {t : Table α} {n : Nat} {a : α} (h : t.find? n = some a) : (n, a) ∈ t := by
  induction t with
  | nil => simp [Table.find?] at h
  | cons e t ih =>
    obtain ⟨k, b⟩ := e
    simp only [Table.find?] at h
    split at h
    next hk => simp_all
    next hk => exact List.mem_cons_of_mem _ (ih h)

theorem Table.find?_erase_ne {α : Type} (t : Table α) {n m : Nat} (h : m ≠ n) : (t.erase n).find? m = t.find? m := by
  induction t with
  | nil => rfl
  | cons e t ih =>
    obtain ⟨k, b⟩ := e
    by_cases hk : k = n
    · subst hk
      rw [show Table.erase ((k, b) :: t) k = Table.erase t k from List.filter_cons_of_neg (by simp), ih, Table.find?, if_neg (Ne.symm h)]
    · rw [show Table.erase ((k, b) :: t) n = (k, b) :: Table.erase t n from List.filter_cons_of_pos (by simpa using hk), Table.find?, Table.find?, ih]

theorem State.ctx_congr {s t : State} (h : t.ctxs = s.ctxs) (c : Nat) : t.ctx c = s.ctx c := by
  rw [State.ctx, h]; rfl

theorem State.core_congr {s t : State} (h : t.panel = s.panel) (i : Nat) : t.core i = s.core i := by
  rw [State.core, State.blankCore, h]; rfl

/-- What a change of every core of a context makes of one core. -/
theorem State.core_mapOwned (s : State) (c : Nat) (f : Nat → Core → Core) (i : Nat) :
    (s.mapOwned c f).core i = if (s.core i).owner = some c then f i (s.core i) else s.core i := by
  have found (t : Table Core) : Table.find? (List.map (fun e => if e.2.owner == some c then (e.1, f e.1 e.2) else e) t) i =
      (t.find? i).map (fun k => if k.owner = some c then f i k else k) := by
    induction t with
    | nil => rfl
    | cons e t ih =>
      obtain ⟨k, b⟩ := e
      by_cases hk : k = i
      · by_cases ho : b.owner = some c <;> simp [Table.find?, ho, hk]
      · by_cases ho : b.owner = some c <;> simpa [Table.find?, ho, hk] using ih
  change (Option.getD (Table.find? (s.panel.cores.map _) i) s.blankCore) = _
  rw [found]
  simp only [State.core, Table.get]
  rcases Option.eq_none_or_eq_some (s.panel.cores.find? i) with h | ⟨k, h⟩
  · simp [h, State.blankCore]
  · simp [h]

/-! ## Walks -/

/-- The walk's end leaves contexts, counter and torus, and of every core all but its loan and its ranges. -/
structure EndsWalks (s t : State) : Prop where
  ctxs : t.ctxs = s.ctxs
  ep : t.ep = s.ep
  tcb : t.tcb = s.tcb
  core : ∀ i, ∃ lent ranges, t.core i = { s.core i with lent := lent, ranges := ranges }

theorem EndsWalks.refl (s : State) : EndsWalks s s := ⟨rfl, rfl, rfl, fun _ => ⟨_, _, rfl⟩⟩

theorem EndsWalks.trans {s t u : State} (h : EndsWalks s t) (k : EndsWalks t u) : EndsWalks s u where
  ctxs := k.ctxs.trans h.ctxs
  ep := k.ep.trans h.ep
  tcb := k.tcb.trans h.tcb
  core i := by
    obtain ⟨l, r, e⟩ := h.core i
    obtain ⟨l', r', e'⟩ := k.core i
    exact ⟨l', r', by rw [e', e]⟩

theorem State.modCore_endsWalks (s : State) (m : Nat) (f : Core → Core)
    (hf : ∀ k, ∃ lent ranges, f k = { k with lent := lent, ranges := ranges }) : EndsWalks s (s.modCore m f) where
  ctxs := rfl
  ep := rfl
  tcb := rfl
  core i := by
    by_cases h : i = m
    · subst h; rw [State.core_modCore_self]; exact hf _
    · exact ⟨_, _, State.core_setCore_ne _ h _⟩

theorem State.endIf_frame (s : State) (j : AttendJob) : s.endIf j = { s with ports := (s.endIf j).ports } := by
  simp only [State.endIf]
  split <;> rfl

/-- An ATTEND that is ended leaves its sequencer. -/
theorem State.leaveAttend_spec (s : State) (pod : Nat) : EndsWalks s (s.leaveAttend pod) ∧
    ∀ n j, (s.leaveAttend pod).panel.seqs.find? n = some j → n ≠ pod ∧ s.panel.seqs.find? n = some j := by
  rw [State.leaveAttend]
  split
  next h =>
    refine ⟨.refl s, fun n j hn => ⟨?_, hn⟩⟩
    rintro rfl
    simp [h] at hn
  next job h =>
    rw [State.endIf_frame]
    generalize (s.endIf job).ports = ps
    have left : EndsWalks s { s with ports := ps, panel := { s.panel with seqs := s.panel.seqs.erase pod } } :=
      ⟨rfl, rfl, rfl, fun i => ⟨_, _, rfl⟩⟩
    refine List.foldlRecOn (motive := fun t : State => EndsWalks s t ∧
      ∀ n j, t.panel.seqs.find? n = some j → n ≠ pod ∧ s.panel.seqs.find? n = some j) _ _ ⟨left, fun n j hn => ?_⟩ fun t ht m _ => ?_
    · by_cases hp : n = pod
      · subst hp
        exact absurd hn (by simp [Table.find?_erase_self])
      · exact ⟨hp, (Table.find?_erase_ne _ hp).symm.trans hn⟩
    · exact ⟨ht.1.trans (t.modCore_endsWalks _ _ fun k => ⟨_, _, rfl⟩), ht.2⟩

/-- No ATTEND is of this context. -/
def State.noWalk (s : State) (c : Nat) : Prop := ∀ n j, s.panel.seqs.find? n = some j → j.ctx ≠ c

theorem State.endWalks_spec (s : State) (c : Nat) : EndsWalks s (s.endWalks c) ∧ (s.endWalks c).noWalk c := by
  have run (l : List Nat) : EndsWalks s (l.foldl State.leaveAttend s) ∧
      ∀ n j, (l.foldl State.leaveAttend s).panel.seqs.find? n = some j → n ∉ l ∧ s.panel.seqs.find? n = some j := by
    induction l using List.reverseRecOn with
    | nil => exact ⟨.refl s, fun n j hn => ⟨List.not_mem_nil, hn⟩⟩
    | append_singleton l pod ih =>
      rw [List.foldl_append]
      obtain ⟨left, gone⟩ := State.leaveAttend_spec (l.foldl State.leaveAttend s) pod
      refine ⟨ih.1.trans left, fun n j hn => ?_⟩
      obtain ⟨hne, hfind⟩ := gone n j hn
      obtain ⟨hl, hs⟩ := ih.2 n j hfind
      exact ⟨by simp [hl, hne], hs⟩
  refine ⟨(run _).1, fun n j hn hj => ?_⟩
  obtain ⟨hout, hfind⟩ := (run _).2 n j hn
  refine hout (List.mem_map.mpr ⟨(n, j), List.mem_filter.mpr ⟨Table.mem_of_find? hfind, ?_⟩, rfl⟩)
  simpa using hj

/-! ## Packets at the stack ports -/

/-- The flush of a context's packets leaves the panel, the counter and every other context; of its own context it leaves the
frame count, and of the torus all but the messages that go out. -/
structure Flushes (c : Nat) (s t : State) : Prop where
  other : ∀ d, d ≠ c → t.ctx d = s.ctx d
  fcount : (t.ctx c).fcount = (s.ctx c).fcount
  panel : t.panel = s.panel
  tcb : t.tcb = s.tcb
  ep : t.ep = { s.ep with ctl := t.ep.ctl }

theorem Flushes.refl (c : Nat) (s : State) : Flushes c s s := ⟨fun _ _ => rfl, rfl, rfl, rfl, rfl⟩

theorem Flushes.trans {c : Nat} {s t u : State} (h : Flushes c s t) (k : Flushes c t u) : Flushes c s u where
  other d hd := (k.other d hd).trans (h.other d hd)
  fcount := k.fcount.trans h.fcount
  panel := k.panel.trans h.panel
  tcb := k.tcb.trans h.tcb
  ep := by rw [k.ep, h.ep]

theorem Flushes.foldl {α : Type} {c : Nat} {f : State → α → State} {s : State} (hf : ∀ t a, t.panel = s.panel → Flushes c t (f t a))
    (l : List α) : Flushes c s (l.foldl f s) :=
  List.foldlRecOn _ _ (.refl c s) fun _ h _ _ => h.trans (hf _ _ h.panel)

theorem State.modPort_flushes (s : State) (c p : Nat) (f : StackPort → StackPort) : Flushes c s (s.modPort p f) :=
  ⟨fun _ _ => rfl, rfl, rfl, rfl, rfl⟩

theorem State.ctxFault_flushes (s : State) (c code source arg0 arg1 : Nat) : Flushes c s (s.ctxFault c code source arg0 arg1) where
  other d hd := s.ctxFault_ctx_ne hd ..
  fcount := by
    rcases (s.ctxFault_faultsOnly c code source arg0 arg1).ctx c with e | ⟨-, e⟩
    · rw [e]
    · rw [e]; rfl
  panel := State.ctxFault_panel ..
  tcb := State.ctxFault_tcb ..
  ep := s.ctxFault_ep ..

/-- A QREAD that is stopped has no stream that it would mark dead. -/
theorem State.stopPacket_flushes (s : State) (p c q : Nat) {k : QPacket} (hk : k.read = true) (source : Nat) (f : Nat × Nat × Nat) :
    Flushes c s (s.stopPacket p c q k source f) := by
  have kept (t : State) (r : StreamRec) (g : Core) :
      (if g.owner = some c ∧ !k.read then t.setCore k.core (g.setStream { r with dead := true }) else t) = t := if_neg (by simp [hk])
  simp only [State.stopPacket, kept]
  split <;> exact (s.modPort_flushes ..).trans (State.ctxFault_flushes ..)

theorem State.endEmpty_flushes (s : State) (p c q : Nat) {k : QPacket} (hk : k.read = true) (t : Sending) (pos : Nat) :
    Flushes c s (s.endEmpty p c q k t pos) := by
  simp only [State.endEmpty]
  split
  · exact (s.modPort_flushes ..).trans (State.stopPacket_flushes _ _ _ _ hk ..)
  · rw [State.endRead]
    exact (s.modPort_flushes ..).trans (State.modPort_flushes ..)

/-- An access of a context none of whose ATTENDs is there any longer gives its bytes to nobody. -/
theorem State.attServed_of_noWalk {s : State} {c : Nat} (h : s.noWalk c) (w : AttAcc) (bs : List Byte) : s.attServed c w bs = s := by
  simp only [State.attServed]
  cases hf : s.panel.seqs.find? w.pod with
  | some j => simp [h _ _ hf]
  | none =>
    rw [if_neg (by simp)]
    split
    · simp only [State.pageServed, hf]
    · simp only [State.appendServed, hf]
    · simp only [State.selectorRead, hf]
    · simp only [State.directoryRead, hf]
    · simp only [State.entriesRead, hf]

theorem State.flushPacket_flushes {s : State} {c : Nat} (h : s.noWalk c) (p q : Nat) (k : QPacket) :
    Flushes c s (s.flushPacket p c q k) := by
  simp only [State.flushPacket]
  split
  · rw [State.attServed_of_noWalk (s := s.setPair ..) h]
    exact s.modPort_flushes ..
  · split
    next hk => exact s.endEmpty_flushes _ _ _ hk ..
    · exact s.modPort_flushes ..

theorem State.postCtx_flushes (s : State) (c x code source arg0 arg1 : Nat) : Flushes c s (s.postCtx x code source arg0 arg1) :=
  ⟨fun _ _ => by simp, by simp, by simp, by simp, by simp⟩

theorem State.flushPair_flushes {s : State} {c : Nat} (h : s.noWalk c) (p q : Nat) : Flushes c s (s.flushPair p c q) := by
  have packets (t : State) (ht : t.panel = s.panel) (l : List QPacket) : Flushes c t (l.foldl (fun t k => t.flushPacket p c q k) t) :=
    .foldl (fun u k hu => State.flushPacket_flushes (by rw [State.noWalk, hu, ht]; exact h) p q k) l
  exact ((s.modPort_flushes ..).trans (packets (s.setPair ..) rfl _)).trans (State.postCtx_flushes ..)

theorem State.flushCtx_flushes {s : State} {c : Nat} (h : s.noWalk c) : Flushes c s (s.flushCtx c) :=
  .foldl (fun t e ht => State.flushPair_flushes (by rw [State.noWalk, ht]; exact h) e.1 e.2) _

/-! ## CUT -/

/-- What a CUT does: its own context loses its microbatches, its cores stop with no stream left, and no other context changes
(R248). -/
theorem State.cutQuiesce_spec (s : State) (c : Nat) :
    (∀ d, d ≠ c → (s.cutQuiesce c).ctx d = s.ctx d) ∧ ((s.cutQuiesce c).ctx c).fcount = (s.ctx c).fcount ∧
    ((s.cutQuiesce c).ctx c).batches = [] ∧ (s.cutQuiesce c).tcb = s.tcb ∧
    (s.cutQuiesce c).ep = { s.ep with ctl := (s.cutQuiesce c).ep.ctl } ∧
    ∀ i, (s.core i).owner = some c → ∃ lent ranges,
      (s.cutQuiesce c).core i = { (s.core i).dropStreams with issuing := false, lent := lent, ranges := ranges } := by
  obtain ⟨walks, clear⟩ := (s.mapOwned c (fun _ k => { k.dropStreams with issuing := false })).endWalks_spec c
  have flush := State.flushCtx_flushes clear
  simp only [State.cutQuiesce]
  generalize ((s.mapOwned c (fun _ k => { k.dropStreams with issuing := false })).endWalks c).flushCtx c = t at flush
  refine ⟨fun d hd => ?_, ?_, ?_, ?_, ?_, fun i hi => ?_⟩
  · rw [State.endBatches_ctx_ne _ hd, flush.other d hd, State.ctx, walks.ctxs]
    rfl
  · rw [State.endBatches_ctx_self]
    change (t.ctx c).fcount = _
    rw [flush.fcount, State.ctx, walks.ctxs]
    rfl
  · rw [State.endBatches_ctx_self]
  · rw [State.endBatches_tcb, flush.tcb, walks.tcb]
    rfl
  · rw [State.endBatches_ep, flush.ep, walks.ep]
    rfl
  · obtain ⟨lent, ranges, e⟩ := walks.core i
    rw [State.core_mapOwned, if_pos hi] at e
    refine ⟨lent, ranges, ?_⟩
    rw [State.endBatches_core, State.core_congr flush.panel]
    exact e

end Sys2Proof.Machine
end

section
/-! FRAME_RUNAWAY and QUIESCE_TICK (R41, R248). -/
namespace Sys2Proof.Machine

open Sys2Proof

/-- A change of one context and of nothing else but the rings of the host. -/
structure OnlyContextAndRings (c : Nat) (s t : State) : Prop where
  other : ∀ d, d ≠ c → t.ctx d = s.ctx d
  panel : t.panel = s.panel
  ports : t.ports = s.ports
  tcb : t.tcb = s.tcb

theorem OnlyContextAndRings.trans {c : Nat} {s t u : State} (h : OnlyContextAndRings c s t) (k : OnlyContextAndRings c t u) :
    OnlyContextAndRings c s u :=
  ⟨fun d hd => (k.other d hd).trans (h.other d hd), k.panel.trans h.panel, k.ports.trans h.ports, k.tcb.trans h.tcb⟩

theorem State.modCtx_onlyContext (s : State) (c : Nat) (f : Context → Context) : OnlyContextAndRings c s (s.modCtx c f) :=
  ⟨fun _ hd => State.ctx_modCtx_ne _ hd _, rfl, rfl, rfl⟩

theorem State.postCtx_onlyContext (s : State) (c x code source arg0 arg1 : Nat) :
    OnlyContextAndRings c s (s.postCtx x code source arg0 arg1) := ⟨fun _ _ => by simp, by simp, by simp, by simp⟩

/-! ## The look for overruns (R40) -/

theorem State.findOverruns_spec (s : State) (c : Nat) : OnlyContextAndRings c s (s.findOverruns c) ∧
    ∃ o bs, (s.findOverruns c).ctx c = { s.ctx c with overruns := o, batches := bs } := by
  simp only [State.findOverruns]
  split
  · exact ⟨⟨fun _ _ => rfl, rfl, rfl, rfl⟩, _, _, rfl⟩
  · refine ⟨(s.modCtx_onlyContext ..).trans (State.postCtx_onlyContext ..), ?_⟩
    rw [State.postCtx_ctx, State.ctx_modCtx_self]
    exact ⟨_, _, rfl⟩

theorem State.lookOverruns_spec (s : State) (c n : Nat) : OnlyContextAndRings c s (s.lookOverruns c n) ∧
    ∃ o bs, (s.lookOverruns c n).ctx c = { s.ctx c with overruns := o, batches := bs, lookedAt := n } := by
  have looked : (s.modCtx c (fun y => { y with lookedAt := n })).ctx c = { s.ctx c with lookedAt := n } := State.ctx_modCtx_self ..
  simp only [State.lookOverruns]
  split
  · obtain ⟨only, o, bs, h⟩ := (s.modCtx c (fun y => { y with lookedAt := n })).findOverruns_spec c
    exact ⟨(s.modCtx_onlyContext ..).trans only, o, bs, by rw [h, looked]⟩
  · exact ⟨s.modCtx_onlyContext .., _, _, looked⟩

/-! ## FRAME_RUNAWAY -/

theorem exec_frameRunaway {s : State} (c : BitVec 6) {i : Nat} (hr : (s.ctx c.toNat).st = .running) (hi : s.runaway? c.toNat = some i) :
    exec (.frameRunaway c) s = .next (s.ctxFault c.toNat 0x0601 (srcCore i) (((s.ctx c.toNat).fcount - 3) % 2 ^ 32) 0) := by
  change Host.Outcome.next (s.runaway c.toNat) = _
  simp [State.runaway, hr, hi]

/-- A core lives in a RUNNING context only. -/
theorem State.coreLive_eq_false {s : State} {c i : Nat} (ho : (s.core i).owner = some c) (hs : (s.ctx c).st ≠ .running) :
    s.coreLive i = false := by
  simp [State.coreLive, ho, hs]

/-! ## QUIESCE_TICK -/

/-- What a command does under the count of the coming tick leaves the frame count as it found it (R280). -/
theorem State.underCount_spec (s : State) (c : Nat) (f : State → State) (hf : ∀ t n, t.ctx c = { s.ctx c with fcount := n } → ((f t).ctx c).fcount = (t.ctx c).fcount) :
    ∃ u, OnlyContextAndRings c s u ∧ (∃ n, u.ctx c = { s.ctx c with fcount := n }) ∧
      OnlyContextAndRings c (f u) (s.underCount c f) ∧
      (s.underCount c f).ctx c = { (f u).ctx c with fcount := (s.ctx c).fcount } := by
  simp only [State.underCount]
  split
  · exact ⟨_, s.modCtx_onlyContext .., ⟨_, State.ctx_modCtx_self ..⟩, State.modCtx_onlyContext .., State.ctx_modCtx_self ..⟩
  · refine ⟨s, ⟨fun _ _ => rfl, rfl, rfl, rfl⟩, ⟨_, rfl⟩, ⟨fun _ _ => rfl, rfl, rfl, rfl⟩, ?_⟩
    rw [← hf s _ rfl]

/-- The quiesce ends: what its context is from then on. -/
theorem State.quiesced_spec (s : State) (c : Nat) (q : Quiesce) : OnlyContextAndRings c s (s.quiesced c q) ∧
    ∃ r, (s.quiesced c q).ctx c = { s.ctx c with st := q.ends, cutq := q.cut, quiesce := none, rebindTo := r } := by
  simp only [State.quiesced]
  split
  · refine ⟨⟨fun d hd => ?_, ?_, ?_, ?_⟩, ?_⟩
    · rw [State.complete_ctx, State.ctx_modCtx_ne _ hd]
    · simp
    · simp
    · simp
    · rw [State.complete_ctx, State.ctx_modCtx_self]
      exact ⟨_, rfl⟩
  · exact ⟨s.modCtx_onlyContext .., _, State.ctx_modCtx_self ..⟩

/-- The part of the quiesce tick that acts on the context: the overruns of the tick, then CUT, or DRAIN with its first stage. -/
def State.atQuiesce (s : State) (c : Nat) (q : Quiesce) (n : Nat) : State :=
  ((s.lookOverruns c n).quiesceNow c q n).drainStep c n

theorem exec_quiesceTick {s : State} (c : BitVec 6) {q : Quiesce} (hr : (s.ctx c.toNat).st = .running)
    (hq : (s.ctx c.toNat).quiesce = some q) (hn : q.q = none) : exec (.quiesceTick c) s =
      .next ((s.passTo q.at_).underCount c.toNat (fun t => t.atQuiesce c.toNat q ((s.ctx c.toNat).tickNo + 1))) := by
  change execQuiesceTick c s = _
  simp [execQuiesceTick, hr, hq, hn, State.atQuiesce]

theorem State.atQuiesce_cut (s : State) (c : Nat) {q : Quiesce} (hc : q.cut = true) (n : Nat) :
    s.atQuiesce c q n = ((s.lookOverruns c n).cutQuiesce c).quiesced c q := by
  obtain ⟨-, r, h⟩ := ((s.lookOverruns c n).cutQuiesce c).quiesced_spec c q
  simp only [State.atQuiesce, State.quiesceNow, if_pos hc]
  rw [State.drainStep, h]

/-- Before its last stage a DRAIN holds the stages whose tick has come. -/
theorem State.drainStep_holds {s : State} {c n t : Nat} {q : Quiesce} (hq : (s.ctx c).quiesce = some q) (ht : q.q = some t)
    (hl : n + 1 < t + (s.ctx c).stages) : s.drainStep c n = s.modCtx c (fun y =>
      { y with held := y.held ++ (List.range (s.ctx c).stages).filter (fun k => decide (t + k ≤ n) && !(s.ctx c).held.contains k) }) := by
  simp only [State.drainStep, hq, ht, if_neg (Nat.not_le.mpr hl)]

/-- Under DRAIN stage 0 of several is held, and the context runs on. -/
theorem State.atQuiesce_drain (s : State) (c : Nat) {q : Quiesce} (hc : q.cut = false) (hs : 1 < (s.ctx c).stages) (n : Nat) :
    OnlyContextAndRings c s (s.atQuiesce c q n) ∧
    ((s.atQuiesce c q n).ctx c).st = (s.ctx c).st ∧ ((s.atQuiesce c q n).ctx c).fcount = (s.ctx c).fcount ∧
    0 ∈ ((s.atQuiesce c q n).ctx c).held := by
  obtain ⟨only, o, bs, look⟩ := s.lookOverruns_spec c n
  have at0 : ((s.lookOverruns c n).modCtx c (fun x => { x with quiesce := some { q with q := some n } })).ctx c =
      { s.ctx c with overruns := o, batches := bs, lookedAt := n, quiesce := some { q with q := some n } } := by
    rw [State.ctx_modCtx_self, look]
  have hq : (((s.lookOverruns c n).modCtx c (fun x => { x with quiesce := some { q with q := some n } })).ctx c).quiesce =
      some { q with q := some n } := by rw [at0]
  have hl : n + 1 < n + (((s.lookOverruns c n).modCtx c (fun x => { x with quiesce := some { q with q := some n } })).ctx c).stages := by
    rw [at0]
    exact Nat.add_lt_add_left hs n
  rw [State.atQuiesce, State.quiesceNow, if_neg (by simp [hc]), State.drainStep_holds hq rfl hl]
  refine ⟨(only.trans (State.modCtx_onlyContext ..)).trans (State.modCtx_onlyContext ..), ?_⟩
  rw [State.ctx_modCtx_self, at0]
  refine ⟨rfl, rfl, ?_⟩
  change 0 ∈ (s.ctx c).held ++ (List.range (s.ctx c).stages).filter (fun k => decide (n + k ≤ n) && !(s.ctx c).held.contains k)
  by_cases hheld : 0 ∈ (s.ctx c).held
  · exact List.mem_append_left _ hheld
  · exact List.mem_append_right _ (List.mem_filter.mpr ⟨List.mem_range.mpr (by omega), by simpa using hheld⟩)

/-- At a CUT the context stops with its microbatches and its cores with their streams (R248). -/
theorem State.atQuiesce_cut_spec (s : State) (c : Nat) {q : Quiesce} (hc : q.cut = true) (n : Nat) :
    (∀ d, d ≠ c → (s.atQuiesce c q n).ctx d = s.ctx d) ∧ (s.atQuiesce c q n).tcb = s.tcb ∧
    ((s.atQuiesce c q n).ctx c).st = q.ends ∧ ((s.atQuiesce c q n).ctx c).cutq = true ∧
    ((s.atQuiesce c q n).ctx c).quiesce = none ∧ ((s.atQuiesce c q n).ctx c).batches = [] ∧
    ((s.atQuiesce c q n).ctx c).fcount = (s.ctx c).fcount ∧
    ∀ i, (s.core i).owner = some c → ∃ lent ranges,
      (s.atQuiesce c q n).core i = { (s.core i).dropStreams with issuing := false, lent := lent, ranges := ranges } := by
  obtain ⟨only, o, bs, look⟩ := s.lookOverruns_spec c n
  obtain ⟨other, hfc, hbs, htcb, -, hcores⟩ := (s.lookOverruns c n).cutQuiesce_spec c
  obtain ⟨ended, r, hend⟩ := ((s.lookOverruns c n).cutQuiesce c).quiesced_spec c q
  rw [State.atQuiesce_cut s c hc n, hend]
  refine ⟨fun d hd => ?_, ?_, rfl, hc, rfl, hbs, ?_, fun i hi => ?_⟩
  · rw [ended.other d hd, other d hd, only.other d hd]
  · rw [ended.tcb, htcb, only.tcb]
  · exact hfc.trans (by rw [look])
  · have same : (s.lookOverruns c n).core i = s.core i := State.core_congr only.panel i
    obtain ⟨lent, ranges, e⟩ := hcores i (by rw [same]; exact hi)
    exact ⟨lent, ranges, by rw [State.core_congr ended.panel, e, same]⟩

/-- Settles O30: a runaway is a fault of its context; CUT and DRAIN act under the count of the quiesce tick. -/
theorem runawayAndQuiesceStopTheContext : Obligations.RunawayAndQuiesceStopTheContext := by
  intro s c x
  refine ⟨fun i hr hi => ?_, fun q hr hq hn => ⟨fun hcut => ?_, fun hcut hs => ?_⟩⟩
  · have faulted := State.ctxFault_ctx_live (s := s) (c := c.toNat) (.inr (.inl hr)) 0x0601 (srcCore i) (((s.ctx c.toNat).fcount - 3) % 2 ^ 32) 0
    refine ⟨_, exec_frameRunaway c hr hi, ?_, ?_, ?_, fun j => State.ctxFault_core .., fun j ho => ?_, fun d hd => s.ctxFault_ctx_ne hd ..,
      State.ctxFault_ports ..⟩
    iterate 3 rw [faulted]; rfl
    exact State.coreLive_eq_false ho (by rw [faulted]; simp [Context.faulted])
  · obtain ⟨u, before, -, after, hctx⟩ := (s.passTo q.at_).underCount_spec c.toNat
      (fun t => t.atQuiesce c.toNat q (x.tickNo + 1)) fun t n _ => by
        obtain ⟨-, -, -, -, -, -, hfc, -⟩ := t.atQuiesce_cut_spec c.toNat hcut (x.tickNo + 1)
        exact hfc
    obtain ⟨other, htcb, hst, hcutq, hquiesce, hbs, -, hcores⟩ := u.atQuiesce_cut_spec c.toNat hcut (x.tickNo + 1)
    refine ⟨_, exec_quiesceTick c hr hq hn, ?_⟩
    beta_reduce
    rw [hctx, after.tcb, htcb, before.tcb]
    refine ⟨?_, hcutq, hquiesce, hbs, rfl, Nat.le_max_right .., fun i _ ho => ?_, fun d hd => ?_⟩
    · rw [hst, Quiesce.ends]
      cases q.why <;> rfl
    · have same : u.core i = s.core i := State.core_congr before.panel i
      obtain ⟨lent, ranges, e⟩ := hcores i (by rw [same]; exact ho)
      rw [State.core_congr after.panel, e, same]
      exact ⟨rfl, rfl, rfl, rfl⟩
    · exact (after.other d hd).trans ((other d hd).trans (before.other d hd))
  · have stages (t : State) (n : Nat) (ht : t.ctx c.toNat = { x with fcount := n }) : 1 < (t.ctx c.toNat).stages := by
      rw [ht]; exact hs
    obtain ⟨u, before, ⟨n, hu⟩, after, hctx⟩ := (s.passTo q.at_).underCount_spec c.toNat
      (fun t => t.atQuiesce c.toNat q (x.tickNo + 1)) fun t n ht => by
        obtain ⟨-, -, hfc, -⟩ := t.atQuiesce_drain c.toNat hcut (stages t n ht) (x.tickNo + 1)
        exact hfc
    obtain ⟨only, hst, -, hheld⟩ := u.atQuiesce_drain c.toNat hcut (stages u n hu) (x.tickNo + 1)
    refine ⟨_, exec_quiesceTick c hr hq hn, ?_⟩
    have all := (before.trans only).trans after
    beta_reduce
    rw [hctx, all.tcb]
    refine ⟨hst.trans ?_, hheld, rfl, Nat.le_max_right .., fun i => ?_, all.ports, all.other⟩
    · rw [hu]; exact hr
    · exact State.core_congr all.panel i

end Sys2Proof.Machine
end

section
/-! PREPARE, MERGED_REPLY and EXCHANGE_DECISION (R42, R210, R235). -/
namespace Sys2Proof.Machine

open Sys2Proof

/-! ## What goes out (R235, R219) -/

theorem State.spread_leaf {s : State} {p : Nat} (h : s.children p = []) (m : CtlMsg) : s.spread p m = s := by
  simp [State.spread, h]

theorem State.spread_sends {s : State} {p : Nat} (h : s.children p ≠ []) (hr : s.ep.req ≠ 1) (m : CtlMsg) : s.spread p m = s.ctl m := by
  rw [State.spread, if_neg]
  simpa [h] using hr

/-- A reply is held in the exchange until all is in; then it goes out with the answers merged so far. -/
theorem State.tryReply_spec (s : State) (e : Exchange) : ∃ r,
    s.tryReply e = { s with ep := { s.ep with ctl := (s.tryReply e).ep.ctl, ex := some { e with replied := r } } } ∧
    ∀ m, m ∈ s.ep.ctl → m ∈ (s.tryReply e).ep.ctl := by
  simp only [State.tryReply]
  split
  · exact ⟨e.replied, rfl, fun _ h => h⟩
  · exact ⟨true, rfl, fun _ h => List.mem_append_left _ h⟩

/-- Every answer is in: the merged reply goes out. -/
theorem State.tryReply_complete {s : State} {e : Exchange} (hm : e.manager = false) (hr : e.replied = false) (hw : e.waiting = [])
    (ho : e.ownIn = true) (hl : s.ep.mgrLost = false) :
    s.tryReply e = (s.setEx (some { e with replied := true })).ctl (.merged e.upPort e.acks e.nak) := by
  simp [State.tryReply, hm, hr, hw, ho, hl]

theorem State.tryReply_waits {s : State} {e : Exchange} (hw : e.waiting ≠ []) : s.tryReply e = s.setEx (some e) := by
  simp [State.tryReply, hw]

theorem State.tryRelay_complete {s : State} {e : Exchange} (hr : e.replied = false) (hw : e.waiting = []) (hl : s.ep.mgrLost = false) :
    s.tryRelay e = ({ s with ep := { s.ep with relay := some { e with replied := true } } }).ctl (.merged e.upPort e.acks e.nak) := by
  simp [State.tryRelay, hr, hw, hl]

theorem State.tryRelay_waits {s : State} {e : Exchange} (hw : e.waiting ≠ []) :
    s.tryRelay e = { s with ep := { s.ep with relay := some e } } := by
  simp [State.tryRelay, hw]

/-! ## PREPARE -/

section
variable {s : State} {p : PrepareMsg} (hw : s.ep.role = 1) (hl : s.ep.mgrLost = false) (hp : p.port.toNat < 6)
include hw hl hp

theorem exec_prepare_busy (hb : s.exBusy = true) : exec (.prepare p) s =
    .next ((s.spread p.port.toNat (.prepare p)).tryRelay ((s.newEx p false none).busy s.modIndex)) := by
  change execPrepare p s = _
  simp [execPrepare, hw, hl, Nat.not_le.mpr hp, hb]

theorem exec_prepare_free (hb : s.exBusy = false) : exec (.prepare p) s =
    .next ((s.spread p.port.toNat (.prepare p)).tryReply (s.newEx p false none)) := by
  change execPrepare p s = _
  simp [execPrepare, hw, hl, Nat.not_le.mpr hp, hb]

end

/-- The module's own answer as an exchange first holds it (R42). -/
theorem State.newEx_answer (s : State) (p : PrepareMsg) (manager : Bool) (d : Option Taken) :
    (p.kind = .tables → (s.newEx p manager d).acked = true ∧ (s.newEx p manager d).nak = none) ∧
    (∀ c, p.kind ≠ .tables → s.jobCtx p.job.toNat = some c →
      (s.newEx p manager d).acked = decide (s.exAnswer c p = none) ∧
      (s.newEx p manager d).nak = (s.exAnswer c p).map (fun r => (s.modIndex, r))) ∧
    (p.kind ≠ .tables → s.jobCtx p.job.toNat = none → (s.newEx p manager d).acked = false ∧ (s.newEx p manager d).nak = none) := by
  refine ⟨fun hk => ?_, fun c hk hc => ?_, fun hk hc => ?_⟩
  · simp [State.newEx, hk]
  · cases ha : s.exAnswer c p <;> simp [State.newEx, hk, hc, ha]
  · simp [State.newEx, hk, hc]

theorem State.prepare_busy_spec (s : State) (p : PrepareMsg) (hl : s.ep.mgrLost = false) :
    let t := (s.spread p.port.toNat (.prepare p)).tryRelay ((s.newEx p false none).busy s.modIndex)
    t = { s with ep := t.ep } ∧ t.ep.ex = s.ep.ex ∧
      ∃ e, t.ep.relay = some e ∧ e.job = p.job.toNat ∧ e.nak = some (s.modIndex, 8) ∧ e.acks = 0 ∧
        e.waiting = s.children p.port.toNat ∧
        (s.children p.port.toNat = [] → .merged p.port.toNat 0 (some (s.modIndex, 8)) ∈ t.ep.ctl) ∧
        (s.children p.port.toNat ≠ [] → s.ep.req ≠ 1 → .prepare p ∈ t.ep.ctl) := by
  by_cases hc : s.children p.port.toNat = []
  · rw [State.spread_leaf hc, State.tryRelay_complete rfl hc hl]
    exact ⟨rfl, rfl, _, rfl, rfl, rfl, rfl, rfl, fun _ => List.mem_append_right _ (List.mem_singleton_self _), fun h => absurd hc h⟩
  · rw [State.tryRelay_waits hc]
    refine ⟨?_, ?_, _, rfl, rfl, rfl, rfl, rfl, fun h => absurd h hc, fun _ hr => ?_⟩
    · rw [State.spread_frame]
    · rw [State.spread_frame]
    · rw [State.spread_sends hc hr]
      exact List.mem_append_right _ (List.mem_singleton_self _)

theorem State.prepare_free_spec (s : State) (p : PrepareMsg) (hl : s.ep.mgrLost = false) :
    let t := (s.spread p.port.toNat (.prepare p)).tryReply (s.newEx p false none)
    t = { s with ep := t.ep } ∧
      t.ep.ex = some { s.newEx p false none with replied := decide (s.children p.port.toNat = []) } ∧
      (s.children p.port.toNat = [] → .merged p.port.toNat (s.newEx p false none).acks (s.newEx p false none).nak ∈ t.ep.ctl) ∧
      (s.children p.port.toNat ≠ [] → s.ep.req ≠ 1 → .prepare p ∈ t.ep.ctl) := by
  by_cases hc : s.children p.port.toNat = []
  · rw [State.spread_leaf hc, State.tryReply_complete rfl rfl hc rfl hl]
    refine ⟨rfl, ?_, fun _ => List.mem_append_right _ (List.mem_singleton_self _), fun h => absurd hc h⟩
    simp [State.setEx, State.ctl, hc]
  · rw [State.tryReply_waits hc]
    refine ⟨?_, ?_, fun h => absurd h hc, fun _ hr => ?_⟩
    · rw [State.spread_frame]; rfl
    · rw [decide_eq_false hc]; rfl
    · rw [State.spread_sends hc hr]
      exact List.mem_append_right _ (List.mem_singleton_self _)

/-! ## MERGED_REPLY -/

theorem exec_mergedReply {s : State} {r : MergedMsg} {e : Exchange} (he : s.ep.ex = some e) (hp : r.port.toNat < 6)
    (hw : e.waiting.contains r.port.toNat = true) : exec (.mergedReply r) s = .next (s.tryReply (e.merge r)) := by
  have awaits : e.awaits r.port.toNat = true := by rw [Exchange.awaits, if_neg (Nat.not_le.mpr hp), hw]
  have found : s.ep.ex.filter (fun e => e.awaits r.port.toNat) = some e := by simp [he, Option.filter_some, awaits]
  change execMergedReply r s = _
  simp only [execMergedReply, found, if_neg (Nat.not_le.mpr hp)]

/-! ## EXCHANGE_DECISION -/

theorem exec_exchangeDecision {s : State} {e : Exchange} (he : s.ep.ex = some e) (hm : e.manager = true) (hg : e.go = false) :
    exec .exchangeDecision s = .next (match s.missing e with
      | some n => (s.passTo (e.at_ - 1000000)).managerAbort e n
      | none => (s.passTo (e.at_ - 1000000)).holdGo e) := by
  change execExchangeDecision s = _
  simp only [execExchangeDecision, he, hm, hg]
  rfl

/-- GO of a stretch or restore posts an event and changes nothing else (R39). -/
theorem State.tellGo_frame (s : State) (e : Exchange) :
    s.tellGo e = { s with link := (s.tellGo e).link, fns := (s.tellGo e).fns } := by
  simp only [State.tellGo]
  split
  · exact State.tellStretch_frame ..
  · exact State.tellStretch_frame ..
  · rfl

/-- What an exchange is once GO has gone out: its second round is open, and the answers of PREPARE are cleared. -/
def Exchange.secondPhase (e : Exchange) (children : List Nat) : Exchange :=
  { e with go := true, replied := false, acks := 0, nak := none, waiting := children, started := 0, deadline := e.at_ + 900000 }

/-- GO arms the member's context for the count and opens the second phase; nothing else changes (R42). -/
theorem State.holdGo_spec (s : State) (e : Exchange) :
    (s.holdGo e).ep.ex = some (e.secondPhase (s.children e.upPort)) ∧
    (e.ctx < 64 → (s.holdGo e).ctx e.ctx = (s.ctx e.ctx).takeGo e) ∧ (∀ d, d ≠ e.ctx → (s.holdGo e).ctx d = s.ctx d) ∧
    (s.holdGo e).panel = s.panel ∧ (s.holdGo e).ports = s.ports ∧ (s.holdGo e).tcb = s.tcb := by
  by_cases hc : e.ctx < 64
  · have armed : s.holdGo e = ((((s.modCtx e.ctx (fun x => x.takeGo e)).tellGo e).spread e.upPort (.go e.job e.ctx)).setEx
        (some (e.secondPhase (s.children e.upPort)))) := by
      simp only [State.holdGo, if_pos hc]; rfl
    rw [armed, State.spread_frame, State.tellGo_frame]
    have ctxs {t : State} (h : t.ctxs = (s.modCtx e.ctx (fun x => x.takeGo e)).ctxs) (d : Nat) := State.ctx_congr h d
    exact ⟨rfl, fun _ => (ctxs rfl _).trans (State.ctx_modCtx_self ..), fun d hd => (ctxs rfl d).trans (State.ctx_modCtx_ne _ hd _), rfl, rfl, rfl⟩
  · have armed : s.holdGo e = (s.spread e.upPort (.go e.job e.ctx)).setEx (some (e.secondPhase (s.children e.upPort))) := by
      simp only [State.holdGo, if_neg hc]; rfl
    rw [armed, State.spread_frame]
    exact ⟨rfl, fun h => absurd h hc, fun _ _ => rfl, rfl, rfl, rfl⟩

/-! ## ABORT -/

/-- From `s` to `t` at most this context has changed; of the torus's books only the messages that go out, and the counter stays. -/
structure LeavesMember (c : Nat) (s t : State) : Prop where
  other : ∀ d, d ≠ c → t.ctx d = s.ctx d
  ep : t.ep = { s.ep with ctl := t.ep.ctl }
  tcb : t.tcb = s.tcb

theorem LeavesMember.refl (c : Nat) (s : State) : LeavesMember c s s := ⟨fun _ _ => rfl, rfl, rfl⟩

theorem LeavesMember.trans {c : Nat} {s t u : State} (h : LeavesMember c s t) (k : LeavesMember c t u) : LeavesMember c s u :=
  ⟨fun d hd => (k.other d hd).trans (h.other d hd), by rw [k.ep, h.ep], k.tcb.trans h.tcb⟩

theorem LeavesMember.of_same {c : Nat} {s t : State} (hc : t.ctxs = s.ctxs) (he : t.ep = s.ep) (ht : t.tcb = s.tcb) : LeavesMember c s t :=
  ⟨fun d _ => State.ctx_congr hc d, by rw [he], ht⟩

theorem State.modCtx_leavesMember (s : State) (c : Nat) (f : Context → Context) : LeavesMember c s (s.modCtx c f) :=
  ⟨fun _ hd => State.ctx_modCtx_ne _ hd _, rfl, rfl⟩

theorem State.cutQuiesce_leavesMember (s : State) (c : Nat) : LeavesMember c s (s.cutQuiesce c) := by
  obtain ⟨other, -, -, htcb, hep, -⟩ := s.cutQuiesce_spec c
  exact ⟨other, hep, htcb⟩

theorem State.stopLaunched_leavesMember (s : State) (c at_ m reason : Nat) : LeavesMember c s (s.stopLaunched c at_ m reason) := by
  have stopped : LeavesMember c s ((s.cutQuiesce c).mapOwned c (fun _ k => k.clearExec)) :=
    (s.cutQuiesce_leavesMember c).trans (.of_same rfl rfl rfl)
  have bound := stopped.trans (State.modCtx_leavesMember _ c (fun x => { x with st := .bound, started := false, held := [] }))
  exact bound.trans (.of_same (State.postCtx_ctxs ..) (State.postCtx_ep ..) (State.postCtx_tcb ..))

theorem State.undoGo_leavesMember (s : State) (e : Exchange) : LeavesMember e.ctx s (s.undoGo e) := by
  simp only [State.undoGo]
  split
  · refine (s.modCtx_leavesMember e.ctx (fun x => x.dropGo e)).trans ?_
    rw [State.unstretch, State.tellStretch_frame]
    exact .of_same rfl rfl rfl
  · exact s.modCtx_leavesMember ..

theorem State.abortLoad_leavesMember (s : State) (c : Nat) : LeavesMember c s (s.abortLoad c) := by
  simp only [State.abortLoad]
  split
  · exact .refl c s
  · have freed : LeavesMember c s (s.freeEngines c) := .of_same rfl rfl rfl
    exact (freed.trans (State.modCtx_leavesMember ..))
      |>.trans (.of_same (State.complete_ctxs ..) (State.complete_ep ..) (State.complete_tcb ..))

theorem State.abortMember_leavesMember (s : State) (e : Exchange) (m reason : Nat) : LeavesMember e.ctx s (s.abortMember e m reason) := by
  simp only [State.abortMember]
  split
  · exact .refl ..
  · split
    · exact ite_holds _ (s.stopLaunched_leavesMember ..) (.refl ..)
    · exact ite_holds _ (s.abortLoad_leavesMember ..) (.refl ..)
    · exact ite_holds _ (s.undoGo_leavesMember e) (ite_holds _ (.refl ..) (s.modCtx_leavesMember ..))

theorem State.abortMember_none {s : State} {e : Exchange} (h : 64 ≤ e.ctx) (m reason : Nat) : s.abortMember e m reason = s := if_pos h

/-- An aborted exchange is closed (R43): its member's context apart, only the messages and the waiting changes of the torus
differ. -/
theorem State.abortEx_spec (s : State) (e : Exchange) (m reason : Nat) :
    (∀ d, d ≠ e.ctx → (s.abortEx e m reason).ctx d = s.ctx d) ∧ (s.abortEx e m reason).tcb = s.tcb ∧
    (s.abortEx e m reason).ep = { s.ep with ctl := (s.abortEx e m reason).ep.ctl, changes := (s.abortEx e m reason).ep.changes, ex := none } ∧
    (64 ≤ e.ctx → s.abortEx e m reason = { s with ep := (s.abortEx e m reason).ep }) := by
  have dropped (t : State) : t.dropChanges e = { t with ep := { t.ep with changes := (t.dropChanges e).ep.changes } } := by
    simp only [State.dropChanges]
    split <;> rfl
  have left := s.abortMember_leavesMember e m reason
  have own := State.abortMember_none (s := s) (e := e) (m := m) (reason := reason)
  rw [State.abortEx, State.spread_frame, dropped]
  generalize s.abortMember e m reason = t at left own
  refine ⟨left.other, left.tcb, ?_, fun h => ?_⟩
  · change ({ t.ep with ctl := _, changes := _, ex := none } : Epfin) = _
    rw [left.ep]
    rfl
  · rw [own h]
    rfl

theorem State.openTables_none {s : State} (h : s.ep.tableQ = []) : s.openTables = s := by
  simp only [State.openTables, h]

theorem State.undoTables_spec (s : State) (e : Exchange) : (s.undoTables e).tcb = s.tcb ∧ (s.undoTables e).ep.ex = s.ep.ex ∧
    (s.undoTables e).ep.tableQ = s.ep.tableQ := by
  simp only [State.undoTables]
  split <;> exact ⟨rfl, rfl, rfl⟩

/-- What the manager's abort makes of its books: no exchange is open, and a job is back in the state it had before. -/
theorem State.managerAbort_spec {s : State} {e : Exchange} (n : Nat × Nat) (hq : s.ep.tableQ = []) :
    (s.managerAbort e n).tcb = s.tcb ∧ (s.managerAbort e n).ep.ex = none ∧
    (e.kind ≠ .tables → ((s.managerAbort e n).job e.job).st = e.jobBefore (s.job e.job).st) := by
  obtain ⟨-, htcb, hep, -⟩ := s.abortEx_spec e n.1 n.2
  generalize hu : (if e.kind = .tables then s.abortEx e n.1 n.2 else
    ((s.abortEx e n.1 n.2).undoTables e).jobTo e.job (e.jobBefore (s.job e.job).st)) = u
  have books : u.tcb = s.tcb ∧ u.ep.ex = none ∧ u.ep.tableQ = [] ∧
      (e.kind ≠ .tables → (u.job e.job).st = e.jobBefore (s.job e.job).st) := by
    subst hu
    split
    next hk => exact ⟨htcb, by rw [hep], by rw [hep]; exact hq, fun h => absurd hk h⟩
    next hk =>
      obtain ⟨utcb, uex, uq⟩ := (s.abortEx e n.1 n.2).undoTables_spec e
      refine ⟨utcb.trans htcb, uex.trans (by rw [hep]), uq.trans (by rw [hep]; exact hq), fun _ => ?_⟩
      rw [State.jobTo, State.job_setJob_self]
  obtain ⟨utcb, uex, uq, ust⟩ := books
  have done : s.managerAbort e n = match e.d with
      | some d => u.complete d 2 (nakDetail n)
      | none => u := by
    simp only [State.managerAbort, hu]
    cases e.d with
    | some d => exact State.openTables_none (by rw [State.complete_ep]; exact uq)
    | none => exact State.openTables_none uq
  rw [done]
  cases e.d with
  | some d => exact ⟨(State.complete_tcb ..).trans utcb, by rw [State.complete_ep]; exact uex, fun h => by rw [State.complete_job]; exact ust h⟩
  | none => exact ⟨utcb, uex, ust⟩

/-- Settles O34: the answers of PREPARE, the merge of a child's reply, and GO or ABORT at the decision. -/
theorem exchangesCollectEveryAnswer : Obligations.ExchangesCollectEveryAnswer := by
  refine fun s => ⟨fun p hw hl hp => ⟨fun hb => ?_, fun hb => ?_⟩, fun r e he hp hw => ?_, fun e he hm hg => ⟨fun hn => ?_, fun hn hq => ?_⟩⟩
  · exact ⟨_, exec_prepare_busy hw hl hp hb, s.prepare_busy_spec p hl⟩
  · obtain ⟨frame, hex, merged, sent⟩ := s.prepare_free_spec p hl
    obtain ⟨tables, own, stranger⟩ := s.newEx_answer p false none
    exact ⟨_, exec_prepare_free hw hl hp hb, frame, _, hex, rfl, rfl, rfl, rfl, rfl, rfl, rfl, tables, own, stranger, merged, sent⟩
  · obtain ⟨b, frame, -⟩ := s.tryReply_spec (e.merge r)
    refine ⟨_, exec_mergedReply he hp hw, ?_⟩
    beta_reduce
    rw [frame]
    exact ⟨rfl, _, rfl, rfl, rfl, rfl, rfl, rfl⟩
  · obtain ⟨hex, -, -, -, hports, htcb⟩ := (s.passTo (e.at_ - 1000000)).holdGo_spec e
    refine ⟨_, exec_exchangeDecision he hm hg, ?_⟩
    rw [hn]
    refine ⟨?_, _, hex, rfl, rfl, rfl, hports⟩
    rw [htcb]; exact Nat.le_max_right ..
  · obtain ⟨n, hn⟩ := Option.isSome_iff_exists.mp hn
    obtain ⟨htcb, hex, hjob⟩ := State.managerAbort_spec (s := s.passTo (e.at_ - 1000000)) (e := e) n hq
    refine ⟨_, exec_exchangeDecision he hm hg, ?_⟩
    rw [hn]
    refine ⟨?_, hex, hjob⟩
    change _ ≤ (State.managerAbort _ e n).tcb.now
    rw [htcb]; exact Nat.le_max_right ..

end Sys2Proof.Machine
end

section
/-! GO, NOGO, ABORT, LAUNCH_COUNT and START_COLLECTION_DEADLINE (R42, R43, R243, R284). -/
namespace Sys2Proof.Machine

open Sys2Proof

/-! ## GO, NOGO, ABORT -/

theorem Exchange.of_self {e : Exchange} {c : Nat} (h : e.ctx = c) : e.of c = true := by simp [Exchange.of, h]

theorem exec_go {s : State} {e : Exchange} {c : BitVec 6} (he : s.ep.ex = some e) (hof : e.of c.toNat = true) (hm : e.manager = false)
    (hg : e.go = false) (hr : e.replied = true) (hn : e.nak = none) (ht : s.tcb.now ≤ e.at_ - 200000) :
    exec (.go c) s = .next (s.holdGo e) := by
  change execGo c s = _
  simp [execGo, he, hof, hm, hg, hr, hn, ht]

/-- What an exchange is at a module that held no GO (R43). -/
def Exchange.notGone (e : Exchange) (m : Nat) (children : List Nat) : Exchange :=
  { e with acked := false, nak := firstNak e.nak (some (m, 0x0B)), go := true, replied := false, waiting := children,
           deadline := e.at_ + 900000 }

theorem exec_nogo {s : State} {e : Exchange} {c : BitVec 6} (he : s.ep.ex = some e) (hc : e.ctx = c.toNat) (ha : e.acked = true)
    (hs : e.started = 0) (hg : e.go = false) (hm : e.manager = false) (hl : s.ep.mgrLost = false) :
    exec (.nogo c) s = .next (((s.passTo (e.at_ - 200000)).ctl (.nogo s.modIndex e.job 0x0B)).tryReply
      (e.notGone s.modIndex (s.children e.upPort))) := by
  have act : (s.passTo (e.at_ - 200000)).nogo e = ((s.passTo (e.at_ - 200000)).ctl (.nogo s.modIndex e.job 0x0B)).tryReply
      (e.notGone s.modIndex (s.children e.upPort)) := by
    have noGo : ¬(e.go = true) := by simp [hg]
    have worker : ¬(e.manager = true) := by simp [hm]
    have heard : ¬((s.passTo (e.at_ - 200000)).ep.mgrLost = true) := by simp [hl]
    simp only [State.nogo, State.respond, if_neg worker, if_neg noGo, if_neg heard, if_neg (show ¬((e.go && decide (e.ctx < 64)) = true) by simp [hg])]
    rfl
  change execNogo c s = _
  simp [execNogo, he, Exchange.of_self hc, ha, hs, hg, hm, act]

theorem exec_abort {s : State} {e : Exchange} {c : BitVec 6} (he : s.ep.ex = some e) (hof : e.of c.toNat = true) (hm : e.manager = false)
    (m : BitVec 10) (reason : BitVec 16) : exec (.abort c m reason) s = .next (s.abortEx e m.toNat reason.toNat) := by
  have found : s.ep.ex.filter (fun e => e.of c.toNat && !e.manager) = some e := by simp [he, Option.filter_some, hof, hm]
  change execAbort c m reason s = _
  simp only [execAbort, found]

/-! ## LAUNCH_COUNT -/

/-- The exchange of a member that acts at the count. -/
def Exchange.counted (e : Exchange) : Exchange := { e with started := 1, acks := e.acks + 1 }

/-- A module at the count: the manager counts itself, and a worker sends its START. -/
def State.atCount (s : State) (e : Exchange) (m : CtlMsg) : State := if e.manager then s.reachCount e else (s.respond m).tryReply e

/-- Where the module's time holds and its context is BOUND, a launch starts the context; a quiesce or resume leaves it to its
tick. Then the manager reaches the count, and a worker sends START (R42). -/
theorem exec_launchCount {s : State} {e : Exchange} {c : BitVec 6} (he : s.ep.ex = some e) (hc : e.ctx = c.toNat) (ha : e.acked = true)
    (hg : e.go = true) (hs : e.started = 0) (hl : e.lost = false) (ht : s.timeLost e.cross = false)
    (hb : e.kind = .launch → (s.ctx e.ctx).st = .bound) :
    exec (.launchCount c) s = .next (
      (if e.kind = .launch then ((s.passTo e.at_).dropSeq e.job).startCtx e.ctx e.at_ else s.passTo e.at_).atCount e.counted
        (.start s.modIndex e.job)) := by
  have able : (e.lost || (s.passTo e.at_).timeLost e.cross || (decide (e.kind = .launch) && decide (((s.passTo e.at_).ctx e.ctx).st ≠ .bound))) =
      false := by
    have kept : (s.passTo e.at_).timeLost e.cross = s.timeLost e.cross := rfl
    by_cases hk : e.kind = .launch
    · simp [hl, kept, ht, hb hk]
    · simp [hl, kept, ht, hk]
  have mine : (decide (e.ctx = c.toNat) && e.acked && e.go && decide (e.started = 0)) = true := by simp [hc, ha, hg, hs]
  change execLaunchCount c s = _
  simp only [execLaunchCount, he, mine, able]
  rfl

theorem State.wakeTierA_frame (s : State) : s.wakeTierA = { s with ports := s.wakeTierA.ports } :=
  List.foldlRecOn (motive := fun t : State => t = { s with ports := t.ports }) _ _ rfl fun t ht p _ => by
    split
    · rw [State.modPort, State.setPort, ht]
    · exact ht

/-- The start of a context (R243): it runs from frame 0 at the count, its cores at their start state. -/
theorem State.startCtx_spec (s : State) (c at_ : Nat) :
    (((s.startCtx c at_).ctx c).st = .running ∧ ((s.startCtx c at_).ctx c).fcount = 0 ∧ ((s.startCtx c at_).ctx c).startAt = at_ ∧
      ((s.startCtx c at_).ctx c).nextTick = at_ ∧ ((s.startCtx c at_).ctx c).batches = []) ∧
    (∀ d, d ≠ c → (s.startCtx c at_).ctx d = s.ctx d) ∧ (s.startCtx c at_).tcb = s.tcb ∧ (s.startCtx c at_).ep = s.ep ∧
    ∀ i, (s.core i).owner = some c → (s.startCtx c at_).core i = (s.core i).startClear := by
  rw [State.startCtx, State.wakeTierA_frame]
  generalize s.wakeTierA.ports = ps
  refine ⟨?_, fun d hd => ?_, rfl, rfl, fun i hi => ?_⟩
  · rw [State.ctx_mapOwned, State.ctx_modCtx_self]
    exact ⟨rfl, rfl, rfl, rfl, rfl⟩
  · rw [State.ctx_mapOwned, State.ctx_modCtx_ne _ hd]
    rfl
  · rw [State.core_mapOwned]
    exact if_pos hi

/-- A module that acts at the count answers with START, or counts itself where it is the manager; contexts and cores stay. -/
theorem State.atCount_launch (s : State) {e : Exchange} (m : CtlMsg) (hk : e.kind = .launch) :
    s.atCount e m = { s with ep := (s.atCount e m).ep } ∧ ∃ r, (s.atCount e m).ep.ex = some { e with replied := r } := by
  rw [State.atCount]
  split
  · have plain : s.reachCount e = s.setEx (some e) := by
      simp only [State.reachCount, hk]
      split
      · exact if_neg (by simp)
      · rfl
    rw [plain]
    exact ⟨rfl, e.replied, rfl⟩
  · obtain ⟨r, frame, -⟩ := (s.respond m).tryReply_spec e
    have told : s.respond m = { s with ep := (s.respond m).ep } := by
      simp only [State.respond]
      split <;> rfl
    rw [frame, told]
    exact ⟨rfl, r, rfl⟩

/-! ## START_COLLECTION_DEADLINE -/

/-- Nothing is missing at the deadline: the exchange has ended well (R42). -/
theorem exec_startCollectionDeadline {s : State} {e : Exchange} (he : s.ep.ex = some e) (hm : e.manager = true) (hg : e.go = true)
    (hk : e.kind = .launch ∨ e.kind = .tables) (hn : s.missing e = none) (hs : e.ctx < 64 → e.started ≠ 0) :
    exec .startCollectionDeadline s = .next ((s.passTo (e.at_ + 1000000)).exchangeDone e) := by
  have other : ¬(e.ctx = 64 ∧ e.d.isSome ∧ e.nak.isNone ∧ (e.kind = .quiesce ∨ e.kind = .resume)) := by
    rcases hk with hk | hk <;> simp [hk]
  have own : ¬(e.ctx < 64 ∧ e.started = 0) := fun h => hs h.1 h.2
  have all : (s.passTo (e.at_ + 1000000)).missing e = none := hn
  change execStartCollectionDeadline s = _
  simp only [execStartCollectionDeadline, he, hm, hg, if_neg other, if_neg own, all]
  rfl

/-- A launch that every member has started: its job runs, and its descriptor completes (R284). -/
theorem State.exchangeDone_launch {s : State} {e : Exchange} {d : Taken} (hk : e.kind = .launch) (hd : e.d = some d)
    (hq : s.ep.tableQ = []) : s.exchangeDone e =
      ((s.setEx none).setJob e.job { s.job e.job with st := .running, k := 0, askers := [] }).complete d 1 0 := by
  simp only [State.exchangeDone, hk, hd]
  exact State.openTables_none (by rw [State.complete_ep]; exact hq)

/-- The one change of tables that waited is in force everywhere: its descriptor completes (R231, R284). -/
theorem State.exchangeDone_tables {s : State} {e : Exchange} {d : Taken} {v : Nat} {l : List (Nat × TableChange)} (hk : e.kind = .tables)
    (hq : s.ep.tableQ = [(some (d, v), l)]) : s.exchangeDone e =
      { s.setEx none with ep := { (s.setEx none).ep with tableQ := [] } }.complete d 0 v := by
  have one : (s.setEx none).ep.tableQ = [(some (d, v), l)] := hq
  have done : (s.setEx none).tablesDone = { s.setEx none with ep := { (s.setEx none).ep with tableQ := [] } }.complete d 0 v := by
    simp only [State.tablesDone, one]
    rfl
  simp only [State.exchangeDone, hk, done]
  exact State.openTables_none (by rw [State.complete_ep])

/-- The manager reaches the count of a quiesce: the descriptor completes while the exchange stays open (R284, log 104). -/
theorem State.atCount_quiesce (s : State) {e : Exchange} {d : Taken} (m : CtlMsg) (hm : e.manager = true) (hk : e.kind = .quiesce)
    (hd : e.d = some d) : s.atCount e m =
      ((s.setEx (some { e with d := none })).setJob e.job { s.job e.job with st := .quiesced }).complete d 0 0 := by
  rw [State.atCount, if_pos hm]
  simp only [State.reachCount, hd, hk]
  rfl

/-- Settles O35: each clause is the rule of its command above. -/
theorem membersActAtTheAgreedCount : Obligations.MembersActAtTheAgreedCount := by
  refine fun s e c he => ⟨fun hlt hof hm hg hr hn ht => ?_, fun hc ha hs hg hm hl => ?_, fun m reason hof hm => ?_,
    fun hc ha hg hs hk hl ht hb => ?_, fun d hm hg hk hn hs hd hq => ?_, fun d hm hc ha hg hs hk hl ht hd => ?_,
    fun d v l hm hg hk hc hn hq => ?_⟩
  -- GO, NOGO and ABORT.
  · obtain ⟨hex, hctx, hother, hpanel, hports, -⟩ := s.holdGo_spec e
    exact ⟨_, exec_go he hof hm hg hr hn ht, ⟨_, hex, rfl, rfl, rfl⟩, hctx hlt, hother, hpanel, hports⟩
  · obtain ⟨r, frame, keeps⟩ := ((s.passTo (e.at_ - 200000)).ctl (.nogo s.modIndex e.job 0x0B)).tryReply_spec
      (e.notGone s.modIndex (s.children e.upPort))
    have told := keeps _ (List.mem_append_right _ (List.mem_singleton_self _))
    refine ⟨_, exec_nogo he hc ha hs hg hm hl, ?_, told, ?_⟩
    · rw [frame]; exact Nat.le_max_right ..
    · rw [frame]; exact ⟨⟨_, rfl, rfl⟩, rfl, rfl⟩
  · obtain ⟨hother, -, hep, hown⟩ := s.abortEx_spec e m.toNat reason.toNat
    exact ⟨_, exec_abort he hof hm m reason, by rw [hep], hother, hown⟩
  -- The count of a launch.
  · obtain ⟨hself, hother, htcb, hep, hcores⟩ := ((s.passTo e.at_).dropSeq e.job).startCtx_spec e.ctx e.at_
    obtain ⟨frame, r, hex⟩ := (((s.passTo e.at_).dropSeq e.job).startCtx e.ctx e.at_).atCount_launch
      (e := e.counted) (.start s.modIndex e.job) hk
    obtain ⟨hrun, hfc, hstart, hnext, hbs⟩ := hself
    have act := exec_launchCount he hc ha hg hs hl ht fun _ => hb
    rw [if_pos hk] at act
    refine ⟨_, act, ?_, ⟨_, hex, rfl, rfl⟩, ?_⟩
    · rw [frame, htcb]; exact Nat.le_max_right ..
    · have same (i : Nat) : ((s.passTo e.at_).dropSeq e.job).core i = s.core i := State.core_congr rfl i
      have others (d : Nat) : ((s.passTo e.at_).dropSeq e.job).ctx d = s.ctx d := State.ctx_congr rfl d
      simp only [same, others] at hcores hother
      rw [frame]
      generalize ((s.passTo e.at_).dropSeq e.job).startCtx e.ctx e.at_ = u at *
      exact ⟨hrun, hfc, hstart, hnext, hbs, hother, fun i _ ho => hcores i ho⟩
  -- The deadline of the STARTs.
  · have act := exec_startCollectionDeadline he hm hg (.inl hk) hn hs
    rw [State.exchangeDone_launch (s := s.passTo _) hk hd hq] at act
    refine ⟨_, act, ?_, _, rfl, rfl, ?_, rfl, rfl⟩
    · rw [State.complete_tcb]; exact Nat.le_max_right ..
    · exact congrArg Job.st (State.job_setJob_self ..)
  · have act := exec_launchCount he hc ha hg hs hl ht fun h => by simp [hk] at h
    rw [if_neg (by simp [hk]), State.atCount_quiesce _ (e := e.counted) _ hm hk hd] at act
    refine ⟨_, act, _, rfl, Nat.le_max_right .., ?_, rfl, rfl, _, rfl, rfl, rfl⟩
    exact congrArg Job.st (State.job_setJob_self ..)
  · have act := exec_startCollectionDeadline he hm hg (.inr hk) hn (by omega)
    rw [State.exchangeDone_tables (s := s.passTo _) hk hq] at act
    refine ⟨_, act, ?_, _, rfl, rfl, rfl, rfl, rfl⟩
    rw [State.complete_tcb]; exact Nat.le_max_right ..

end Sys2Proof.Machine
end

section
/-! CONTEXT_TICK (R32, R36, R41, R53): what the parts of a tick leave of the counts of the context and of the progress of its
cores. -/
namespace Sys2Proof.Machine

open Sys2Proof

/-! ## Events leave the descriptors of a function -/

theorem State.putEvent_fn (s : State) (f code cls ctx source arg0 arg1 g : Nat) :
    ∃ e, (s.putEvent f code cls ctx source arg0 arg1).fn g = { s.fn g with eqt := e } := by
  have h : (s.putEvent f code cls ctx source arg0 arg1).fns = s.fns.put f { s.fn f with eqt := (s.fn f).eqt + 1 } := by
    simp only [State.putEvent]
    split <;> simp only [State.setFn_fns, State.hostWrite_fns]
  rw [State.fn, h, Table.get_put]
  split
  next hg => exact ⟨_, by rw [hg]⟩
  next => exact ⟨_, rfl⟩

theorem State.setFn_fn_ring (s : State) (f g : Nat) {x : HostFn} (hx : ∃ e l v, x = { s.fn f with eqt := e, lost := l, evlost := v }) :
    ∃ e l v, (s.setFn f x).fn g = { s.fn g with eqt := e, lost := l, evlost := v } := by
  rw [State.fn_setFn]
  split
  next hg => exact hg ▸ hx
  next => exact ⟨_, _, _, rfl⟩

/-- An event changes its ring's tail and its counts of events lost, of no function anything else (R270). -/
theorem State.post_fn (s : State) (f code cls ctx source arg0 arg1 g : Nat) :
    ∃ e l v, (s.post f code cls ctx source arg0 arg1).fn g = { s.fn g with eqt := e, lost := l, evlost := v } := by
  have flushed (g : Nat) : ∃ e l v, (s.flushLost f).fn g = { s.fn g with eqt := e, lost := l, evlost := v } := by
    simp only [State.flushLost]
    split
    · exact ⟨_, _, _, rfl⟩
    · obtain ⟨e, put⟩ := (s.setFn f { s.fn f with lost := 0 }).putEvent_fn f 0x8402 1 (f - 1) srcHost (s.fn f).lost 0 g
      obtain ⟨e', l, v, set⟩ := s.setFn_fn_ring f g (x := { s.fn f with lost := 0 }) ⟨_, _, _, rfl⟩
      exact ⟨e, l, v, by rw [put, set]⟩
  obtain ⟨e, l, v, hf⟩ := flushed g
  simp only [State.post]
  split
  · obtain ⟨e', l', v', set⟩ := (s.flushLost f).setFn_fn_ring f g
      (x := { (s.flushLost f).fn f with lost := ((s.flushLost f).fn f).lost + 1, evlost := satAdd ((s.flushLost f).fn f).evlost 1 })
      ⟨_, _, _, rfl⟩
    exact ⟨e', l', v', by rw [set, hf]⟩
  · obtain ⟨e', put⟩ := (s.flushLost f).putEvent_fn f code cls ctx source arg0 arg1 g
    exact ⟨e', l, v, by rw [put, hf]⟩

theorem State.postCtx_ctlq (s : State) (c code source arg0 arg1 g : Nat) :
    ((s.postCtx c code source arg0 arg1).fn g).ctlq = (s.fn g).ctlq := by
  obtain ⟨e, l, v, h⟩ := s.post_fn (c + 1) code 1 c source arg0 arg1 g
  rw [State.postCtx, h]

theorem State.lookOverruns_stagedOf (s : State) (c n d : Nat) : (s.lookOverruns c n).stagedOf d = s.stagedOf d := by
  have kept (g : Nat) : ((s.lookOverruns c n).fn g).ctlq = (s.fn g).ctlq := by
    simp only [State.lookOverruns, State.findOverruns]
    split
    · split
      · rfl
      · rw [State.postCtx_ctlq]; rfl
    · rfl
  simp only [State.stagedOf, kept]

/-! ## Counts of the context -/

/-- From `s` to `t` the counter stands, and the counts of context c. -/
structure KeepsCounts (c : Nat) (s t : State) : Prop where
  tcb : t.tcb = s.tcb
  tickNo : (t.ctx c).tickNo = (s.ctx c).tickNo
  fcount : (t.ctx c).fcount = (s.ctx c).fcount
  nextTick : (t.ctx c).nextTick = (s.ctx c).nextTick

/-- What of a core a tick is counted by: the ticks that wait, the phase, the bundle it stands at and its counters. -/
def Core.progress (k : Core) := (k.pendTicks, k.phase, k.bidx, k.ctrs)

/-- From `s` to `t` the counts of context c stand, and the progress of every core. -/
structure KeepsTick (c : Nat) (s t : State) : Prop extends KeepsCounts c s t where
  core : ∀ i, (t.core i).progress = (s.core i).progress

theorem KeepsCounts.trans {c : Nat} {s t u : State} (h : KeepsCounts c s t) (k : KeepsCounts c t u) : KeepsCounts c s u :=
  ⟨k.tcb.trans h.tcb, k.tickNo.trans h.tickNo, k.fcount.trans h.fcount, k.nextTick.trans h.nextTick⟩

theorem KeepsCounts.refl (c : Nat) (s : State) : KeepsCounts c s s := ⟨rfl, rfl, rfl, rfl⟩

theorem KeepsCounts.foldl {α : Type} {c : Nat} {f : State → α → State} (hf : ∀ t a, KeepsCounts c t (f t a)) (l : List α) (s : State) :
    KeepsCounts c s (l.foldl f s) :=
  List.foldlRecOn _ _ (.refl c s) fun _ h _ _ => h.trans (hf ..)

theorem KeepsCounts.of_same {c : Nat} {s t : State} (ht : t.tcb = s.tcb) (hc : t.ctxs = s.ctxs) : KeepsCounts c s t :=
  ⟨ht, by rw [State.ctx_congr hc], by rw [State.ctx_congr hc], by rw [State.ctx_congr hc]⟩

theorem KeepsTick.refl (c : Nat) (s : State) : KeepsTick c s s := ⟨.refl c s, fun _ => rfl⟩

theorem KeepsTick.trans {c : Nat} {s t u : State} (h : KeepsTick c s t) (k : KeepsTick c t u) : KeepsTick c s u :=
  ⟨h.toKeepsCounts.trans k.toKeepsCounts, fun i => (k.core i).trans (h.core i)⟩

theorem KeepsTick.foldl {α : Type} {c : Nat} {f : State → α → State} (hf : ∀ t a, KeepsTick c t (f t a)) (l : List α) (s : State) :
    KeepsTick c s (l.foldl f s) :=
  List.foldlRecOn _ _ (.refl c s) fun _ h _ _ => h.trans (hf ..)

theorem KeepsTick.of_same {c : Nat} {s t : State} (ht : t.tcb = s.tcb) (hc : t.ctxs = s.ctxs) (hp : t.panel = s.panel) : KeepsTick c s t :=
  ⟨.of_same ht hc, fun i => by rw [State.core_congr hp]⟩

/-- A change of contexts that keeps their counts. -/
theorem State.modCtx_keepsTick (s : State) (c d : Nat) {f : Context → Context}
    (hf : ∀ x, (f x).tickNo = x.tickNo ∧ (f x).fcount = x.fcount ∧ (f x).nextTick = x.nextTick) : KeepsTick c s (s.modCtx d f) := by
  have at_ : (s.modCtx d f).ctx c = if d = c then f (s.ctx d) else s.ctx c := State.ctx_setCtx ..
  refine ⟨⟨rfl, ?_, ?_, ?_⟩, fun _ => rfl⟩ <;> rw [at_] <;> split
  next h => exact h ▸ (hf _).1
  · rfl
  next h => exact h ▸ (hf _).2.1
  · rfl
  next h => exact h ▸ (hf _).2.2
  · rfl

/-- A change of cores that keeps their progress. -/
theorem State.setCore_keepsTick (s : State) (c i : Nat) {k : Core} (hk : k.progress = (s.core i).progress) : KeepsTick c s (s.setCore i k) where
  tcb := rfl
  tickNo := rfl
  fcount := rfl
  nextTick := rfl
  core j := by
    rw [State.core_setCore]
    split
    next h => rw [hk, h]
    · rfl

theorem State.ctxFault_keepsTick (s : State) (c d code source arg0 arg1 : Nat) : KeepsTick c s (s.ctxFault d code source arg0 arg1) := by
  have faults := s.ctxFault_faultsOnly d code source arg0 arg1
  have kept : (s.ctxFault d code source arg0 arg1).ctx c = s.ctx c ∨ (s.ctxFault d code source arg0 arg1).ctx c = (s.ctx c).faulted code :=
    (faults.ctx c).imp id And.right
  refine ⟨⟨faults.tcb, ?_, ?_, ?_⟩, fun i => by rw [State.ctxFault_core]⟩ <;> rcases kept with h | h <;> rw [h] <;> rfl

theorem State.endBatch_keepsTick (s : State) (c d : Nat) (b : Batch) (status detail : Nat) (rrec : Bool) :
    KeepsTick c s (s.endBatch d b status detail rrec) := by
  rw [State.endBatch]
  exact .trans (.of_same (State.record_tcb ..) (State.record_ctxs ..) (State.record_panel ..))
    (State.modCtx_keepsTick _ _ _ fun _ => ⟨rfl, rfl, rfl⟩)

theorem State.mapOwned_keepsTick (s : State) (c d : Nat) {f : Nat → Core → Core} (hf : ∀ i k, (f i k).progress = k.progress) :
    KeepsTick c s (s.mapOwned d f) where
  tcb := rfl
  tickNo := rfl
  fcount := rfl
  nextTick := rfl
  core i := by
    rw [State.core_mapOwned]
    split
    · exact hf ..
    · rfl

/-! ## What a tick does to microbatches and admission lines (R276 to R279) -/

theorem Core.store_progress {k k' : Core} {a : Nat} {bs : List Byte} (h : k.store a bs = .inl k') : k'.progress = k.progress := by
  simp only [Core.store] at h
  split at h
  · cases h
  · cases h
    rw [Core.overwritten_frame]
    rfl

theorem State.coreUe_keepsTick (s : State) (c i : Nat) : KeepsTick c s (s.coreUe i) := by
  have counted : KeepsTick c s (s.setCore i { s.core i with uncorr := (s.core i).uncorr + 1 }) := s.setCore_keepsTick c i rfl
  simp only [State.coreUe, State.retire, State.retireNo]
  split
  · split
    · exact counted
    · exact counted.trans (.of_same (State.logFault_tcb ..) (State.logFault_ctxs ..) (State.logFault_panel ..))
  · exact counted

theorem State.dataFault_keepsTick (s : State) (c i : Nat) (f : Nat × Nat × Nat) : KeepsTick c s (s.dataFault i f) := by
  have fault (t : State) : KeepsTick c t (t.coreFault i f.1 f.2.1 f.2.2) := by
    simp only [State.coreFault]
    split
    · exact t.ctxFault_keepsTick ..
    · exact .refl c t
  exact .trans (ite_holds (KeepsTick c s) (s.coreUe_keepsTick c i) (.refl c s)) (fault _)

theorem State.lineAt_keepsTick (s : State) (c d : Nat) (p : Program) (line : List Byte) (i : Nat) : KeepsTick c s (s.lineAt d p line i) := by
  simp only [State.lineAt]
  split
  · exact s.ctxFault_keepsTick ..
  · split
    · exact s.ctxFault_keepsTick ..
    · split
      next k hk =>
        refine s.setCore_keepsTick c i (Eq.trans ?_ (Core.store_progress hk))
        rfl
      next => exact s.dataFault_keepsTick ..

theorem State.lines_keepsTick (s : State) (c d : Nat) (t : Option Taken) : KeepsTick c s (s.lines_ d t) := by
  simp only [State.lines_]
  split
  · exact .refl c s
  next p _ =>
    have run (u : State) (line : List Byte) (l : List (Nat × Core)) : KeepsTick c u (l.foldl (fun t e => t.lineAt d p line e.1) u) :=
      .foldl (f := fun t (e : Nat × Core) => t.lineAt d p line e.1) (fun t e => t.lineAt_keepsTick c d p line e.1) l u
    cases t with
    | none =>
      have drawn : KeepsTick c s { s with free := s.free + 1 } := .of_same rfl rfl rfl
      exact drawn.trans (run { s with free := s.free + 1 } _ _)
    | some t => exact run s _ _

theorem State.batchTicks_keepsTick (s : State) (c : Nat) : KeepsTick c s (s.batchTicks c) := by
  rw [State.batchTicks]
  refine .trans (s.modCtx_keepsTick c c ?_) (.foldl (fun t b => t.endBatch_keepsTick c c b 0 0 false) ..)
  exact fun _ => ⟨rfl, rfl, rfl⟩

theorem State.overrunTick_keepsTick (s : State) (c : Nat) : KeepsTick c s (s.overrunTick c) :=
  .foldl (fun t b => t.endBatch_keepsTick c c b 0x0008 _ false) ..

theorem State.admitNow_keepsTick (s : State) (c : Nat) (d : Taken) : KeepsTick c s (s.admitNow c d) := by
  rw [State.admitNow]
  refine KeepsTick.trans (t := s.modFn ..) (.of_same rfl rfl rfl) (State.modCtx_keepsTick _ c c ?_)
  exact fun _ => ⟨rfl, rfl, rfl⟩

/-! ## Publication and delivery (R41, R64, R90) -/

/-- A publication leaves of the context all but what it publishes, and the progress of its cores. -/
structure Publishes (c : Nat) (s t : State) : Prop extends KeepsTick c s t where
  self : ∃ sum big top ns nf, t.ctx c = { s.ctx c with slipSum := sum, slipMax := big, slipAt := top, numst := ns, numfr := nf }
  gates : ∀ i, ∃ sl fl co, t.core i = { s.core i with latSlips := sl, newFlags := fl, counted := co }

theorem State.publish_publishes (s : State) (c : Nat) : Publishes c s (s.publish c) := by
  have set (sum big top : _) (ns : Context → _) (nf : Context → _) (co : Nat → Core → Option _) : Publishes c s
      ((s.modCtx c (fun y => { y with slipSum := sum, slipMax := big, slipAt := top, numst := ns y, numfr := nf y })).mapOwned c
        (fun i k => { k with latSlips := [], newFlags := 0, counted := co i k })) := by
    refine ⟨.trans (s.modCtx_keepsTick c c ?_) (State.mapOwned_keepsTick _ c c fun _ _ => rfl), ?_, fun i => ?_⟩
    · exact fun _ => ⟨rfl, rfl, rfl⟩
    · rw [State.ctx_mapOwned, State.ctx_modCtx_self]
      exact ⟨_, _, _, _, _, rfl⟩
    · rw [State.core_mapOwned]
      split
      · exact ⟨_, _, _, rfl⟩
      · exact ⟨_, _, _, rfl⟩
  have told {t : State} (x code source arg0 arg1 : Nat) (h : Publishes c s t) : Publishes c s (t.postCtx x code source arg0 arg1) :=
    ⟨h.toKeepsTick.trans (.of_same (State.postCtx_tcb ..) (State.postCtx_ctxs ..) (State.postCtx_panel ..)),
      by rw [State.postCtx_ctx]; exact h.self, fun i => by rw [State.postCtx_core]; exact h.gates i⟩
  simp only [State.publish]
  split
  · split
    · exact told _ _ _ _ _ (set ..)
    · exact set ..
  · exact set ..

/-- What is left of a tick once it has reached the cores. -/
def State.afterDelivery (s : State) (c : Nat) : State :=
  let s := s.batchTicks c
  if (s.ctx c).st = .running then
    match s.admissible c with
    | some d => ((s.admitNow c d).overrunTick c).lines_ c (some d)
    | none => (s.overrunTick c).lines_ c none
  else s.overrunTick c

theorem State.afterDelivery_keepsTick (s : State) (c : Nat) : KeepsTick c s (s.afterDelivery c) := by
  refine (s.batchTicks_keepsTick c).trans ?_
  generalize hu : s.batchTicks c = u
  simp only [State.afterDelivery, hu]
  split
  · split
    · exact ((u.admitNow_keepsTick c _).trans (State.overrunTick_keepsTick ..)).trans (State.lines_keepsTick ..)
    · exact (u.overrunTick_keepsTick c).trans (State.lines_keepsTick ..)
  · exact u.overrunTick_keepsTick c

theorem State.frameTick_eq (s : State) (c : Nat) (fresh : Bool) : s.frameTick c fresh =
    (let t := if (s.ctx c).fcount ≤ 1 then s else s.publish c
    if (t.ctx c).st = .running then t.deliverTick c fresh else t.mapOwned c (fun _ k => k.restart)).afterDelivery c := rfl

theorem State.frameTick_keepsCounts (s : State) (c : Nat) (fresh : Bool) : KeepsCounts c s (s.frameTick c fresh) := by
  rw [State.frameTick_eq]
  refine .trans (t := if (s.ctx c).fcount ≤ 1 then s else s.publish c) ?_ (.trans ?_ (State.afterDelivery_keepsTick ..).toKeepsCounts)
  · exact ite_holds (KeepsCounts c s) (.refl c s) (s.publish_publishes c).toKeepsCounts
  · exact ite_holds (KeepsCounts c _) ⟨rfl, rfl, rfl, rfl⟩ ⟨rfl, rfl, rfl, rfl⟩

/-! ## The commit and the descriptors (R273, R387) -/

theorem State.putShadow_keepsCounts (s : State) (c : Nat) (w : Shadow) : KeepsCounts c s (s.putShadow c w) := by
  have pairs (t : State) (l : List (Nat × Nat × BitVec 2 × BitVec 16 × BitVec 32)) : KeepsCounts c t (l.foldl (fun t e =>
      if (t.port e.1).hasPair c e.2.1 then t.setPair e.1 c e.2.1 (((t.port e.1).pair c e.2.1).lvWrite e.2.2.1 e.2.2.2.1 e.2.2.2.2)
      else t) t) := by
    refine .foldl (fun t e => ?_) l t
    split
    · exact .of_same rfl rfl
    · exact .refl c t
  have slots (t : State) (l : List (Nat × BitVec 64)) : KeepsCounts c t (l.foldl (fun t e => t.modPort e.1 (fun p => p.grantSlots c e.2)) t) :=
    .foldl (f := fun t (e : Nat × BitVec 64) => t.modPort e.1 (fun p => p.grantSlots c e.2)) (fun t e => .of_same rfl rfl) l t
  have cores : KeepsCounts c s (s.modCores w.cores (fun k x => x.afterWrites (w.writesOf k))) := .of_same rfl rfl
  rw [State.putShadow]
  refine ((cores.trans (pairs ..)).trans (slots ..)).trans (State.modCtx_keepsTick _ c c ?_).toKeepsCounts
  exact fun _ => ⟨rfl, rfl, rfl⟩

theorem State.commit_keepsCounts (s : State) (c : Nat) : KeepsCounts c s (s.commit c) := by
  have ended (t : State) (st detail : Nat) (l : List Taken) : KeepsCounts c t (l.foldl (fun t d => t.complete d st detail) t) :=
    .foldl (f := fun t (d : Taken) => t.complete d st detail)
      (fun t d => .of_same (State.complete_tcb ..) (State.complete_ctxs ..)) l t
  simp only [State.commit]
  split
  · exact .refl c s
  · split
    · exact (s.putShadow_keepsCounts c _).trans (ended ..)
    · refine .trans (.trans (s.modCtx_keepsTick c c ?_).toKeepsCounts (.of_same (State.postCtx_tcb ..) (State.postCtx_ctxs ..))) (ended ..)
      exact fun _ => ⟨rfl, rfl, rfl⟩

theorem State.countTicks_keepsTick (s : State) (c : Nat) : KeepsTick c s (s.countTicks c) := by
  rw [State.countTicks]
  refine KeepsTick.trans (t := s.modFn ..) (.of_same rfl rfl rfl) (State.modCtx_keepsTick _ c c ?_)
  exact fun _ => ⟨rfl, rfl, rfl⟩

theorem State.startRecheck_keepsTick (s : State) (c : Nat) : KeepsTick c s (s.startRecheck c) := by
  simp only [State.startRecheck, State.askEngine]
  split
  · refine (s.modCtx_keepsTick c c ?_).trans (ite_holds (KeepsTick c _) (.of_same rfl rfl rfl) (.refl ..))
    exact fun _ => ⟨rfl, rfl, rfl⟩
  · exact .refl c s

/-! ## The tick -/

theorem State.runaway_none {s : State} {c : Nat} (h : (s.ctx c).st = .running → s.runaway? c = none) : s.runaway c = s := by
  simp only [State.runaway]
  split
  next i hi =>
    split at hi
    next hr => simp [h hr] at hi
    next => cases hi
  · rfl

/-- Nothing but the tick itself falls on the count: no quiesce, resume, stretch, budget or swap is agreed. -/
structure Context.Quiet (x : Context) : Prop where
  quiesce : x.quiesce = none
  resumeAt : x.resumeAt = none
  stretchTo : x.stretchTo = none
  budgetAt : x.budgetAt = none
  load : x.wset.load = none
  setResume : x.wset.resumeAt = none
  old : x.wset.old = none

theorem State.dueEvents_quiet {s : State} {c : Nat} (h : (s.ctx c).Quiet) (n frame : Nat) :
    (s.dueEvents c n frame).tcb = s.tcb ∧ (s.dueEvents c n frame).panel = s.panel ∧ (s.dueEvents c n frame).fns = s.fns ∧
    (s.dueEvents c n frame).ctx c = s.ctx c := by
  have same : (s.modCtx c (fun x => x.releaseStages n)).ctx c = s.ctx c := by
    rw [State.ctx_modCtx_self, Context.releaseStages, h.old]
  have event : s.dueEvents c n frame = s.modCtx c (fun x => x.releaseStages n) := by
    simp [State.dueEvents, h.stretchTo, h.budgetAt, h.resumeAt, h.setResume, h.quiesce, Context.swapDue, h.load, State.drainStep, h.old,
      Context.releaseStages]
  rw [event]
  exact ⟨rfl, rfl, rfl, same⟩

/-- A tick whose count has been reached looks for overruns, and lets what is due act. -/
def State.meetTick (s : State) (c : Nat) : State :=
  let n := (s.ctx c).tickNo + 1
  let frame := if (s.ctx c).started then (s.ctx c).fcount + 1 else (s.ctx c).fcount
  ((s.modCtx c (fun x => { x with fcount := frame })).lookOverruns c n).dueEvents c n frame

/-- The context's own counts go on. -/
def State.openTick (s : State) (c : Nat) : State :=
  let n := (s.ctx c).tickNo + 1
  let t := (s.ctx c).dueTick
  (s.meetTick c).modCtx c (fun x => { x with tickNo := n,
                                             nextTick := if x.started then t + x.eff else t + x.period })

/-- The frame of a tick, in a context that has started, and the re-check that may begin with it. -/
def State.frameOfTick (s : State) (c : Nat) (fresh : Bool) : State :=
  (if (s.ctx c).started && (decide ((s.ctx c).st = .running) || decide ((s.ctx c).st = .quiesced)) then s.frameTick c fresh
    else s).startRecheck c

/-- What a tick does from its commit on; `fresh`: it starts the cores at bundle 0. -/
def State.closeTick (s : State) (c : Nat) (fresh : Bool) : State := ((s.commit c).countTicks c).frameOfTick c fresh

/-- Whether a tick starts the cores at bundle 0: at frame 0, and as a context resumes after a CUT (R41, R249). -/
def State.startsFresh (s : State) (c : Nat) : Bool :=
  let frame := if (s.ctx c).started then (s.ctx c).fcount + 1 else (s.ctx c).fcount
  decide (frame = 1 ∧ ((s.meetTick c).ctx c).started) ||
    ((s.ctx c).cutq && decide ((s.ctx c).st = .quiesced) && decide (((s.meetTick c).ctx c).st = .running))

theorem State.tick_eq {s : State} {c : Nat} (h : s.runaway c = s) :
    s.tick c = ((s.passTo (s.ctx c).dueTick).openTick c).closeTick c ((s.passTo (s.ctx c).dueTick).startsFresh c) := by
  rw [State.tick, h]
  rfl

theorem State.startsFresh_later {s : State} {c : Nat} (hr : (s.ctx c).st = .running) (hs : (s.ctx c).started = true) (hf : 0 < (s.ctx c).fcount) :
    s.startsFresh c = false := by
  simp [State.startsFresh, hr, hs, hf.ne']

theorem State.meetTick_spec {s : State} {c : Nat} (h : (s.ctx c).Quiet) :
    (s.meetTick c).tcb = s.tcb ∧ (s.meetTick c).panel = s.panel ∧ (s.meetTick c).stagedOf c = s.stagedOf c ∧
    ∃ o bs, (s.meetTick c).ctx c = { s.ctx c with
      fcount := if (s.ctx c).started then (s.ctx c).fcount + 1 else (s.ctx c).fcount, overruns := o, batches := bs,
      lookedAt := (s.ctx c).tickNo + 1 } := by
  rw [State.meetTick]
  generalize (if (s.ctx c).started then (s.ctx c).fcount + 1 else (s.ctx c).fcount) = frame
  obtain ⟨only, o, bs, look⟩ := (s.modCtx c (fun x => { x with fcount := frame })).lookOverruns_spec c ((s.ctx c).tickNo + 1)
  rw [State.ctx_modCtx_self] at look
  have quiet : (((s.modCtx c (fun x => { x with fcount := frame })).lookOverruns c ((s.ctx c).tickNo + 1)).ctx c).Quiet := by
    rw [look]
    exact ⟨h.quiesce, h.resumeAt, h.stretchTo, h.budgetAt, h.load, h.setResume, h.old⟩
  obtain ⟨dtcb, dpanel, dfns, dctx⟩ := State.dueEvents_quiet quiet ((s.ctx c).tickNo + 1) frame
  have staged := (s.modCtx c (fun x => { x with fcount := frame })).lookOverruns_stagedOf c ((s.ctx c).tickNo + 1) c
  refine ⟨dtcb.trans only.tcb, dpanel.trans only.panel, Eq.trans ?_ staged, o, bs, dctx.trans look⟩
  rw [State.stagedOf, State.fn, State.fn, dfns]
  rfl

theorem State.openTick_spec {s : State} {c : Nat} (h : (s.ctx c).Quiet) :
    (s.openTick c).tcb = s.tcb ∧ (∀ i, (s.openTick c).core i = s.core i) ∧ (s.openTick c).stagedOf c = s.stagedOf c ∧
    ∃ o bs, (s.openTick c).ctx c = { s.ctx c with
      fcount := if (s.ctx c).started then (s.ctx c).fcount + 1 else (s.ctx c).fcount, overruns := o, batches := bs,
      lookedAt := (s.ctx c).tickNo + 1, tickNo := (s.ctx c).tickNo + 1,
      nextTick := if (s.ctx c).started then (s.ctx c).nextTick + (s.ctx c).eff else (s.ctx c).nextTick + (s.ctx c).period } := by
  obtain ⟨htcb, hpanel, hstaged, o, bs, hmeet⟩ := State.meetTick_spec h
  have due : (s.ctx c).dueTick = (s.ctx c).nextTick := by rw [Context.dueTick, h.resumeAt]
  simp only [State.openTick, due]
  generalize s.meetTick c = u at *
  refine ⟨htcb, fun i => State.core_congr hpanel i, hstaged, o, bs, ?_⟩
  rw [State.ctx_modCtx_self, hmeet]
  rfl

theorem State.closeTick_keepsCounts (s : State) (c : Nat) (fresh : Bool) : KeepsCounts c s (s.closeTick c fresh) := by
  have counted := (s.commit_keepsCounts c).trans ((s.commit c).countTicks_keepsTick c).toKeepsCounts
  rw [State.closeTick, State.frameOfTick]
  refine (counted.trans ?_).trans (State.startRecheck_keepsTick ..).toKeepsCounts
  exact ite_holds (KeepsCounts c _) (State.frameTick_keepsCounts ..) (.refl ..)

theorem State.commit_nothing {s : State} {c : Nat} (hw : (s.ctx c).shadow = {}) (hd : s.stagedOf c = []) : s.commit c = s := by
  simp [State.commit, hw, hd]

/-- A running core of a stage that is not held has one tick more to take, and its phase is at 0 (R41). -/
theorem State.deliverTick_core {s : State} {c i : Nat} (ho : (s.core i).owner = some c) (hs : (s.core i).stopped = false)
    (hi : (s.core i).issuing = true) (hh : (s.ctx c).coreHeld i = false) :
    ((s.deliverTick c false).core i).progress = ((s.core i).pendTicks + 1, 0, (s.core i).bidx, (s.core i).ctrs) := by
  rw [State.deliverTick, State.core_mapOwned, if_pos ho]
  simp [hs, hi, hh, Core.progress, Core.restart]

/-- Where no commit is staged a tick after the first reaches the cores of its context as it finds them. -/
theorem State.closeTick_core {s : State} {c i : Nat} (hw : (s.ctx c).shadow = {}) (hd : s.stagedOf c = [])
    (hst : (s.ctx c).started = true) (hr : (s.ctx c).st = .running) (hf : 1 < (s.ctx c).fcount)
    (ho : (s.core i).owner = some c) (hs : (s.core i).stopped = false) (hi : (s.core i).issuing = true) (hh : (s.ctx c).coreHeld i = false) :
    ((s.closeTick c false).core i).progress = ((s.core i).pendTicks + 1, 0, (s.core i).bidx, (s.core i).ctrs) := by
  have hcount : ∃ bs, ((s.countTicks c).ctx c) = { s.ctx c with batches := bs } := ⟨_, State.ctx_modCtx_self ..⟩
  have hcore : (s.countTicks c).core i = s.core i := rfl
  rw [State.closeTick, State.commit_nothing hw hd]
  generalize s.countTicks c = u at hcount hcore
  obtain ⟨bs, hu⟩ := hcount
  have running : ((u.ctx c).started && (decide ((u.ctx c).st = .running) || decide ((u.ctx c).st = .quiesced))) = true := by simp [hu, hst, hr]
  have later : ¬((u.ctx c).fcount ≤ 1) := by rw [hu]; exact Nat.not_le.mpr hf
  have pub := u.publish_publishes c
  obtain ⟨sum, big, top, ns, nf, hself⟩ := pub.self
  obtain ⟨sl, fl, co, hgate⟩ := pub.gates i
  have still : ((u.publish c).ctx c).st = .running := by rw [hself, hu]; exact hr
  rw [State.frameOfTick, if_pos running, (State.startRecheck_keepsTick _ c).core, State.frameTick_eq]
  simp only [if_neg later, if_pos still]
  rw [(State.afterDelivery_keepsTick _ c).core, State.deliverTick_core]
  · rw [hgate, hcore]
  · rw [hgate, hcore]; exact ho
  · rw [hgate, hcore]; exact hs
  · rw [hgate, hcore]; exact hi
  · rw [hself, hu]; exact hh

theorem exec_contextTick {s : State} (c : BitVec 6) (h : (s.ctx c.toNat).st ≠ .free) : exec (.contextTick c) s = .next (s.tick c.toNat) := by
  change execContextTick c s = _
  simp [execContextTick, h]

/-- Settles O29: the tick opens with its counts, and closing it keeps them while it reaches the cores. -/
theorem tickCountsAndReachesEveryCore : Obligations.TickCountsAndReachesEveryCore := by
  intro s c x hfree hrun hq hres hto hb hl hsr hold
  have quiet : ((s.passTo x.nextTick).ctx c.toNat).Quiet := ⟨hq, hres, hto, hb, hl, hsr, hold⟩
  have due : (s.ctx c.toNat).dueTick = x.nextTick := by rw [Context.dueTick, show (s.ctx c.toNat).resumeAt = none from hres]
  have act := exec_contextTick c hfree
  rw [State.tick_eq (State.runaway_none hrun), due] at act
  obtain ⟨htcb, hcore, hstaged, o, bs, hopen⟩ := State.openTick_spec quiet
  have counts := ((s.passTo x.nextTick).openTick c.toNat).closeTick_keepsCounts c.toNat ((s.passTo x.nextTick).startsFresh c.toNat)
  refine ⟨_, act, ?_⟩
  beta_reduce
  rw [counts.tickNo, counts.fcount, counts.nextTick, counts.tcb, hopen, htcb]
  refine ⟨rfl, rfl, rfl, ?_, fun hst hr hf hw hd i _ ho hi hs hh => ?_⟩
  · exact (apply_ite (x.nextTick + ·) (x.started = true) x.eff x.period).symm
  · rw [State.startsFresh_later (s := s.passTo x.nextTick) hr hst hf]
    have staged : ((s.passTo x.nextTick).openTick c.toNat).stagedOf c.toNat = [] := hstaged.trans hd
    have core : ((s.passTo x.nextTick).openTick c.toNat).core i = s.core i := hcore i
    generalize (s.passTo x.nextTick).openTick c.toNat = u at *
    have later : 1 < (u.ctx c.toNat).fcount := by
      rw [hopen]
      exact (Nat.succ_lt_succ hf).trans_eq (if_pos hst).symm
    have reached := State.closeTick_core (s := u) (c := c.toNat) (i := i) (by rw [hopen]; exact hw) staged (by rw [hopen]; exact hst)
      (by rw [hopen]; exact hr) later (by rw [core]; exact ho) (by rw [core]; exact hs) (by rw [core]; exact hi) (by rw [hopen]; exact hh)
    simpa only [Core.progress, core, Prod.mk.injEq] using reached

end Sys2Proof.Machine
end

section
/-! The monitor's answers (R373, R374): what every command's answer goes through, and when a command is refused. -/
namespace Sys2Proof.Machine

open Sys2Proof

/-- The end of an answer changes the monitor only; where no certificate is collected, a held line does too (R373). -/
theorem State.endAnswer_frame {s : State} (hc : s.mon.collecting = none) : s.endAnswer = { s with mon := s.endAnswer.mon } := by
  simp only [State.endAnswer]
  split
  · have taken (t : State) (l : List Byte) (ht : t.mon.collecting = none) : t.takeLine l = { t with mon := (t.takeLine l).mon } := by
      simp only [State.takeLine, ht]
      split
      · rfl
      · split
        · rfl
        · split <;> rfl
    exact taken (s.setMon _) _ hc
  · rfl

section
variable {s : State} {c : Instr} (hp : s.mg.powered = true) (hc : s.mon.collecting = none)
include hp hc

theorem State.answer_eq (f : State → State × Answer) : s.answer f = .next (((f s).1.shown (f s).2.lines).endAnswer) := by
  simp [State.answer, hp, hc]

/-- A command that only prints. -/
theorem answers_printed {a : State → Answer} {ls : List MonOut} (h : exec c s = s.printed a) (hl : (a s).lines = ls) :
    Answers c s (fun t => t = (s.shown ls).endAnswer) :=
  ⟨_, (h.trans (State.answer_eq hp hc _)).trans (congrArg Host.Outcome.next (by rw [hl])), rfl⟩

/-- A command whose answer is known: what it leaves, and what it prints. -/
theorem answers_answer {f : State → State × Answer} {u : State} {a : Answer} (h : exec c s = s.answer f) (hf : f s = (u, a)) :
    Answers c s (fun t => t = (u.shown a.lines).endAnswer) :=
  ⟨_, h.trans (State.answer_eq hp hc f), by rw [hf]⟩

/-! ## Write commands (R374, R377) -/

variable {bit : Nat} {f : State → State × Answer}

theorem answers_writeCmd_locked (h : exec c s = s.writeCmd bit f) (hu : s.sec.unlocked = false) :
    Answers c s (fun t => t = (s.shown [.err "LOCKED"]).endAnswer) :=
  answers_answer hp hc h (a := .bad "LOCKED") (by simp [hu])

theorem answers_writeCmd_perm (h : exec c s = s.writeCmd bit f) (hu : s.sec.unlocked = true) (hb : s.sec.perms.getLsbD bit = false) :
    Answers c s (fun t => t = (s.shown [.err "PERM"]).endAnswer) :=
  answers_answer hp hc h (a := .bad "PERM") (by simp [hu, hb])

theorem answers_writeCmd_noresp (h : exec c s = s.writeCmd bit f) (hu : s.sec.unlocked = true) (hb : s.sec.perms.getLsbD bit = true)
    (hf : s.fwRuns = false) : Answers c s (fun t => t = (s.shown [.err "NORESP"]).endAnswer) :=
  answers_answer hp hc h (a := .bad "NORESP") (by simp [hu, hb, hf])

theorem answers_writeCmd_may {u : State} {a : Answer} (h : exec c s = s.writeCmd bit f)
    (hm : (s.sec.unlocked && s.sec.perms.getLsbD bit && s.fwRuns) = true) (hf : f s = (u, a)) :
    Answers c s (fun t => t = (u.shown a.lines).endAnswer) := by
  simp only [Bool.and_eq_true] at hm
  obtain ⟨⟨hu, hb⟩, hr⟩ := hm
  exact answers_answer hp hc h (by simp [hu, hb, hr, hf])

end

/-! ## The panel's conditions (R375) -/

section
variable {s : State} {ok : Bool} (a : Answer)

theorem State.panelRead_range (h : ok = false) : s.panelRead ok a = .bad "RANGE" := by
  simp [State.panelRead, State.panelOpen, h]

theorem State.panelOpen_notReady (h : ok = true) (hr : s.mg.ready = false) (hs : s.mg.stage ≤ 7) : s.panelOpen ok a = .bad "NOTREADY" := by
  simp [State.panelOpen, h, hr, hs]

theorem State.panelOpen_open (h : ok = true) (hr : s.mg.ready = true ∨ 7 < s.mg.stage) : s.panelOpen ok a = a := by
  rcases hr with hr | hr
  · simp [State.panelOpen, h, hr]
  · simp [State.panelOpen, h, Nat.not_le.mpr hr]

theorem State.panelRead_off (h : ok = true) (hr : s.mg.ready = true ∨ 7 < s.mg.stage) (hc : s.fs.coreRails = false) :
    s.panelRead ok a = .bad "NORESP" := by
  rw [State.panelRead, State.panelOpen_open _ h hr, hc]
  rfl

theorem State.panelRead_on (h : ok = true) (hr : s.mg.ready = true ∨ 7 < s.mg.stage) (hc : s.fs.coreRails = true) :
    s.panelRead ok a = a := by
  rw [State.panelRead, State.panelOpen_open _ h hr, hc]
  rfl

/-- A read of the panel that only prints: refused in the order of its conditions, or the lines. -/
theorem answers_panelRead {c : Instr} {ls : List MonOut} (hp : s.mg.powered = true) (hc : s.mon.collecting = none)
    {f : State → Answer} (h : exec c s = s.printed f) (hf : f s = s.panelRead ok (.good ls)) :
    let prints (ls : List MonOut) : Prop := Answers c s (fun t => t = (s.shown ls).endAnswer)
    (ok = false → prints [.err "RANGE"]) ∧ (ok = true → s.mg.ready = false → s.mg.stage ≤ 7 → prints [.err "NOTREADY"]) ∧
    (ok = true → (s.mg.ready = true ∨ 7 < s.mg.stage) → s.fs.coreRails = false → prints [.err "NORESP"]) ∧
    (ok = true → (s.mg.ready = true ∨ 7 < s.mg.stage) → s.fs.coreRails = true → prints (ls ++ [.ok])) :=
  ⟨fun ho => answers_printed hp hc h (by rw [hf, State.panelRead_range _ ho]; rfl),
   fun ho hr hs => answers_printed hp hc h (by rw [hf, State.panelRead, State.panelOpen_notReady _ ho hr hs]; rfl),
   fun ho hr hv => answers_printed hp hc h (by rw [hf, State.panelRead_off _ ho hr hv]; rfl),
   fun ho hr hv => answers_printed hp hc h (by rw [hf, State.panelRead_on _ ho hr hv]; rfl)⟩

end

/-- A read that needs its argument in range. -/
theorem answers_within {s : State} {c : Instr} {ok : Bool} {ls : List MonOut} (hp : s.mg.powered = true) (hc : s.mon.collecting = none)
    {f : State → Answer} {q : Prop} [Decidable q] (h : exec c s = s.printed f) (hf : f s = if q then .bad "RANGE" else .good ls) (hq : q ↔ ok = false) :
    (ok = false → Answers c s (fun t => t = (s.shown [.err "RANGE"]).endAnswer)) ∧
    (ok = true → Answers c s (fun t => t = (s.shown (ls ++ [.ok])).endAnswer)) :=
  ⟨fun ho => answers_printed hp hc h (by rw [hf, if_pos (hq.mpr ho)]; rfl),
   fun ho => answers_printed hp hc h (by rw [hf, if_neg (fun k => by simp [hq.mp k] at ho)]; rfl)⟩

end Sys2Proof.Machine
end

section
/-! What the monitor's commands print and write (R355, R375 to R378, Tables 19.2 and 19.3). -/
namespace Sys2Proof.Machine

open Sys2Proof

/-! ## Registers (R23) -/

/-- Words that the monitor reads in turn latch the time counter only, and what they latch is the count that stands (R23). -/
theorem State.latchReads_served (s : State) {os : List Nat} (h : os.all smbServed = true) :
    let u := os.foldl (fun (t : State) o => t.latchRead .monitor o) s
    u = { s with tcb := u.tcb } ∧ u.tcb.now = s.tcb.now ∧
    (0x1000 ∈ os → (u.tcb.latches.get (pathNo .monitor) 0).toNat = s.tcb.now / 2 ^ 32 % 2 ^ 32) := by
  induction os using List.reverseRecOn with
  | nil => exact ⟨rfl, rfl, fun h => absurd h List.not_mem_nil⟩
  | append_singleton os o ih =>
    simp only [List.all_append, Bool.and_eq_true, List.all_cons, List.all_nil, Bool.and_true] at h
    obtain ⟨hos, ho⟩ := h
    obtain ⟨frame, now, latched⟩ := ih hos
    rw [List.foldl_append, List.foldl_cons, List.foldl_nil]
    generalize os.foldl (fun (t : State) o => t.latchRead .monitor o) s = u at frame now latched
    obtain ⟨frame', now'⟩ := u.latchRead_served .monitor ho
    refine ⟨?_, now'.trans now, fun hmem => ?_⟩
    · rw [frame', frame]
    · by_cases hlo : o = 0x1000
      · have latch : u.latchRead .monitor o = u.latchNow .monitor := if_pos hlo
        rw [latch, ← now]
        simp [State.latchNow, State.setTcb]
      · have kept : u.latchRead .monitor o = u := by
          have page : ¬(0x20000 ≤ o ∧ o < 0x24000 ∧ o % 0x100 = 0x28) := by
            simp only [smbServed, Bool.or_eq_true, Bool.and_eq_true, decide_eq_true_eq] at ho
            omega
          rw [State.latchRead, if_neg hlo, if_neg page]
        rw [kept]
        exact latched ((List.mem_append.mp hmem).resolve_right (by simpa using Ne.symm hlo))

/-! ## Stores of a core -/

theorem Core.correct_clean {k : Core} (h : k.eccSingle = []) (a n : Nat) : k.correct a n = k := by simp [Core.correct, h]

theorem State.core_modCore_same {s : State} {i : Nat} {f : Core → Core} (h : f (s.core i) = s.core i) (j : Nat) :
    (s.modCore i f).core j = s.core j := by
  rw [State.modCore, State.core_setCore, h]
  split
  next hij => rw [hij]
  next => rfl

theorem Core.load_clean {k : Core} (h : k.eccDouble = []) (a n : Nat) : k.load a n = .inl (Cells.read 0 k.mem a n) := by
  simp [Core.load, Core.eccRead, h, Core.bytes]

theorem Core.store_clean {k : Core} (h : k.eccDouble = []) (a : Nat) (bs : List Byte) :
    k.store a bs = .inl ((k.writeBytes a bs).overwritten a bs.length) := by
  simp [Core.store, Core.eccMerge, h]

theorem leBytes_length (n v : Nat) : (leBytes n v).length = n := by
  induction n generalizing v with
  | zero => rfl
  | succ n ih => simp [leBytes, ih]

/-! ## Writes (R378) -/

section
variable {s : State} {i : Nat} {ok : Bool} {f : State → State × Answer}

theorem State.panelWrite_range (h : ok = false) : s.panelWrite ok i f = (s, .bad "RANGE") := by
  simp [State.panelWrite, State.panelOpen, h]

theorem State.panelWrite_notReady (h : ok = true) (hr : (s.mg.ready || decide (7 < s.mg.stage)) = false) :
    s.panelWrite ok i f = (s, .bad "NOTREADY") := by
  simp only [Bool.or_eq_false_iff, decide_eq_false_iff_not, Nat.not_lt] at hr
  simp only [State.panelWrite, State.panelOpen_notReady _ h hr.1 hr.2]

theorem State.panelWrite_busy (h : ok = true) (hr : (s.mg.ready || decide (7 < s.mg.stage)) = true)
    (hb : s.podScrubs (podOf i) = true) : s.panelWrite ok i f = (s, .bad "BUSY") := by
  simp only [Bool.or_eq_true, decide_eq_true_eq] at hr
  simp only [State.panelWrite, State.panelOpen_open _ h hr, if_pos hb]

theorem State.panelWrite_open (h : ok = true) (hr : (s.mg.ready || decide (7 < s.mg.stage)) = true)
    (hb : s.podScrubs (podOf i) = false) : s.panelWrite ok i f = f s := by
  simp only [Bool.or_eq_true, decide_eq_true_eq] at hr
  simp only [State.panelWrite, State.panelOpen_open _ h hr, if_neg (show ¬(s.podScrubs (podOf i) = true) by simp [hb])]

end

/-! ## Commands whose answer goes with a change -/

theorem State.shown_endAnswer {s : State} (hc : s.mon.collecting = none) (ls : List MonOut) :
    (s.shown ls).endAnswer = { s with mon := (s.shown ls).endAnswer.mon } :=
  State.endAnswer_frame (s := s.shown ls) hc

section
variable {s : State} (hp : s.mg.powered = true) (hc : s.mon.collecting = none)
include hp hc

theorem answers_monitorReg_range {off n : Nat}
    (h : (decide (off % 4 = 0) && decide (0 < n) && decide (n ≤ 64) && ((List.range n).map (fun k => off + 4 * k)).all smbServed) = false) :
    Answers (.monitorReg off n) s (fun t => t = (s.shown [.err "RANGE"]).endAnswer) := by
  have e : exec (.monitorReg off n) s = execMonitorReg off n s := rfl
  refine answers_answer hp hc (u := s) (a := .bad "RANGE") e (if_pos ?_)
  simp only [Bool.and_eq_false_iff, decide_eq_false_iff_not, Nat.not_lt, Nat.not_le, Nat.le_zero] at h
  rcases h with ((h | h) | h) | h
  · exact .inl h
  · exact .inr (.inl h)
  · exact .inr (.inr (.inl h))
  · refine .inr (.inr (.inr ?_))
    simpa using h

theorem answers_monitorReg {off n : Nat}
    (h : (decide (off % 4 = 0) && decide (0 < n) && decide (n ≤ 64) && ((List.range n).map (fun k => off + 4 * k)).all smbServed) = true) :
    Answers (.monitorReg off n) s (fun t =>
      let os := (List.range n).map (fun k => off + 4 * k)
      let u := os.foldl (fun (t : State) o => t.latchRead .monitor o) s
      t = (u.shown [.values "reg" (os.map (u.bar0Word .monitor)), .ok]).endAnswer ∧ u = { s with tcb := u.tcb } ∧
      u.tcb.now = s.tcb.now ∧ (0x1000 ∈ os → u.bar0Word .monitor 0x1004 = s.tcb.now / 2 ^ 32 % 2 ^ 32)) := by
  simp only [Bool.and_eq_true, decide_eq_true_eq] at h
  obtain ⟨⟨⟨ha, hpos⟩, hn⟩, hos⟩ := h
  have served : ¬(off % 4 ≠ 0 ∨ n = 0 ∨ 64 < n ∨ ((List.range n).map (fun k => off + 4 * k)).any (fun o => !smbServed o)) := by
    rintro (h | h | h | h)
    · exact h ha
    · omega
    · omega
    · simp only [List.any_eq_true, Bool.not_eq_true'] at h
      obtain ⟨o, ho, hno⟩ := h
      simp [List.all_eq_true.mp hos o ho] at hno
  obtain ⟨frame, now, latched⟩ := s.latchReads_served hos
  have e : exec (.monitorReg off n) s = execMonitorReg off n s := rfl
  obtain ⟨t, act, ht⟩ := answers_answer hp hc e (if_neg served)
  refine ⟨t, act, ht, frame, now, fun hm => ?_⟩
  exact latched hm

theorem answers_monitorCtx {n : Nat} (hn : n < 64) :
    Answers (.monitorCtx n) s (fun t => ∃ u : State, t = u.endAnswer ∧ u = { s with mon := u.mon, ctxs := u.ctxs } ∧
      (∀ d, d ≠ n → u.ctx d = s.ctx d) ∧
      u.ctx n = { s.ctx n with fcLatch := (s.ctx n).fcLatch.put (pathNo .monitor) (BitVec.ofNat 32 ((s.ctx n).fcount / 2 ^ 32)) } ∧
      u.mon = { s.mon with out := s.mon.out ++ [.values "ctx" ((List.range 23).map (fun k => (u.ctx n).word .monitor (4 * k))), .ok] }) := by
  have e : exec (.monitorCtx n) s = execMonitorCtx n s := rfl
  obtain ⟨t, act, ht⟩ := answers_answer hp hc (u := s.latchFcount .monitor n) e (if_neg (Nat.not_le.mpr hn))
  have ctxs (ls : List MonOut) (d : Nat) : ((s.latchFcount .monitor n).shown ls).ctx d = (s.latchFcount .monitor n).ctx d := rfl
  exact ⟨t, act, _, ht, rfl, fun d hd => (ctxs _ d).trans (State.ctx_modCtx_ne s hd _), (ctxs _ n).trans (State.ctx_modCtx_self ..), rfl⟩

/-! ### Bytes and bundles of a core (R375) -/

section
variable {x y : Nat} (hcore : (decide (x < 640) && decide (y < 480)) = true) (hr : s.mg.ready = true ∨ 7 < s.mg.stage)
  (hv : s.fs.coreRails = true)
include hcore hr hv

theorem answers_monitorMem_locked {a n : Nat} (h1 : 1 ≤ n) (h2 : n ≤ 4096) (h3 : a + n ≤ 196608) {e : String}
    (hl : s.podLocked (coreAt x y) = some e) : Answers (.monitorMem x y a n) s (fun t => t = (s.shown [.err e]).endAnswer) := by
  have opens : s.panelRead (coreOk x y && decide (1 ≤ n) && decide (n ≤ 4096) && decide (a + n ≤ 196608)) (.good []) = .good [] :=
    State.panelRead_on _ (by rw [coreOk, hcore]; simp [h1, h2, h3]) hr hv
  have act : exec (.monitorMem x y a n) s = execMonitorMem x y a n s := rfl
  exact answers_answer hp hc act (u := s) (a := .bad e) (by simp only [opens, hl])

theorem answers_monitorMem {a n : Nat} (h1 : 1 ≤ n) (h2 : n ≤ 4096) (h3 : a + n ≤ 196608) (hl : s.podLocked (coreAt x y) = none)
    (he1 : (s.core (coreAt x y)).eccSingle = []) (he2 : (s.core (coreAt x y)).eccDouble = []) :
    Answers (.monitorMem x y a n) s (fun t => ∃ u : State, t = u.endAnswer ∧ (∀ j, u.core j = s.core j) ∧ u.ctxs = s.ctxs ∧
      u.ports = s.ports ∧ u.fns = s.fns ∧
      u.mon = { s.mon with out := s.mon.out ++ rowsOf16 (Cells.read 0 (s.core (coreAt x y)).mem a n) ++ [.ok] }) := by
  have opens : s.panelRead (coreOk x y && decide (1 ≤ n) && decide (n ≤ 4096) && decide (a + n ≤ 196608)) (.good []) = .good [] :=
    State.panelRead_on _ (by rw [coreOk, hcore]; simp [h1, h2, h3]) hr hv
  have same := State.core_modCore_same (s := s) (i := coreAt x y) (f := fun k => k.correct a n) (Core.correct_clean he1 a n)
  have act : exec (.monitorMem x y a n) s = execMonitorMem x y a n s := rfl
  obtain ⟨t, hact, ht⟩ := answers_answer hp hc act (u := s.modCore (coreAt x y) (fun k => k.correct a n))
    (a := .good (rowsOf16 (Cells.read 0 (s.core (coreAt x y)).mem a n))) (by simp only [opens, hl, same, Core.load_clean he2])
  exact ⟨t, hact, _, ht, same, rfl, rfl, rfl, by simp [State.shown, State.setMon, Answer.lines]⟩

theorem answers_monitorIstore_locked {b n : Nat} (h1 : 1 ≤ n) (h2 : n ≤ 64) (h3 : b + n ≤ 1024) {e : String}
    (hl : s.podLocked (coreAt x y) = some e) : Answers (.monitorIstore x y b n) s (fun t => t = (s.shown [.err e]).endAnswer) := by
  have opens : s.panelRead (coreOk x y && decide (1 ≤ n) && decide (n ≤ 64) && decide (b + n ≤ 1024)) (.good []) = .good [] :=
    State.panelRead_on _ (by rw [coreOk, hcore]; simp [h1, h2, h3]) hr hv
  have act : exec (.monitorIstore x y b n) s = execMonitorIstore x y b n s := rfl
  exact answers_answer hp hc act (u := s) (a := .bad e) (by simp only [opens, hl])

theorem answers_monitorIstore {b n : Nat} (h1 : 1 ≤ n) (h2 : n ≤ 64) (h3 : b + n ≤ 1024) (hl : s.podLocked (coreAt x y) = none)
    (he1 : (s.core (coreAt x y)).eccSingle = []) (he2 : (s.core (coreAt x y)).eccDouble = []) :
    Answers (.monitorIstore x y b n) s (fun t => ∃ u : State, t = u.endAnswer ∧ (∀ j, u.core j = s.core j) ∧ u.ctxs = s.ctxs ∧
      u.ports = s.ports ∧ u.fns = s.fns ∧
      u.mon = { s.mon with out := s.mon.out ++ ((List.range n).map (fun j =>
        MonOut.values "istore" ((Cells.read 0 (s.core (coreAt x y)).istore (8 * (b + j)) 8).map (·.toNat)))) ++ [.ok] }) := by
  have opens : s.panelRead (coreOk x y && decide (1 ≤ n) && decide (n ≤ 64) && decide (b + n ≤ 1024)) (.good []) = .good [] :=
    State.panelRead_on _ (by rw [coreOk, hcore]; simp [h1, h2, h3]) hr hv
  have same := State.core_modCore_same (s := s) (i := coreAt x y) (f := fun k => k.correct (196608 + 32 * b) (32 * n))
    (Core.correct_clean he1 ..)
  have clean : (s.core (coreAt x y)).badWord 24576 (32 * b) (32 * (b + n)) = none := by simp [Core.badWord, he2]
  have act : exec (.monitorIstore x y b n) s = execMonitorIstore x y b n s := rfl
  obtain ⟨t, hact, ht⟩ := answers_answer hp hc act (u := s.modCore (coreAt x y) (fun k => k.correct (196608 + 32 * b) (32 * n)))
    (a := .good ((List.range n).map (fun j => .values "istore" ((Cells.read 0 (s.core (coreAt x y)).istore (8 * (b + j)) 8).map (·.toNat)))))
    (by simp only [opens, hl, clean])
  exact ⟨t, hact, _, ht, same, rfl, rfl, rfl, by simp [State.shown, State.setMon, Answer.lines]⟩

end

end

/-! ## Who may read a bound pod (R375) -/

theorem State.podLocked_locked {s : State} {i : Nat} (ht : s.podTaken (podOf i) = true) (hu : s.sec.unlocked = false) :
    s.podLocked i = some "LOCKED" := by simp [State.podLocked, ht, hu]

theorem State.podLocked_perm {s : State} {i : Nat} (ht : s.podTaken (podOf i) = true) (hu : s.sec.unlocked = true)
    (hb : s.sec.perms.getLsbD 0 = false) : s.podLocked i = some "PERM" := by
  simp only [State.podLocked, ht, hu, hb]
  rfl

theorem State.podLocked_may {s : State} {i : Nat}
    (h : (!s.podTaken (podOf i) || (s.sec.unlocked && s.sec.perms.getLsbD 0)) = true) : s.podLocked i = none := by
  simp only [Bool.or_eq_true, Bool.not_eq_true', Bool.and_eq_true] at h
  rcases h with h | ⟨hu, hb⟩
  · simp [State.podLocked, h]
  · simp [State.podLocked, hu, hb]

end Sys2Proof.Machine
end

section
/-! The monitor's write commands, and its reset (R314, R355, R377, R378). -/
namespace Sys2Proof.Machine

open Sys2Proof

/-! ## A word of a scratchpad -/

theorem Core.canonical_wf {k : Core} (h : k.canonical = true) :
    Cells.wf 0 k.mem = true ∧ Cells.wf 0 k.istore = true ∧ Cells.wf 0 k.dstore = true := by
  simp only [Core.canonical, Bool.and_eq_true] at h
  obtain ⟨⟨⟨⟨⟨⟨⟨⟨-, -⟩, -⟩, hm⟩, hi⟩, hd⟩, -⟩, -⟩, -⟩ := h
  exact ⟨hm, hi, hd⟩

/-- The core once a word has been written: also in its descriptor store, where the word lies in a descriptor handle (R103). -/
def Core.wordWritten (k : Core) (a : Nat) (bs : List Byte) : Core :=
  let k1 := (k.writeBytes a bs).overwritten a bs.length
  if k1.inDesc a then { k1 with dstore := Cells.write 0 k1.dstore a bs } else k1

theorem Core.wordWritten_spec (k : Core) (a : Nat) (bs : List Byte) :
    (k.wordWritten a bs).mem = Cells.write 0 k.mem a bs ∧ (k.wordWritten a bs).istore = k.istore ∧
    (k.wordWritten a bs).handles = k.handles ∧
    (k.wordWritten a bs).dstore = if k.inDesc a then Cells.write 0 k.dstore a bs else k.dstore := by
  rw [Core.wordWritten, Core.overwritten_frame]
  by_cases h : k.inDesc a = true
  · rw [if_pos h]
    exact (if_pos h).symm ▸ ⟨rfl, rfl, rfl, rfl⟩
  · rw [if_neg h]
    exact (if_neg h).symm ▸ ⟨rfl, rfl, rfl, rfl⟩

/-! ## Refusals -/

section
variable {s : State} (hp : s.mg.powered = true) (hc : s.mon.collecting = none)
include hp hc

/-- A write command without its unlock, its PERMS bit or the firmware is refused (R374, R377). -/
theorem answers_refused {c : Instr} {bit : Nat}
    (h : (s.sec.unlocked && s.sec.perms.getLsbD bit && s.fwRuns) = false → ∃ f, exec c s = s.writeCmd bit f) :
    (s.sec.unlocked = false → Answers c s (fun t => t = (s.shown [.err "LOCKED"]).endAnswer)) ∧
    (s.sec.unlocked = true → s.sec.perms.getLsbD bit = false → Answers c s (fun t => t = (s.shown [.err "PERM"]).endAnswer)) ∧
    (s.sec.unlocked = true → s.sec.perms.getLsbD bit = true → s.fwRuns = false →
      Answers c s (fun t => t = (s.shown [.err "NORESP"]).endAnswer)) := by
  refine ⟨fun hu => ?_, fun hu hb => ?_, fun hu hb hf => ?_⟩
  · obtain ⟨f, act⟩ := h (by rw [hu]; rfl)
    exact answers_writeCmd_locked hp hc act hu
  · obtain ⟨f, act⟩ := h (by rw [hb, Bool.and_false]; rfl)
    exact answers_writeCmd_perm hp hc act hu hb
  · obtain ⟨f, act⟩ := h (by rw [hf, Bool.and_false])
    exact answers_writeCmd_noresp hp hc act hu hb hf

end

/-- Away from MG_RESET, or where it may not act, `wreg` is a write command like the others. -/
theorem exec_monitorWreg {s : State} {off : Nat} (v : BitVec 32)
    (h : off ≠ 0x3000 ∨ (s.sec.unlocked && s.sec.perms.getLsbD 0 && s.fwRuns) = false) :
    exec (.monitorWreg off v) s =
      s.writeCmd 0 (fun s => if 0x100000 ≤ off ∨ off % 4 ≠ 0 then (s, .bad "RANGE") else (s.bar0Write off v, .good [])) := by
  change execMonitorWreg off v s = _
  refine if_neg ?_
  rintro ⟨-, -, h0, -, -, hu, hb, hf⟩
  rcases h with h | h
  · exact h h0
  · rw [hu, hb, hf] at h
    cases h

theorem exec_monitorReset_refused {s : State} (h : (s.sec.unlocked && s.sec.perms.getLsbD 2 && s.fwRuns) = false) :
    exec .monitorReset s = s.writeCmd 2 (fun s => (s, .good [])) := by
  change execMonitorReset s = _
  refine if_neg ?_
  rintro ⟨-, -, hu, hb, hf⟩
  rw [hu, hb, hf] at h
  cases h

/-! ## MG_RESET and `reset` -/

section
variable {s : State} (hp : s.mg.powered = true) (hc : s.mon.collecting = none)
include hp hc

/-- A write of MG_RESET: the answer goes out first. -/
theorem exec_monitorWreg_reset (v : BitVec 32) (hm : (s.sec.unlocked && s.sec.perms.getLsbD 0 && s.fwRuns) = true) :
    exec (.monitorWreg 0x3000 v) s = .next ((s.shown [.ok]).endAnswer.bar0Write 0x3000 v) := by
  simp only [Bool.and_eq_true] at hm
  obtain ⟨⟨hu, hb⟩, hf⟩ := hm
  change execMonitorWreg 0x3000 v s = _
  exact if_pos ⟨by omega, by omega, rfl, hp, by rw [hc]; rfl, hu, hb, hf⟩

theorem exec_monitorReset (hm : (s.sec.unlocked && s.sec.perms.getLsbD 2 && s.fwRuns) = true) :
    exec .monitorReset s = .next ((s.shown [.ok]).endAnswer.moduleReset 7) := by
  simp only [Bool.and_eq_true] at hm
  obtain ⟨⟨hu, hb⟩, hf⟩ := hm
  change execMonitorReset s = _
  exact if_pos ⟨hp, by rw [hc]; rfl, hu, hb, hf⟩

end

theorem State.fwRuns_not_inRecovery {s : State} (h : s.fwRuns = true) : s.sec.inRecovery = false := by
  simp only [State.fwRuns, Bool.and_eq_true, Bool.not_eq_true'] at h
  obtain ⟨⟨-, hrec⟩, -⟩ := h
  exact hrec

theorem State.retainAll_frame (s : State) : s.retainAll.link = s.link ∧ s.retainAll.ep = s.ep := by
  refine List.foldlRecOn (motive := fun t : State => t.link = s.link ∧ t.ep = s.ep) _ _ ⟨rfl, rfl⟩ fun t ht c _ => ?_
  refine List.foldlRecOn (motive := fun t : State => t.link = s.link ∧ t.ep = s.ep) _ _ ht fun u hu p _ => ?_
  split
  · rw [State.logFault_link, State.logFault_ep]
    exact hu
  · exact hu

/-- A port that goes down is reported over the torus, and by an event at the manager only (R217). -/
theorem State.leaveUp_worker {s : State} (h : s.ep.role ≠ 2) (p st : Nat) :
    (s.leaveUp p st).link = s.link ∧ (s.leaveUp p st).ep.role = s.ep.role := by
  have logged : ((s.modEpPort p (fun k => k.drop st s.tcb.now)).logFault 0x0A01 3 noCtx (srcEp p) p st).ep.role = s.ep.role := by
    rw [State.logFault_ep]; rfl
  have linked : ((s.modEpPort p (fun k => k.drop st s.tcb.now)).logFault 0x0A01 3 noCtx (srcEp p) p st).link = s.link :=
    State.logFault_link ..
  simp only [State.leaveUp, if_neg h]
  generalize (s.modEpPort p (fun k => k.drop st s.tcb.now)).logFault 0x0A01 3 noCtx (srcEp p) p st = u at logged linked
  exact ite_holds (fun t : State => t.link = s.link ∧ t.ep.role = s.ep.role) ⟨linked, logged⟩ ⟨linked, logged⟩

theorem State.leaveUps_worker {s : State} (h : s.ep.role ≠ 2) (l : List Nat) :
    (l.foldl (fun (t : State) p => if (t.epPort p).st = 3 then t.leaveUp p 0 else t) s).link = s.link := by
  induction l generalizing s with
  | nil => rfl
  | cons p l ih =>
    rw [List.foldl_cons]
    by_cases up : (s.epPort p).st = 3
    · obtain ⟨link, role⟩ := State.leaveUp_worker h p 0
      rw [if_pos up, ih (by rw [role]; exact h), link]
    · rw [if_neg up, ih h]

/-- No event of a port that goes down is written at a worker, or where no port is UP. -/
theorem State.portsDown_link {s : State} (h : s.ep.role ≠ 2 ∨ ∀ p, p < 6 → (s.epPort p).st ≠ 3) : s.portsDown.link = s.link := by
  rcases h with h | h
  · exact State.leaveUps_worker h _
  · have run : s.portsDown = s := by
      refine List.foldlRecOn (motive := fun t : State => t = s) _ _ rfl fun t ht p hp => ?_
      subst ht
      exact if_neg (h p (List.mem_range.mp hp))
    rw [run]

theorem State.moduleReset_host {s : State} (cause : Nat) (hp : s.mg.powered = true) : (s.moduleReset cause).fns = [] ∧
    ((s.ep.role ≠ 2 ∨ ∀ p, p < 6 → (s.epPort p).st ≠ 3) → (s.moduleReset cause).link.mem = s.link.mem) := by
  have on : ¬((!s.mg.powered) = true) := by simp [hp]
  have link : (s.ep.role ≠ 2 ∨ ∀ p, p < 6 → (s.epPort p).st ≠ 3) → s.retainAll.portsDown.link = s.link := fun h => by
    obtain ⟨hlink, hep⟩ := s.retainAll_frame
    have ports (p : Nat) : s.retainAll.epPort p = s.epPort p := by rw [State.epPort, hep]; rfl
    rw [State.portsDown_link (by rw [hep]; simpa only [ports] using h), hlink]
  rw [State.moduleReset, if_neg on]
  generalize s.retainAll.portsDown = r at link
  refine ⟨rfl, fun h => ?_⟩
  change r.link.mem = _
  rw [link h]

end Sys2Proof.Machine
end

section
/-! What the monitor's write commands leave (R355, R377, R378). -/
namespace Sys2Proof.Machine

open Sys2Proof

section
variable {s : State} (hp : s.mg.powered = true) (hc : s.mon.collecting = none)
include hp hc

/-! ## `wreg` and `reset` (R378) -/

theorem answers_monitorWreg_range {off : Nat} {v : BitVec 32} (hm : (s.sec.unlocked && s.sec.perms.getLsbD 0 && s.fwRuns) = true)
    (h : 0x100000 ≤ off ∨ off % 4 ≠ 0) : Answers (.monitorWreg off v) s (fun t => t = (s.shown [.err "RANGE"]).endAnswer) :=
  answers_writeCmd_may hp hc (u := s) (a := .bad "RANGE") (exec_monitorWreg v (.inl (by omega))) hm (if_pos h)

theorem answers_monitorWreg {off : Nat} {v : BitVec 32} (hm : (s.sec.unlocked && s.sec.perms.getLsbD 0 && s.fwRuns) = true)
    (hlt : off < 0x100000) (ha : off % 4 = 0) (h : off ≠ 0x3000) :
    Answers (.monitorWreg off v) s (fun t => t = ((s.bar0Write off v).shown [.ok]).endAnswer) :=
  answers_writeCmd_may hp hc (u := s.bar0Write off v) (a := .good []) (exec_monitorWreg v (.inl h)) hm (if_neg (by omega))

/-- A write of MG_RESET without its key does nothing. -/
theorem answers_monitorWreg_noKey {v : BitVec 32} (hm : (s.sec.unlocked && s.sec.perms.getLsbD 0 && s.fwRuns) = true)
    (hv : v ≠ 0xA5A50004#32) : Answers (.monitorWreg 0x3000 v) s (fun t => t = (s.shown [.ok]).endAnswer) := by
  refine ⟨_, exec_monitorWreg_reset hp hc v hm, ?_⟩
  rw [State.bar0Write, if_pos rfl, if_neg (fun h => hv h.1)]

theorem answers_monitorWreg_key (hm : (s.sec.unlocked && s.sec.perms.getLsbD 0 && s.fwRuns) = true) :
    Answers (.monitorWreg 0x3000 0xA5A50004#32) s (fun t => t.ctxs = [] ∧ t.mg.rstCause = 2) := by
  refine ⟨_, exec_monitorWreg_reset hp hc _ hm, ?_⟩
  have runs : s.fwRuns = true := by
    simp only [Bool.and_eq_true] at hm
    exact hm.2
  have frame := State.shown_endAnswer hc [.ok]
  generalize (s.shown [.ok]).endAnswer = u at frame
  have power : u.mg.powered = true := by rw [frame]; exact hp
  have recov : u.sec.inRecovery = false := by rw [frame]; exact State.fwRuns_not_inRecovery runs
  rw [State.bar0Write, if_pos rfl, if_pos ⟨rfl, recov⟩]
  obtain ⟨ctxs, cause, -⟩ := State.moduleReset_keeps 2 power
  exact ⟨ctxs, cause⟩

theorem answers_monitorReset (hm : (s.sec.unlocked && s.sec.perms.getLsbD 2 && s.fwRuns) = true) :
    Answers .monitorReset s (fun t => t.ctxs = [] ∧ t.fns = [] ∧ t.mg.rstCause = 7 ∧
      ((s.ep.role ≠ 2 ∨ ∀ p, p < 6 → (s.epPort p).st ≠ 3) → t.link.mem = s.link.mem)) := by
  refine ⟨_, exec_monitorReset hp hc hm, ?_⟩
  have frame := State.shown_endAnswer hc [.ok]
  generalize (s.shown [.ok]).endAnswer = u at frame
  have power : u.mg.powered = true := by rw [frame]; exact hp
  have ep : u.ep = s.ep := by rw [frame]
  have link : u.link = s.link := by rw [frame]
  have port (p : Nat) : u.epPort p = s.epPort p := by rw [State.epPort, State.epPort, ep]
  obtain ⟨ctxs, cause, -⟩ := State.moduleReset_keeps 7 power
  obtain ⟨fns, host⟩ := State.moduleReset_host 7 power
  refine ⟨ctxs, fns, cause, fun h => ?_⟩
  rw [← link]
  exact host (by simpa only [ep, port] using h)

/-! ## `wmem` and `wistore` (R378) -/

omit hp in
/-- The answer to a write of a core leaves that write. -/
theorem answered_setCore (i : Nat) (k : Core) (ls : List MonOut) :
    let t := ((s.setCore i k).shown ls).endAnswer
    t.core i = k ∧ (∀ j, j ≠ i → t.core j = s.core j) ∧ t.ctxs = s.ctxs ∧ t.ports = s.ports := by
  have frame := State.shown_endAnswer (s := s.setCore i k) hc ls
  generalize ((s.setCore i k).shown ls).endAnswer = t at frame
  have cores (j : Nat) : t.core j = (s.setCore i k).core j := by rw [frame]; rfl
  refine ⟨(cores i).trans (State.core_setCore_self ..), fun j hj => (cores j).trans (State.core_setCore_ne _ hj _), ?_, ?_⟩
  · rw [frame]; rfl
  · rw [frame]; rfl

section
variable {x y : Nat}

theorem answers_monitorWmem_refused {a : Nat} {v : BitVec 32} (hm : (s.sec.unlocked && s.sec.perms.getLsbD 0 && s.fwRuns) = true) :
    let ok := coreOk x y && decide (a % 4 = 0) && decide (a + 4 ≤ 196608)
    let ready := s.mg.ready || decide (7 < s.mg.stage)
    let prints (ls : List MonOut) : Prop := Answers (.monitorWmem x y a v) s (fun t => t = (s.shown ls).endAnswer)
    (ok = false → prints [.err "RANGE"]) ∧ (ok = true → ready = false → prints [.err "NOTREADY"]) ∧
    (ok = true → ready = true → s.podScrubs (podOf (coreAt x y)) = true → prints [.err "BUSY"]) := by
  have act : exec (.monitorWmem x y a v) s = execMonitorWmem x y a v s := rfl
  exact ⟨fun ho => answers_writeCmd_may hp hc (u := s) (a := .bad "RANGE") act hm (State.panelWrite_range ho),
    fun ho hr => answers_writeCmd_may hp hc (u := s) (a := .bad "NOTREADY") act hm (State.panelWrite_notReady ho hr),
    fun ho hr hb => answers_writeCmd_may hp hc (u := s) (a := .bad "BUSY") act hm (State.panelWrite_busy ho hr hb)⟩

theorem answers_monitorWmem {a : Nat} {v : BitVec 32} (hm : (s.sec.unlocked && s.sec.perms.getLsbD 0 && s.fwRuns) = true)
    (ho : (coreOk x y && decide (a % 4 = 0) && decide (a + 4 ≤ 196608)) = true)
    (hr : (s.mg.ready || decide (7 < s.mg.stage)) = true) (hb : s.podScrubs (podOf (coreAt x y)) = false)
    (he : (s.core (coreAt x y)).eccDouble = []) :
    Answers (.monitorWmem x y a v) s (fun t => t.core (coreAt x y) = (s.core (coreAt x y)).wordWritten a (leBytes 4 v.toNat) ∧
      (∀ j, j ≠ coreAt x y → t.core j = s.core j) ∧ t.ctxs = s.ctxs ∧ t.ports = s.ports) := by
  have act : exec (.monitorWmem x y a v) s = execMonitorWmem x y a v s := rfl
  obtain ⟨t, hact, ht⟩ := answers_writeCmd_may hp hc act (u := s.setCore (coreAt x y) ((s.core (coreAt x y)).wordWritten a (leBytes 4 v.toNat)))
    (a := .good []) hm (by rw [State.panelWrite_open ho hr hb]; simp only [Core.store_clean he]; rfl)
  exact ⟨t, hact, ht ▸ answered_setCore hc _ _ [.ok]⟩

/-- The core once a bundle has been written: its words are read with new check bits. -/
def Core.bundleWritten (k : Core) (b : Nat) (ws : List (BitVec 32)) : Core :=
  let fresh (l : List Nat) : List Nat := l.filter (fun w => !(decide (24576 + 4 * b ≤ w) && decide (w < 24576 + 4 * b + 4)))
  { k with istore := Cells.write 0 k.istore (8 * b) ws, eccSingle := fresh k.eccSingle, eccDouble := fresh k.eccDouble }

theorem answers_monitorWistore_malformed {b : Nat} {ws : List (BitVec 32)} (hm : (s.sec.unlocked && s.sec.perms.getLsbD 1 && s.fwRuns) = true)
    (h : ws.length ≠ 8) : Answers (.monitorWistore x y b ws) s (fun t => t = (s.shown [.err "SYNTAX"]).endAnswer) := by
  have act : exec (.monitorWistore x y b ws) s = execMonitorWistore x y b ws s := rfl
  exact answers_writeCmd_may hp hc (u := s) (a := .bad "SYNTAX") act hm (if_pos h)

section
variable {b : Nat} {ws : List (BitVec 32)} (hm : (s.sec.unlocked && s.sec.perms.getLsbD 1 && s.fwRuns) = true) (h8 : ws.length = 8)
include hm h8

theorem answers_monitorWistore_refused :
    let ok := coreOk x y && decide (b < 1024)
    let ready := s.mg.ready || decide (7 < s.mg.stage)
    let prints (ls : List MonOut) : Prop := Answers (.monitorWistore x y b ws) s (fun t => t = (s.shown ls).endAnswer)
    (ok = false → prints [.err "RANGE"]) ∧ (ok = true → ready = false → prints [.err "NOTREADY"]) ∧
    (ok = true → ready = true → s.podScrubs (podOf (coreAt x y)) = true → prints [.err "BUSY"]) := by
  have act : exec (.monitorWistore x y b ws) s = execMonitorWistore x y b ws s := rfl
  have whole : ¬(ws.length ≠ 8) := fun h => h h8
  refine ⟨fun ho => ?_, fun ho hr => ?_, fun ho hr hb => ?_⟩
  · exact answers_writeCmd_may hp hc (u := s) (a := .bad "RANGE") act hm ((if_neg whole).trans (State.panelWrite_range ho))
  · exact answers_writeCmd_may hp hc (u := s) (a := .bad "NOTREADY") act hm ((if_neg whole).trans (State.panelWrite_notReady ho hr))
  · exact answers_writeCmd_may hp hc (u := s) (a := .bad "BUSY") act hm ((if_neg whole).trans (State.panelWrite_busy ho hr hb))

theorem answers_monitorWistore (ho : (coreOk x y && decide (b < 1024)) = true)
    (hr : (s.mg.ready || decide (7 < s.mg.stage)) = true) (hb : s.podScrubs (podOf (coreAt x y)) = false) :
    Answers (.monitorWistore x y b ws) s (fun t => t.core (coreAt x y) = (s.core (coreAt x y)).bundleWritten b ws ∧
      (∀ j, j ≠ coreAt x y → t.core j = s.core j) ∧ t.ctxs = s.ctxs ∧ t.ports = s.ports) := by
  have act : exec (.monitorWistore x y b ws) s = execMonitorWistore x y b ws s := rfl
  have whole : ¬(ws.length ≠ 8) := fun h => h h8
  obtain ⟨t, hact, ht⟩ := answers_writeCmd_may hp hc act (u := s.modCore (coreAt x y) (fun k => k.bundleWritten b ws))
    (a := .good []) hm ((if_neg whole).trans (State.panelWrite_open ho hr hb))
  exact ⟨t, hact, ht ▸ answered_setCore hc _ _ [.ok]⟩

end

end

end

end Sys2Proof.Machine
end

section
/-! What the monitor's read commands print (Table 19.2), what its write commands leave in a core (R378), and obligation O57. -/
namespace Sys2Proof.Machine

open Sys2Proof

theorem exec_monitorWmem (x y a : Nat) (v : BitVec 32) (s : State) : ∃ f, exec (.monitorWmem x y a v) s = s.writeCmd 0 f := by
  have act : exec (.monitorWmem x y a v) s = execMonitorWmem x y a v s := rfl
  exact ⟨_, act⟩

theorem exec_monitorWistore (x y b : Nat) (ws : List (BitVec 32)) (s : State) : ∃ f, exec (.monitorWistore x y b ws) s = s.writeCmd 1 f := by
  have act : exec (.monitorWistore x y b ws) s = execMonitorWistore x y b ws s := rfl
  exact ⟨_, act⟩

section
variable {s : State} (hp : s.mg.powered = true) (hc : s.mon.collecting = none)
include hp hc

/-! ## Read commands whose argument must be in range (R375) -/

theorem answers_monitorLog_range {n : Nat} (h : n = 0 ∨ 2048 < n) :
    Answers (.monitorLog n) s (fun t => t = (s.shown [.err "RANGE"]).endAnswer) :=
  have act : exec (.monitorLog n) s = execMonitorLog n s := rfl
  answers_printed hp hc act ((congrArg Answer.lines (if_pos h)).trans rfl)

/-- The newest entry of the log. -/
theorem answers_monitorLog_newest {e : LogEntry} (hn : s.mg.logNext ≠ 0) (he : s.mg.log.find? ((s.mg.logNext - 1) % 2048) = some e)
    (hq : e.seq = s.mg.logNext - 1) : Answers (.monitorLog 1) s (fun t => t = (s.shown [.values "log" e.words, .ok]).endAnswer) := by
  have one : min 1 s.mg.logNext = 1 := by omega
  have act : exec (.monitorLog 1) s = execMonitorLog 1 s := rfl
  refine answers_printed hp hc act ?_
  rw [if_neg (by omega), one]
  simp [List.range_succ, he, hq, Answer.lines]

theorem answers_monitorLogFlash (n : Nat) :
    (((decide (0 < n) && decide (n ≤ 1024)) = false → Answers (.monitorLogFlash n) s (fun t => t = (s.shown [.err "RANGE"]).endAnswer)) ∧
    ((decide (0 < n) && decide (n ≤ 1024)) = true → Answers (.monitorLogFlash n) s (fun t =>
      t = (s.shown ((s.mg.flashLog.take n).map (fun e => MonOut.values "log flash" e.words) ++ [.ok])).endAnswer))) :=
  have act : exec (.monitorLogFlash n) s = execMonitorLogFlash n s := rfl
  answers_within hp hc (q := n = 0 ∨ 1024 < n) act rfl
    (by rw [Bool.and_eq_false_iff, decide_eq_false_iff_not, decide_eq_false_iff_not]; omega)

/-- A command that prints `ls` where its argument is in range. -/
theorem answers_below {c : Instr} {n m : Nat} {f : State → Answer} {ls : List MonOut} (h : exec c s = s.printed f)
    (hf : f s = if m ≤ n then .bad "RANGE" else .good ls) :
    (decide (n < m) = false → Answers c s (fun t => t = (s.shown [.err "RANGE"]).endAnswer)) ∧
    (decide (n < m) = true → Answers c s (fun t => t = (s.shown (ls ++ [.ok])).endAnswer)) :=
  answers_within hp hc h hf (by rw [decide_eq_false_iff_not, Nat.not_lt])

theorem answers_monitorPort (n : Nat) :
    let ls := [MonOut.values "port" ([0, 4, 8, 12, 16, 20, 24].map (s.epPort n).word)]
    (decide (n < 6) = false → Answers (.monitorPort n) s (fun t => t = (s.shown [.err "RANGE"]).endAnswer)) ∧
    (decide (n < 6) = true → Answers (.monitorPort n) s (fun t => t = (s.shown (ls ++ [.ok])).endAnswer)) :=
  have act : exec (.monitorPort n) s = execMonitorPort n s := rfl
  answers_below hp hc act rfl

theorem answers_monitorPips (n : Nat) :
    let ls := [MonOut.values "out" ((List.range 64).map (pipOwner (s.epPort n).pipTx)), .values "in" ((List.range 64).map (pipOwner (s.epPort n).pipRx))]
    (decide (n < 6) = false → Answers (.monitorPips n) s (fun t => t = (s.shown [.err "RANGE"]).endAnswer)) ∧
    (decide (n < 6) = true → Answers (.monitorPips n) s (fun t => t = (s.shown (ls ++ [.ok])).endAnswer)) :=
  have act : exec (.monitorPips n) s = execMonitorPips n s := rfl
  answers_below hp hc act rfl

theorem answers_monitorRank (n : Nat) :
    let ls := ((s.ep.ranks.get n []).filter (fun e => e.2.getLsbD 31)).map (fun e => MonOut.values "rank" [e.1, e.2.toNat])
    (decide (n < 65536) = false → Answers (.monitorRank n) s (fun t => t = (s.shown [.err "RANGE"]).endAnswer)) ∧
    (decide (n < 65536) = true → Answers (.monitorRank n) s (fun t => t = (s.shown (ls ++ [.ok])).endAnswer)) :=
  have act : exec (.monitorRank n) s = execMonitorRank n s := rfl
  answers_below hp hc act rfl

theorem answers_monitorRoute (n : Nat) :
    let ls := ((s.ep.table n).filter (fun e => decide (e.2 ≠ 7#8))).map (fun e => MonOut.values "route" [e.1, e.2.toNat])
    (decide (n < 65536) = false → Answers (.monitorRoute n) s (fun t => t = (s.shown [.err "RANGE"]).endAnswer)) ∧
    (decide (n < 65536) = true → Answers (.monitorRoute n) s (fun t => t = (s.shown (ls ++ [.ok])).endAnswer)) :=
  have act : exec (.monitorRoute n) s = execMonitorRoute n s := rfl
  answers_below hp hc act rfl

theorem answers_monitorDist (x y : Nat) :
    let ls := [MonOut.values "dist" ((List.range 40).map (fun d => s.distWord (0x40 + 4 * (40 * (16 * y + x) + d))))]
    ((decide (x < 16) && decide (y < 12)) = false → Answers (.monitorDist x y) s (fun t => t = (s.shown [.err "RANGE"]).endAnswer)) ∧
    ((decide (x < 16) && decide (y < 12)) = true → Answers (.monitorDist x y) s (fun t => t = (s.shown (ls ++ [.ok])).endAnswer)) :=
  have act : exec (.monitorDist x y) s = execMonitorDist x y s := rfl
  answers_within hp hc (q := 16 ≤ x ∨ 12 ≤ y) act rfl
    (by rw [Bool.and_eq_false_iff, decide_eq_false_iff_not, decide_eq_false_iff_not]; omega)

theorem answers_monitorCtx_range {n : Nat} (h : 64 ≤ n) : Answers (.monitorCtx n) s (fun t => t = (s.shown [.err "RANGE"]).endAnswer) :=
  have act : exec (.monitorCtx n) s = execMonitorCtx n s := rfl
  answers_answer hp hc (u := s) (a := .bad "RANGE") act (if_pos h)

/-! ## Read commands of the panel that only print -/

section
variable (x y : Nat)

theorem answers_monitorCore :
    let ok := coreOk x y
    let prints (ls : List MonOut) : Prop := Answers (.monitorCore x y) s (fun t => t = (s.shown ls).endAnswer)
    (ok = false → prints [.err "RANGE"]) ∧ (ok = true → s.mg.ready = false → s.mg.stage ≤ 7 → prints [.err "NOTREADY"]) ∧
    (ok = true → (s.mg.ready = true ∨ 7 < s.mg.stage) → s.fs.coreRails = false → prints [.err "NORESP"]) ∧
    (ok = true → (s.mg.ready = true ∨ 7 < s.mg.stage) → s.fs.coreRails = true →
      prints ([.values "core" ((coreRecord (s.core (coreAt x y))).map (·.toNat)), .values "phase" [(s.core (coreAt x y)).phase]] ++ [.ok])) :=
  have act : exec (.monitorCore x y) s = execMonitorCore x y s := rfl
  answers_panelRead hp hc act rfl

theorem answers_monitorHandle_one (h : Nat) :
    let ok := coreOk x y && decide (h < 64)
    let prints (ls : List MonOut) : Prop := Answers (.monitorHandle x y (some h)) s (fun t => t = (s.shown ls).endAnswer)
    (ok = false → prints [.err "RANGE"]) ∧ (ok = true → s.mg.ready = false → s.mg.stage ≤ 7 → prints [.err "NOTREADY"]) ∧
    (ok = true → (s.mg.ready = true ∨ 7 < s.mg.stage) → s.fs.coreRails = false → prints [.err "NORESP"]) ∧
    (ok = true → (s.mg.ready = true ∨ 7 < s.mg.stage) → s.fs.coreRails = true →
      prints ([.values "handle" [((s.core (coreAt x y)).handle h).toNat]] ++ [.ok])) :=
  have act : exec (.monitorHandle x y (some h)) s = execMonitorHandle x y (some h) s := rfl
  answers_panelRead hp hc act rfl

theorem answers_monitorHandle_all :
    let ok := coreOk x y
    let prints (ls : List MonOut) : Prop := Answers (.monitorHandle x y none) s (fun t => t = (s.shown ls).endAnswer)
    (ok = false → prints [.err "RANGE"]) ∧ (ok = true → s.mg.ready = false → s.mg.stage ≤ 7 → prints [.err "NOTREADY"]) ∧
    (ok = true → (s.mg.ready = true ∨ 7 < s.mg.stage) → s.fs.coreRails = false → prints [.err "NORESP"]) ∧
    (ok = true → (s.mg.ready = true ∨ 7 < s.mg.stage) → s.fs.coreRails = true →
      prints ((List.range 64).map (fun n => MonOut.values "handle" [((s.core (coreAt x y)).handle n).toNat]) ++ [.ok])) :=
  have act : exec (.monitorHandle x y none) s = execMonitorHandle x y none s := rfl
  have all : (coreOk x y && decide ((none : Option Nat).getD 0 < 64)) = coreOk x y := by simp
  answers_panelRead hp hc act (by rw [all])

end

/-! ## Words and bundles that are written (R378) -/

section
variable {x y : Nat}

theorem answers_monitorWmem_word {a : Nat} {v : BitVec 32} (hm : (s.sec.unlocked && s.sec.perms.getLsbD 0 && s.fwRuns) = true)
    (ho : (coreOk x y && decide (a % 4 = 0) && decide (a + 4 ≤ 196608)) = true) (hr : (s.mg.ready || decide (7 < s.mg.stage)) = true)
    (hb : s.podScrubs (podOf (coreAt x y)) = false) (hk : (s.core (coreAt x y)).canonical = true) (he : (s.core (coreAt x y)).eccDouble = []) :
    let i := coreAt x y
    let k := s.core i
    Answers (.monitorWmem x y a v) s (fun t => Cells.read 0 (t.core i).mem a 4 = leBytes 4 v.toNat ∧
      (∀ z, z < a ∨ a + 4 ≤ z → Cells.get 0 (t.core i).mem z = Cells.get 0 k.mem z) ∧
      (k.inDesc a = true → Cells.read 0 (t.core i).dstore a 4 = leBytes 4 v.toNat) ∧ (k.inDesc a = false → (t.core i).dstore = k.dstore) ∧
      (t.core i).istore = k.istore ∧ (t.core i).handles = k.handles ∧ (∀ j, j ≠ i → t.core j = s.core j) ∧
      t.ctxs = s.ctxs ∧ t.ports = s.ports) := by
  obtain ⟨t, act, core, others, ctxs, ports⟩ := answers_monitorWmem hp hc hm ho hr hb he
  obtain ⟨mem, istore, handles, dstore⟩ := (s.core (coreAt x y)).wordWritten_spec a (leBytes 4 v.toNat)
  obtain ⟨wm, -, wd⟩ := Core.canonical_wf hk
  have len : (leBytes 4 v.toNat).length = 4 := leBytes_length ..
  rw [← core] at mem istore handles dstore
  refine ⟨t, act, ?_, fun z hz => ?_, fun hd => ?_, fun hd => ?_, istore, handles, others, ctxs, ports⟩
  · have back := Cells.read_write 0 (s.core (coreAt x y)).mem a (leBytes 4 v.toNat) wm
    rw [len, ← mem] at back
    exact back
  · exact (congrArg (Cells.get 0 · z) mem).trans (Cells.get_write_ne 0 _ z _ a wm (by rw [len]; exact hz))
  · have back := Cells.read_write 0 (s.core (coreAt x y)).dstore a (leBytes 4 v.toNat) wd
    rw [len, ← dstore.trans (if_pos hd)] at back
    exact back
  · have outside : ¬((s.core (coreAt x y)).inDesc a = true) := by rw [hd]; exact Bool.false_ne_true
    exact dstore.trans (if_neg outside)

theorem answers_monitorWistore_bundle {b : Nat} {ws : List (BitVec 32)} (hm : (s.sec.unlocked && s.sec.perms.getLsbD 1 && s.fwRuns) = true)
    (h8 : ws.length = 8) (ho : (coreOk x y && decide (b < 1024)) = true) (hr : (s.mg.ready || decide (7 < s.mg.stage)) = true)
    (hb : s.podScrubs (podOf (coreAt x y)) = false) (hk : (s.core (coreAt x y)).canonical = true) :
    let i := coreAt x y
    let k := s.core i
    Answers (.monitorWistore x y b ws) s (fun t => Cells.read 0 (t.core i).istore (8 * b) 8 = ws ∧
      (∀ z, z < 8 * b ∨ 8 * b + 8 ≤ z → Cells.get 0 (t.core i).istore z = Cells.get 0 k.istore z) ∧
      (t.core i).mem = k.mem ∧ (t.core i).dstore = k.dstore ∧ (∀ j, j ≠ i → t.core j = s.core j) ∧
      t.ctxs = s.ctxs ∧ t.ports = s.ports) := by
  obtain ⟨t, act, core, others, ctxs, ports⟩ := answers_monitorWistore hp hc hm h8 ho hr hb
  obtain ⟨-, wi, -⟩ := Core.canonical_wf hk
  have istore : (t.core (coreAt x y)).istore = Cells.write 0 (s.core (coreAt x y)).istore (8 * b) ws := by rw [core]; rfl
  refine ⟨t, act, ?_, fun z hz => ?_, (congrArg Core.mem core).trans rfl, (congrArg Core.dstore core).trans rfl, others, ctxs, ports⟩
  · have back := Cells.read_write 0 (s.core (coreAt x y)).istore (8 * b) ws wi
    rw [h8, ← istore] at back
    exact back
  · exact (congrArg (Cells.get 0 · z) istore).trans (Cells.get_write_ne 0 _ z _ _ wi (by rw [h8]; exact hz))

end

end

/-- Settles O57: every command goes through the monitor's answer, a read with its state unchanged, a write once unlock, permission and
firmware let it. -/
theorem monitorCommandsPrintAndWriteAsPermitted : Obligations.MonitorCommandsPrintAndWriteAsPermitted := by
  refine ⟨fun s hp hc => ?_, fun s hp hc => ?_⟩
  · have id : exec .monitorId s = execMonitorId s := rfl
    have start : exec .monitorStart s = execMonitorStart s := rfl
    have temp : exec .monitorTemp s = execMonitorTemp s := rfl
    have bmask : exec .monitorBmask s = execMonitorBmask s := rfl
    have challenge : exec .monitorChallenge s = execMonitorChallenge s := rfl
    refine ⟨answers_printed hp hc id rfl, fun off n => ⟨answers_monitorReg_range hp hc, answers_monitorReg hp hc⟩,
      answers_printed hp hc start rfl, answers_printed hp hc temp rfl, fun n => ⟨answers_monitorLog_range hp hc, ?_, answers_monitorLogFlash hp hc n,
      answers_monitorCtx_range hp hc, answers_monitorCtx hp hc, answers_monitorPort hp hc n, answers_monitorPips hp hc n,
      answers_monitorRank hp hc n, answers_monitorRoute hp hc n⟩, answers_printed hp hc bmask rfl, answers_printed hp hc challenge rfl,
      fun x y => ⟨answers_monitorDist hp hc x y, answers_monitorCore hp hc x y, answers_monitorHandle_one hp hc x y,
      answers_monitorHandle_all hp hc x y, fun hcore hr hv a n => ⟨fun h1 h2 h3 => ?_, fun h1 h2 h3 => ?_⟩⟩⟩
    · rintro e rfl hn he hq
      exact answers_monitorLog_newest hp hc hn he hq
    · exact ⟨fun ht hu => answers_monitorMem_locked hp hc hcore hr hv h1 h2 h3 (State.podLocked_locked ht hu),
        fun ht hu hb => answers_monitorMem_locked hp hc hcore hr hv h1 h2 h3 (State.podLocked_perm ht hu hb),
        fun hm => answers_monitorMem hp hc hcore hr hv h1 h2 h3 (State.podLocked_may hm)⟩
    · exact ⟨fun ht hu => answers_monitorIstore_locked hp hc hcore hr hv h1 h2 h3 (State.podLocked_locked ht hu),
        fun ht hu hb => answers_monitorIstore_locked hp hc hcore hr hv h1 h2 h3 (State.podLocked_perm ht hu hb),
        fun hm => answers_monitorIstore hp hc hcore hr hv h1 h2 h3 (State.podLocked_may hm)⟩
  · refine ⟨fun off v x y a b ws q hq => ?_, ?_, fun off v hm => ⟨answers_monitorWreg_range hp hc hm, answers_monitorWreg hp hc hm, ?_, ?_⟩,
      answers_monitorReset hp hc, fun x y => ⟨fun a v hm => ?_, fun b ws hm => ?_⟩⟩
    · simp only [List.mem_cons, List.not_mem_nil, or_false] at hq
      rcases hq with rfl | rfl | rfl | rfl
      · exact answers_refused hp hc fun h => ⟨_, exec_monitorWreg v (.inr h)⟩
      · exact answers_refused hp hc fun _ => exec_monitorWmem x y a v s
      · exact answers_refused hp hc fun _ => exec_monitorWistore x y b ws s
      · exact answers_refused hp hc fun h => ⟨_, exec_monitorReset_refused h⟩
    · have act : exec .monitorLock s = execMonitorLock s := rfl
      exact answers_answer hp hc (a := .good []) act rfl
    · rintro rfl hv
      exact answers_monitorWreg_noKey hp hc hm hv
    · rintro rfl rfl
      exact answers_monitorWreg_key hp hc hm
    · obtain ⟨range, notReady, busy⟩ := answers_monitorWmem_refused hp hc (x := x) (y := y) (a := a) (v := v) hm
      exact ⟨range, fun ho => ⟨notReady ho, busy ho, answers_monitorWmem_word hp hc hm ho⟩⟩
    · have refused := answers_monitorWistore_refused hp hc (x := x) (y := y) (b := b) (ws := ws) hm
      refine ⟨answers_monitorWistore_malformed hp hc hm, fun h8 => ?_, fun h8 => ?_, fun h8 ho hr => ⟨?_, answers_monitorWistore_bundle hp hc hm h8 ho hr⟩⟩
      all_goals obtain ⟨range, notReady, busy⟩ := refused h8
      · exact range
      · exact notReady
      · exact busy ho hr

end Sys2Proof.Machine
end

section
/-! Tables on their way to modules (R224, R231): what a change that is taken or sent touches, and the exchange of its own that
changes wait for. -/
namespace Sys2Proof.Machine

open Sys2Proof

/-! ## Sending tables -/

/-- From `s` to `t` tables have been sent and taken: rank tables and waiting changes, membership of contexts, the ranks a job has
lost, and messages. -/
structure SendsTables (s t : State) : Prop where
  frame : t = { s with ctxs := t.ctxs, ep := { s.ep with ctl := t.ep.ctl, ranks := t.ep.ranks, changes := t.ep.changes, jobs := t.ep.jobs } }
  has : ∀ id, t.ep.jobs.has id = s.ep.jobs.has id
  job : ∀ id, ∃ l, t.job id = { s.job id with lost := l }

theorem SendsTables.refl (s : State) : SendsTables s s := ⟨rfl, fun _ => rfl, fun _ => ⟨_, rfl⟩⟩

theorem SendsTables.trans {s t u : State} (h : SendsTables s t) (k : SendsTables t u) : SendsTables s u where
  frame := by rw [k.frame, h.frame]
  has id := (k.has id).trans (h.has id)
  job id := by
    obtain ⟨l, hl⟩ := k.job id
    obtain ⟨m, hm⟩ := h.job id
    exact ⟨l, by rw [hl, hm]⟩

theorem SendsTables.foldl {α : Type} {f : State → α → State} (hf : ∀ t a, SendsTables t (f t a)) (l : List α) (s : State) :
    SendsTables s (l.foldl f s) :=
  List.foldlRecOn _ _ (.refl s) fun _ h _ _ => h.trans (hf ..)

/-- A step that leaves the jobs as they are. -/
theorem SendsTables.of_sameJobs {s t : State} (hj : t.ep.jobs = s.ep.jobs)
    (h : t = { s with ctxs := t.ctxs, ep := { s.ep with ctl := t.ep.ctl, ranks := t.ep.ranks, changes := t.ep.changes, jobs := t.ep.jobs } }) :
    SendsTables s t :=
  ⟨h, fun id => by rw [hj], fun id => ⟨_, by rw [State.job, hj]; rfl⟩⟩

theorem State.ctl_sendsTables (s : State) (m : CtlMsg) : SendsTables s (s.ctl m) := .of_sameJobs rfl rfl

theorem State.loseRanks_sendsTables {s : State} {id : Nat} (h : s.ep.jobs.has id = true) (l : List Nat) :
    SendsTables s (s.setJob id { s.job id with lost := l }) where
  frame := rfl
  has k := by
    change (s.ep.jobs.put id _).has k = _
    rw [Table.has_put]
    by_cases hk : id = k
    · rw [← hk, h]; simp
    · simp [hk]
  job k := by
    rw [State.job_setJob]
    split
    next hk => exact ⟨l, by rw [hk]⟩
    next => exact ⟨_, rfl⟩

theorem State.tellRanks_sendsTables (s : State) (id : Nat) (ranks : List (Nat × BitVec 32)) : SendsTables s (s.tellRanks id ranks) :=
  .foldl (fun t _ => t.ctl_sendsTables _) _ _

/-- The rank table and the membership that a change brings at once (R224, R257). -/
def State.takeRanks (s : State) (c : TableChange) : State :=
  let s1 := if c.ranks.isEmpty then s
    else { s with ep := { s.ep with ranks := s.ep.ranks.put c.job (c.ranks.foldl (fun (t : Table (BitVec 32)) r => t.put r.1 r.2) (s.ep.ranks.get c.job [])) } }
  match c.member with
  | some m => s1.modCtx m.1 (fun x => { x with job := c.job, rank := m.2 })
  | none => s1

theorem State.takeRanks_sendsTables (s : State) (c : TableChange) : SendsTables s (s.takeRanks c) := by
  have ranks : SendsTables s (if c.ranks.isEmpty then s else { s with ep := { s.ep with
      ranks := s.ep.ranks.put c.job (c.ranks.foldl (fun (t : Table (BitVec 32)) r => t.put r.1 r.2) (s.ep.ranks.get c.job [])) } }) := by
    split
    · exact .refl s
    · exact .of_sameJobs rfl rfl
  simp only [State.takeRanks]
  cases c.member with
  | none => exact ranks
  | some m => exact ranks.trans (.of_sameJobs rfl rfl)

theorem State.takeRanks_changes (s : State) (c : TableChange) : (s.takeRanks c).ep.changes = s.ep.changes := by
  simp only [State.takeRanks]
  cases c.member with
  | none => exact ite_holds (fun t : State => t.ep.changes = s.ep.changes) rfl rfl
  | some m => exact ite_holds (fun t : State => t.ep.changes = s.ep.changes) rfl rfl

/-- A change joins those that wait for their count. -/
def State.keepChange (s : State) (c : TableChange) : State := { s with ep := { s.ep with changes := s.ep.changes ++ [c] } }

theorem State.takeChange_eq (s : State) (c : TableChange) : ∃ u, SendsTables (s.takeRanks c) u ∧ u.ctxs = (s.takeRanks c).ctxs ∧
    u.ep.changes = (s.takeRanks c).ep.changes ∧ s.takeChange c = if c.at_ = 0 then u else u.keepChange c := by
  let gone := (c.ranks.filter (fun r => !r.2.getLsbD 31)).map (·.1)
  let r := s.takeRanks c
  let u := if decide (s.ep.role = 2) && Table.has r.ep.jobs c.job && !gone.isEmpty then
      (r.setJob c.job { r.job c.job with lost := (r.job c.job).lost ++ gone }).tellRanks c.job (c.ranks.filter (fun q => !q.2.getLsbD 31))
    else r
  have told (t : State) (id : Nat) (l : List (Nat × BitVec 32)) : (t.tellRanks id l).ctxs = t.ctxs ∧ (t.tellRanks id l).ep.changes = t.ep.changes :=
    List.foldlRecOn (motive := fun v : State => v.ctxs = t.ctxs ∧ v.ep.changes = t.ep.changes) _ _ ⟨rfl, rfl⟩ fun _ h _ _ => h
  refine ⟨u, ?_, ?_, ?_, rfl⟩ <;> simp only [u] <;> split
  next h =>
    simp only [Bool.and_eq_true] at h
    exact (State.loseRanks_sendsTables h.1.2 _).trans (State.tellRanks_sendsTables ..)
  next => exact .refl r
  next => exact (told ..).1
  next => rfl
  next => exact (told ..).2
  next => rfl

theorem State.takeChange_sendsTables (s : State) (c : TableChange) : SendsTables s (s.takeChange c) := by
  obtain ⟨u, sends, -, -, taken⟩ := s.takeChange_eq c
  rw [taken]
  exact ite_holds (SendsTables s) ((s.takeRanks_sendsTables c).trans sends)
    (((s.takeRanks_sendsTables c).trans sends).trans (.of_sameJobs rfl rfl))

theorem State.sendChange_sendsTables (s : State) (m : Nat) (c : TableChange) : SendsTables s (s.sendChange m c) := by
  simp only [State.sendChange]
  exact ite_holds _ (s.takeChange_sendsTables c) (s.ctl_sendsTables _)

/-! ## The exchange of tables (R231, R210) -/

/-- Every change of a list, sent with the count. -/
def State.sendAll (s : State) (at_ : Nat) (l : List (Nat × TableChange)) : State :=
  l.foldl (fun t e => t.sendChange e.1 { e.2 with at_ := at_ }) s

theorem State.sendAll_sendsTables (s : State) (at_ : Nat) (l : List (Nat × TableChange)) : SendsTables s (s.sendAll at_ l) :=
  .foldl (fun t _ => t.sendChange_sendsTables ..) l s

/-- From `s` to `t` waiting changes may have been sent, by the exchange that this opens. -/
structure OpensTables (s t : State) : Prop where
  frame : t = { s with ctxs := t.ctxs, ep := { s.ep with
    ctl := t.ep.ctl, ranks := t.ep.ranks, changes := t.ep.changes, jobs := t.ep.jobs, ex := t.ep.ex, tableQ := t.ep.tableQ } }
  has : ∀ id, t.ep.jobs.has id = s.ep.jobs.has id
  job : ∀ id, ∃ l, t.job id = { s.job id with lost := l }

theorem SendsTables.opens {s t u : State} (h : SendsTables s t) (c : List CtlMsg) (e : Option Exchange)
    (hu : u = { t with ep := { t.ep with ctl := c, ex := e } }) : OpensTables s u := by
  subst hu
  exact ⟨by rw [h.frame], h.has, h.job⟩

/-- PREPARE of the changes that wait. -/
def tablesMsg (at_ : Nat) : PrepareMsg :=
  { kind := .tables, job := 0xFFFF, ctx := 0, at_ := at_, k := 0, period := 0, floor := 0, prog := 0, wset := 0, cross := false,
    cut := false, epoch := 0, port := 6 }

theorem State.openTables_free {s : State} {l : Option (Taken × Nat) × List (Nat × TableChange)} {q : List (Option (Taken × Nat) × List (Nat × TableChange))}
    (hq : s.ep.tableQ = l :: q) (hb : s.exBusy = false) : s.openTables =
      (s.sendAll (ceilMul (s.tcb.now + 2000000) 1) l.2).openExchange (tablesMsg (ceilMul (s.tcb.now + 2000000) 1)) none := by
  have free : ¬(s.exBusy = true) := by simp [hb]
  simp only [State.openTables, hq, if_neg free]
  rfl

theorem State.openTables_busy {s : State} (hb : s.exBusy = true) : s.openTables = s := by
  simp only [State.openTables, hb]
  split <;> rfl

theorem State.openTables_sends (s : State) : OpensTables s s.openTables := by
  have same : OpensTables s s := (SendsTables.refl s).opens s.ep.ctl s.ep.ex rfl
  cases hb : s.exBusy with
  | true => rw [State.openTables_busy hb]; exact same
  | false =>
    cases hq : s.ep.tableQ with
    | nil => rw [State.openTables_none hq]; exact same
    | cons l q =>
      rw [State.openTables_free hq hb, State.openExchange_frame]
      exact (s.sendAll_sendsTables _ l.2).opens _ _ rfl

/-- The waiting changes go out where no exchange is open: PREPARE, of kind `tables`, at a count 2,000,000 tc ahead. -/
theorem State.openTables_opens {s : State} {l : Option (Taken × Nat) × List (Nat × TableChange)} (hq : s.ep.tableQ = [l]) (hb : s.exBusy = false) :
    s.openTables.ep.tableQ = [l] ∧
    ∃ e, s.openTables.ep.ex = some e ∧ e.kind = .tables ∧ e.manager = true ∧ e.go = false ∧ s.tcb.now + 2000000 ≤ e.at_ := by
  have sent := s.sendAll_sendsTables (ceilMul (s.tcb.now + 2000000) 1) l.2
  rw [State.openTables_free hq hb, State.openExchange_frame]
  generalize s.sendAll (ceilMul (s.tcb.now + 2000000) 1) l.2 = u at sent
  refine ⟨?_, _, rfl, rfl, rfl, rfl, le_ceilMul (s.tcb.now + 2000000) 1⟩
  rw [sent.frame]
  exact hq

theorem State.queueTables_sends (s : State) (d : Option (Taken × Nat)) (l : List (Nat × TableChange)) : OpensTables s (s.queueTables d l) := by
  have sent := State.openTables_sends { s with ep := { s.ep with tableQ := s.ep.tableQ ++ [(d, l)] } }
  exact ⟨sent.frame, sent.has, sent.job⟩

theorem State.queueTables_opens {s : State} (hq : s.ep.tableQ = []) (hb : s.exBusy = false) (d : Option (Taken × Nat)) (l : List (Nat × TableChange)) :
    OpensTables s (s.queueTables d l) ∧ (s.queueTables d l).ep.tableQ = [(d, l)] ∧
    ∃ e, (s.queueTables d l).ep.ex = some e ∧ e.kind = .tables ∧ e.manager = true ∧ e.go = false ∧ s.tcb.now + 2000000 ≤ e.at_ := by
  obtain ⟨queue, opened⟩ := State.openTables_opens (s := { s with ep := { s.ep with tableQ := s.ep.tableQ ++ [(d, l)] } }) (l := (d, l))
    (by rw [hq]; rfl) hb
  exact ⟨s.queueTables_sends d l, queue, opened⟩

end Sys2Proof.Machine
end

section
/-! A worker and its manager (R219, R220): formation, adoption, beacons and heartbeats, and what a module makes of a report or of
a table change that reaches it. -/
namespace Sys2Proof.Machine

open Sys2Proof

/-! ## Formation (R219) -/

theorem State.cfgPf_ep (s : State) (code space off v : Nat) : (s.cfgPf code space off v).ep = s.ep := State.postPf_ep ..

theorem State.ctls_frame {α : Type} (f : State → α → State) (hf : ∀ t a, f t a = { t with ep := { t.ep with ctl := (f t a).ep.ctl } }) (l : List α)
    (s : State) : l.foldl f s = { s with ep := { s.ep with ctl := (l.foldl f s).ep.ctl } } :=
  List.foldlRecOn (motive := fun t : State => t = { s with ep := { s.ep with ctl := t.ep.ctl } }) _ _ rfl fun t ht a _ => by
    rw [hf t a, ht]

theorem State.adoptOn_frame (s : State) (p m : Nat) : s.adoptOn p m = { s with ep := { s.ep with ctl := (s.adoptOn p m).ep.ctl } } :=
  State.ctls_frame _ (fun _ _ => rfl) _ s

theorem State.tellTime_frame (s : State) (ms : List Nat) : s.tellTime ms = { s with ep := { s.ep with ctl := (s.tellTime ms).ep.ctl } } := by
  simp only [State.tellTime]
  split
  · exact State.ctls_frame _ (fun _ _ => rfl) ms s
  · rfl

/-- The shape that the numbers of modules in each dimension give (R219). -/
def Epfin.shaped (e : Epfin) : Epfin := { e with shape := shapeOf e.nx1 e.ny1 e.nz1 }

/-- The books of a new manager before it has checked the wiring (R219). -/
def Epfin.founding (e : Epfin) (now free : Nat) : Epfin :=
  { e with role := 2, coord := some (0, 0, 0), formed := false, mgrLost := false, failedMods := [], failedLinks := [],
           shape := shapeOf e.nx1 e.ny1 e.nz1, downs := [], drift := [], noCross := [], ex := none, relay := none,
           tableQ := [], beaconAt := now, rsid := BitVec.ofNat 16 (Config.freeValue free) }

/-- The new manager has adopted its neighbours. -/
def State.founded (s : State) : State := ({ s with ep := s.ep.founding s.tcb.now s.free, free := s.free + 1 }).adoptOn 6 0

/-- The wiring is right: the manager writes every module (R219 step 5). -/
def State.writeMods (s : State) (e : Epfin) (now : Nat) : State :=
  let t := e.tree [] 0
  let s2 : State := { s with
    ep := { s.ep with formed := true, control := [], bmask := treeMask t 0, beats := (e.workers 0).map (fun m => (m, now)) },
    tcb := s.tcb.setParent none }
  ((e.workers 0).foldl (fun u m => u.ctl (.adopt m (e.adoptFor [] t 0 m))) s2).tellTime (e.workers 0)

theorem State.founded_frame (s : State) : ∃ c, s.founded = { s with ep := { s.ep.founding s.tcb.now s.free with ctl := c }, free := s.free + 1 } :=
  ⟨s.founded.ep.ctl, by rw [State.founded, State.adoptOn_frame]⟩

theorem State.writeMods_frame (s : State) (e : Epfin) (now : Nat) : ∃ c b l, s.writeMods e now =
    { s with ep := { s.ep with formed := true, control := [], bmask := b, beats := l, ctl := c }, tcb := s.tcb.setParent none } := by
  refine ⟨(s.writeMods e now).ep.ctl, treeMask (e.tree [] 0) 0, (e.workers 0).map (fun m => (m, now)), ?_⟩
  simp only [State.writeMods]
  rw [State.tellTime_frame, State.ctls_frame (fun (u : State) m => u.ctl (.adopt m (e.adoptFor [] (e.tree [] 0) 0 m))) (fun _ _ => rfl)]

/-- The wiring is checked against the shape (R219 step 4). -/
theorem Epfin.miswired_congr {e f : Epfin} (h : e.shape = f.shape) (found : List FoundMod) : e.miswired found = f.miswired found := by
  have size (d : Nat) : e.size d = f.size d := by rw [Epfin.size, h, Epfin.size]
  have mods : e.allMods = f.allMods :=
    congrArg (List.filter · (List.range 1024)) (funext fun m => by simp only [Epfin.isMod, size])
  have next (m p : Nat) : e.nextMod m p = f.nextMod m p := by simp only [Epfin.nextMod, size]
  simp only [Epfin.miswired, mods, next, Epfin.hasLink, size]

theorem State.form_eq (s : State) (found : List FoundMod) : s.form found = match (s.ep.founding s.tcb.now s.free).miswired found with
    | some h => s.founded.postPf 0x8603 (srcMod h.1) h.1 h.2
    | none => s.founded.writeMods (s.ep.founding s.tcb.now s.free) s.tcb.now := by
  delta State.form
  extract_lets _ e s1 t e1 s2
  have founding : s.ep.founding s.tcb.now s.free = e := rfl
  have founded : s.founded = s1 := rfl
  rw [founding, founded]
  cases e.miswired found with
  | some h => rfl
  | none => rfl

theorem State.founding_miswired (s : State) (found : List FoundMod) :
    (s.ep.founding s.tcb.now s.free).miswired found = s.ep.shaped.miswired found := by
  have shape : (s.ep.founding s.tcb.now s.free).shape = s.ep.shaped.shape := rfl
  exact Epfin.miswired_congr shape found

theorem State.form_wired {s : State} {found : List FoundMod} (h : s.ep.shaped.miswired found = none) :
    s.form found = s.founded.writeMods (s.ep.founding s.tcb.now s.free) s.tcb.now := by
  rw [State.form_eq, State.founding_miswired, h]

theorem State.form_miswired {s : State} {found : List FoundMod} {h : Hop} (hm : s.ep.shaped.miswired found = some h) :
    s.form found = s.founded.postPf 0x8603 (srcMod h.1) h.1 h.2 := by
  rw [State.form_eq, State.founding_miswired, hm]

/-- What a module is once it has formed its ring set: manager at the origin, and formed where the wiring is right (R219). -/
theorem State.form_spec (s : State) (found : List FoundMod) :
    (s.form found).ep.role = 2 ∧ (s.form found).ep.coord = some (0, 0, 0) ∧
    (s.form found).ep.formed = (s.ep.shaped.miswired found).isNone ∧ (s.form found).ep.jobs = s.ep.jobs ∧
    (s.form found).ep.req = s.ep.req ∧ (s.form found).panel = s.panel := by
  obtain ⟨c, books⟩ := s.founded_frame
  cases hw : s.ep.shaped.miswired found with
  | some h =>
    rw [State.form_miswired hw, State.postPf_ep, State.postPf_panel, books]
    exact ⟨rfl, rfl, rfl, rfl, rfl, rfl⟩
  | none =>
    obtain ⟨_, b, l, written⟩ := s.founded.writeMods_frame (s.ep.founding s.tcb.now s.free) s.tcb.now
    rw [State.form_wired hw, written, books]
    exact ⟨rfl, rfl, rfl, rfl, rfl, rfl⟩

section
variable {s : State} {v : BitVec 2} (found : List FoundMod) (hb : s.barLive = true)
include hb

theorem exec_ringFormation : exec (.ringFormation v found) s = .next (s.writeReq v found) := by
  change atBar 0 s (fun s => s.writeReq v found) = _
  rw [atBar, if_pos (by omega), if_pos hb]

end

/-- A write of EP_ROLE.REQ that changes nothing, or that is refused (R219, R240). -/
theorem State.writeReq_refused {s : State} {v : BitVec 2} (found : List FoundMod) :
    (v = s.ep.req → s.writeReq v found = s) ∧
    (v ≠ s.ep.req → s.anyCtx = true → (s.writeReq v found).ep = { s.ep with wwb := true } ∧ (s.writeReq v found).ctxs = s.ctxs) ∧
    (v ≠ s.ep.req → s.anyCtx = false → v = 3 → (s.writeReq v found).ep = s.ep) := by
  refine ⟨fun h => if_pos h, fun h hc => ?_, fun h hc h3 => ?_⟩
  · rw [State.writeReq, if_neg h, if_pos hc, State.cfgPf_ep, State.cfgPf_ctxs]
    exact ⟨rfl, rfl⟩
  · rw [State.writeReq, if_neg h, hc, if_neg Bool.false_ne_true, if_pos h3, State.cfgPf_ep]

theorem State.writeReq_manager {s : State} (found : List FoundMod) (h : 2 ≠ s.ep.req) (hc : s.anyCtx = false) :
    s.writeReq 2 found = State.form { s with ep := { s.ep with req := 2 } } found := by
  rw [State.writeReq, if_neg h, hc, if_neg Bool.false_ne_true, if_neg (by decide), if_pos rfl]

theorem State.writeReq_member {s : State} {v : BitVec 2} (found : List FoundMod) (h : v ≠ s.ep.req) (hc : s.anyCtx = false) (hv : v = 0 ∨ v = 1) :
    (s.writeReq v found).ep.req = v ∧
    (s.writeReq v found).ep.role = if s.ep.role = 2 ∧ s.ep.formed = false then 0 else s.ep.role := by
  have isolated : v ≠ 3 ∧ v ≠ 2 := by rcases hv with rfl | rfl <;> decide
  obtain ⟨h3, h2⟩ := isolated
  rw [State.writeReq, if_neg h, hc, if_neg Bool.false_ne_true, if_neg h3]
  simp only [if_neg h2]
  by_cases hm : s.ep.role = 2 ∧ s.ep.formed = false
  · rw [if_pos hm, if_pos hm]
    exact ⟨rfl, rfl⟩
  · rw [if_neg hm, if_neg hm]
    exact ⟨rfl, rfl⟩

/-! ## Adoption (R219, R220) -/

theorem State.liveCtxs_none {s : State} (h : s.anyCtx = false) : s.liveCtxs = [] := by simpa [State.anyCtx] using h

theorem State.endJobs_none {s : State} (h : s.anyCtx = false) : s.endJobs.panel = s.panel ∧ s.endJobs.ports = s.ports ∧ s.endJobs.tcb = s.tcb ∧
    s.endJobs.ep.tables = [] := by
  rw [State.endJobs, State.liveCtxs_none h]
  exact ⟨rfl, rfl, rfl, rfl⟩

theorem exec_adoption_ignored {s : State} {a : AdoptMsg} (h : (s.epPort a.port.toNat).st ≠ 3 ∨ s.ep.req = 1) : exec (.adoption a) s = .next s :=
  congrArg Host.Outcome.next (if_pos h)

/-- A manager, or a module that is to be one, reports the adoption (R220). -/
theorem exec_adoption_manager {s : State} {a : AdoptMsg} (hup : (s.epPort a.port.toNat).st = 3) (hr : s.ep.req = 2) :
    exec (.adoption a) s = .next (s.postPf 0x8604 (srcEp a.port.toNat) a.mgr.toNat a.port.toNat) := by
  have here : ¬((s.epPort a.port.toNat).st ≠ 3 ∨ s.ep.req = 1) := by simp [hup, hr]
  exact congrArg Host.Outcome.next ((if_neg here).trans (if_pos (.inr hr)))

theorem exec_adoption {s : State} {a : AdoptMsg} (hup : (s.epPort a.port.toNat).st = 3) (hr : s.ep.req = 0) (hm : s.ep.role ≠ 2)
    (hc : s.anyCtx = false) : exec (.adoption a) s = .next ((s.adopted a).adoptOn a.port.toNat a.mgr.toNat) := by
  have here : ¬((s.epPort a.port.toNat).st ≠ 3 ∨ s.ep.req = 1) := by simp [hup, hr]
  have worker : ¬(s.ep.role = 2 ∨ s.ep.req = 2) := by simp [hm, hr]
  have idle : ¬((s.ep.role = 0 ∧ s.anyCtx) ∨ s.jobBusy) := by simp [hc, State.jobBusy, State.liveCtxs_none hc]
  exact congrArg Host.Outcome.next ((if_neg here).trans ((if_neg worker).trans (if_neg idle)))

theorem TimeBlock.setParent_parent (t : TimeBlock) (p : Option Nat) : (t.setParent p).parent = p := by
  rw [TimeBlock.setParent]
  split
  next h => exact h
  next => rfl

/-- The module takes the coordinate, tables and time tree of its manager (R219 step 5). -/
theorem State.adopted_spec {s : State} (a : AdoptMsg) (hc : s.anyCtx = false) :
    let t := (s.adopted a).adoptOn a.port.toNat a.mgr.toNat
    t.ep.role = 1 ∧ t.ep.coord = some (a.x.toNat, a.y.toNat, a.z.toNat) ∧ t.ep.rsid = a.rsid ∧ t.ep.nx1 = a.nx1 ∧
    t.ep.ny1 = a.ny1 ∧ t.ep.nz1 = a.nz1 ∧ t.ep.shape = shapeOf a.nx1 a.ny1 a.nz1 ∧ t.ep.bmask = a.bmask ∧ t.ep.mgrLost = false ∧
    t.ep.beaconAt = s.tcb.now ∧ t.tcb.parent = a.parent.map (·.toNat) ∧ t.ep.tables = [] ∧ t.panel = s.panel ∧ t.ports = s.ports := by
  obtain ⟨panel, ports, tcb, tables⟩ := State.endJobs_none hc
  rw [State.adoptOn_frame, State.adopted]
  generalize s.endJobs = u at panel ports tcb tables
  exact ⟨rfl, rfl, rfl, rfl, rfl, rfl, rfl, rfl, rfl, congrArg TimeBlock.now tcb, TimeBlock.setParent_parent .., tables, panel, ports⟩

/-! ## Beacons and heartbeats (R220) -/

theorem exec_beacon_worker {s : State} (h : s.ep.role = 1) :
    exec .beacon s = .next (State.spread { s with ep := { s.ep with beaconAt := s.tcb.now } } 6 (.beacon s.tcb.now)) := by
  have worker : ¬(s.ep.role = 2) := by omega
  exact congrArg Host.Outcome.next ((if_neg worker).trans (if_pos h))

/-- The manager's next beacon is due. -/
def State.beaconDue (s : State) : State :=
  let s1 := s.passTo (s.ep.beaconAt + 1000000)
  { s1 with ep := { s1.ep with beaconAt := s1.tcb.now } }

theorem exec_beacon_manager {s : State} (h : s.ep.role = 2) : exec .beacon s = .next (s.beaconDue.spread 6 (.beacon s.beaconDue.tcb.now)) :=
  congrArg Host.Outcome.next (if_pos h)

theorem exec_beacon_free {s : State} (h : s.ep.role = 0) : exec .beacon s = .next s := by
  have manager : ¬(s.ep.role = 2) := by omega
  have worker : ¬(s.ep.role = 1) := by omega
  exact congrArg Host.Outcome.next ((if_neg manager).trans (if_neg worker))

theorem State.spread_ctl (s : State) (p : Nat) (m : CtlMsg) :
    (s.spread p m).ep.ctl = if (s.children p).isEmpty || s.ep.req == 1 then s.ep.ctl else s.ep.ctl ++ [m] := by
  rw [State.spread]
  split <;> rfl

theorem exec_heartbeat_manager {s : State} (m : BitVec 10) (h : s.ep.role = 2) :
    exec (.heartbeat m) s = .next { s with ep := { s.ep with beats := s.ep.beats.put m.toNat s.tcb.now } } := by
  have worker : ¬(s.ep.role = 1) := by omega
  exact congrArg Host.Outcome.next ((if_neg worker).trans (if_pos h))

/-- A worker waits for its next heartbeat: 1,000,000 tc after the last. -/
def State.beatDue (s : State) : State :=
  match s.ep.beats.find? s.modIndex with
  | some t => s.passTo (t + 1000000)
  | none => s

theorem State.beatDue_frame (s : State) : s.beatDue = { s with tcb := s.beatDue.tcb, fs := s.beatDue.fs } := by
  simp only [State.beatDue]
  split <;> rfl

theorem exec_heartbeat_worker {s : State} (m : BitVec 10) (h : s.ep.role = 1) : exec (.heartbeat m) s = .next
    (({ s.beatDue with ep := { s.beatDue.ep with beats := s.beatDue.ep.beats.put s.beatDue.modIndex s.beatDue.tcb.now } } : State).ctl
      (.heartbeat s.beatDue.modIndex s.beatDue.tcb.now)) :=
  congrArg Host.Outcome.next (if_pos h)

theorem exec_managerLost {s : State} (h : s.ep.role = 1) (hl : s.ep.mgrLost = false) : exec .managerLost s = .next
    (({ s.passTo (s.ep.beaconAt + 3000000) with ep := { s.ep with mgrLost := true } } : State).postAll 0x8605 srcMgmt (s.ep.beaconAt % 2 ^ 32) 0) := by
  have waits : ¬(s.ep.role ≠ 1 ∨ s.ep.mgrLost) := by simp [h, hl]
  exact congrArg Host.Outcome.next (if_neg waits)

end Sys2Proof.Machine
end

section
/-! What reaches a module over the torus (R231, R306, R319): faults of members, reports of modules, and changes of tables. -/
namespace Sys2Proof.Machine

open Sys2Proof

/-! ## MEMBER_FAULT (R306) -/

section
variable {s : State} (c : BitVec 6) (m : BitVec 10)

theorem exec_memberFault_noJob (v : MemberCode) (h : (s.ctx c.toNat).job = 0) : exec (.memberFault c m v) s = .next s :=
  congrArg Host.Outcome.next (if_pos h)

theorem exec_memberFault_member (code : BitVec 16) (h : (s.ctx c.toNat).job ≠ 0) : exec (.memberFault c m (.member code)) s =
    .next (s.ctxFault c.toNat 0x0509 (srcMod m.toNat) m.toNat code.toNat) :=
  congrArg Host.Outcome.next (if_neg h)

theorem exec_memberFault_manager {code : BitVec 16} (a b : Nat) (h : (s.ctx c.toNat).job ≠ 0) (hc : code ≠ 0x0602#16) :
    exec (.memberFault c m (.manager code a b)) s =
      .next (s.ctxFault c.toNat code.toNat (srcMod m.toNat) (a % 2 ^ 32) (b % 2 ^ 32)) :=
  congrArg Host.Outcome.next ((if_neg h).trans (if_neg hc))

/-- FRAME_BUDGET waits for its count (R37). -/
theorem exec_memberFault_budget (a b : Nat) (h : (s.ctx c.toNat).job ≠ 0) : exec (.memberFault c m (.manager 0x0602#16 a b)) s =
    .next (s.modCtx c.toNat (fun x => { x with budgetAt := some (a, b) })) :=
  congrArg Host.Outcome.next ((if_neg h).trans (if_pos rfl))

/-- A first fault reaches its context only. -/
theorem State.ctxFault_hits {s : State} {c : Nat} (h : (s.ctx c).mayFault) (code source a0 a1 : Nat) :
    let t := s.ctxFault c code source a0 a1
    (t.ctx c).st = .faulted ∧ (t.ctx c).fault = some code ∧ (t.ctx c).batches = [] ∧ (∀ k, k ≠ c → t.ctx k = s.ctx k) ∧
    t.panel = s.panel ∧ t.ports = s.ports := by
  obtain ⟨other, panel, ports⟩ := s.ctxFault_onlyContext c code source a0 a1
  have own := State.ctxFault_ctx_live h code source a0 a1
  exact ⟨congrArg Context.st own, congrArg Context.fault own, congrArg Context.batches own, other, panel, ports⟩

end

/-! ## FAULT_REPORT (R319) -/

/-- What the manager notes of a report of another module, before its members are told. -/
def State.noteReport (s : State) (m code cls c source a0 a1 : Nat) : State :=
  let s1 := s.logReport m code cls c source a0 a1
  if code = 0x0A01 then
    ({ s1 with ep := { s1.ep with downs := s1.ep.downs ++ [(m, a0 % 8)] } }).postPf 0x8601 (srcMod m) m (a0 % 8 + 16 * (a1 % 8))
  else if code = 0x0A0B then s1.postPf 0x8602 (srcMod m) m (a0 % 8 + 256 * (a1 % 64))
  else s1

theorem State.logReport_spec (s : State) (m code cls c source a0 a1 : Nat) : (s.logReport m code cls c source a0 a1).ep = s.ep ∧
    (s.logReport m code cls c source a0 a1).ctxs = s.ctxs ∧ (s.logReport m code cls c source a0 a1).panel = s.panel ∧
    (s.logReport m code cls c source a0 a1).mg = (s.logAs m code cls (if cls = 2 then c else noCtx) source a0 a1).mg := by
  simp [State.logReport]

theorem State.noteReport_spec (s : State) (m code cls c source a0 a1 : Nat) :
    let t := s.noteReport m code cls c source a0 a1
    t.ep = { s.ep with downs := if code = 0x0A01 then s.ep.downs ++ [(m, a0 % 8)] else s.ep.downs } ∧ t.ctxs = s.ctxs ∧
    t.panel = s.panel ∧ t.mg = (s.logAs m code cls (if cls = 2 then c else noCtx) source a0 a1).mg := by
  obtain ⟨ep, ctxs, panel, mg⟩ := s.logReport_spec m code cls c source a0 a1
  simp only [State.noteReport]
  generalize s.logReport m code cls c source a0 a1 = u at ep ctxs panel mg
  split
  · rw [State.postPf_ep, State.postPf_ctxs, State.postPf_panel, State.postPf_mg, ep]
    exact ⟨rfl, ctxs, panel, mg⟩
  · split
    · rw [State.postPf_ep, State.postPf_ctxs, State.postPf_panel, State.postPf_mg, ep]
      exact ⟨rfl, ctxs, panel, mg⟩
    · exact ⟨ep, ctxs, panel, mg⟩

/-- The members of the job of a context that has faulted are told, and the job no longer runs (R306). -/
theorem State.tellMembers_spec {s : State} {m c id : Nat} (code : Nat) (h : s.jobAt m c = some id) :
    ((s.tellMembers m c code).job id).st = .idle ∧
    ∀ x, (s.modIndex, x) ∈ (s.job id).members → s.modIndex? ≠ none → m ≠ s.modIndex → (s.ctx x).mayFault →
      ((s.tellMembers m c code).ctx x).st = .faulted ∧ ((s.tellMembers m c code).ctx x).fault = some 0x0509 := by
  simp only [State.tellMembers, h]
  refine ⟨by rw [State.jobTo, State.job_setJob_self], fun x hx hi hm hf => ?_⟩
  have steps (t : State) (q : Nat × Nat) : FaultsOnly 0x0509 t (if some q.1 = t.modIndex? then t.ctxFault q.2 0x0509 (srcMod m) m code
      else t.ctl (.memberFault q.1 q.2 m code)) :=
    ite_holds _ (t.ctxFault_faultsOnly ..) (t.ctl_faultsOnly ..)
  have other : (s.modIndex, x) ∈ (s.job id).members.filter (fun q => q.1 != m) :=
    List.mem_filter.mpr ⟨hx, by simpa using Ne.symm hm⟩
  have own : some s.modIndex = s.modIndex? := by
    obtain ⟨i, hi⟩ := Option.ne_none_iff_exists'.mp hi
    rw [State.modIndex, hi]
    rfl
  have reached := FaultsOnly.foldl_mem steps other hf fun t ht hlive => by
    have here : t.modIndex? = s.modIndex? := by rw [State.modIndex?, ht.ep]; rfl
    rw [if_pos (own.trans here.symm)]
    exact State.ctxFault_ctx_live hlive ..
  rw [State.jobTo]
  exact ⟨congrArg Context.st reached, congrArg Context.fault reached⟩

/-- The same once the report has been noted. -/
theorem State.tellMembers_noted {s u : State} {m c id : Nat} (code : Nat) (h : s.jobAt m c = some id)
    (hu : u.ep = { s.ep with downs := u.ep.downs }) (hx : u.ctxs = s.ctxs) :
    ((u.tellMembers m c code).job id).st = .idle ∧
    ∀ x, (s.modIndex, x) ∈ (s.job id).members → s.modIndex? ≠ none → m ≠ s.modIndex → (s.ctx x).mayFault →
      ((u.tellMembers m c code).ctx x).st = .faulted ∧ ((u.tellMembers m c code).ctx x).fault = some 0x0509 := by
  have known : u.jobAt m c = some id := by rw [State.jobAt, hu]; exact h
  have job : u.job id = s.job id := by rw [State.job, hu]; rfl
  have index : u.modIndex? = s.modIndex? := by rw [State.modIndex?, hu]; rfl
  obtain ⟨st, told⟩ := State.tellMembers_spec code known
  refine ⟨st, fun x hmem hi hne hf => told x ?_ (index ▸ hi) ?_ (State.ctx_congr hx x ▸ hf)⟩
  · rw [job, State.modIndex, index]; exact hmem
  · rw [State.modIndex, index]; exact hne

section
variable {s : State} {m : BitVec 10} {code : BitVec 16} {cls : BitVec 3} {c : BitVec 6} {source arg0 arg1 : BitVec 32}

theorem exec_faultReport_worker (h : s.ep.role ≠ 2) : exec (.faultReport m code cls c source arg0 arg1) s = .next s :=
  congrArg Host.Outcome.next (if_pos h)

/-- A report to the manager: what it notes, and whom it tells. -/
theorem exec_faultReport (h : s.ep.role = 2) (hc : code ≠ 0x8103#16) :
    let u := if m.toNat = s.modIndex then s else s.noteReport m.toNat code.toNat cls.toNat c.toNat source.toNat arg0.toNat arg1.toNat
    exec (.faultReport m code cls c source arg0 arg1) s = .next
      (if cls = 2 ∧ managerFaults.contains code.toNat = false then u.tellMembers m.toNat c.toNat code.toNat else u) := by
  have manager : ¬(s.ep.role ≠ 2) := by simp [h]
  have report : ¬(code.toNat = 0x8103) := fun e => hc (BitVec.eq_of_toNat_eq e)
  change execFaultReport m code cls c source arg0 arg1 s = _
  simp only [execFaultReport, if_neg manager, if_neg report]
  by_cases own : m.toNat = s.modIndex
  · simp only [if_pos own]
  · simp only [if_neg own]
    rfl

end

end Sys2Proof.Machine
end

section
/-! TABLE_CHANGE (R231): a change that reaches a module, and the oldest one that takes effect. -/
namespace Sys2Proof.Machine

open Sys2Proof

theorem State.epPort_modEpPort (s : State) (p q : Nat) (f : EpPort → EpPort) :
    (s.modEpPort p f).epPort q = if p = q then f (s.epPort p) else s.epPort q := State.epPort_setEpPort ..

/-- Every port of a list is changed once. -/
theorem State.epPort_modEpPorts {f : Nat → EpPort → EpPort} {l : List Nat} (hl : l.Nodup) (s : State) (q : Nat) :
    (l.foldl (fun (t : State) p => t.modEpPort p (f p)) s).epPort q = if q ∈ l then f q (s.epPort q) else s.epPort q := by
  induction l generalizing s with
  | nil => rfl
  | cons p l ih =>
    obtain ⟨hp, hl⟩ := List.nodup_cons.mp hl
    rw [List.foldl_cons, ih hl, State.epPort_modEpPort]
    by_cases h : p = q
    · subst h
      simp [hp]
    · simp [h, Ne.symm h]

/-- A step that changes ports of the torus, and of a port neither its pips out nor in. -/
structure KeepsPips (s t : State) : Prop where
  frame : t = { s with ep := { s.ep with ports := t.ep.ports } }
  pips : ∀ p, (t.epPort p).pipTx = (s.epPort p).pipTx ∧ (t.epPort p).pipRx = (s.epPort p).pipRx

theorem KeepsPips.modEpPorts {f : EpPort → EpPort} (hf : ∀ k, (f k).pipTx = k.pipTx ∧ (f k).pipRx = k.pipRx) (l : List Nat) (s : State) :
    KeepsPips s (l.foldl (fun (t : State) p => t.modEpPort p f) s) := by
  refine List.foldlRecOn (motive := fun t : State => KeepsPips s t) _ _ ⟨rfl, fun _ => ⟨rfl, rfl⟩⟩ fun t ht p _ => ⟨?_, fun q => ?_⟩
  · rw [State.modEpPort, State.setEpPort, ht.frame]
  · rw [State.epPort_modEpPort]
    obtain ⟨tx, rx⟩ := ht.pips q
    split
    next h =>
      subst h
      exact ⟨(hf _).1.trans tx, (hf _).2.trans rx⟩
    next => exact ⟨tx, rx⟩

theorem State.noteCut_spec (s : State) (q : Nat × Nat × Bool) :
    (s.noteCut q).tcb = s.tcb ∧ (s.noteCut q).panel = s.panel ∧ (s.noteCut q).ctxs = s.ctxs ∧ (s.noteCut q).ep.changes = s.ep.changes ∧
    (s.noteCut q).ep.tables = s.ep.tables ∧
    ∀ p, ((s.noteCut q).epPort p).pipTx = (s.epPort p).pipTx ∧ ((s.noteCut q).epPort p).pipRx = (s.epPort p).pipRx := by
  have ports := KeepsPips.modEpPorts (f := fun k => { k with cutDone := decide (k.st = 4) }) (fun _ => ⟨rfl, rfl⟩)
    (s.ep.cutPorts s.modIndex q.1 q.2.1) s
  simp only [State.noteCut]
  generalize (s.ep.cutPorts s.modIndex q.1 q.2.1).foldl (fun (t : State) p => t.modEpPort p (fun k => { k with cutDone := decide (k.st = 4) })) s = u at ports
  obtain ⟨frame, pips⟩ := ports
  rw [State.postPf_tcb, State.postPf_panel, State.postPf_ctxs, State.postPf_ep]
  refine ⟨?_, ?_, ?_, ?_, ?_, fun p => ?_⟩
  · rw [frame]
  · rw [frame]
  · rw [frame]
  · rw [frame]
  · rw [frame]
  · rw [State.postPf_epPort]
    exact pips p

/-- The routes and pips of a job that a change brings (R226, R231). -/
def State.applyJob (s : State) (c : TableChange) : State :=
  (List.range 6).foldl (fun (t : State) p => t.modEpPort p (fun k => k.setPips c.job (pipsAt c.tx p) (pipsAt c.rx p)))
    ({ s with ep := { s.ep with tables := s.ep.tables.put c.job (c.routes.foldl (fun (u : Cells Byte) r => Cells.set 7 u r.1 r.2) []) } })

/-- What goes with it: the broadcast mask, ports that carry again. -/
def State.applyRest (s : State) (c : TableChange) : State :=
  c.ports.foldl (fun (t : State) p => t.modEpPort p (fun k => { k with reserve := false }))
    (match c.bmask with
    | some b => { s with ep := { s.ep with bmask := b } }
    | none => s)

theorem State.applyChange_job (s : State) {c : TableChange} (h0 : c.job ≠ 0) (hc : c.job ≠ 0xFFFF) (he : c.ends = false) :
    s.applyChange c = match c.cutOut with
      | some q => ((s.applyJob c).applyRest c).noteCut q
      | none => (s.applyJob c).applyRest c := by
  have stays : ¬(c.ends = true) := by simp [he]
  simp only [State.applyChange, if_neg hc, if_neg h0, if_neg stays]
  rfl

theorem State.applyJob_spec (s : State) (c : TableChange) :
    (s.applyJob c).tcb = s.tcb ∧ (s.applyJob c).panel = s.panel ∧ (s.applyJob c).ctxs = s.ctxs ∧ (s.applyJob c).ep.changes = s.ep.changes ∧
    (s.applyJob c).ep.tables = s.ep.tables.put c.job (c.routes.foldl (fun (u : Cells Byte) r => Cells.set 7 u r.1 r.2) []) ∧
    ∀ p, p < 6 → (s.applyJob c).epPort p = (s.epPort p).setPips c.job (pipsAt c.tx p) (pipsAt c.rx p) := by
  have frame : s.applyJob c = { s with ep := { s.ep with
      ports := (s.applyJob c).ep.ports,
      tables := s.ep.tables.put c.job (c.routes.foldl (fun (u : Cells Byte) r => Cells.set 7 u r.1 r.2) []) } } :=
    List.foldlRecOn (motive := fun t : State => t = { s with ep := { s.ep with
      ports := t.ep.ports, tables := s.ep.tables.put c.job (c.routes.foldl (fun (u : Cells Byte) r => Cells.set 7 u r.1 r.2) []) } }) _ _ rfl
      fun t ht p _ => by rw [State.modEpPort, State.setEpPort, ht]
  have ports (p : Nat) (hp : p < 6) : (s.applyJob c).epPort p = (s.epPort p).setPips c.job (pipsAt c.tx p) (pipsAt c.rx p) := by
    rw [State.applyJob, State.epPort_modEpPorts (f := fun p k => k.setPips c.job (pipsAt c.tx p) (pipsAt c.rx p)) List.nodup_range,
      if_pos (List.mem_range.mpr hp)]
    rfl
  refine ⟨?_, ?_, ?_, ?_, ?_, ports⟩
  all_goals rw [frame]

theorem State.applyRest_spec (s : State) (c : TableChange) :
    (s.applyRest c).tcb = s.tcb ∧ (s.applyRest c).panel = s.panel ∧ (s.applyRest c).ctxs = s.ctxs ∧ (s.applyRest c).ep.changes = s.ep.changes ∧
    (s.applyRest c).ep.tables = s.ep.tables ∧
    ∀ p, ((s.applyRest c).epPort p).pipTx = (s.epPort p).pipTx ∧ ((s.applyRest c).epPort p).pipRx = (s.epPort p).pipRx := by
  have ports (u : State) := KeepsPips.modEpPorts (f := fun k => { k with reserve := false }) (fun _ => ⟨rfl, rfl⟩) c.ports u
  simp only [State.applyRest]
  cases c.bmask with
  | some b =>
    obtain ⟨frame, pips⟩ := ports { s with ep := { s.ep with bmask := b } }
    refine ⟨?_, ?_, ?_, ?_, ?_, pips⟩
    all_goals rw [frame]
  | none =>
    obtain ⟨frame, pips⟩ := ports s
    refine ⟨?_, ?_, ?_, ?_, ?_, pips⟩
    all_goals rw [frame]

/-- A change of a job's tables in force (R231). -/
theorem State.applyChange_spec (s : State) {c : TableChange} (h0 : c.job ≠ 0) (hc : c.job ≠ 0xFFFF) (he : c.ends = false) :
    (s.applyChange c).tcb = s.tcb ∧ (s.applyChange c).panel = s.panel ∧ (s.applyChange c).ctxs = s.ctxs ∧
    (s.applyChange c).ep.changes = s.ep.changes ∧
    (s.applyChange c).ep.tables.get c.job [] = c.routes.foldl (fun (u : Cells Byte) r => Cells.set 7 u r.1 r.2) [] ∧
    ∀ p, p < 6 → ((s.applyChange c).epPort p).pipTx = ((s.epPort p).setPips c.job (pipsAt c.tx p) (pipsAt c.rx p)).pipTx ∧
      ((s.applyChange c).epPort p).pipRx = ((s.epPort p).setPips c.job (pipsAt c.tx p) (pipsAt c.rx p)).pipRx := by
  obtain ⟨jtcb, jpanel, jctxs, jchanges, jtables, jports⟩ := s.applyJob_spec c
  rw [State.applyChange_job s h0 hc he]
  generalize s.applyJob c = u at jtcb jpanel jctxs jchanges jtables jports
  obtain ⟨rtcb, rpanel, rctxs, rchanges, rtables, rpips⟩ := u.applyRest_spec c
  generalize u.applyRest c = v at rtcb rpanel rctxs rchanges rtables rpips
  have tables : v.ep.tables.get c.job [] = c.routes.foldl (fun (u : Cells Byte) r => Cells.set 7 u r.1 r.2) [] := by
    rw [rtables, jtables, Table.get_put_self]
  have pips (p : Nat) (hp : p < 6) : (v.epPort p).pipTx = ((s.epPort p).setPips c.job (pipsAt c.tx p) (pipsAt c.rx p)).pipTx ∧
      (v.epPort p).pipRx = ((s.epPort p).setPips c.job (pipsAt c.tx p) (pipsAt c.rx p)).pipRx := by
    rw [← jports p hp]
    exact rpips p
  cases c.cutOut with
  | none => exact ⟨rtcb.trans jtcb, rpanel.trans jpanel, rctxs.trans jctxs, rchanges.trans jchanges, tables, pips⟩
  | some q =>
    obtain ⟨ntcb, npanel, nctxs, nchanges, ntables, npips⟩ := v.noteCut_spec q
    refine ⟨ntcb.trans (rtcb.trans jtcb), npanel.trans (rpanel.trans jpanel), nctxs.trans (rctxs.trans jctxs),
      nchanges.trans (rchanges.trans jchanges), (congrArg (Table.get · c.job []) ntables).trans tables, fun p hp => ?_⟩
    obtain ⟨tx, rx⟩ := pips p hp
    exact ⟨(npips p).1.trans tx, (npips p).2.trans rx⟩

/-! ## The command -/

theorem exec_tableChange_some {s : State} (c : TableChange) (h : s.ep.role ≠ 0) : exec (.tableChange (some c)) s = .next (s.takeChange c) :=
  congrArg Host.Outcome.next (if_neg h)

theorem exec_tableChange_none {s : State} {c : TableChange} {cs : List TableChange} (h : s.ep.role ≠ 0) (hc : s.ep.changes = c :: cs) :
    exec (.tableChange none) s = .next ((State.passTo { s with ep := { s.ep with changes := cs } } c.at_).applyChange c) := by
  change execTableChange none s = _
  simp only [execTableChange, if_neg h, hc]

/-- A change with a count waits; what it says of ranks and membership it says at once (R231, R257). -/
theorem State.takeChange_waits (s : State) {c : TableChange} (h : c.at_ ≠ 0) :
    (s.takeChange c).ep.changes = s.ep.changes ++ [c] ∧ (s.takeChange c).ep.tables = s.ep.tables ∧
    ∀ x r, c.member = some (x, r) → ((s.takeChange c).ctx x).job = c.job ∧ ((s.takeChange c).ctx x).rank = r := by
  obtain ⟨u, sends, ctxs, changes, taken⟩ := s.takeChange_eq c
  rw [taken, if_neg h]
  refine ⟨?_, ?_, fun x r hm => ?_⟩
  · change u.ep.changes ++ [c] = _
    rw [changes, State.takeRanks_changes]
  · change u.ep.tables = _
    rw [((s.takeRanks_sendsTables c).trans sends).frame]
  · have member : (u.keepChange c).ctx x = (s.takeRanks c).ctx x := State.ctx_congr ctxs x
    rw [member]
    simp only [State.takeRanks, hm]
    rw [State.ctx_modCtx_self]
    exact ⟨rfl, rfl⟩

end Sys2Proof.Machine
end

section
/-! The manager and its modules (R219, R220, R237, R239): taking them over, and modules that fail, are excluded or readmitted. -/
namespace Sys2Proof.Machine

open Sys2Proof

/-! ## MANAGER_TAKE (R220) -/

theorem State.endJobs_spec (s : State) : s.endJobs.ep.jobs = [] ∧ s.endJobs.ep.shaped.shape = s.ep.shaped.shape ∧ s.endJobs.panel = s.panel := by
  have left : (s.liveCtxs.foldl (fun (t : State) c => t.modCtx c (fun x => { x with job := 0, rank := 0 })) s).ep = s.ep ∧
      (s.liveCtxs.foldl (fun (t : State) c => t.modCtx c (fun x => { x with job := 0, rank := 0 })) s).panel = s.panel :=
    List.foldlRecOn (motive := fun t : State => t.ep = s.ep ∧ t.panel = s.panel) _ _ ⟨rfl, rfl⟩ fun t ht c _ => ht
  obtain ⟨ep, panel⟩ := left
  rw [State.endJobs]
  generalize s.liveCtxs.foldl (fun (t : State) c => t.modCtx c (fun x => { x with job := 0, rank := 0 })) s = u at ep panel
  refine ⟨rfl, ?_, panel⟩
  change u.ep.shaped.shape = _
  rw [ep]

section
variable {s : State} {found : List FoundMod} {d : Taken} (h : s.ctlHead 0 0x36 = some d)
include h

theorem exec_managerTake_waits (hb : (s.jobBusy || found.any (·.running)) = true) : exec (.managerTake found) s = .next s := by
  change execManagerTake found s = _
  simp only [execManagerTake, h, if_pos hb]

theorem exec_managerTake (hb : (s.jobBusy || found.any (·.running)) = false) : exec (.managerTake found) s =
    .next ((s.endJobs.form found).complete d (if (s.endJobs.form found).ep.formed then 0 else 0x000A) 0) := by
  have free : ¬((s.jobBusy || found.any (·.running)) = true) := by simp [hb]
  change execManagerTake found s = _
  simp only [execManagerTake, h, if_neg free]

end

/-! ## Modules that fail (R237) -/

/-- From `s` to `t` jobs may have stopped; the failed modules are the same. -/
structure StopsJobs (s t : State) : Prop where
  st : ∀ id, (t.job id).st = (s.job id).st ∨ (t.job id).st = .idle
  failed : t.ep.failedMods = s.ep.failedMods

theorem StopsJobs.refl (s : State) : StopsJobs s s := ⟨fun _ => .inl rfl, rfl⟩

theorem StopsJobs.idle {s t : State} (h : StopsJobs s t) {id : Nat} (hi : (s.job id).st = .idle) : (t.job id).st = .idle :=
  (h.st id).elim (fun e => e.trans hi) (fun e => e)

theorem StopsJobs.trans {s t u : State} (h : StopsJobs s t) (k : StopsJobs t u) : StopsJobs s u where
  st id := (h.st id).elim (fun e => (k.st id).imp_left (fun e' => e'.trans e)) (fun e => .inr (k.idle e))
  failed := k.failed.trans h.failed

theorem StopsJobs.foldl {α : Type} {f : State → α → State} (hf : ∀ t a, StopsJobs t (f t a)) (l : List α) (s : State) :
    StopsJobs s (l.foldl f s) :=
  List.foldlRecOn _ _ (.refl s) fun _ h _ _ => h.trans (hf ..)

theorem OpensTables.stopsJobs {s t : State} (h : OpensTables s t) : StopsJobs s t where
  st id := by
    obtain ⟨l, hl⟩ := h.job id
    exact .inl (by rw [hl])
  failed := by rw [h.frame]

theorem State.raiseAt_faultsOnly (s : State) (q : Nat × Nat) (code source a0 a1 : Nat) : FaultsOnly code s (s.raiseAt q code source a0 a1) :=
  ite_holds _ (s.ctxFault_faultsOnly ..) (s.ctl_faultsOnly _ _)

theorem State.raiseJob_spec (s : State) (id code source a0 : Nat) : ((s.raiseJob id code source a0).job id).st = .idle ∧
    StopsJobs s (s.raiseJob id code source a0) := by
  have raised := FaultsOnly.foldl (fun t q => State.raiseAt_faultsOnly t q code source a0 0) (s.job id).members s
  rw [State.raiseJob]
  generalize (s.job id).members.foldl (fun t q => t.raiseAt q code source a0 0) s = u at raised
  refine ⟨by rw [State.jobTo, State.job_setJob_self], fun k => ?_, ?_⟩
  · rw [State.jobTo, State.job_setJob]
    split
    · exact .inr rfl
    · exact .inl (by rw [State.job, raised.ep]; rfl)
  · change u.ep.failedMods = _
    rw [raised.ep]

theorem State.raiseJob_mem {l : List Nat} {id : Nat} (h : id ∈ l) (code : Nat) (source a0 : Nat → Nat) (s : State) :
    ((l.foldl (fun t k => t.raiseJob k code (source k) (a0 k)) s).job id).st = .idle := by
  obtain ⟨l₁, l₂, rfl⟩ := List.append_of_mem h
  rw [List.foldl_append, List.foldl_cons]
  exact (StopsJobs.foldl (fun t k => (t.raiseJob_spec k code (source k) (a0 k)).2) l₂ _).idle (State.raiseJob_spec ..).1

theorem State.reJob_stopsJobs (s : State) (old : Epfin) (id : Nat) : StopsJobs s (s.reJob old id).1 where
  st k := by
    simp only [State.reJob]
    rw [State.job_setJob]
    split
    next h => exact .inl (by rw [h])
    next => exact .inl rfl
  failed := rfl

theorem Table.mem_keys_of_has {α : Type} {t : Table α} {n : Nat} (h : t.has n = true) : n ∈ t.map (·.1) := by
  obtain ⟨a, ha⟩ := Option.isSome_iff_exists.mp h
  exact List.mem_map.mpr ⟨(n, a), Table.mem_of_find? ha, rfl⟩

/-- What a declaration that modules have failed or are excluded comes to (R237). -/
structure Declares (ms : List Nat) (s t : State) : Prop where
  failed : ∀ m, m ∈ ms ∨ m ∈ s.ep.failedMods → m ∈ t.ep.failedMods
  idle : ∀ m, m ∈ ms → ∀ id, s.ep.jobs.has id = true → (s.job id).members.any (fun q => q.1 == m) = true → (t.job id).st = .idle

theorem State.declare_declares (s : State) (ms : List Nat) (link : Option Hop) (excluded : Bool) : Declares ms s (s.declare ms link excluded) := by
  delta State.declare
  extract_lets e0 links mark all lostHops ids hitMod hitHop first second s1 s2 pips _ s3 s4 lost items cuts
  have stopped : StopsJobs s s1 := .foldl (fun t id => (State.raiseJob_spec t id ..).2) first s
  have raised : StopsJobs s1 s2 := .foldl (fun t id => (State.raiseJob_spec t id ..).2) second s1
  have laid : StopsJobs s3 s4.1 :=
    List.foldlRecOn (motive := fun t : State × List (Nat × TableChange) => StopsJobs s3 t.1) _ _ (.refl s3)
      fun t ht id _ => ht.trans (State.reJob_stopsJobs ..)
  have sent : StopsJobs s4.1 (if cuts.isEmpty then s4.1 else s4.1.queueTables none (s4.2 ++ lost ++ cuts)) :=
    ite_holds _ (.refl _) (State.queueTables_sends ..).stopsJobs
  have after := laid.trans sent
  generalize (if cuts.isEmpty then s4.1 else s4.1.queueTables none (s4.2 ++ lost ++ cuts)) = t at after
  refine ⟨fun m hm => ?_, fun m hm id hid hmem => ?_⟩
  · rw [after.failed]
    change m ∈ e0.failedMods ++ all
    rcases hm with hm | hm
    · exact List.mem_append_right _ (List.mem_append_left _ hm)
    · exact List.mem_append_left _ hm
  · have hit : (hitMod id).isSome = true := by
      rw [List.find?_isSome]
      exact ⟨m, List.mem_append_left _ hm, hmem⟩
    have among : id ∈ first := List.mem_filter.mpr ⟨Table.mem_keys_of_has hid, hit⟩
    have idle1 : (s1.job id).st = .idle := State.raiseJob_mem among 0x0507 _ _ s
    have idle3 : (s3.job id).st = .idle := raised.idle idle1
    exact after.idle idle3

theorem Declares.of_ep {ms : List Nat} {s t u : State} (h : Declares ms u t) (he : u.ep = s.ep) : Declares ms s t where
  failed m hm := h.failed m (by rw [he]; exact hm)
  idle m hm id hid hmem := by
    have job : u.job id = s.job id := by rw [State.job, he]; rfl
    exact h.idle m hm id (by rw [he]; exact hid) (by rw [job]; exact hmem)

theorem exec_moduleFailed {s : State} {m : BitVec 10} (hr : s.ep.role = 2) (hi : s.ep.isMod m.toNat = true) (hf : m.toNat ∉ s.ep.failedMods)
    (ho : m.toNat ≠ s.modIndex) : exec (.moduleFailed m none) s = .next
      (if s.ep.downToward m.toNat then s.declare [m.toNat] none false
        else (s.passTo (s.ep.beats.get m.toNat s.ep.beaconAt + 3000000)).declare [m.toNat] none false) := by
  have known : ¬(s.ep.role ≠ 2 ∨ s.ep.isMod m.toNat = false ∨ s.ep.failedMods.contains m.toNat) := by simp [hr, hi, hf]
  change execModuleFailed m none s = _
  simp only [execModuleFailed, if_neg known, if_neg ho]

/-! ## EXCLUDE and READMIT (R239) -/

/-- The modules that an EXCLUDE names. -/
def State.excludeList (s : State) (d : Taken) : List Nat :=
  ((List.range (d.word 4)).map (fun k => leNat (s.hostRead (d.dword 6 + 2 * k) 2))).eraseDups

theorem exec_exclude {s : State} {d : Taken} (h : s.ctlHead 0 0x38 = some d) (hr : s.ep.role = 2)
    (hm : (s.excludeList d).any (fun m => !s.ep.isMod m || m == s.modIndex) = false) : exec (.exclude .ok) s = .next
      ((s.declare ((s.excludeList d).filter (fun m => !s.ep.failedMods.contains m)) none true).complete d 0 0) := by
  have manager : ¬(s.ep.role ≠ 2) := by simp [hr]
  have mods : ¬((s.excludeList d).any (fun m => !s.ep.isMod m || m == s.modIndex) = true) := by simp [hm]
  change execExclude .ok s = _
  simp only [execExclude, h, if_neg manager]
  exact congrArg Host.Outcome.next (if_neg mods)

section
variable {s : State} {d : Taken} (h : s.ctlHead 0 0x37 = some d) (hr : s.ep.role = 2) (hi : s.ep.isMod (d.word 4 % 1024) = true)
include h hr hi

theorem exec_readmit : exec (.readmit none) s = .next ((s.readmit (d.word 4 % 1024)).complete d 0 0) := by
  have manager : ¬(s.ep.role ≠ 2) := by simp [hr]
  have known : ¬(s.ep.isMod (d.word 4 % 1024) = false) := by simp [hi]
  change execReadmit none s = _
  simp only [execReadmit, h, if_neg manager, if_neg known]

theorem exec_readmit_miswired (p : BitVec 3) : exec (.readmit (some p)) s =
    .next ((s.postPf 0x8603 (srcMod (d.word 4 % 1024)) (d.word 4 % 1024) p.toNat).complete d 0x000A 0) := by
  have manager : ¬(s.ep.role ≠ 2) := by simp [hr]
  have known : ¬(s.ep.isMod (d.word 4 % 1024) = false) := by simp [hi]
  change execReadmit (some p) s = _
  simp only [execReadmit, h, if_neg manager, if_neg known]

end

/-- A readmitted module and its links are failed no longer. -/
theorem State.readmit_spec (s : State) (m : Nat) : (s.readmit m).ep.failedMods = s.ep.failedMods.filter (· != m) ∧
    (s.readmit m).ep.failedLinks = s.ep.failedLinks.filter (fun h => h.1 != m && s.ep.nextMod h.1 h.2 != m) := by
  delta State.readmit
  extract_lets e was s1 ov t s2
  have adopted : s2 = { s1 with ep := { s1.ep with ctl := s2.ep.ctl } } := by
    refine ite_holds (fun u : State => u = { s1 with ep := { s1.ep with ctl := u.ep.ctl } }) ?_ rfl
    rw [State.tellTime_frame]
    rfl
  have sent := s2.queueTables_sends none (s2.controlParts (fun w c =>
    { c with ports := (List.range 6).filter (fun p => e.hasLink p && (w == m || e.nextMod w p == m)) }))
  constructor
  · rw [sent.frame, adopted]
  · rw [sent.frame, adopted]

end Sys2Proof.Machine
end

section
/-! Jobs (R42, R209, R231, R257, R258): how the manager creates, ends and commands them. -/
namespace Sys2Proof.Machine

open Sys2Proof

/-! ## Who may command a job (R257) -/

section
variable {s : State} {d : Taken} {op : Nat} (h : s.ctlHead 0 op = some d) (f : Taken → Nat → State)
include h

theorem State.jobCmd_worker (hr : s.ep.role ≠ 2) : s.jobCmd op f = s.complete d 0x000A 0 := by
  simp only [State.jobCmd, h, if_pos hr]

theorem State.jobCmd_known (hr : s.ep.role = 2) (hid : s.ep.jobs.has (d.word 4 % 65536) = true) : s.jobCmd op f = f d (d.word 4 % 65536) := by
  have manager : ¬(s.ep.role ≠ 2) := by simp [hr]
  simp only [State.jobCmd, h, if_neg manager, if_pos hid]

end

theorem exec_jobCreate_worker {s : State} {d : Taken} (h : s.ctlHead 0 0x30 = some d) (hr : s.ep.role ≠ 2) :
    exec (.jobCreate .ok []) s = .next (s.complete d 0x000A 0) := by
  change execJobCreate .ok [] s = _
  simp only [execJobCreate, h, if_pos hr]

theorem exec_jobCreate {s : State} {d : Taken} (bad : List Nat) (h : s.ctlHead 0 0x30 = some d) (hr : s.ep.role = 2) :
    exec (.jobCreate .ok bad) s = .next (s.createJob d bad) := by
  have manager : ¬(s.ep.role ≠ 2) := by simp [hr]
  change execJobCreate .ok bad s = _
  simp only [execJobCreate, h, if_neg manager]

/-! ## What commands of jobs change -/

theorem State.jobTo_job (s : State) (id : Nat) (st : JobSt) : (s.jobTo id st).job id = { s.job id with st := st } := State.job_setJob_self ..

/-- What PREPARE of a job says of a quiesce's policy and a swap's epoch. -/
theorem State.jobPrepare_policy (s : State) (kind : ExKind) (job k : Nat) (unit : Nat → Nat) (cut : Bool) (epoch : Nat) :
    (s.jobPrepare kind job k unit cut epoch).1.cut = cut ∧ (s.jobPrepare kind job k unit cut epoch).1.epoch = BitVec.ofNat 16 epoch := by
  simp only [State.jobPrepare]
  split <;> exact ⟨rfl, rfl⟩

theorem State.noExchange_none {s : State} {j : Job} {fit : Bool} (hb : s.exBusy = false) (hf : fit = true) : s.noExchange j fit = none := by
  simp [State.noExchange, hb, hf]

/-- An exchange of a job that cannot open: its descriptor completes ABORTED with the reason of the first NAK (R44). -/
theorem State.jobExchange_refused {s : State} {d : Taken} {id : Nat} {kind : ExKind} {fit cut : Bool} {epoch : Nat} {st : JobSt} {n : Nat × Nat}
    (h : s.noExchange (s.job id) fit = some n) : s.jobExchange d id kind fit cut epoch st = s.complete d 2 (nakDetail n) := by
  simp only [State.jobExchange, h]

/-- An exchange of a job opens: PREPARE goes out for its descriptor, and the job is in its new state (R258). -/
theorem State.jobExchange_opens {s : State} {d : Taken} {id : Nat} (hid : id < 2 ^ 16) (kind : ExKind) {fit : Bool} (cut : Bool) (epoch : Nat)
    (st : JobSt) (hb : s.exBusy = false) (hf : fit = true) :
    let t := s.jobExchange d id kind fit cut epoch st
    t.job id = { s.job id with st := st } ∧ t.ctxs = s.ctxs ∧ ∃ e, (t.ep.ex = some e ∧ e.kind = kind ∧ e.job = id ∧ e.manager = true ∧
      e.d = some d) ∧ e.cut = cut ∧ e.epoch = epoch % 65536 := by
  simp only [State.jobExchange, State.noExchange_none hb hf]
  obtain ⟨hfree, hkind, hjob, -, -⟩ := ((s.jobTo id st).setSt d .running).jobPrepare_spec kind id 0 (fun p => p) cut epoch
  obtain ⟨hcut, hepoch⟩ := ((s.jobTo id st).setSt d .running).jobPrepare_policy kind id 0 (fun p => p) cut epoch
  have started := s.jobTo_job id st
  generalize ((s.jobTo id st).setSt d .running).jobPrepare kind id 0 (fun p => p) cut epoch = m at hfree hkind hjob hcut hepoch
  rw [State.openExchange_frame, hfree]
  refine ⟨started, rfl, _, ⟨rfl, hkind, ?_, rfl, rfl⟩, hcut, ?_⟩
  · exact (congrArg BitVec.toNat hjob).trans ((BitVec.toNat_ofNat ..).trans (Nat.mod_eq_of_lt hid))
  · exact (congrArg BitVec.toNat hepoch).trans (BitVec.toNat_ofNat ..)

/-! ## JOB_CREATE (R257) -/

/-- A plan that is laid: the job's routes and pips are in the manager's books (R231, R233). -/
theorem State.layJob_spec {s : State} {id : Nat} {j : Job} {v : State × List (Nat × TableChange)} (h : s.layJob id j = .inr v) :
    ∃ ov t, v.1 = (State.setJob { s with ep := { s.ep with linkPips := t } } id { j with ovr := ov, short := none }) := by
  simp only [State.layJob] at h
  split at h
  · cases h
  next t _ =>
    split at h
    · cases h
    · injection h with h
      exact ⟨_, t, by rw [← h]⟩

/-- The identifier that a new job takes (R257). -/
def State.newId (s : State) : Nat := freshJob s.ep.jobs s.ep.jobs.length s.ep.nextJob

section
variable {s : State} {d : Taken} {bad : List Nat} (h1 : 1 ≤ d.word 4) (h2 : d.word 4 ≤ 65536)
include h1 h2

theorem State.createJob_rank {r : Nat} (hr : (List.range (d.word 4)).find? (s.rankFails (s.rankList d) bad) = some r) :
    s.createJob d bad = s.complete d 0x0107 r := by
  have count : ¬(d.word 4 = 0 ∨ 65536 < d.word 4) := by omega
  simp only [State.createJob, if_neg count, hr]

variable (hr : (List.range (d.word 4)).find? (s.rankFails (s.rankList d) bad) = none) (hp : (s.planList d).any (badPair (d.word 4)) = false)
include hr hp

theorem State.createJob_short {l : Hop} (hl : s.layJob s.newId { members := s.rankList d, plan := s.planList d } = .inl l) :
    s.createJob d bad = s.complete d 0x0109 (hopDetail l) := by
  have count : ¬(d.word 4 = 0 ∨ 65536 < d.word 4) := by omega
  have pairs : ¬((s.planList d).any (badPair (d.word 4)) = true) := by simp [hp]
  rw [State.newId] at hl
  simp only [State.createJob, if_neg count, hr, if_neg pairs, hl]

theorem State.createJob_laid {v : State × List (Nat × TableChange)}
    (hl : s.layJob s.newId { members := s.rankList d, plan := s.planList d } = .inr v) : s.createJob d bad =
      (((State.sendRanks { v.1 with ep := { v.1.ep with nextJob := s.newId % 0xFFFE + 1 } } s.newId
        { members := s.rankList d, plan := s.planList d }).setSt d .running).queueTables (some (d, s.newId)) v.2) := by
  have count : ¬(d.word 4 = 0 ∨ 65536 < d.word 4) := by omega
  have pairs : ¬((s.planList d).any (badPair (d.word 4)) = true) := by simp [hp]
  rw [State.newId] at hl
  simp only [State.createJob, if_neg count, hr, if_neg pairs, hl]
  rfl

end

/-- A job that is created: its books, and the exchange of its tables (R231, R257). -/
theorem State.newJob_spec {s : State} {id : Nat} {j : Job} {v : State × List (Nat × TableChange)} (hl : s.layJob id j = .inr v)
    (hb : s.exBusy = false) (hq : s.ep.tableQ = []) (d : Taken) :
    let t := ((State.sendRanks { v.1 with ep := { v.1.ep with nextJob := id % 0xFFFE + 1 } } id j).setSt d .running).queueTables (some (d, id)) v.2
    t.ep.jobs.has id = true ∧ (t.job id).members = j.members ∧ (t.job id).plan = j.plan ∧ (t.job id).st = j.st ∧
    t.ep.nextJob = id % 0xFFFE + 1 ∧ t.ep.tableQ = [(some (d, id), v.2)] ∧
    ∃ e, t.ep.ex = some e ∧ e.kind = .tables ∧ e.manager = true ∧ e.go = false ∧ s.tcb.now + 2000000 ≤ e.at_ := by
  obtain ⟨ov, pips, laid⟩ := State.layJob_spec hl
  have books : SendsTables (State.setJob { s with ep := { s.ep with linkPips := pips, nextJob := id % 0xFFFE + 1 } } id { j with ovr := ov, short := none })
      (State.sendRanks { v.1 with ep := { v.1.ep with nextJob := id % 0xFFFE + 1 } } id j) := by
    rw [laid]
    exact .foldl (fun t e => t.sendChange_sendsTables ..) _ _
  generalize State.sendRanks { v.1 with ep := { v.1.ep with nextJob := id % 0xFFFE + 1 } } id j = u at books
  have queue : u.ep.tableQ = [] := by rw [books.frame]; exact hq
  have free : u.exBusy = false := by rw [State.exBusy, books.frame]; exact hb
  have now : u.tcb = s.tcb := by rw [books.frame]; rfl
  obtain ⟨sent, tables, e, ex, kind, manager, go, at_⟩ := State.queueTables_opens (s := u.setSt d .running) queue free (some (d, id)) v.2
  obtain ⟨l, given⟩ := sent.job id
  obtain ⟨l', known⟩ := books.job id
  have job : ((u.setSt d .running).queueTables (some (d, id)) v.2).job id = { j with ovr := ov, short := none, lost := l } := by
    rw [given]
    change { u.job id with lost := l } = _
    rw [known, State.job_setJob_self]
  refine ⟨?_, (congrArg Job.members job).trans rfl, (congrArg Job.plan job).trans rfl, (congrArg Job.st job).trans rfl, ?_, tables, e, ex, kind, manager, go, ?_⟩
  · rw [sent.has]
    change u.ep.jobs.has id = true
    rw [books.has]
    exact (Table.has_put ..).trans (by simp)
  · rw [sent.frame]
    change u.ep.nextJob = _
    rw [books.frame]
    rfl
  · rw [← now]; exact at_

/-! ## JOB_END (R257) -/

theorem jobOn_freePips (t : LinkPips) (id : Nat) (h : Hop) : jobOn (freePips t id) id h = [] := by
  rw [jobOn, Table.get]
  cases hf : Table.find? (freePips t id) (linkKey h) with
  | none => rfl
  | some l =>
    obtain ⟨k, -, hk⟩ := List.mem_map.mp (List.mem_filter.mp (Table.mem_of_find? hf)).1
    have freed : l = k.2.filter (fun q => q.2 != id) := (Prod.mk.inj hk).2.symm
    have none_left : l.filter (fun q => q.2 == id) = [] := by
      rw [freed, List.filter_filter]
      exact List.filter_eq_nil_iff.mpr fun q _ => by simp
    rw [Option.getD_some, none_left, List.map_nil]

/-- A member of the job runs. -/
def State.memberRuns (s : State) (id : Nat) : Bool := (s.job id).st.runs || (s.jobCtx id).any (fun c => decide ((s.ctx c).st = .running))

section
variable {s : State} {d : Taken} (h : s.ctlHead 0 0x31 = some d) (hr : s.ep.role = 2) (hid : s.ep.jobs.has (d.word 4 % 65536) = true)
include h hr hid

theorem exec_jobEnd_runs (hj : s.memberRuns (d.word 4 % 65536) = true) : exec .jobEnd s = .next (s.complete d 0x0108 0) := by
  refine congrArg Host.Outcome.next ((State.jobCmd_known h _ hr hid).trans ?_)
  exact if_pos hj

theorem exec_jobEnd (hj : s.memberRuns (d.word 4 % 65536) = false) : ∃ l, exec .jobEnd s = .next
    ((State.setSt { s with ep := { s.ep with linkPips := freePips s.ep.linkPips (d.word 4 % 65536), jobs := s.ep.jobs.erase (d.word 4 % 65536) } }
      d .running).queueTables (some (d, 0)) l) := by
  have idle : ¬(s.memberRuns (d.word 4 % 65536) = true) := by simp [hj]
  exact ⟨_, congrArg Host.Outcome.next ((State.jobCmd_known h _ hr hid).trans (if_neg idle))⟩

end

/-- A job that has ended: it is unknown and holds no pips, and its tables go (R257). -/
theorem State.endJob_spec {s : State} {id : Nat} {d : Taken} (hb : s.exBusy = false) (hq : s.ep.tableQ = []) (l : List (Nat × TableChange)) :
    let t := (State.setSt { s with ep := { s.ep with linkPips := freePips s.ep.linkPips id, jobs := s.ep.jobs.erase id } } d .running).queueTables
      (some (d, 0)) l
    t.ep.jobs.has id = false ∧ t.ep.tableQ = [(some (d, 0), l)] ∧
    (∃ e, t.ep.ex = some e ∧ e.kind = .tables ∧ e.manager = true ∧ e.go = false ∧ s.tcb.now + 2000000 ≤ e.at_) ∧
    ∀ h, jobOn t.ep.linkPips id h = [] := by
  obtain ⟨sent, tables, opened⟩ := State.queueTables_opens (s := State.setSt { s with ep := { s.ep with
    linkPips := freePips s.ep.linkPips id, jobs := s.ep.jobs.erase id } } d .running) hq hb (some (d, 0)) l
  refine ⟨?_, tables, opened, fun h => ?_⟩
  · rw [sent.has]
    exact congrArg Option.isSome (Table.find?_erase_self s.ep.jobs id)
  · rw [sent.frame]
    exact jobOn_freePips s.ep.linkPips id h

end Sys2Proof.Machine
end

section
/-! JOB_LAUNCH, JOB_QUIESCE, JOB_RESUME and JOB_SWAP (R42, R209, R258). -/
namespace Sys2Proof.Machine

open Sys2Proof

section
variable {s : State} {d : Taken} (hr : s.ep.role = 2) (hid : s.ep.jobs.has (d.word 4 % 65536) = true)
include hr hid

/-! ## JOB_LAUNCH -/

section
variable (h : s.ctlHead 0 0x32 = some d)
include h

/-- A job that has lost a rank is not launched (R257). -/
theorem exec_jobLaunch_lost {r : Nat} {rs : List Nat} (hl : (s.job (d.word 4 % 65536)).lost = r :: rs) :
    exec .jobLaunch s = .next (s.complete d 0x0107 r) := by
  refine congrArg Host.Outcome.next ((State.jobCmd_known h _ hr hid).trans ?_)
  simp only [hl]

/-- A launch: the job's tables go out under the launch's own count, and PREPARE with them (R42, R231). -/
theorem exec_jobLaunch {v : State × List (Nat × TableChange)} (hl : (s.job (d.word 4 % 65536)).lost = []) (hb : s.exBusy = false)
    (hi : (s.job (d.word 4 % 65536)).st = .idle) (hx : s.crossJob (d.word 4 % 65536) = false) (hs : (s.job (d.word 4 % 65536)).short = none)
    (hv : s.layJob (d.word 4 % 65536) (s.job (d.word 4 % 65536)) = .inr v) :
    let m := ((v.1.jobTo (d.word 4 % 65536) .launching).setSt d .running).jobPrepare .launch (d.word 4 % 65536) 0 (fun p => p) false 0
    exec .jobLaunch s = .next (((m.2.sendAll m.1.at_ v.2).openExchange m.1 (some d)).setEx
      (some { (m.2.sendAll m.1.at_ v.2).newEx m.1 true (some d) with
        undo := some ((s.job (d.word 4 % 65536)).ovr, s.ep.linkPips) })) := by
  have fit := State.noExchange_none (j := s.job (d.word 4 % 65536)) hb (decide_eq_true hi)
  refine congrArg Host.Outcome.next ((State.jobCmd_known h _ hr hid).trans ?_)
  simp only [hl, fit, hx, hs, hv]
  rfl

end

/-! ## JOB_QUIESCE and JOB_RESUME -/

theorem exec_jobQuiesce (h : s.ctlHead 0 0x33 = some d) : exec .jobQuiesce s = .next (s.jobExchange d (d.word 4 % 65536) .quiesce
    (decide ((s.job (d.word 4 % 65536)).st = .running)) (decide (fld (d.word 4) 16 16 = 1)) 0 .quiescing) :=
  congrArg Host.Outcome.next (State.jobCmd_known h _ hr hid)

theorem exec_jobResume (h : s.ctlHead 0 0x34 = some d) : exec .jobResume s = .next (s.jobExchange d (d.word 4 % 65536) .resume
    (decide ((s.job (d.word 4 % 65536)).st = .quiesced)) false 0 .resuming) :=
  congrArg Host.Outcome.next (State.jobCmd_known h _ hr hid)

/-! ## JOB_SWAP (R209) -/

/-- The job once a swap is under way: no module has reported LOADED yet. -/
def Job.swapping (j : Job) (epoch : Nat) : Job := { j with loaded := [], epoch := epoch }

theorem exec_jobSwap (h : s.ctlHead 0 0x35 = some d) :
    let q := s.swapOf (d.word 4 % 65536)
    exec .jobSwap s = .next ((q.2.setJob (d.word 4 % 65536) ((q.2.job (d.word 4 % 65536)).swapping q.1.1)).jobExchange d (d.word 4 % 65536) .swap
      (q.2.job (d.word 4 % 65536)).st.swaps q.1.2 q.1.1 (q.2.job (d.word 4 % 65536)).st) :=
  congrArg Host.Outcome.next (State.jobCmd_known h _ hr hid)

end

/-- Where its epoch and policy come from: the swap that the manager's own member holds. -/
theorem State.swapOf_own {s : State} {id c : Nat} {l : Load} {n : (List Shard × BitVec 256 × Nat)} (hc : s.jobCtx id = some c)
    (hl : (s.ctx c).wset.load = some l) (hn : (s.ctx c).wset.next = some n) : s.swapOf id = ((n.2.2, l.cut), s) := by
  simp [State.swapOf, hc, hl, hn]

theorem State.swapOf_frame (s : State) (id : Nat) : (s.swapOf id).2 = { s with free := (s.swapOf id).2.free } := by
  simp only [State.swapOf]
  split <;> rfl

theorem State.swapJob_spec {s : State} {id : Nat} (hid : id < 2 ^ 16) (d : Taken) (hb : s.exBusy = false) (hs : (s.job id).st.swaps = true) :
    let q := s.swapOf id
    let t := (q.2.setJob id ((q.2.job id).swapping q.1.1)).jobExchange d id .swap (q.2.job id).st.swaps q.1.2 q.1.1 (q.2.job id).st
    (t.job id).st = (s.job id).st ∧ (t.job id).loaded = [] ∧ t.ctxs = s.ctxs ∧ ∃ e, (t.ep.ex = some e ∧ e.kind = .swap ∧ e.job = id ∧
      e.manager = true ∧ e.d = some d) ∧ e.cut = q.1.2 ∧ e.epoch = q.1.1 % 65536 := by
  have frame := s.swapOf_frame id
  generalize s.swapOf id = q at frame
  have job : q.2.job id = s.job id := by rw [frame]; rfl
  have free : (q.2.setJob id ((q.2.job id).swapping q.1.1)).exBusy = false := by
    rw [frame]
    exact hb
  obtain ⟨known, ctxs, opened⟩ := State.jobExchange_opens (s := q.2.setJob id ((q.2.job id).swapping q.1.1)) (d := d) hid .swap q.1.2 q.1.1
    (q.2.job id).st free (fit := (q.2.job id).st.swaps) (by rw [job]; exact hs)
  rw [State.job_setJob_self] at known
  refine ⟨?_, ?_, ?_, opened⟩
  · rw [known, ← job]
  · rw [known]
    rfl
  · rw [ctxs, frame]
    rfl

/-- A job that is launched (R42, R231). -/
theorem State.launchJob_spec {s : State} {id : Nat} {v : State × List (Nat × TableChange)} (hid : id < 2 ^ 16) (hv : s.layJob id (s.job id) = .inr v)
    (d : Taken) (u : Option (List (Nat × Nat × Nat) × Table (List (Nat × Nat)))) :
    let m := ((v.1.jobTo id .launching).setSt d .running).jobPrepare .launch id 0 (fun p => p) false 0
    let t := ((m.2.sendAll m.1.at_ v.2).openExchange m.1 (some d)).setEx (some { (m.2.sendAll m.1.at_ v.2).newEx m.1 true (some d) with undo := u })
    (t.job id).st = .launching ∧ (t.job id).members = (s.job id).members ∧
      ∃ e, t.ep.ex = some e ∧ e.kind = .launch ∧ e.job = id ∧ e.manager = true ∧ e.d = some d := by
  obtain ⟨ov, pips, laid⟩ := State.layJob_spec hv
  obtain ⟨hfree, hkind, hjob, -, -⟩ := ((v.1.jobTo id .launching).setSt d .running).jobPrepare_spec .launch id 0 (fun p => p) false 0
  have started : (v.1.jobTo id .launching).job id = { s.job id with ovr := ov, short := none, st := .launching } := by
    rw [State.jobTo_job, laid, State.job_setJob_self]
  generalize ((v.1.jobTo id .launching).setSt d .running).jobPrepare .launch id 0 (fun p => p) false 0 = m at hfree hkind hjob
  intro m' t
  obtain ⟨l, sent⟩ := (m.2.sendAll_sendsTables m.1.at_ v.2).job id
  have prepared : m.2.job id = { s.job id with ovr := ov, short := none, st := .launching } := by
    rw [hfree]
    exact started
  have job : t.job id = { s.job id with ovr := ov, short := none, st := .launching, lost := l } := by
    simp only [t, State.openExchange_frame]
    change (m.2.sendAll m.1.at_ v.2).job id = _
    rw [sent, prepared]
  refine ⟨(congrArg Job.st job).trans rfl, (congrArg Job.members job).trans rfl, _, rfl, hkind, ?_, rfl, rfl⟩
  exact (congrArg BitVec.toNat hjob).trans ((BitVec.toNat_ofNat ..).trans (Nat.mod_eq_of_lt hid))

end Sys2Proof.Machine
end

section
/-! Obligation O51, from the rules of its commands. -/
namespace Sys2Proof.Machine

open Sys2Proof

theorem answers_ends {s : State} {c : Instr} {d : Taken} {status detail : Nat} (h : exec c s = .next (s.complete d status detail)) :
    Answers c s (fun t => Ends t d status detail (fun u => u = s)) := ⟨_, h, s, rfl, rfl⟩

/-- Settles O51: each clause is the rule of its command; what a command makes of the manager's books is said of sending tables,
opening an exchange and stopping jobs. -/
theorem theManagerFormsRunsAndReshapes : Obligations.TheManagerFormsRunsAndReshapes := by
  intro s
  refine ⟨fun d => ⟨fun hr => ⟨fun h => ?_, fun h => ?_, fun h => ?_⟩, fun bad h hr h1 h2 => ⟨fun r hf => ?_, fun hf hp => ⟨fun l hl => ?_, fun v hl hb hq => ?_⟩⟩,
      fun hr hid => ⟨fun h => ⟨fun hj => ?_, fun hj hb hq => ?_⟩, fun h => ⟨fun r rs hl => ?_, fun v hl hb hi hx hs hv => ?_⟩,
        fun h => ⟨fun n hn => ?_, fun hb hst => ?_⟩, fun h hb hst => ?_, fun h hb hst => ?_⟩,
      fun found h => ⟨fun hb => ?_, fun hb => ?_⟩, fun h hr hi => ⟨?_, fun p => ?_⟩, fun h hr hm => ?_⟩,
    fun v found hb => ⟨fun hv => ?_, fun hv hc => ?_, fun hv hc h3 => ?_, fun hv hc h2 => ?_, fun hv hc hv2 => ?_⟩,
    fun a => ⟨fun hu => ?_, fun hu hr => ?_, fun hu hr hm hc => ?_⟩, fun hr => ?_, fun hr => ?_, fun hr => ?_,
    fun m => ⟨fun hr => ?_, fun hr => ?_⟩, fun hr hl => ?_, fun m hr hi hf ho => ?_,
    fun m code cls c source arg0 arg1 => ⟨fun hr => ?_, fun hr hc ho hcls => ?_, fun id hr hc hcls hm hj => ?_⟩,
    fun c m code => ⟨fun v hj => ?_, fun hj hst => ⟨?_, fun a b hc => ?_⟩, fun a b hj hc => ?_⟩,
    fun c hr => ⟨fun hat => ?_, fun cs hch h0 hf he => ?_⟩⟩
  · exact answers_ends (exec_jobCreate_worker h hr)
  · exact answers_ends (congrArg Host.Outcome.next (State.jobCmd_worker h _ hr))
  · exact answers_ends (congrArg Host.Outcome.next (State.jobCmd_worker h _ hr))
  · exact answers_ends ((exec_jobCreate bad h hr).trans (congrArg Host.Outcome.next (State.createJob_rank h1 h2 hf)))
  · exact answers_ends ((exec_jobCreate bad h hr).trans (congrArg Host.Outcome.next (State.createJob_short h1 h2 hf hp hl)))
  · obtain ⟨has, members, plan, st, next, queue, opened⟩ := State.newJob_spec hl hb hq d
    exact ⟨_, (exec_jobCreate bad h hr).trans (congrArg Host.Outcome.next (State.createJob_laid h1 h2 hf hp hl)), has, members, plan, st, next,
      ⟨⟨_, queue⟩, opened⟩, queue⟩
  · exact answers_ends (exec_jobEnd_runs h hr hid hj)
  · obtain ⟨l, act⟩ := exec_jobEnd h hr hid hj
    obtain ⟨has, queue, opened, freed⟩ := State.endJob_spec (id := d.word 4 % 65536) (d := d) hb hq l
    exact ⟨_, act, has, ⟨⟨l, queue⟩, opened⟩, freed⟩
  · exact answers_ends (exec_jobLaunch_lost hr hid h hl)
  · exact ⟨_, exec_jobLaunch hr hid h hl hb hi hx hs hv, State.launchJob_spec (Nat.mod_lt _ (by decide)) hv d _⟩
  · exact answers_ends ((exec_jobQuiesce hr hid h).trans (congrArg Host.Outcome.next (State.jobExchange_refused hn)))
  · obtain ⟨job, ctxs, e, ex, cut, -⟩ := State.jobExchange_opens (d := d) (id := d.word 4 % 65536) (Nat.mod_lt _ (by decide)) .quiesce
      (decide (fld (d.word 4) 16 16 = 1)) 0 .quiescing hb (decide_eq_true hst)
    exact ⟨_, exec_jobQuiesce hr hid h, congrArg Job.st job, ctxs, e, ex, cut⟩
  · obtain ⟨job, ctxs, e, ex, -⟩ := State.jobExchange_opens (d := d) (id := d.word 4 % 65536) (Nat.mod_lt _ (by decide)) .resume
      false 0 .resuming hb (decide_eq_true hst)
    exact ⟨_, exec_jobResume hr hid h, congrArg Job.st job, ctxs, e, ex⟩
  · obtain ⟨st, loaded, ctxs, e, ex, cut, epoch⟩ := State.swapJob_spec (id := d.word 4 % 65536) (Nat.mod_lt _ (by decide)) d hb hst
    refine ⟨_, exec_jobSwap hr hid h, st, loaded, ctxs, e, ex, fun c l sh root ep hc hl hn => ?_⟩
    rw [State.swapOf_own hc hl hn] at cut epoch
    exact ⟨epoch, cut⟩
  · exact ⟨_, exec_managerTake_waits h hb, rfl⟩
  · obtain ⟨jobs, shape, panel⟩ := s.endJobs_spec
    obtain ⟨role, coord, formed, fjobs, -, fpanel⟩ := s.endJobs.form_spec found
    rw [Epfin.miswired_congr shape] at formed
    refine ⟨_, exec_managerTake h hb, s.endJobs.form found, ?_, role, coord, formed, fjobs.trans jobs, fpanel.trans panel⟩
    rw [formed]
    rfl
  · obtain ⟨mods, links⟩ := s.readmit_spec (d.word 4 % 1024)
    refine ⟨_, exec_readmit h hr hi, _, rfl, ?_, fun l hl => ?_, fun n hn => ?_⟩
    · rw [mods]
      simp
    · rw [links] at hl
      have kept := (List.mem_filter.mp hl).2
      simp only [Bool.and_eq_true, bne_iff_ne] at kept
      exact kept.1
    · rw [mods, List.mem_filter]
      simp [hn]
  · exact ⟨_, exec_readmit_miswired h hr hi p, _, rfl, State.postPf_ep .., State.postPf_ctxs ..⟩
  · have declared := s.declare_declares ((s.excludeList d).filter (fun m => !s.ep.failedMods.contains m)) none true
    refine ⟨_, exec_exclude h hr hm, _, rfl, fun m hmem => declared.failed m ?_⟩
    by_cases hf : m ∈ s.ep.failedMods
    · exact .inr hf
    · exact .inl (List.mem_filter.mpr ⟨hmem, by simp [hf]⟩)
  · obtain ⟨same, -⟩ := State.writeReq_refused (s := s) (v := v) found
    exact ⟨_, exec_ringFormation found hb, same hv⟩
  · obtain ⟨-, busy, -⟩ := State.writeReq_refused (s := s) (v := v) found
    exact ⟨_, exec_ringFormation found hb, busy hv hc⟩
  · obtain ⟨-, -, reserved⟩ := State.writeReq_refused (s := s) (v := v) found
    exact ⟨_, exec_ringFormation found hb, reserved hv hc h3⟩
  · subst h2
    have acts := (exec_ringFormation found hb).trans (congrArg Host.Outcome.next (State.writeReq_manager found hv hc))
    obtain ⟨role, coord, formed, -, req, -⟩ := State.form_spec { s with ep := { s.ep with req := 2 } } found
    have shape : Epfin.shape (Epfin.shaped { s.ep with req := 2 }) = s.ep.shaped.shape := rfl
    rw [Epfin.miswired_congr shape] at formed
    generalize State.form { s with ep := { s.ep with req := 2 } } found = t at acts role coord formed req
    exact ⟨t, acts, req, role, coord, formed⟩
  · exact ⟨_, exec_ringFormation found hb, State.writeReq_member found hv hc hv2⟩
  · refine ⟨_, exec_adoption_ignored (hu.imp_left fun h => ?_), rfl⟩
    exact of_decide_eq_false h
  · exact ⟨_, exec_adoption_manager (of_decide_eq_true hu) hr, State.postPf_ep .., State.postPf_ctxs ..⟩
  · exact ⟨_, exec_adoption (of_decide_eq_true hu) hr hm hc, State.adopted_spec a hc⟩
  · refine ⟨_, exec_beacon_worker hr, ?_, ?_, State.spread_ctl ..⟩
    · rw [State.spread_frame]
    · rw [State.spread_frame]
  · refine ⟨_, exec_beacon_manager hr, ?_⟩
    have due : s.ep.beaconAt + 1000000 ≤ s.beaconDue.tcb.now := Nat.le_max_right ..
    have sent := State.spread_ctl s.beaconDue 6 (.beacon s.beaconDue.tcb.now)
    rw [State.spread_frame]
    exact ⟨due, rfl, rfl, rfl, sent⟩
  · exact ⟨_, exec_beacon_free hr, rfl⟩
  · exact ⟨_, exec_heartbeat_manager m hr, rfl⟩
  · refine ⟨_, exec_heartbeat_worker m hr, ?_⟩
    have due := s.beatDue_frame
    generalize s.beatDue = u at due
    have index : u.modIndex = s.modIndex := by rw [due]; rfl
    rw [index, due]
    exact ⟨rfl, rfl, rfl, rfl⟩
  · refine ⟨_, exec_managerLost hr hl, ?_⟩
    beta_reduce
    rw [State.postAll_ep, State.postAll_tcb, State.postAll_ctxs, State.postAll_panel, State.postAll_ports]
    exact ⟨rfl, Nat.le_max_right .., rfl, rfl, rfl⟩
  · have failed : Declares [m.toNat] s (if s.ep.downToward m.toNat then s.declare [m.toNat] none false
        else (s.passTo (s.ep.beats.get m.toNat s.ep.beaconAt + 3000000)).declare [m.toNat] none false) :=
      ite_holds (Declares [m.toNat] s) (State.declare_declares ..) ((State.declare_declares ..).of_ep rfl)
    have named : m.toNat ∈ [m.toNat] := List.mem_singleton_self _
    exact ⟨_, exec_moduleFailed hr hi hf ho, failed.failed _ (.inl named), failed.idle _ named⟩
  · exact ⟨_, exec_faultReport_worker hr, rfl⟩
  · obtain ⟨ep, ctxs, panel, mg⟩ := s.noteReport_spec m.toNat code.toNat cls.toNat c.toNat source.toNat arg0.toNat arg1.toNat
    have class2 : ¬(cls.toNat = 2) := fun e => hcls (BitVec.eq_of_toNat_eq e)
    refine ⟨_, exec_faultReport hr hc, ?_⟩
    have untold : ¬(cls = 2 ∧ managerFaults.contains code.toNat = false) := fun h => hcls h.1
    rw [if_neg ho, if_neg untold]
    rw [if_neg class2] at mg
    refine ⟨mg, ctxs, panel, ep.trans ?_⟩
    have downs : (code.toNat = 0x0A01) ↔ code = 0x0A01#16 := ⟨fun e => BitVec.eq_of_toNat_eq e, fun e => by rw [e]; rfl⟩
    simp only [downs]
  · obtain ⟨ep, ctxs, -⟩ := s.noteReport_spec m.toNat code.toNat cls.toNat c.toNat source.toNat arg0.toNat arg1.toNat
    refine ⟨_, exec_faultReport hr hc, ?_⟩
    have told : cls = 2 ∧ managerFaults.contains code.toNat = false := ⟨hcls, hm⟩
    rw [if_pos told]
    split
    · exact State.tellMembers_spec code.toNat hj
    · exact State.tellMembers_noted code.toNat hj (by rw [ep]) ctxs
  · exact ⟨_, exec_memberFault_noJob c m v hj, rfl⟩
  · exact ⟨_, exec_memberFault_member c m code hj, State.ctxFault_hits hst ..⟩
  · exact ⟨_, exec_memberFault_manager c m a b hj hc, State.ctxFault_hits hst ..⟩
  · subst hc
    exact ⟨_, exec_memberFault_budget c m a b hj, State.ctx_modCtx_self .., fun k hk => State.ctx_modCtx_ne _ hk _, rfl⟩
  · exact ⟨_, exec_tableChange_some c hr, State.takeChange_waits s hat⟩
  · refine ⟨_, exec_tableChange_none hr hch, ?_⟩
    obtain ⟨tcb, panel, ctxs, changes, tables, pips⟩ := (State.passTo { s with ep := { s.ep with changes := cs } } c.at_).applyChange_spec h0 hf he
    refine ⟨changes, ?_, panel, ctxs, tables, pips⟩
    rw [tcb]
    exact Nat.le_max_right ..

end Sys2Proof.Machine
end

section
/-! Bundles that issue (R47 to R54): the answer of a slot command, and what its SC slot leaves in the core. -/
namespace Sys2Proof.Machine

open Sys2Proof

/-- Settles O3: a slot command runs its bundle, and a bundle that issues does so in the cycle of `issueCore`. -/
theorem slotCommandIssuesItsBundle : Obligations.SlotCommandIssuesItsBundle :=
  fun _ _ _ s hi hx h => (exec_slot hi s).trans (runBundle_issues hx h)

/-- A slot command whose bundle issues answers the state in which it has issued. -/
theorem answers_issues {cmd : Instr} {x : CoreId} {b : Bundle} {s : State} {P : State → Prop} (hc : slotOf cmd = some (x, b))
    (hx : inArray x = true) (h : Issues s (coreIdx x) b = true)
    (hp : P (issueNow s (s.ownerOf (coreIdx x)) (coreIdx x) (s.issueCore (coreIdx x) b) b)) : Answers cmd s P :=
  ⟨_, slotCommandIssuesItsBundle cmd x b s hc hx h, hp⟩

/-! ## Counters and comparators (R50) -/

theorem Core.ctr_setCtr (c : Core) (n : Nat) (v : BitVec 32) (m : Nat) : (c.setCtr n v).ctr m = if n = m then v else c.ctr m :=
  Table.get_put ..

@[simp] theorem State.issueCore_ctr (s : State) (i : Nat) (b : Bundle) (n : Nat) : (s.issueCore i b).ctr n = (s.core i).ctr n :=
  congrArg (·.get n 0) (State.issueCore_ctrs s i b)

@[simp] theorem State.issueCore_cmp (s : State) (i : Nat) (b : Bundle) (n : Nat) : (s.issueCore i b).cmp n = (s.core i).cmp n :=
  congrArg (·.get n {}) (State.issueCore_cmps s i b)

section
variable (s : State) (c0 : Core) (b : Bundle)

@[simp] theorem issuedCore_bidx : (issuedCore s c0 b).bidx = scNext c0 b.sc := rfl

theorem issuedCore_ctrs : (issuedCore s c0 b).ctrs = (scApply c0 c0 b.sc).ctrs := by
  cases h : b.sc <;> simp [issuedCore, h, scApply, Core.setCtr]

theorem issuedCore_cmps : (issuedCore s c0 b).cmps = (scApply c0 c0 b.sc).cmps := by
  cases h : b.sc <;> simp [issuedCore, h, scApply, Core.setCtr]

theorem issuedCore_stopped : (issuedCore s c0 b).stopped = (scApply c0 c0 b.sc).stopped := by
  cases h : b.sc <;> simp [issuedCore, h, scApply, Core.setCtr]

theorem issuedCore_ctr (n : Nat) : (issuedCore s c0 b).ctr n = (scApply c0 c0 b.sc).ctr n :=
  congrArg (·.get n 0) (issuedCore_ctrs s c0 b)

theorem issuedCore_cmp (n : Nat) : (issuedCore s c0 b).cmp n = (scApply c0 c0 b.sc).cmp n :=
  congrArg (·.get n {}) (issuedCore_cmps s c0 b)

end

/-- Settles O4: each of the three commands is one put into the counters or the comparators of the core. -/
theorem counterCommandsWriteOneCounter : Obligations.CounterCommandsWriteOneCounter := by
  intro s x rest hx
  refine ⟨fun k hi imm h => answers_issues rfl hx h ?_, fun k d h => answers_issues rfl hx h ?_,
    fun k n cond lim h => answers_issues rfl hx h ?_⟩ <;>
    simp only [issueNow_core_self, issuedCore_ctr, issuedCore_cmp, issuedCore_ctrs, issuedCore_cmps, issuedCore_bidx, scApply, scNext]
  · refine ⟨?_, fun n hn => ?_, State.issueCore_cmps .., ?_⟩
    · simp [Core.ctr_setCtr]
    · simp [Core.ctr_setCtr, Ne.symm hn]
    · simp
  · refine ⟨?_, fun n hn => ?_, State.issueCore_cmps .., ?_⟩
    · simp [Core.ctr_setCtr]
    · simp [Core.ctr_setCtr, Ne.symm hn]
    · simp
  · refine ⟨Table.get_put_self .., fun m hm => ?_, State.issueCore_ctrs .., ?_⟩
    · exact (Table.get_put_ne _ hm ..).trans (State.issueCore_cmp ..)
    · simp

/-- A core that has met STOP issues nothing more (R52). -/
theorem runBundle_stopped {x : CoreId} {s : State} (hx : inArray x = true) (h : (s.core (coreIdx x)).stopped = true) (b : Bundle) :
    runBundle x b s = .next s := by
  have dead : s.coreLive (coreIdx x) = false := by
    simp only [State.coreLive, h]
    split <;> simp
  simp [runBundle, atCore, hx, tryIssue, dead]

/-- Settles O5: the three commands change no counter and no comparator, and a stopped core does not issue. -/
theorem branchCommandsNameTheNextBundle : Obligations.BranchCommandsNameTheNextBundle := by
  intro s x rest hx
  refine ⟨fun target h => answers_issues rfl hx h ?_, fun k sense target h => answers_issues rfl hx h ?_,
    fun h => answers_issues rfl hx h ?_⟩ <;>
    simp only [issueNow_core_self, issuedCore_ctrs, issuedCore_cmps, issuedCore_bidx, issuedCore_stopped, scApply, scNext]
  · exact ⟨trivial, State.issueCore_ctrs .., State.issueCore_cmps ..⟩
  · exact ⟨by simp [Core.kval], State.issueCore_ctrs .., State.issueCore_cmps ..⟩
  · refine ⟨trivial, State.issueCore_ctrs .., State.issueCore_cmps .., fun b => runBundle_stopped hx ?_ b⟩
    simp [issueNow_core_self, issuedCore_stopped, scApply]

/-! ## WAITCY (R54) -/

/-- No bundle is tested before the earliest cycle that a WAITCY has set. -/
theorem State.earliest_le_waitedCore (s : State) (i : Nat) (b : Bundle) : (s.core i).earliest ≤ (s.waitedCore i b).cyc := by
  have h : (s.waitedCore i b).cyc = (s.core i).cyc + ((s.core i).earliest - (s.core i).cyc) := by
    rw [State.waitedCore, sendWatch_frame]
    rfl
  omega

/-- Settles O7: the SY slot sets the earliest cycle, and no bundle is tested before it. -/
theorem waitcySetsTheEarliestCycle : Obligations.WaitcySetsTheEarliestCycle := by
  intro s x n rest hx i b h
  have set : ((issueNow s (s.ownerOf i) i (s.issueCore i b) b).core i).earliest = (s.issueCore i b).cyc + n.toNat + 1 := by
    rw [issueNow_core_self]
    simp [issuedCore, b, syApply]
  exact answers_issues rfl hx h ⟨set, fun b' => set.symm.le.trans (State.earliest_le_waitedCore ..)⟩

end Sys2Proof.Machine
end

section
/-! What a bundle that issues changes outside its core, and LOOP beside an empty SC slot (R48, R51). -/
namespace Sys2Proof.Machine

open Sys2Proof

/-! ## Numbers of the ST stream and of the SY operation -/

/-- The number that the ST slot's stream takes: the one after the LD slot's. -/
def stId (c0 : Core) (b : Bundle) : Nat := (lsApply c0 c0 false b.ld).nextId

/-- The number that an EXPECT or ATTEND takes: the one after both streams'. -/
def syId (c0 : Core) (b : Bundle) : Nat := (lsApply c0 (lsApply c0 c0 false b.ld) true b.st).nextId

theorem lsApply_nextId (c0 c : Core) (st : Bool) (op : LsOp) :
    (lsApply c0 c st op).nextId = c.nextId + if op matches .go _ _ then 1 else 0 := by
  cases op <;> rfl

/-- What the LD, ST and SY slots change outside the core, on a state that already holds the core after the bundle. -/
def State.issueOut (s : State) (x i : Nat) (c0 : Core) (b : Bundle) : State :=
  syPost x i c0 (syId c0 b) b.sy (lsPost x i c0 (stId c0 b) b.st (lsPost x i c0 c0.nextId b.ld s))

theorem issueNow_eq (s : State) (x i : Nat) (c0 : Core) (b : Bundle) :
    issueNow s x i c0 b = (s.setCore i (issuedCore s c0 b)).issueOut x i c0 b := by
  have first (c : Core) (h : c.nextId = c0.nextId) : (lsApply c0 c false b.ld).nextId = stId c0 b := by
    rw [stId, lsApply_nextId, lsApply_nextId, h]
  have second (c : Core) (h : c.nextId = stId c0 b) : (lsApply c0 c true b.st).nextId = syId c0 b := by
    rw [syId, lsApply_nextId, lsApply_nextId, h, stId]
  have base : (mxApply c0 (veApply c0 (scApply c0 (tickLatch (timing s.ident.lattab.toNat c0 c0 b) b.sy) b.sc) b.ve) b.mx).nextId =
      c0.nextId := by simp
  simp only [issueNow, State.issueOut, base, first _ base, second _ (first _ base)]
  rfl

/-! ## Entries of the ports (R119, R141) -/

/-- Which entry of a port a core reaches is settled at the start. -/
theorem State.portEntry_congr {s t : State} (h : t.mg.startMap = s.mg.startMap) (i p : Nat) : t.portEntry i p = s.portEntry i p := by
  have reach : t.reachable = s.reachable := by
    funext a b
    simp only [State.reachable, State.xFirst, State.yFirst, State.startWithdrawn, h]
  simp only [State.portEntry, reach, h]

theorem State.ctxFault_startMap (s : State) (c code source arg0 arg1 : Nat) :
    (s.ctxFault c code source arg0 arg1).mg.startMap = s.mg.startMap := by
  have told : (s.tellFault c code source arg0 arg1).mg.startMap = s.mg.startMap := by
    simp only [State.tellFault, State.logFault, State.logAs, State.post_mg]
    split <;> rfl
  simp only [State.ctxFault]
  split <;> simp [told]

/-! ## What a stream can do outside its core as it issues -/

/-- The steps of a stream outside its core: none, a packet posted on a pair, a fault of its context, a read request on the mesh, or
messages handed to the Epfin interface. -/
inductive StreamPosts (x i : Nat) (s : State) : State → Prop
  | none : StreamPosts x i s s
  | posted (r : StreamRec) : StreamPosts x i s (postPacket x i r s)
  | fault (code source arg0 arg1 : Nat) : StreamPosts x i s (s.ctxFault x code source arg0 arg1)
  | injected (p : MeshPacket) : StreamPosts x i s (s.inject p)
  | remote (e : Epfin) : StreamPosts x i s { s with ep := e }

/-- A fold whose every step changes only the Epfin block changes only that. -/
theorem foldl_ep_frame {α : Type} (f : State → α → State) (hf : ∀ t a, f t a = { t with ep := (f t a).ep }) (l : List α) (s : State) :
    l.foldl f s = { s with ep := (l.foldl f s).ep } :=
  List.foldlRecOn (motive := fun t : State => t = { s with ep := t.ep }) l f rfl fun t ht a _ => by rw [hf t a, ht]

theorem State.sendRead_streamPosts (s : State) (x i : Nat) (r : StreamRec) : StreamPosts x i s (s.sendRead x i r) := by
  unfold State.sendRead
  dsimp only
  split
  · split
    · exact .fault ..
    · exact .injected _
  · split
    · exact .fault ..
    · rw [foldl_ep_frame _ (fun t a => rfl)]
      exact .remote _
  · exact .fault ..
  · exact .fault ..

section
variable (x i : Nat) (c0 : Core) (id : Nat) (s : State)

theorem lsPost_posts {o : StreamOp} {f : StreamFields} (hq : o.queue = true) (he : (s.portEntry i (dPort (c0.streamDesc f))).isSome = true) :
    lsPost x i c0 id (.go o f) s = postPacket x i (mkStream c0 id o f) s := by
  obtain ⟨p, hp⟩ := Option.isSome_iff_exists.mp he
  simp only [lsPost, hq, if_true, sendPacket, mkStream, hp]

theorem lsPost_unreached {o : StreamOp} {f : StreamFields} (hq : o.queue = true) (he : s.portEntry i (dPort (c0.streamDesc f)) = none) :
    ∃ arg0, lsPost x i c0 id (.go o f) s = s.ctxFault x 0x0501 (srcCore i) arg0 0 := by
  simp only [lsPost, hq, if_true, sendPacket, mkStream, he]
  exact ⟨_, rfl⟩

theorem lsPost_rread (f : StreamFields) : lsPost x i c0 id (.go .rread f) s = s.sendRead x i (mkStream c0 id .rread f) := rfl

theorem lsPost_local {o : StreamOp} (hq : o.queue = false) (hr : o ≠ .rread) (f : StreamFields) : lsPost x i c0 id (.go o f) s = s := by
  simp [lsPost, hq, hr]

theorem lsPost_streamPosts (op : LsOp) : StreamPosts x i s (lsPost x i c0 id op s) := by
  cases op with
  | nop => exact .none
  | reserved => exact .none
  | go o f =>
    cases hq : o.queue with
    | true =>
      cases he : s.portEntry i (dPort (c0.streamDesc f)) with
      | some p =>
        rw [lsPost_posts x i c0 id s hq (Option.isSome_of_eq_some he)]
        exact .posted _
      | none =>
        obtain ⟨a, h⟩ := lsPost_unreached x i c0 id s hq he
        rw [h]
        exact .fault ..
    | false =>
      by_cases hr : o = .rread
      · subst hr
        exact s.sendRead_streamPosts ..
      · rw [lsPost_local x i c0 id s hq hr]
        exact .none

end

section
variable {x i : Nat} {s t : State} (h : StreamPosts x i s t)
include h

theorem StreamPosts.startMap : t.mg.startMap = s.mg.startMap := by
  cases h with
  | fault => exact State.ctxFault_startMap ..
  | _ => rfl

end

/-- The ports after a stream has issued depend on the ports and the entries alone. -/
theorem lsPost_ports_congr {s t : State} (hp : t.ports = s.ports) (hm : t.mg.startMap = s.mg.startMap) (x i : Nat) (c0 : Core) (id : Nat)
    (op : LsOp) : (lsPost x i c0 id op t).ports = (lsPost x i c0 id op s).ports := by
  cases op with
  | nop => exact hp
  | reserved => exact hp
  | go o f =>
    cases hq : o.queue with
    | true =>
      have entry := State.portEntry_congr hm i (dPort (c0.streamDesc f))
      cases he : s.portEntry i (dPort (c0.streamDesc f)) with
      | some p =>
        rw [lsPost_posts x i c0 id s hq (Option.isSome_of_eq_some he), lsPost_posts x i c0 id t hq (Option.isSome_of_eq_some (entry.trans he))]
        exact congrArg (fun ps => (postPacket x i (mkStream c0 id o f) { s with ports := ps }).ports) hp
      | none =>
        obtain ⟨a, hs⟩ := lsPost_unreached x i c0 id s hq he
        obtain ⟨b, ht⟩ := lsPost_unreached x i c0 id t hq (entry.trans he)
        rw [hs, ht, State.ctxFault_ports, State.ctxFault_ports, hp]
    | false =>
      by_cases hr : o = .rread
      · subst hr
        obtain ⟨-, -, -, ps⟩ := State.sendRead_keeps s x i (mkStream c0 id .rread f)
        obtain ⟨-, -, -, pt⟩ := State.sendRead_keeps t x i (mkStream c0 id .rread f)
        rw [lsPost_rread, lsPost_rread, ps, pt, hp]
      · rw [lsPost_local x i c0 id s hq hr, lsPost_local x i c0 id t hq hr, hp]

@[simp] theorem syPost_ports (x i : Nat) (c0 : Core) (id : Nat) (op : SyOp) (s : State) : (syPost x i c0 id op s).ports = s.ports := by
  cases op <;> rfl

/-- The ports after a bundle has issued do not depend on what it left in its core. -/
theorem State.issueOut_ports_setCore (s : State) (x i : Nat) (c0 c d : Core) (b : Bundle) :
    ((s.setCore i c).issueOut x i c0 b).ports = ((s.setCore i d).issueOut x i c0 b).ports := by
  simp only [State.issueOut, syPost_ports]
  have first := lsPost_ports_congr (s := s.setCore i d) (t := s.setCore i c) rfl rfl x i c0 c0.nextId b.ld
  refine lsPost_ports_congr first ?_ ..
  rw [(lsPost_streamPosts ..).startMap, (lsPost_streamPosts ..).startMap]
  rfl

theorem syPost_seqs_congr {s t : State} (h : t.panel.seqs = s.panel.seqs) (x i : Nat) (c0 : Core) (id : Nat) (op : SyOp) :
    (syPost x i c0 id op t).panel.seqs = (syPost x i c0 id op s).panel.seqs := by
  cases op <;> simp only [syPost, h]

theorem State.issueOut_seqs_setCore (s : State) (x i : Nat) (c0 c d : Core) (b : Bundle) :
    ((s.setCore i c).issueOut x i c0 b).panel.seqs = ((s.setCore i d).issueOut x i c0 b).panel.seqs := by
  refine syPost_seqs_congr ?_ ..
  simp only [(lsPost_keeps ..).2.2]
  rfl

/-! ## The slots commute with a change of the counters -/

/-- The core with other counters. -/
def Core.withCtrs (c : Core) (t : Table (BitVec 32)) : Core := { c with ctrs := t }

section
variable (c0 c : Core) (t : Table (BitVec 32))

theorem Core.putLanes_withCtrs (ls : List (Nat × BitVec 32)) : (c.withCtrs t).putLanes ls = (c.putLanes ls).withCtrs t := rfl
theorem Core.putVlanes_withCtrs (v : Nat) (ls : List (Nat × BitVec 32)) :
    (c.withCtrs t).putVlanes v ls = (c.putVlanes v ls).withCtrs t := rfl
theorem Core.setVlane_withCtrs (v n : Nat) (w : BitVec 32) : (c.withCtrs t).setVlane v n w = (c.setVlane v n w).withCtrs t := rfl
theorem Core.raise_withCtrs (f : BitVec 5) : (c.withCtrs t).raise f = (c.raise f).withCtrs t := rfl
theorem Core.writeBytes_withCtrs (a : Nat) (bs : List Byte) : (c.withCtrs t).writeBytes a bs = (c.writeBytes a bs).withCtrs t := rfl

theorem foldl_withCtrs {α : Type} {f : Core → α → Core} (hf : ∀ k a, f (k.withCtrs t) a = (f k a).withCtrs t) (l : List α) :
    l.foldl f (c.withCtrs t) = (l.foldl f c).withCtrs t :=
  List.foldl_hom (Core.withCtrs · t) hf

theorem veApply_withCtrs (op : VeOp) : veApply c0 (c.withCtrs t) op = (veApply c0 c op).withCtrs t := by
  cases op with
  | vstt f => exact foldl_withCtrs c t (fun k p => k.writeBytes_withCtrs t ..) _
  | vsmax r v w =>
    simp only [veApply]
    refine foldl_withCtrs c t (fun k r => ?_) _
    simp only [Core.setVlane_withCtrs, Core.putLanes_withCtrs, Core.raise_withCtrs]
  | vssum r v w =>
    simp only [veApply]
    refine foldl_withCtrs c t (fun k r => ?_) _
    simp only [Core.setVlane_withCtrs, Core.raise_withCtrs]
  | vacc r a clr => cases clr <;> simp only [veApply, Core.putLanes, Core.withCtrs, if_true, Bool.false_eq_true, if_false]
  | vmovv r v sub =>
    simp only [veApply]
    split <;> rfl
  | va o f => simp only [veApply, Core.putLanes_withCtrs, Core.raise_withCtrs]
  | vred col r v sub => simp only [veApply, Core.putVlanes_withCtrs, Core.raise_withCtrs]
  | _ => rfl

theorem mxApply_withCtrs (op : MxOp) : mxApply c0 (c.withCtrs t) op = (mxApply c0 c op).withCtrs t := by
  cases op <;> simp only [mxApply, Core.raise, Core.withCtrs]

theorem lsApply_withCtrs (st : Bool) (op : LsOp) : lsApply c0 (c.withCtrs t) st op = (lsApply c0 c st op).withCtrs t := by
  cases op <;> rfl

theorem syApply_withCtrs (op : SyOp) : syApply c0 (c.withCtrs t) op = (syApply c0 c op).withCtrs t := by
  cases op <;> rfl

theorem Core.correct_withCtrs (a n : Nat) : (c.withCtrs t).correct a n = (c.correct a n).withCtrs t := by
  simp only [Core.correct, Core.withCtrs]
  split
  next h => simp only [h, if_true]
  next h => simp only [h, Bool.false_eq_true, if_false]

theorem Core.overwritten_withCtrs (a n : Nat) : (c.withCtrs t).overwritten a n = (c.overwritten a n).withCtrs t := by
  have marks : ((c.withCtrs t).eccSingle.isEmpty && (c.withCtrs t).eccDouble.isEmpty) = (c.eccSingle.isEmpty && c.eccDouble.isEmpty) := rfl
  simp only [Core.overwritten, marks]
  split
  · rfl
  · rw [← Core.correct_withCtrs]
    rfl

theorem Core.eccAfter_withCtrs (b : Bundle) : (c.withCtrs t).eccAfter c0 b = (c.eccAfter c0 b).withCtrs t := by
  simp only [Core.eccAfter]
  rw [show (c.withCtrs t).eccSingle = c.eccSingle from rfl, show (c.withCtrs t).eccDouble = c.eccDouble from rfl]
  split
  · rfl
  · rw [List.foldl_hom (Core.withCtrs · t) (fun k r => Core.correct_withCtrs k t r.1 r.2),
      List.foldl_hom (Core.withCtrs · t) (fun k r => Core.overwritten_withCtrs k t r.1 r.2)]

end

/-- A LOOP leaves in its core what an empty SC slot leaves there, but for the counters and the next bundle (R51). -/
theorem issuedCore_loop (s : State) (c0 : Core) (rest : Bundle) (n : BitVec 3) (k : BitVec 2) (d : BitVec 8) (target : BitVec 10) :
    issuedCore s c0 { rest with sc := .loop n k d target } =
      { issuedCore s c0 { rest with sc := .nop } with
        ctrs := (issuedCore s c0 { rest with sc := .loop n k d target }).ctrs
        bidx := (issuedCore s c0 { rest with sc := .loop n k d target }).bidx } := by
  have counted (c : Core) : scApply c0 c (.loop n k d target) = c.withCtrs (c.ctrs.put n.toNat (c0.ctr n.toNat + d.signExtend 32)) := rfl
  simp only [issuedCore, counted, veApply_withCtrs, mxApply_withCtrs, lsApply_withCtrs, syApply_withCtrs, Core.eccAfter_withCtrs]
  rfl

/-- Settles O6: LOOP puts the incremented counter, and everything else is as beside an empty SC slot. -/
theorem loopTestsTheIncrementedCounter : Obligations.LoopTestsTheIncrementedCounter := by
  intro s x rest n k d target hx
  dsimp only
  intro h
  refine answers_issues rfl hx h ?_
  simp only [issueNow_core_self]
  refine ⟨?_, fun m hm => ?_, ?_, ?_, issuedCore_loop .., ?_, ?_⟩
  · simp [issuedCore_ctr, scApply, Core.ctr_setCtr]
  · simp [issuedCore_ctr, scApply, Core.ctr_setCtr, Ne.symm hm]
  · exact (issuedCore_cmps ..).trans (State.issueCore_cmps ..)
  · simp [scNext]
  · rw [issueNow_eq, issueNow_eq]
    exact State.issueOut_ports_setCore ..
  · rw [issueNow_eq, issueNow_eq]
    exact State.issueOut_seqs_setCore ..

end Sys2Proof.Machine
end

section
/-! The SY slot of a bundle that issues, and what a TICK latches (R53, R63, R90). -/
namespace Sys2Proof.Machine

open Sys2Proof

theorem issues_iff {s : State} {i : Nat} {b : Bundle} : Issues s i b = true ↔
    s.coreLive i = true ∧ syReady s (s.ownerOf i) i (sendWatch (s.core i) b.sy) b.sy = true ∧
    bundleFault s (s.ownerOf i) i (s.waitedCore i b) b = none ∧ eccHit (s.waitedCore i b) b = none ∧
    stalls s (s.ownerOf i) i (s.issueCore i b) b = false := by
  simp only [Issues, Bool.and_eq_true, Bool.not_eq_true', Option.isNone_iff_eq_none, and_assoc]

/-! ## What the SY slot takes -/

section
variable (s : State) (c0 : Core) (b : Bundle)

theorem issuedCore_pendTicks : (issuedCore s c0 b).pendTicks = (syApply c0 c0 b.sy).pendTicks := by
  cases h : b.sy <;> simp [issuedCore, h, syApply]

theorem issuedCore_waitTick : (issuedCore s c0 b).waitTick = (syApply c0 c0 b.sy).waitTick := by
  cases h : b.sy <;> simp [issuedCore, h, syApply]

theorem issuedCore_qnotes : (issuedCore s c0 b).qnotes = (syApply c0 c0 b.sy).qnotes := by
  cases h : b.sy <;> simp [issuedCore, h, syApply]

theorem issuedCore_unclaimed : (issuedCore s c0 b).unclaimed = (syApply c0 c0 b.sy).unclaimed := by
  cases h : b.sy <;> simp [issuedCore, h, syApply]

theorem issuedCore_watch : (issuedCore s c0 b).watch = (syApply c0 c0 b.sy).watch := by
  cases h : b.sy <;> simp [issuedCore, h, syApply]

theorem issuedCore_earliest : (issuedCore s c0 b).earliest = (syApply c0 c0 b.sy).earliest := by
  cases h : b.sy <;> simp [issuedCore, h, syApply]

/-! ## What a TICK latches -/

theorem issuedCore_latSlip : (issuedCore s c0 b).latSlip = (tickLatch c0 b.sy).latSlip := by
  cases h : b.sy <;> simp [issuedCore, h, tickLatch]

theorem issuedCore_latIdle : (issuedCore s c0 b).latIdle = (tickLatch c0 b.sy).latIdle := by
  cases h : b.sy <;> simp [issuedCore, h, tickLatch]

theorem issuedCore_latFlags : (issuedCore s c0 b).latFlags = (tickLatch c0 b.sy).latFlags := by
  cases h : b.sy <;> simp [issuedCore, h, tickLatch]

theorem issuedCore_slip : (issuedCore s c0 b).slip = (tickLatch c0 b.sy).slip := by
  cases h : b.sy <;> simp [issuedCore, h, tickLatch]

theorem issuedCore_idle : (issuedCore s c0 b).idle = (tickLatch c0 b.sy).idle := by
  cases h : b.sy <;> simp [issuedCore, h, tickLatch]

end

/-! ## Flags (R90) -/

/-- From `c` to `k` the same flags are raised in the frame and in the sticky word. -/
def Core.Raises (c k : Core) (f : BitVec 5) : Prop := k.flags = c.flags ||| f ∧ k.sticky = c.sticky ||| f

theorem Core.Raises.of_same {c k : Core} (hf : k.flags = c.flags) (hs : k.sticky = c.sticky) : c.Raises k 0 := by
  simp [Core.Raises, hf, hs]

theorem Core.Raises.trans {c k l : Core} {f g : BitVec 5} (h : c.Raises k f) (h' : k.Raises l g) : c.Raises l (f ||| g) := by
  obtain ⟨hf, hs⟩ := h
  obtain ⟨hf', hs'⟩ := h'
  exact ⟨by rw [hf', hf, BitVec.or_assoc], by rw [hs', hs, BitVec.or_assoc]⟩

theorem Core.foldl_raises {α : Type} {f : Core → α → Core} (hf : ∀ (k : Core) (a : α), ∃ g, k.Raises (f k a) g) (l : List α) (c : Core) :
    ∃ g, c.Raises (l.foldl f c) g :=
  List.foldlRecOn (motive := fun k => ∃ g, c.Raises k g) l f ⟨0, .of_same rfl rfl⟩ fun k ⟨_, hg⟩ a _ =>
    (hf k a).imp' _ fun _ hg' => hg.trans hg'

theorem veApply_raises (c0 c : Core) (op : VeOp) : ∃ f, c.Raises (veApply c0 c op) f := by
  cases op with
  | va o f => exact ⟨_, rfl, rfl⟩
  | vred col t v sub => exact ⟨_, rfl, rfl⟩
  | vstt f =>
    simp only [veApply]
    exact Core.foldl_raises (fun k p => ⟨0, .of_same (k := k.writeBytes ..) rfl rfl⟩) _ c
  | vsmax t v w => exact Core.foldl_raises (fun k r => ⟨_, rfl, rfl⟩) _ c
  | vssum t v w => exact Core.foldl_raises (fun k r => ⟨_, rfl, rfl⟩) _ c
  | vacc t a clr => exact ⟨0, by cases clr <;> exact .of_same (by simp [veApply, Core.putLanes]) (by simp [veApply, Core.putLanes])⟩
  | vmovv t v sub =>
    refine ⟨0, ?_⟩
    simp only [veApply]
    split <;> exact .of_same rfl rfl
  | _ => exact ⟨0, .of_same rfl rfl⟩

theorem mxApply_raises (c0 c : Core) (op : MxOp) : ∃ f, c.Raises (mxApply c0 c op) f := by
  cases op with
  | mma z m => exact ⟨_, rfl, rfl⟩
  | _ => exact ⟨0, .of_same rfl rfl⟩

/-- The flags that a bundle raises are those of its VE and MX slots, on top of what TICK leaves. -/
theorem issuedCore_raises (s : State) (c0 : Core) (b : Bundle) :
    ∃ f, (tickLatch c0 b.sy).Raises (issuedCore s c0 b) f ∧ (b.ve = .nop → b.mx = .nop → f = 0) := by
  let c2 := scApply c0 (tickLatch (timing s.ident.lattab.toNat c0 c0 b) b.sy) b.sc
  have before : (tickLatch c0 b.sy).Raises c2 0 := .of_same (by cases h : b.sy <;> simp [c2, h, tickLatch]) (by simp [c2])
  have after : (mxApply c0 (veApply c0 c2 b.ve) b.mx).Raises (issuedCore s c0 b) 0 := .of_same (by simp [issuedCore, c2]) (by simp [issuedCore, c2])
  by_cases idle : b.ve = .nop ∧ b.mx = .nop
  · obtain ⟨hv, hm⟩ := idle
    rw [hv, hm] at after
    exact ⟨0 ||| 0, before.trans after, fun _ _ => rfl⟩
  · obtain ⟨f, hf⟩ := veApply_raises c0 c2 b.ve
    obtain ⟨g, hg⟩ := mxApply_raises c0 (veApply c0 c2 b.ve) b.mx
    exact ⟨_, before.trans (hf.trans (hg.trans after)), fun hv hm => absurd ⟨hv, hm⟩ idle⟩

@[simp] theorem takeOne_get_self (t : Table Nat) (k : Nat) : (takeOne t k).get k 0 = t.get k 0 - 1 := Table.get_put_self ..

theorem takeOne_get_ne (t : Table Nat) {k m : Nat} (h : m ≠ k) : (takeOne t k).get m 0 = t.get m 0 := Table.get_put_ne _ h ..

/-- Settles O8: the bundle waited for what its SY slot names, and the SY slot takes it. -/
theorem blockingCommandsTakeWhatTheyWaitFor : Obligations.BlockingCommandsTakeWhatTheyWaitFor := by
  intro s x rest hx
  dsimp only
  refine ⟨fun h => ?_, fun p q h up pair => ?_, fun p q dir ge n h => ?_, fun tag h => ?_, fun k h => ?_, fun h => ?_⟩ <;>
    (refine answers_issues rfl hx h ?_
     obtain ⟨-, ready, -⟩ := issues_iff.mp h
     simp only [issueNow_core_self, issuedCore_pendTicks, issuedCore_waitTick, issuedCore_qnotes, issuedCore_unclaimed, issuedCore_watch,
       issuedCore_latSlip, issuedCore_latIdle, issuedCore_latFlags, issuedCore_slip, issuedCore_idle, syApply, tickLatch,
       State.issueCore_pendTicks, State.issueCore_idle, State.issueCore_flags, State.issueCore_qnotes, State.issueCore_unclaimed]
     simp only [syReady, sendWatch, Bool.and_eq_true] at ready)
  · obtain ⟨⟨pending, -⟩, -⟩ := ready
    obtain ⟨f, ⟨hf, hs⟩, hn⟩ := issuedCore_raises s (s.issueCore (coreIdx x) { rest with sy := .tick }) { rest with sy := .tick }
    refine ⟨of_decide_eq_true pending, trivial, trivial, trivial, trivial, trivial, trivial, trivial, ⟨f, ?_, ?_, hn⟩, trivial, trivial⟩
    · rw [hf]
      exact BitVec.zero_or
    · rw [hs, tickLatch_sticky, State.issueCore_sticky]
  · simp only [up, pair, Bool.not_true, Bool.or_false] at ready
    exact ⟨of_decide_eq_true ready, takeOne_get_self .., fun m hm => takeOne_get_ne _ hm, trivial, trivial⟩
  · exact ⟨trivial, trivial, trivial, trivial⟩
  · exact ⟨of_decide_eq_true ready, takeOne_get_self .., fun m hm => takeOne_get_ne _ hm, trivial, trivial⟩
  · exact ⟨by simpa using ready, trivial, trivial, trivial⟩
  · exact ⟨List.isEmpty_iff.mp ready.1, List.isEmpty_iff.mp ready.2, trivial, trivial, trivial⟩

end Sys2Proof.Machine
end

section
/-! Cycles in which a live core does not issue: waits, faults at issue and slips (R63, R68, Table 3.12). -/
namespace Sys2Proof.Machine

open Sys2Proof

/-! ## What a slot command does that does not issue -/

section
variable {x : CoreId} {b : Bundle} {s : State} (hx : inArray x = true) (live : s.coreLive (coreIdx x) = true)
include hx live

/-- The condition of the SY slot does not hold: a wait cycle passes (R53, R63). -/
theorem runBundle_waits (h : syReady s (s.ownerOf (coreIdx x)) (coreIdx x) (sendWatch (s.core (coreIdx x)) b.sy) b.sy = false) :
    runBundle x b s = .next (s.setCore (coreIdx x) ((sendWatch (s.core (coreIdx x)) b.sy).waitOne b)) := by
  unfold State.ownerOf at h
  simp [runBundle, atCore, hx, tryIssue, live, h]

variable (ready : syReady s (s.ownerOf (coreIdx x)) (coreIdx x) (sendWatch (s.core (coreIdx x)) b.sy) b.sy = true)
include ready

/-- The bundle's own waits are over: it is tested, waits for the hazards with a known end, and stalls or issues (R62, R68, R112). -/
theorem runBundle_ready : runBundle x b s = .next (
    match bundleFault s (s.ownerOf (coreIdx x)) (coreIdx x) (s.waitedCore (coreIdx x) b) b with
    | some f => (s.setCore (coreIdx x) (s.waitedCore (coreIdx x) b)).coreFault (coreIdx x) f.1 f.2.1 f.2.2
    | none =>
      match eccHit (s.waitedCore (coreIdx x) b) b with
      | some e => (s.setCore (coreIdx x) (s.waitedCore (coreIdx x) b)).dataFault (coreIdx x) (0x0207, e.1, e.2)
      | none =>
        if stalls s (s.ownerOf (coreIdx x)) (coreIdx x) (s.issueCore (coreIdx x) b) b then
          s.setCore (coreIdx x) ((s.issueCore (coreIdx x) b).stallOne b)
        else issueNow s (s.ownerOf (coreIdx x)) (coreIdx x) (s.issueCore (coreIdx x) b) b) := by
  unfold State.ownerOf at ready
  simp only [runBundle, atCore, hx, if_true, tryIssue, live, ready, Bool.not_true, Bool.false_eq_true, if_false, Bool.false_and]
  rfl

/-- The bundle's waits are over, and it meets a condition found at issue (R68). -/
theorem runBundle_faults {f : IFault} (h : bundleFault s (s.ownerOf (coreIdx x)) (coreIdx x) (s.waitedCore (coreIdx x) b) b = some f) :
    runBundle x b s =
      .next ((s.setCore (coreIdx x) (s.waitedCore (coreIdx x) b)).coreFault (coreIdx x) f.1 f.2.1 f.2.2) := by
  simp only [runBundle_ready hx live ready, h]

/-- The bundle has passed its tests and meets a hazard without a known end (R62). -/
theorem runBundle_stalls (hf : bundleFault s (s.ownerOf (coreIdx x)) (coreIdx x) (s.waitedCore (coreIdx x) b) b = none)
    (he : eccHit (s.waitedCore (coreIdx x) b) b = none)
    (hs : stalls s (s.ownerOf (coreIdx x)) (coreIdx x) (s.issueCore (coreIdx x) b) b = true) :
    runBundle x b s = .next (s.setCore (coreIdx x) ((s.issueCore (coreIdx x) b).stallOne b)) := by
  simp only [runBundle_ready hx live ready, hf, he, hs, if_true]

end

theorem bundleFault_untested {s : State} {x i : Nat} {c : Core} {b : Bundle} (h : c.tested ≠ some b) :
    bundleFault s x i c b = issueFault s x i c b := if_neg h

/-! ## Waiting changes the clock, the phase and the watch only -/

theorem State.waitedCore_frame (s : State) (i : Nat) (b : Bundle) :
    s.waitedCore i b = { s.core i with cyc := (s.waitedCore i b).cyc, phase := (s.waitedCore i b).phase, watch := (s.waitedCore i b).watch } := by
  simp only [State.waitedCore]
  rw [sendWatch_frame]
  rfl

@[simp] theorem State.waitedCore_owner (s : State) (i : Nat) (b : Bundle) : (s.waitedCore i b).owner = (s.core i).owner := by
  rw [State.waitedCore_frame]
@[simp] theorem State.waitedCore_tested (s : State) (i : Nat) (b : Bundle) : (s.waitedCore i b).tested = (s.core i).tested := by
  rw [State.waitedCore_frame]
@[simp] theorem State.waitedCore_bidx (s : State) (i : Nat) (b : Bundle) : (s.waitedCore i b).bidx = (s.core i).bidx := by
  rw [State.waitedCore_frame]
@[simp] theorem State.waitedCore_slipTotal (s : State) (i : Nat) (b : Bundle) : (s.waitedCore i b).slipTotal = (s.core i).slipTotal := by
  rw [State.waitedCore_frame]

/-! ## A live core's context -/

theorem State.coreLive_owner {s : State} {i : Nat} (h : s.coreLive i = true) :
    (s.core i).owner = some (s.ownerOf i) ∧ (s.ctx (s.ownerOf i)).st = .running := by
  simp only [State.coreLive] at h
  split at h
  next c hc =>
    simp only [Bool.and_eq_true] at h
    obtain ⟨⟨⟨⟨running, -⟩, -⟩, -⟩, -⟩ := h
    have owner : s.ownerOf i = c := by rw [State.ownerOf, hc]; rfl
    exact ⟨owner ▸ hc, owner ▸ of_decide_eq_true running⟩
  · cases h

theorem State.coreLive_false {s : State} {i c : Nat} (ho : (s.core i).owner = some c) (hs : (s.ctx c).st ≠ .running) :
    s.coreLive i = false := by
  simp [State.coreLive, ho, hs]

/-! ## The fault of a bundle -/

/-- What a fault at issue leaves: the context is FAULTED, the core stands where its waits ended, and nothing else of the panel, the
ports or the other contexts changes (R68, R306). -/
structure FaultedAtIssue (s t : State) (i code : Nat) (b : Bundle) : Prop where
  ctx : t.ctx (s.ownerOf i) = (s.ctx (s.ownerOf i)).faulted code
  others : ∀ d, d ≠ s.ownerOf i → t.ctx d = s.ctx d
  panel : t.panel = (s.setCore i (s.waitedCore i b)).panel
  ports : t.ports = s.ports

theorem FaultedAtIssue.core {s t : State} {i code : Nat} {b : Bundle} (h : FaultedAtIssue s t i code b) (j : Nat) :
    t.core j = if i = j then s.waitedCore i b else s.core j := by
  rw [← State.core_setCore]
  simp only [State.core, State.blankCore, h.panel]

theorem State.coreFault_eq {s : State} {i : Nat} (live : s.coreLive i = true) (b : Bundle) (code arg0 arg1 : Nat) :
    (s.setCore i (s.waitedCore i b)).coreFault i code arg0 arg1 =
      (s.setCore i (s.waitedCore i b)).ctxFault (s.ownerOf i) code (srcCore i) arg0 arg1 := by
  simp only [State.coreFault, State.core_setCore_self, State.waitedCore_owner, (State.coreLive_owner live).1]

theorem State.coreFault_faultedAtIssue {s : State} {i : Nat} (live : s.coreLive i = true) (b : Bundle) (code arg0 arg1 : Nat) :
    FaultedAtIssue s ((s.setCore i (s.waitedCore i b)).coreFault i code arg0 arg1) i code b := by
  have running : ((s.setCore i (s.waitedCore i b)).ctx (s.ownerOf i)).mayFault := .inr (.inl (State.coreLive_owner live).2)
  rw [State.coreFault_eq live]
  constructor
  · rw [State.ctxFault_ctx_live running, State.ctx_setCore]
  · intro d hd
    rw [State.ctxFault_ctx_ne _ hd, State.ctx_setCore]
  · rw [State.ctxFault_panel]
  · rw [State.ctxFault_ports, State.setCore_ports]

/-- Settles O17: the fault is that of the bundle's tests, and the core has done nothing but wait. -/
theorem faultAtIssueLeavesEverySlotUndone : Obligations.FaultAtIssueLeavesEverySlotUndone := by
  intro cmd x b s code a0 a1 hc hx
  dsimp only
  intro live ready untested fault
  have found : bundleFault s (s.ownerOf (coreIdx x)) (coreIdx x) (s.waitedCore (coreIdx x) b) b = some (code, a0, a1) :=
    (bundleFault_untested (by simpa using untested)).trans fault
  refine ⟨fun k hk => ?_, _, (exec_slot hc s).trans (runBundle_faults hx live ready found), ?_⟩
  · simp only [issueFault, hk, Option.some.injEq, Prod.mk.injEq, State.waitedCore_bidx] at fault
    obtain ⟨rfl, rfl, rfl⟩ := fault
    exact ⟨rfl, rfl, rfl⟩
  · have after := State.coreFault_faultedAtIssue live b code a0 a1
    exact ⟨congrArg Context.st after.ctx, congrArg Context.fault after.ctx, (after.core _).trans (if_pos rfl),
      fun j hj => (after.core j).trans (if_neg (Ne.symm hj)), after.ports, after.panel, after.others⟩

/-! ## TRAP and its log entry (R304) -/

theorem State.ctxFault_mg (s : State) (c code source arg0 arg1 : Nat) :
    (s.ctxFault c code source arg0 arg1).mg = (s.logFault code 2 c source arg0 arg1).mg := by
  have told : (s.tellFault c code source arg0 arg1).mg = (s.logFault code 2 c source arg0 arg1).mg := by
    simp only [State.tellFault, State.logFault, State.logAs, State.modIndex?, State.post_mg, State.post_ep, State.post_tcb]
    split <;> rfl
  simp only [State.ctxFault]
  split <;> simp [told]

/-- The entry at the log's next place, where the log has room for it. -/
theorem State.logFault_entry (s : State) (code cls ctx source arg0 arg1 : Nat) :
    (s.logFault code cls ctx source arg0 arg1).mg.log.get (s.mg.logNext % 2048) {} =
      if s.mg.logNext < 2048 ∨ s.mg.logNext - 2048 < s.mg.logAck then
        { seq := s.mg.logNext, code := BitVec.ofNat 16 code, cls := BitVec.ofNat 8 cls, ctx := BitVec.ofNat 8 ctx, tc := s.tcb.now,
          source := BitVec.ofNat 32 source, mod := BitVec.ofNat 16 (s.modIndex?.getD 0xFFFF), arg0 := BitVec.ofNat 32 arg0,
          arg1 := BitVec.ofNat 32 arg1 }
      else s.mg.log.get (s.mg.logNext % 2048) {} := by
  by_cases room : s.mg.logNext < 2048 ∨ s.mg.logNext - 2048 < s.mg.logAck
  · have h : (decide (s.mg.logNext < 2048) || decide (s.mg.logNext - 2048 < s.mg.logAck)) = true := by simpa using room
    simp only [State.logFault, State.logAs, h, if_true, if_pos room, Table.get_put_self]
  · have h : (decide (s.mg.logNext < 2048) || decide (s.mg.logNext - 2048 < s.mg.logAck)) = false := by simpa using room
    simp only [State.logFault, State.logAs, h, Bool.false_eq_true, if_false, if_neg room]

/-- TRAP is the first condition that a legal bundle meets (R68). -/
theorem bundleFault_trap {s : State} {x i : Nat} {c : Core} {b : Bundle} (hb : b.sc = .trap) (legal : b.illegal? = none)
    (untested : c.tested ≠ some b) : bundleFault s x i c b = some (0x0103, c.bidx.toNat, 0) := by
  rw [bundleFault_untested untested]
  simp only [issueFault, legal, hb, scFault, firstFault]

/-- Settles O16: a legal bundle with TRAP meets the fault of its SC slot first. -/
theorem trapFaultsItsContext : Obligations.TrapFaultsItsContext := by
  intro s x rest hx i b c live ready legal untested
  have trap : bundleFault s c i (s.waitedCore i b) b = some (0x0103, (s.waitedCore i b).bidx.toNat, 0) :=
    bundleFault_trap rfl legal (by rwa [State.waitedCore_tested])
  have after := State.coreFault_faultedAtIssue live b 0x0103 (s.waitedCore i b).bidx.toNat 0
  refine ⟨_, (exec_slot rfl s).trans (runBundle_faults (b := b) hx live ready trap), congrArg Context.st after.ctx,
    congrArg Context.fault after.ctx, congrArg Context.batches after.ctx, (after.core _).trans (if_pos rfl),
    fun j hj => (after.core j).trans (if_neg (Ne.symm hj)), fun j hj => State.coreLive_false hj ?_, after.ports, ?_⟩
  · rw [after.ctx]
    exact CtxState.noConfusion
  · rw [State.coreFault_eq live, State.ctxFault_mg, State.waitedCore_bidx]
    exact State.logFault_entry ..

/-! ## Waits and slips (R63) -/

/-- A wait cycle: the clock goes on, and a wait at TICK is counted idle. -/
theorem Core.waitOne_frame (c : Core) (b : Bundle) :
    c.waitOne b = { c.pass 1 with waitTick := (c.waitOne b).waitTick, idle := if b.sy = .tick then c.idle + 1 else c.idle } := by
  simp only [Core.waitOne]
  split <;> rfl

theorem Core.slipBy_cyc (c : Core) (n : Nat) : (c.slipBy n).cyc = c.cyc + n := by
  unfold Core.slipBy
  split
  next h => rw [h]; rfl
  · rfl

theorem Core.slipBy_slipTotal (c : Core) (n : Nat) : (c.slipBy n).slipTotal = c.slipTotal + BitVec.ofNat 64 n := by
  unfold Core.slipBy
  split
  next h => simp [h]
  · rfl

theorem Core.stallOne_eq (c : Core) (b : Bundle) :
    c.stallOne b = { c with cyc := c.cyc + 1, phase := (c.phase + 1) % 8, slip := satAdd c.slip 1,
                            slipTotal := c.slipTotal + BitVec.ofNat 64 1, tested := some b } := rfl

/-- Settles O18: a wait cycle counts as idle or not at all, a slip cycle after the hazards with a known end counts them all. -/
theorem cyclesWithoutIssueAreWaitsOrSlips : Obligations.CyclesWithoutIssueAreWaitsOrSlips := by
  intro cmd x b s hc hx
  dsimp only
  intro live
  refine ⟨fun waits => ⟨_, (exec_slot hc s).trans (runBundle_waits hx live waits), ?_⟩,
    fun ready hf he hs => ⟨_, (exec_slot hc s).trans (runBundle_stalls hx live ready hf he hs), ?_⟩⟩
  · beta_reduce
    rw [State.core_setCore_self, Core.waitOne_frame, sendWatch_frame]
    exact ⟨rfl, rfl, rfl, rfl, rfl, rfl, rfl, fun j hj => State.core_setCore_ne _ hj _⟩
  · have slipped : (s.issueCore (coreIdx x) b).cyc = (s.waitedCore (coreIdx x) b).cyc + (readyAt (s.waitedCore (coreIdx x) b) b -
        (s.waitedCore (coreIdx x) b).cyc) := Core.slipBy_cyc ..
    have total : (s.issueCore (coreIdx x) b).slipTotal = (s.core (coreIdx x)).slipTotal + BitVec.ofNat 64 (readyAt (s.waitedCore (coreIdx x) b) b -
        (s.waitedCore (coreIdx x) b).cyc) := (Core.slipBy_slipTotal ..).trans (congrArg (· + _) (State.waitedCore_slipTotal ..))
    beta_reduce
    rw [State.core_setCore_self, Core.stallOne_eq]
    refine ⟨?_, ?_, State.issueCore_idle .., State.issueCore_bidx .., State.issueCore_ctrs .., State.issueCore_mem .., rfl,
      fun j hj => State.core_setCore_ne _ hj _⟩
    · rw [slipped, Nat.add_assoc]
    · rw [total, BitVec.add_assoc, ← BitVec.ofNat_add]

end Sys2Proof.Machine
end

section
/-! MESH_PACKET_LAND and MESH_NOTICE (R55, R110, R124, R126, R247). -/
namespace Sys2Proof

theorem Table.put_put {α : Type} (t : Table α) (n : Nat) (a b : α) : (t.put n a).put n b = t.put n b := by
  induction t with
  | nil => simp [Table.put]
  | cons e t ih =>
    obtain ⟨k, c⟩ := e
    by_cases below : n < k
    · simp [Table.put, below]
    · by_cases same : n = k
      · simp [Table.put, same]
      · simp [Table.put, below, same, ih]

end Sys2Proof

namespace Sys2Proof.Machine

open Sys2Proof

theorem State.setCore_setCore (s : State) (i : Nat) (c d : Core) : (s.setCore i c).setCore i d = s.setCore i d := by
  simp only [State.setCore, Table.put_put]

/-! ## A write lands (R110, R126) -/

@[simp] theorem State.takePacket_core (s : State) (p : MeshPacket) (j : Nat) : (s.takePacket p).core j = s.core j := rfl

theorem Core.overwritten_mem (c : Core) (a n : Nat) : (c.overwritten a n).mem = c.mem := by rw [Core.overwritten_frame]
theorem Core.overwritten_due (c : Core) (a n : Nat) : (c.overwritten a n).due = c.due := by rw [Core.overwritten_frame]

/-- The core after a write has landed: its bytes, the errors of the words they cover, and its notice. -/
def Core.landed (c : Core) (p : MeshPacket) : Core :=
  let k := (c.writeBytes (hByte (c.handle p.wh) + p.off) p.data).overwritten (hByte (c.handle p.wh) + p.off) p.data.length
  if p.last then { k with due := k.due ++ [p.tag] } else k

theorem Core.landed_mem (c : Core) (p : MeshPacket) :
    (c.landed p).mem = Cells.write 0 c.mem (hByte (c.handle p.wh) + p.off) p.data := by
  unfold Core.landed
  split <;> exact Core.overwritten_mem ..

theorem Core.landed_due (c : Core) (p : MeshPacket) : (c.landed p).due = if p.last then c.due ++ [p.tag] else c.due := by
  unfold Core.landed
  split
  · exact congrArg (· ++ [p.tag]) (Core.overwritten_due ..)
  · exact Core.overwritten_due ..

theorem State.landWrite_inside {s : State} {p : MeshPacket} {j : Nat} (hj : p.dst = j) (hw : windowOk (s.core j) p p.data.length = true)
    (he : (s.core j).eccMerge (hByte ((s.core j).handle p.wh) + p.off) p.data.length = none) :
    s.landWrite p = s.setCore j ((s.core j).landed p) := by
  subst hj
  simp only [State.landWrite, hw, Bool.not_true, Bool.false_eq_true, if_false, Core.store, he, Core.landed]

theorem State.landWrite_refused {s : State} {p : MeshPacket} {j : Nat} (hj : p.dst = j) (hw : windowOk (s.core j) p p.data.length = false) :
    s.landWrite p = s.refuse p := by
  subst hj
  simp only [State.landWrite, hw, Bool.not_false, if_true]

/-! ## MESH_PACKET_LAND -/

section
variable {s : State} {src dst : CoreId} {chan : BitVec 4} {p : MeshPacket} (hs : inArray src = true) (hd : inArray dst = true)
  (oldest : s.oldestOn (coreIdx src) (coreIdx dst) (if chan.toNat < 12 then 0 else 2) (MeshPacket.lands chan) = some p)
include hs hd oldest

theorem exec_meshPacketLand_write (owner : (s.core (coreIdx dst)).owner = some p.ctx) (write : p.op = .write) :
    exec (.meshPacketLand src dst chan) s = .next ((s.takePacket p).landWrite p) := by
  change execMeshPacketLand src dst chan s = _
  simp [execMeshPacketLand, atCore, hs, hd, oldest, owner, write]

theorem exec_meshPacketLand_stray (owner : (s.core (coreIdx dst)).owner ≠ some p.ctx) :
    exec (.meshPacketLand src dst chan) s = .next ((s.takePacket p).discard p) := by
  change execMeshPacketLand src dst chan s = _
  simp [execMeshPacketLand, atCore, hs, hd, oldest, owner]

end

/-! ## MESH_NOTICE -/

/-- The entry of an EXPECT of the tag. -/
def RangeEntry.expects (tag : BitVec 3) (e : RangeEntry) : Bool :=
  match e.owner with
  | .expect _ g => g == tag
  | _ => false

theorem dropTag_length {tag : BitVec 3} {ts : List (BitVec 3)} (h : ts.contains tag = true) : (dropTag tag ts).length + 1 = ts.length := by
  induction ts with
  | nil => cases h
  | cons t ts ih =>
    by_cases same : t = tag
    · simp [dropTag, same]
    · have rest : ts.contains tag = true := by
        simp only [List.contains_cons, Bool.or_eq_true, beq_iff_eq] at h
        exact h.resolve_left (Ne.symm same)
      simp [dropTag, same, ih rest]

section
variable {s : State} {i : Nat} {k : Core} {tag : BitVec 3}

/-- The oldest EXPECT of the tag takes the notice (R55). -/
theorem State.notice_expected {e : RangeEntry} (h : k.ranges.find? (RangeEntry.expects tag) = some e) :
    (s.setCore i k).notice i tag = s.setCore i { k with ranges := k.ranges.filter (fun r => r.owner != e.owner) } := by
  unfold State.notice
  rw [State.core_setCore_self]
  change (match k.ranges.find? (RangeEntry.expects tag) with | some e => _ | none => _) = _
  rw [h]
  exact State.setCore_setCore ..

/-- A notice that no EXPECT waits for is counted (R55). -/
theorem State.notice_counted (h : k.ranges.find? (RangeEntry.expects tag) = none) (hn : k.unclaimed.get tag.toNat 0 < 255) :
    (s.setCore i k).notice i tag = s.setCore i { k with unclaimed := k.unclaimed.put tag.toNat (k.unclaimed.get tag.toNat 0 + 1) } := by
  unfold State.notice
  rw [State.core_setCore_self]
  change (match k.ranges.find? (RangeEntry.expects tag) with | some e => _ | none => _) = _
  rw [h]
  simp only [hn, if_true]
  exact State.setCore_setCore ..

end

/-- A core with one notice of the tag fewer to come. -/
def Core.noticeTaken (c : Core) (tag : BitVec 3) : Core := { c with due := dropTag tag c.due }

theorem exec_meshNotice {s : State} {x : CoreId} {tag : BitVec 3} (hx : inArray x = true) (h : (s.core (coreIdx x)).due.contains tag = true) :
    exec (.meshNotice x tag) s = .next ((s.setCore (coreIdx x) ((s.core (coreIdx x)).noticeTaken tag)).notice (coreIdx x) tag) := by
  change execMeshNotice x tag s = _
  simp only [execMeshNotice, atCore, hx, h, if_true, Core.noticeTaken]

theorem State.refuse_panel (s : State) (p : MeshPacket) : (s.refuse p).panel = s.panel := State.ctxFault_panel ..

theorem State.core_of_panel {s t : State} (h : t.panel = s.panel) (j : Nat) : t.core j = s.core j := by
  simp only [State.core, State.blankCore, h]

/-- Settles O23: the packet's write, its refusal or its discard, and the notice's entry or count. -/
theorem packetsLandInTheirWindow : Obligations.PacketsLandInTheirWindow := by
  refine ⟨fun s src dst chan p hs hd => ?_, fun s x tag hx => ?_⟩
  · intro j c a oldest
    refine ⟨fun owner write target hw he canonical => ?_, fun owner write target hw => ?_, fun owner => ?_⟩
    · obtain ⟨wf, -⟩ := Core.canonical_wf canonical
      have acts := exec_meshPacketLand_write hs hd oldest owner write
      rw [State.landWrite_inside (s := s.takePacket p) target hw he] at acts
      refine ⟨_, acts, ?_⟩
      beta_reduce
      rw [State.core_setCore_self, Core.landed_mem, Core.landed_due]
      exact ⟨Cells.read_write 0 c.mem a p.data wf, fun b hb => Cells.get_write_ne 0 p.data b c.mem a wf hb, rfl, rfl,
        fun k hk => State.core_setCore_ne _ hk _, rfl, rfl⟩
    · have acts := exec_meshPacketLand_write hs hd oldest owner write
      rw [State.landWrite_refused (s := s.takePacket p) target hw] at acts
      refine ⟨_, acts, fun k => State.core_of_panel (State.refuse_panel ..) k, congrArg Panel.flight (State.refuse_panel ..), fun running => ?_⟩
      have faulted : ((s.takePacket p).refuse p).ctx p.ctx = (s.ctx p.ctx).faulted 0x0206 :=
        State.ctxFault_ctx_live (s := s.takePacket p) (.inr (.inl running)) ..
      exact ⟨congrArg Context.st faulted, congrArg Context.fault faulted⟩
    · exact ⟨_, exec_meshPacketLand_stray hs hd oldest owner, fun k => rfl, rfl, congrArg Context.discard (State.ctx_modCtx_self ..)⟩
  · intro i c waits due
    have acts := exec_meshNotice hx due
    refine ⟨fun e he => ?_, fun he hn => ?_⟩
    · rw [State.notice_expected (k := (s.core (coreIdx x)).noticeTaken tag) he] at acts
      refine ⟨_, acts, ?_⟩
      beta_reduce
      rw [State.core_setCore_self]
      exact ⟨rfl, rfl, dropTag_length due, rfl⟩
    · rw [State.notice_counted (k := (s.core (coreIdx x)).noticeTaken tag) he hn] at acts
      refine ⟨_, acts, ?_⟩
      beta_reduce
      rw [State.core_setCore_self]
      exact ⟨rfl, Table.get_put_self .., fun m hm => Table.get_put_ne _ hm .., dropTag_length due, rfl⟩

end Sys2Proof.Machine
end

section
/-! The frame of a bundle that issues, inside its core (R47 to R49, R112). -/
namespace Sys2Proof.Machine

open Sys2Proof

/-! ## Errors in the stores (R112) -/

/-- From `c` to `k` no word gains an error, and none is counted where no word held a single-bit error. -/
structure Core.EccShrinks (c k : Core) : Prop where
  single : ∀ w ∈ k.eccSingle, w ∈ c.eccSingle
  double : ∀ w ∈ k.eccDouble, w ∈ c.eccDouble
  counted : c.eccSingle = [] → k.correctable = c.correctable

theorem Core.EccShrinks.refl (c : Core) : c.EccShrinks c := ⟨fun _ h => h, fun _ h => h, fun _ => rfl⟩

theorem Core.EccShrinks.trans {c k l : Core} (h : c.EccShrinks k) (h' : k.EccShrinks l) : c.EccShrinks l where
  single w hw := h.single w (h'.single w hw)
  double w hw := h.double w (h'.double w hw)
  counted hc := by
    have none_left : k.eccSingle = [] := List.eq_nil_iff_forall_not_mem.mpr fun w hw => by simpa [hc] using h.single w hw
    exact (h'.counted none_left).trans (h.counted hc)

theorem Core.correct_shrinks (c : Core) (a n : Nat) : c.EccShrinks (c.correct a n) := by
  unfold Core.correct
  dsimp only
  split
  · exact .refl c
  next hit => exact ⟨fun w hw => (List.mem_filter.mp hw).1, fun _ h => h, fun hc => absurd (by simp [hc]) hit⟩

theorem Core.overwritten_shrinks (c : Core) (a n : Nat) : c.EccShrinks (c.overwritten a n) := by
  unfold Core.overwritten
  dsimp only
  split
  · exact .refl c
  · refine .trans ?_ (Core.correct_shrinks ..)
    exact ⟨fun w hw => (List.mem_filter.mp hw).1, fun w hw => (List.mem_filter.mp hw).1, fun _ => rfl⟩

theorem Core.foldl_shrinks {α : Type} {f : Core → α → Core} (hf : ∀ (k : Core) (a : α), k.EccShrinks (f k a)) (l : List α) (c : Core) :
    c.EccShrinks (l.foldl f c) :=
  List.foldlRecOn (motive := c.EccShrinks) l f (.refl c) fun k h a _ => h.trans (hf k a)

theorem Core.eccAfter_shrinks (c c0 : Core) (b : Bundle) : c.EccShrinks (c.eccAfter c0 b) := by
  unfold Core.eccAfter
  split
  · exact .refl c
  · exact (Core.foldl_shrinks (fun k (r : Nat × Nat) => k.correct_shrinks r.1 r.2) _ c).trans (Core.foldl_shrinks (fun k (r : Nat × Nat) => k.overwritten_shrinks r.1 r.2) _ _)

theorem Core.foldl_keeps {α γ : Type} (g : Core → γ) {f : Core → α → Core} (hf : ∀ k a, g (f k a) = g k) (l : List α) (c : Core) :
    g (l.foldl f c) = g c :=
  List.foldlRecOn (motive := fun k => g k = g c) l f rfl fun k h a _ => (hf k a).trans h

/-- Only a VSTT takes double-bit errors away. -/
theorem Core.eccAfter_eccDouble {b : Bundle} (h : ∀ f, b.ve ≠ .vstt f) (c c0 : Core) : (c.eccAfter c0 b).eccDouble = c.eccDouble := by
  have none_written : vsttRuns c0 b.ve = [] := by
    unfold vsttRuns
    split
    next f hf => exact absurd hf (h f)
    · rfl
  unfold Core.eccAfter
  split
  · rfl
  · rw [none_written]
    exact Core.foldl_keeps Core.eccDouble (fun k r => by rw [Core.correct_frame]) _ c

section
variable (s : State) (c0 : Core) (b : Bundle)

theorem issuedCore_eccShrinks : c0.EccShrinks (issuedCore s c0 b) := by
  obtain ⟨single, double, counted⟩ := Core.eccAfter_shrinks (syApply c0 (lsApply c0 (lsApply c0 (mxApply c0 (veApply c0 (scApply c0
    (tickLatch (timing s.ident.lattab.toNat c0 c0 b) b.sy) b.sc) b.ve) b.mx) false b.ld) true b.st) b.sy) c0 b
  constructor
  · simpa [issuedCore] using single
  · simpa [issuedCore] using double
  · simpa [issuedCore] using counted

theorem issuedCore_eccDouble (h : ∀ f, b.ve ≠ .vstt f) : (issuedCore s c0 b).eccDouble = c0.eccDouble := by
  simp [issuedCore, Core.eccAfter_eccDouble h]

/-! ## Registers and memory -/

theorem veApply_mem {op : VeOp} (h : ∀ f, op ≠ .vstt f) (c : Core) : (veApply c0 c op).mem = c.mem := by
  cases op with
  | vstt f => exact absurd rfl (h f)
  | vsmax t v w =>
    simp only [veApply]
    refine Core.foldl_keeps Core.mem ?_ _ c
    exact fun k r => by simp only [Core.raise, Core.putLanes, Core.setVlane]
  | vssum t v w =>
    simp only [veApply]
    refine Core.foldl_keeps Core.mem ?_ _ c
    exact fun k r => by simp only [Core.raise, Core.setVlane]
  | vacc t a clr => cases clr <;> simp only [veApply, Core.putLanes, if_true, Bool.false_eq_true, if_false]
  | vmovv t v sub => simp only [veApply, Core.putVlanes]; split <;> rfl
  | _ => simp only [veApply, Core.putLanes, Core.putVlanes, Core.raise]

theorem veApply_len {op : VeOp} (h : ∀ r l, op ≠ .vsetlen r l) (c : Core) :
    (veApply c0 c op).lenRow = c.lenRow ∧ (veApply c0 c op).lenCol = c.lenCol := by
  cases op with
  | vsetlen r l => exact absurd rfl (h r l)
  | vstt f => simp only [veApply]; rw [foldl_ve_frame _ (fun c a => rfl)]; exact ⟨rfl, rfl⟩
  | vsmax t v w => simp only [veApply]; rw [foldl_ve_frame _ (fun c a => rfl)]; exact ⟨rfl, rfl⟩
  | vssum t v w => simp only [veApply]; rw [foldl_ve_frame _ (fun c a => rfl)]; exact ⟨rfl, rfl⟩
  | vacc t a clr => cases clr <;> simp only [veApply, Core.putLanes, if_true, Bool.false_eq_true, if_false, and_self]
  | vmovv t v sub => simp only [veApply, Core.putVlanes]; split <;> exact ⟨rfl, rfl⟩
  | _ => simp only [veApply, Core.putLanes, Core.putVlanes, Core.raise, and_self]

theorem veApply_acc {op : VeOp} (h : ∀ d a, op ≠ .vacc d a true) (c : Core) : (veApply c0 c op).acc = c.acc := by
  cases op with
  | vstt f => simp only [veApply]; rw [foldl_ve_frame _ (fun c a => rfl)]
  | vsmax t v w => simp only [veApply]; rw [foldl_ve_frame _ (fun c a => rfl)]
  | vssum t v w => simp only [veApply]; rw [foldl_ve_frame _ (fun c a => rfl)]
  | vacc t a clr =>
    cases clr with
    | true => exact absurd rfl (h t a)
    | false => simp only [veApply, Core.putLanes, Bool.false_eq_true, if_false]
  | vmovv t v sub => simp only [veApply, Core.putVlanes]; split <;> rfl
  | _ => simp only [veApply, Core.putLanes, Core.putVlanes, Core.raise]

theorem issuedCore_mem (h : ∀ f, b.ve ≠ .vstt f) : (issuedCore s c0 b).mem = c0.mem := by
  simp [issuedCore, veApply_mem c0 h]

theorem issuedCore_len (h : ∀ r l, b.ve ≠ .vsetlen r l) : (issuedCore s c0 b).lenRow = c0.lenRow ∧ (issuedCore s c0 b).lenCol = c0.lenCol := by
  simp [issuedCore, veApply_len c0 h]

theorem issuedCore_acc (hm : b.mx = .nop) (h : ∀ d a, b.ve ≠ .vacc d a true) : (issuedCore s c0 b).acc = c0.acc := by
  simp [issuedCore, hm, mxApply, veApply_acc c0 h]

theorem issuedCore_tile_vec (h : b.ve = .nop) : (issuedCore s c0 b).tile = c0.tile ∧ (issuedCore s c0 b).vec = c0.vec := by
  simp [issuedCore, h, veApply]

theorem issuedCore_sticky (hv : b.ve = .nop) (hm : b.mx = .nop) : (issuedCore s c0 b).sticky = c0.sticky := by
  simp [issuedCore, hv, hm, veApply, mxApply]

/-! ## Streams and frame counts -/

theorem issuedCore_ld (h : b.ld = .nop) : (issuedCore s c0 b).ld = c0.ld := by
  cases h' : b.st <;> simp [issuedCore, h, h', lsApply]

theorem issuedCore_st (h : b.st = .nop) : (issuedCore s c0 b).st = c0.st := by
  cases h' : b.ld <;> simp [issuedCore, h, h', lsApply]

theorem issuedCore_noTick (h : b.sy ≠ .tick) :
    (issuedCore s c0 b).pendTicks = c0.pendTicks ∧ (issuedCore s c0 b).idle = c0.idle ∧ (issuedCore s c0 b).latSlip = c0.latSlip ∧
    (issuedCore s c0 b).latSlips = c0.latSlips ∧ (issuedCore s c0 b).newFlags = c0.newFlags ∧ (issuedCore s c0 b).counted = c0.counted := by
  have pendTicks : (syApply c0 c0 b.sy).pendTicks = c0.pendTicks := by
    cases h' : b.sy with
    | tick => exact absurd h' h
    | _ => rfl
  rw [issuedCore_pendTicks, issuedCore_idle, issuedCore_latSlip, tickLatch_of_ne h]
  refine ⟨pendTicks, rfl, rfl, ?_, ?_, ?_⟩ <;> simp [issuedCore, tickLatch_of_ne h]

/-! ## Fields that one operation of a slot writes -/

theorem issuedCore_ctrs_same (h1 : ∀ n hi imm, b.sc ≠ .setc n hi imm) (h2 : ∀ n d, b.sc ≠ .incc n d) (h3 : ∀ n q d g, b.sc ≠ .loop n q d g) :
    (issuedCore s c0 b).ctrs = c0.ctrs := by
  rw [issuedCore_ctrs]
  cases h : b.sc with
  | setc n hi imm => exact absurd h (h1 n hi imm)
  | incc n d => exact absurd h (h2 n d)
  | loop n q d g => exact absurd h (h3 n q d g)
  | _ => rfl

theorem issuedCore_cmps_same (h : ∀ q n e l, b.sc ≠ .setk q n e l) : (issuedCore s c0 b).cmps = c0.cmps := by
  rw [issuedCore_cmps]
  cases h' : b.sc with
  | setk q n e l => exact absurd h' (h q n e l)
  | _ => rfl

theorem issuedCore_stopped_same (h : b.sc ≠ .stop) : (issuedCore s c0 b).stopped = c0.stopped := by
  rw [issuedCore_stopped]
  cases h' : b.sc with
  | stop => exact absurd h' h
  | _ => rfl

theorem issuedCore_qnotes_same (h : ∀ p q, b.sy ≠ .qwait p q) : (issuedCore s c0 b).qnotes = c0.qnotes := by
  rw [issuedCore_qnotes]
  cases h' : b.sy with
  | qwait p q => exact absurd h' (h p q)
  | _ => rfl

theorem issuedCore_unclaimed_same (h : ∀ g, b.sy ≠ .mwait g) : (issuedCore s c0 b).unclaimed = c0.unclaimed := by
  rw [issuedCore_unclaimed]
  cases h' : b.sy with
  | mwait g => exact absurd h' (h g)
  | _ => rfl

theorem issuedCore_earliest_same (h : ∀ n, b.sy ≠ .waitcy n) : (issuedCore s c0 b).earliest = c0.earliest := by
  rw [issuedCore_earliest]
  cases h' : b.sy with
  | waitcy n => exact absurd h' (h n)
  | _ => rfl

end

/-- Settles O19: field by field, what the slots can change of the core as the bundle found it. -/
theorem issueFrameInTheCore : Obligations.IssueFrameInTheCore := by
  intro cmd x b s hc hx
  dsimp only
  intro h
  refine answers_issues hc hx h ?_
  have ecc := issuedCore_eccShrinks s (s.issueCore (coreIdx x) b) b
  have noTick := issuedCore_noTick s (s.issueCore (coreIdx x) b) b
  have len := issuedCore_len s (s.issueCore (coreIdx x) b) b
  have regs := issuedCore_tile_vec s (s.issueCore (coreIdx x) b) b
  simp only [issueNow_core_self]
  obtain ⟨single, double, counted⟩ := ecc
  simp only [State.issueCore_eccSingle, State.issueCore_eccDouble, State.issueCore_correctable] at single double counted
  simp only [State.issueCore_lenRow, State.issueCore_lenCol] at len
  simp only [State.issueCore_tile, State.issueCore_vec] at regs
  simp only [State.issueCore_pendTicks, State.issueCore_idle, State.issueCore_latSlip, State.issueCore_latSlips, State.issueCore_newFlags,
    State.issueCore_counted] at noTick
  refine ⟨?_, ?_, ?_, ?_, ?_, ?_, ?_, ?_, ?_, ?_, ?_, rfl, single, double, counted,
    fun hv => (issuedCore_eccDouble _ _ _ hv).trans (State.issueCore_eccDouble ..),
    fun h1 h2 h3 => (issuedCore_ctrs_same _ _ _ h1 h2 h3).trans (State.issueCore_ctrs ..),
    fun hs => (issuedCore_cmps_same _ _ _ hs).trans (State.issueCore_cmps ..),
    fun hs => (issuedCore_stopped_same _ _ _ hs).trans (State.issueCore_stopped ..),
    fun hv => (issuedCore_mem _ _ _ hv).trans (State.issueCore_mem ..), len, regs,
    fun hm hv => (issuedCore_acc _ _ _ hm hv).trans (State.issueCore_acc ..),
    fun hv hm => (issuedCore_sticky _ _ _ hv hm).trans (State.issueCore_sticky ..), noTick,
    fun hs => (issuedCore_qnotes_same _ _ _ hs).trans (State.issueCore_qnotes ..),
    fun hs => (issuedCore_unclaimed_same _ _ _ hs).trans (State.issueCore_unclaimed ..),
    fun hs => (issuedCore_earliest_same _ _ _ hs).trans (State.issueCore_earliest ..),
    fun hl => (issuedCore_ld _ _ _ hl).trans (State.issueCore_ld ..),
    fun hl => (issuedCore_st _ _ _ hl).trans (State.issueCore_st ..)⟩ <;>
    simp [issuedCore]

end Sys2Proof.Machine
end

section
/-! The streams of a bundle that issues: their slot, their ranges and their packets (R60, R104, R107, R119, R140). -/
namespace Sys2Proof.Machine

open Sys2Proof

/-- The LD or ST slot of the bundle holds the stream, which takes the number. -/
def StartsStream (b : Bundle) (c0 : Core) (o : StreamOp) (f : StreamFields) (id : Nat) : Prop :=
  b.ld = .go o f ∧ id = c0.nextId ∨ b.st = .go o f ∧ id = stId c0 b

/-- The number that the stream of `withStream` takes. -/
def streamId (c0 : Core) (o : StreamOp) (b : Bundle) : Nat := if StreamOp.ofSt o then stId c0 b else c0.nextId

theorem slotOf_streamCommand (o : StreamOp) (x : CoreId) (f : StreamFields) (rest : Bundle) :
    slotOf (streamCommand o x f rest) = some (x, withStream o f rest) := by
  cases o <;> rfl

theorem withStream_startsStream (o : StreamOp) (f : StreamFields) (rest : Bundle) (c0 : Core) :
    StartsStream (withStream o f rest) c0 o f (streamId c0 o (withStream o f rest)) := by
  cases h : StreamOp.ofSt o with
  | true => exact .inr ⟨by simp [withStream, h], by simp [streamId, h]⟩
  | false => exact .inl ⟨by simp [withStream, h], by simp [streamId, h]⟩

/-! ## The core -/

theorem lsApply_ranges {c : Core} {e : RangeEntry} (h : e ∈ c.ranges) (c0 : Core) (st : Bool) (op : LsOp) : e ∈ (lsApply c0 c st op).ranges := by
  cases op with
  | go o f => exact List.mem_append_left _ h
  | _ => exact h

theorem syApply_ranges {c : Core} {e : RangeEntry} (h : e ∈ c.ranges) (c0 : Core) (op : SyOp) : e ∈ (syApply c0 c op).ranges := by
  cases op with
  | expect _ _ _ _ => exact List.mem_append_left _ h
  | attend _ _ => exact List.mem_append_left _ h
  | _ => exact h

theorem syApply_nextId_le (c0 c : Core) (op : SyOp) : c.nextId ≤ (syApply c0 c op).nextId := by
  cases op with
  | expect _ _ _ _ => exact Nat.le_succ _
  | attend _ _ => exact Nat.le_succ _
  | _ => exact Nat.le_refl _

section
variable (s : State) (c0 : Core) (b : Bundle)

theorem issuedCore_nextId : (issuedCore s c0 b).nextId = (syApply c0 (lsApply c0 (lsApply c0 c0 false b.ld) true b.st) b.sy).nextId := by
  cases h : b.sy <;> simp [issuedCore, h, syApply, lsApply_nextId]

theorem issuedCore_ld_go {o : StreamOp} {f : StreamFields} (slot : b.ld = .go o f) :
    (issuedCore s c0 b).ld = c0.ld ++ [mkStream c0 c0.nextId o f] := by
  cases h : b.st <;> simp [issuedCore, slot, h, lsApply]

theorem issuedCore_st_go {o : StreamOp} {f : StreamFields} (slot : b.st = .go o f) :
    (issuedCore s c0 b).st = c0.st ++ [mkStream c0 (stId c0 b) o f] := by
  cases h : b.ld <;> simp [issuedCore, stId, slot, h, lsApply]

end

section
variable {b : Bundle} {c0 : Core} {o : StreamOp} {f : StreamFields} {id : Nat} (h : StartsStream b c0 o f id)
include h

theorem StartsStream.id_ge : c0.nextId ≤ id := by
  obtain ⟨-, rfl⟩ | ⟨-, rfl⟩ := h
  · exact Nat.le_refl _
  · rw [stId, lsApply_nextId]
    exact Nat.le_add_right ..

theorem StartsStream.id_lt (s : State) : id < (issuedCore s c0 b).nextId := by
  rw [issuedCore_nextId]
  refine Nat.lt_of_lt_of_le ?_ (syApply_nextId_le ..)
  obtain ⟨slot, rfl⟩ | ⟨slot, rfl⟩ := h
  · simp only [slot, lsApply_nextId, if_true]
    omega
  · simp only [slot, lsApply_nextId, stId, if_true]
    omega

/-- The ranges of a stream are registered under its number (R107). -/
theorem StartsStream.ranges (s : State) {w : Touch × Bool} (hw : w ∈ streamTouch c0 o f) :
    entry w.1 (.stream id w.2) ∈ (issuedCore s c0 b).ranges := by
  have taken (c : Core) (st : Bool) (hc : c.nextId = id) : entry w.1 (.stream id w.2) ∈ (lsApply c0 c st (.go o f)).ranges := by
    subst hc
    exact List.mem_append_right _ (List.mem_map_of_mem hw)
  simp only [issuedCore, Core.eccAfter_ranges, Core.pass]
  refine syApply_ranges ?_ ..
  obtain ⟨slot, rfl⟩ | ⟨slot, rfl⟩ := h
  · rw [slot]
    exact lsApply_ranges (taken _ _ (by simp)) ..
  · rw [slot]
    exact taken _ _ (by simp [lsApply_nextId, stId])

end

/-! ## The packets of a pair -/

@[simp] theorem State.portEntry_setCore (s : State) (j : Nat) (c : Core) (i p : Nat) : (s.setCore j c).portEntry i p = s.portEntry i p :=
  State.portEntry_congr rfl i p

/-- A packet of core i for the stream stands among the requests of its pair. -/
def State.HasPacket (s : State) (x i : Nat) (r : StreamRec) : Prop :=
  ∃ k ∈ ((s.port (dPort r.desc)).pair x (dQp r.desc)).reqs, k.core = i ∧ k.s = r ∧ (k.read = true ↔ r.op = .qread)

theorem Pair.reserve_reqs (p : Pair) (num n : Nat) : (p.reserve num n).reqs = p.reqs := by
  unfold Pair.reserve
  split <;> rfl

/-- The packet that `postPacket` posts. -/
def newPacket (x i : Nat) (r : StreamRec) (k : StackPort) : QPacket :=
  let pr := k.pair x (dQp r.desc)
  { num := k.nextNum, core := i, read := decide (r.op = .qread), s := r, item := pr.item,
    ringAt := if r.op = .qwrite ∧ pr.mode = 1 then some pr.wptr else none }

theorem postPacket_reqs_self (x i : Nat) (r : StreamRec) (s : State) :
    (((postPacket x i r s).port (dPort r.desc)).pair x (dQp r.desc)).reqs =
      ((s.port (dPort r.desc)).pair x (dQp r.desc)).reqs ++ [newPacket x i r (s.port (dPort r.desc))] := by
  simp only [postPacket, State.port_modPort_self]
  refine (congrArg Pair.reqs (Table.get_put_self ..)).trans ?_
  split
  · rw [Pair.reserve_reqs]
    rfl
  · rfl

theorem postPacket_pair_ne {x i : Nat} {r : StreamRec} {p y q : Nat} (h : ¬(dPort r.desc = p ∧ pairKey x (dQp r.desc) = pairKey y q)) (s : State) :
    ((postPacket x i r s).port p).pair y q = (s.port p).pair y q := by
  by_cases hp : dPort r.desc = p
  · subst hp
    simp only [postPacket, State.port_modPort_self]
    exact Table.get_put_ne _ (fun hk => h ⟨rfl, hk.symm⟩) ..
  · exact congrArg (·.pair y q) (State.port_setPort_ne s (Ne.symm hp) _)

theorem postPacket_hasPacket (x i : Nat) (r : StreamRec) (s : State) : (postPacket x i r s).HasPacket x i r := by
  refine ⟨newPacket x i r (s.port (dPort r.desc)), ?_, rfl, rfl, by simp [newPacket]⟩
  rw [postPacket_reqs_self]
  exact List.mem_append_right _ (.head _)

/-- Posting a packet takes none away. -/
theorem postPacket_mem_reqs {s : State} {p y q : Nat} {k : QPacket} (h : k ∈ ((s.port p).pair y q).reqs) (x i : Nat) (r : StreamRec) :
    k ∈ (((postPacket x i r s).port p).pair y q).reqs := by
  by_cases hk : dPort r.desc = p ∧ pairKey x (dQp r.desc) = pairKey y q
  · obtain ⟨rfl, hk⟩ := hk
    rw [StackPort.pair, ← hk] at h ⊢
    exact postPacket_reqs_self x i r s ▸ List.mem_append_left _ h
  · rwa [postPacket_pair_ne hk]

section
variable {x i : Nat} {s t : State} (h : StreamPosts x i s t)
include h

theorem StreamPosts.hasPacket {y j : Nat} {r : StreamRec} (hs : s.HasPacket y j r) : t.HasPacket y j r := by
  cases h with
  | none => exact hs
  | posted r' =>
    obtain ⟨k, mem, hk⟩ := hs
    exact ⟨k, postPacket_mem_reqs mem .., hk⟩
  | fault => simpa only [State.HasPacket, State.ctxFault_port] using hs
  | injected p => exact hs
  | remote e => exact hs

/-- A context that has faulted stays so. -/
theorem StreamPosts.stays_faulted (hs : (s.ctx x).st = .faulted) : (t.ctx x).st = .faulted := by
  cases h with
  | fault => rwa [State.ctxFault_ctx_dead (by simp [Context.mayFault, hs])]
  | _ => exact hs

/-- A context that runs goes on or faults. -/
theorem StreamPosts.running_or_faulted (hs : (s.ctx x).st = .running) : (t.ctx x).st = .running ∨ (t.ctx x).st = .faulted := by
  cases h with
  | fault =>
    rw [State.ctxFault_ctx_live (.inr (.inl hs))]
    exact .inr rfl
  | _ => exact .inl hs

end

theorem State.ctxFault_faulted {s : State} {c : Nat} (h : (s.ctx c).st = .running ∨ (s.ctx c).st = .faulted) (code source arg0 arg1 : Nat) :
    ((s.ctxFault c code source arg0 arg1).ctx c).st = .faulted := by
  obtain running | faulted := h
  · rw [State.ctxFault_ctx_live (.inr (.inl running))]
    rfl
  · rwa [State.ctxFault_ctx_dead (by simp [Context.mayFault, faulted])]

@[simp] theorem syPost_ctx (x i : Nat) (c0 : Core) (id : Nat) (op : SyOp) (s : State) (c : Nat) :
    (syPost x i c0 id op s).ctx c = s.ctx c := by
  cases op <;> rfl

/-! ## The bundle -/

section
variable {b : Bundle} {c0 : Core} {o : StreamOp} {f : StreamFields} {id : Nat} (h : StartsStream b c0 o f id) (s : State) (x i : Nat)
include h

/-- QREAD and QWRITE post their packet where the core reaches the port (R140). -/
theorem State.issueOut_hasPacket (hq : o.queue = true) (he : (s.portEntry i (dPort (c0.streamDesc f))).isSome = true) :
    (s.issueOut x i c0 b).HasPacket x i (mkStream c0 id o f) := by
  simp only [State.issueOut, State.HasPacket, State.port, syPost_ports]
  obtain ⟨slot, rfl⟩ | ⟨slot, rfl⟩ := h
  · refine (lsPost_streamPosts ..).hasPacket ?_
    rw [slot, lsPost_posts x i c0 _ s hq he]
    exact postPacket_hasPacket ..
  · rw [slot, lsPost_posts x i c0 _ _ hq ((State.portEntry_congr (lsPost_streamPosts ..).startMap i _).symm ▸ he)]
    exact postPacket_hasPacket ..

/-- Where it reaches no entry of the port, the context faults (R119, R141). -/
theorem State.issueOut_faulted (hq : o.queue = true) (he : s.portEntry i (dPort (c0.streamDesc f)) = none) (running : (s.ctx x).st = .running) :
    ((s.issueOut x i c0 b).ctx x).st = .faulted := by
  simp only [State.issueOut, syPost_ctx]
  obtain ⟨slot, rfl⟩ | ⟨slot, rfl⟩ := h
  · refine (lsPost_streamPosts ..).stays_faulted ?_
    obtain ⟨arg0, unreached⟩ := lsPost_unreached x i c0 c0.nextId s hq he
    rw [slot, unreached]
    exact State.ctxFault_faulted (.inl running) ..
  · obtain ⟨arg0, unreached⟩ := lsPost_unreached x i c0 (stId c0 b) _ hq ((State.portEntry_congr (lsPost_streamPosts x i c0 c0.nextId s b.ld).startMap i _).trans he)
    rw [slot, unreached]
    exact State.ctxFault_faulted ((lsPost_streamPosts ..).running_or_faulted running) ..

end

/-! ## Waiting changes no operand of a stream -/

section
variable (s : State) (i : Nat) (b : Bundle)

@[simp] theorem State.issueCore_handle (n : Nat) : (s.issueCore i b).handle n = (s.core i).handle n := by simp [Core.handle]

@[simp] theorem State.issueCore_idxVal (idx : BitVec 4) : (s.issueCore i b).idxVal idx = (s.core i).idxVal idx := by simp [Core.idxVal]

@[simp] theorem State.issueCore_streamDesc (f : StreamFields) : (s.issueCore i b).streamDesc f = (s.core i).streamDesc f := by
  simp [Core.streamDesc, Core.storeWords]

@[simp] theorem State.issueCore_streamTouch (o : StreamOp) (f : StreamFields) : streamTouch (s.issueCore i b) o f = streamTouch (s.core i) o f := by
  simp [streamTouch, hTouch]

end

/-- A stream issues only while fewer than eight stand in its slot (R60). -/
theorem stalls_false_room {s : State} {x i : Nat} {c : Core} {b : Bundle} (h : stalls s x i c b = false) :
    (b.ld ≠ .nop → c.ld.length < 8) ∧ (b.st ≠ .nop → c.st.length < 8) := by
  simp only [stalls, Bool.or_eq_false_iff, Bool.and_eq_false_imp, bne_iff_ne, decide_eq_false_iff_not, Nat.not_le] at h
  obtain ⟨⟨⟨⟨⟨⟨-, ld⟩, st⟩, -⟩, -⟩, -⟩, -⟩ := h
  exact ⟨ld, st⟩

/-- Settles O15: the stream's slot and ranges are read off the core after the bundle, its packet or its context's fault off
the steps of the LD and ST slots outside the core. -/
theorem streamCommandsTakeTheirSlot : Obligations.StreamCommandsTakeTheirSlot := by
  intro s x rest o f hx
  dsimp only
  intro h
  refine answers_issues (slotOf_streamCommand ..) hx h ?_
  obtain ⟨live, -, -, -, room⟩ := issues_iff.mp h
  obtain ⟨roomLd, roomSt⟩ := stalls_false_room room
  have starts := withStream_startsStream o f rest (s.issueCore (coreIdx x) (withStream o f rest))
  refine ⟨streamId (s.issueCore (coreIdx x) (withStream o f rest)) o (withStream o f rest), ?_, ?_, ?_, ?_, ?_, fun st => ?_, fun ld => ?_, fun w hw => ?_, fun hq he => ?_, fun hq he => ?_⟩
  · simpa using starts.id_ge
  · rw [issueNow_core_self]
    exact starts.id_lt s
  · simp [mkStream]
  · simp [mkStream]
  · simp [mkStream]
  · have slot : (withStream o f rest).st = .go o f := by simp [withStream, st]
    constructor
    · rw [issueNow_core_self, issuedCore_st_go s _ _ slot, State.issueCore_st, streamId, if_pos st]
    · simpa using roomSt (by simp [slot])
  · have slot : (withStream o f rest).ld = .go o f := by simp [withStream, ld]
    constructor
    · rw [issueNow_core_self, issuedCore_ld_go s _ _ slot, State.issueCore_ld, streamId, if_neg (by simp [ld])]
    · simpa using roomLd (by simp [slot])
  · rw [issueNow_core_self]
    exact starts.ranges s (by simpa using hw)
  · rw [issueNow_eq, ← State.issueCore_streamDesc s (coreIdx x) (withStream o f rest)]
    exact State.issueOut_hasPacket starts _ _ _ hq (by simpa using he)
  · rw [issueNow_eq]
    exact State.issueOut_faulted starts _ _ _ hq (by simpa using he) (State.coreLive_owner live).2

end Sys2Proof.Machine
end

section
/-! A bundle that issues and faults its context beside its core: an RREAD in the ST slot (R48, R49). -/
namespace Sys2Proof.Machine

open Sys2Proof

/-- The bundle of a MZERO command whose ST slot holds an RREAD, which only the LD slot may hold (Table 3.8). -/
def readInStSlot : Bundle := { mx := .mzero 0, st := .go .rread {} }

/-- Core 0 of the RUNNING context 3, with that bundle marked as tested, so that its illegal slot is not found again. -/
def readMarkedTested : State :=
  { mg := { ready := true, stage := 9, powered := true }
    fs := { clocked := true, coreRails := true }
    ctxs := [(3, { st := .running })]
    panel := { cores := [(0, { owner := some 3, issuing := true, tested := some readInStSlot })] } }

theorem readInStSlot_issues : Issues readMarkedTested 0 readInStSlot = true := by decide +kernel

/-- What the command leaves as state of context 3. -/
def ctxAfterReadInStSlot : Option CtxState :=
  match exec (.mzero { cx := 0, cy := 0 } 0 { st := .go .rread {} }) readMarkedTested with
  | .next t => some (t.ctx 3).st
  | _ => none

theorem ctxAfterReadInStSlot_faulted : ctxAfterReadInStSlot = some .faulted := by decide +kernel

/-- Refutes O20: the statement does not ask that a bundle marked as tested has passed its tests. An RREAD in the ST slot,
illegal and marked so, issues; its request faults the context, though no RREAD stands in the LD slot and no QREAD or
QWRITE in either. -/
theorem not_issueFrameOutsideTheCore : ¬ Obligations.IssueFrameOutsideTheCore := by
  intro frame
  obtain ⟨t, run, -, -, -, -, -, -, -, -, kept⟩ :=
    frame (.mzero { cx := 0, cy := 0 } 0 { st := .go .rread {} }) { cx := 0, cy := 0 } readInStSlot readMarkedTested rfl rfl readInStSlot_issues
  have ctxs : t.ctxs = readMarkedTested.ctxs := by
    refine (kept (fun f h => by simp [readInStSlot] at h) fun o f h queue => ?_).1
    simp only [readInStSlot, reduceCtorEq, LsOp.go.injEq, false_or] at h
    rw [← h.1] at queue
    exact absurd queue (by decide)
  have running : (t.ctx 3).st = .running := by
    unfold State.ctx
    rw [ctxs]
    rfl
  have faulted := ctxAfterReadInStSlot_faulted
  rw [ctxAfterReadInStSlot, run] at faulted
  simp [running] at faulted

end Sys2Proof.Machine
end
section
/-! The canonical form of the machine (R69, R81, log 11): what keeps it of a core, of a stack port and of the whole state. The
lemmas are named after the operations, in the namespace of the form, so that a proof is read beside the definition it is about. -/
namespace Sys2Proof.Machine

open Sys2Proof

/-! ## The form of a core, of a stack port, of the machine -/

/-- The core's memories are canonical, its LEN is in range, and a bundle that has passed its tests is legal. -/
def Core.Canonical (c : Core) : Prop := c.canonical = true

/-- The bytes of a stack are canonical. -/
def StackPort.Canonical (p : StackPort) : Prop := Cells.wf 0 p.mem = true

/-- Every memory of the machine is canonical. -/
def State.Canonical (s : State) : Prop := s.canonical = true

/-- A next state, where there is one, is canonical. -/
def Out.Canonical : Out → Prop
  | .next s => s.Canonical
  | _ => True

theorem State.canonical_iff {s : State} :
    s.Canonical ↔ s.panel.cores.all (fun e => e.2.canonical) = true ∧ s.ports.all (fun e => Cells.wf 0 e.2.mem) = true ∧
      Cells.wf 0 s.link.mem = true := by
  simp only [State.Canonical, State.canonical, Bool.and_eq_true, and_assoc]

/-- An update of the fields that hold no memory. -/
theorem State.Canonical.upd {s : State} (h : s.Canonical) {ident tcb fs tel ctxs fns ep mg sec mon smb lines free pending
    seqs flight nextNum phase up flit rate width keyed insecure badwr aborts perst cfgServed msix ideKeys} :
    ({ ident, tcb, fs, tel, ctxs, fns, ep, mg, sec, mon, smb, lines, free, pending, ports := s.ports,
       panel := { cores := s.panel.cores, seqs, flight, nextNum, phase },
       link := { mem := s.link.mem, up, flit, rate, width, keyed, insecure, badwr, aborts, perst, cfgServed, msix,
                 ideKeys } } : State).Canonical := h

/-- An update of the fields that the form does not speak of. -/
theorem Core.Canonical.upd {c : Core} (h : c.Canonical) {ctrs cmps bidx issuing stopped cyc earliest phase pendTicks
    waitTick idle slip slipTotal latSlip latIdle latFlags latSlips newFlags counted flags sticky mxFree mxAcc veFree
    tileFree moves fetch regs ranges nextId ld st unclaimed due qnotes watch eccSingle eccDouble correctable uncorr owner
    keys redWait lent selfFail} :
    ({ acc := c.acc, tile := c.tile, vec := c.vec, mem := c.mem, istore := c.istore, dstore := c.dstore,
       handles := c.handles, lenRow := c.lenRow, lenCol := c.lenCol, tested := c.tested, ctrs, cmps, bidx, issuing,
       stopped, cyc, earliest, phase, pendTicks, waitTick, idle, slip, slipTotal, latSlip, latIdle, latFlags, latSlips,
       newFlags, counted, flags, sticky, mxFree, mxAcc, veFree, tileFree, moves, fetch, regs, ranges, nextId, ld, st,
       unclaimed, due, qnotes, watch, eccSingle, eccDouble, correctable, uncorr, owner, keys, redWait, lent,
       selfFail } : Core).Canonical := h

/-- An update of the fields of a port other than its bytes. -/
theorem StackPort.Canonical.upd {p : StackPort} (h : p.Canonical) {trained disabled selfRef resetting bad wear ueBlocks ce
    ue patrol patrolAt refreshes slots pairs wins retained regions eccSingle eccDouble lines stkQ nextNum lastQp engine
    engineQ woken idleSince scrubs libUsed} :
    ({ mem := p.mem, trained, disabled, selfRef, resetting, bad, wear, ueBlocks, ce, ue, patrol, patrolAt, refreshes,
       slots, pairs, wins, retained, regions, eccSingle, eccDouble, lines, stkQ, nextNum, lastQp, engine, engineQ, woken,
       idleSince, scrubs, libUsed } : StackPort).Canonical := h

/-! ## Branches, lists -/

theorem State.Canonical.ite {s t : State} {p : Prop} [Decidable p] (hs : s.Canonical) (ht : t.Canonical) :
    (if p then s else t).Canonical := by split <;> assumption

theorem State.Canonical.foldl {α : Type} {f : State → α → State} {s : State} {l : List α} (h : s.Canonical)
    (hf : ∀ {t : State} (a : α), t.Canonical → (f t a).Canonical) : (l.foldl f s).Canonical :=
  l.foldlRecOn f h fun _ ht a _ => hf a ht

theorem State.Canonical.foldr {α : Type} {f : α → State → State} {s : State} {l : List α} (h : s.Canonical)
    (hf : ∀ {t : State} (a : α), t.Canonical → (f a t).Canonical) : (l.foldr f s).Canonical := by
  induction l with
  | nil => exact h
  | cons a l ih => exact hf a ih

theorem Core.Canonical.ite {c k : Core} {p : Prop} [Decidable p] (hc : c.Canonical) (hk : k.Canonical) :
    (if p then c else k).Canonical := by split <;> assumption

theorem Core.Canonical.foldl {α : Type} {f : Core → α → Core} {c : Core} {l : List α} (h : c.Canonical)
    (hf : ∀ {k : Core} (a : α), k.Canonical → (f k a).Canonical) : (l.foldl f c).Canonical :=
  l.foldlRecOn f h fun _ ht a _ => hf a ht

theorem StackPort.Canonical.foldl {α : Type} {f : StackPort → α → StackPort} {p : StackPort} {l : List α} (h : p.Canonical)
    (hf : ∀ {k : StackPort} (a : α), k.Canonical → (f k a).Canonical) : (l.foldl f p).Canonical :=
  l.foldlRecOn f h fun _ ht a _ => hf a ht

/-! ## Cores of a state -/

section
variable {s : State} (h : s.Canonical)
include h

theorem State.Canonical.core (i : Nat) : (s.core i).Canonical :=
  Table.all_get _ i _ Core.canonical rfl (State.canonical_iff.mp h).1

theorem State.Canonical.setCore {i : Nat} {c : Core} (hc : c.Canonical) : (s.setCore i c).Canonical := by
  obtain ⟨cores, rest⟩ := State.canonical_iff.mp h
  exact State.canonical_iff.mpr ⟨Table.all_put _ i c Core.canonical hc cores, rest⟩

theorem State.Canonical.modCore {i : Nat} {f : Core → Core}
    (hf : ∀ {k : Core}, k.Canonical → (f k).Canonical := by exact fun hk => hk) : (s.modCore i f).Canonical :=
  h.setCore (hf (h.core i))

theorem State.Canonical.modCores {is : List Nat} {f : Nat → Core → Core}
    (hf : ∀ {i : Nat} {k : Core}, k.Canonical → (f i k).Canonical := by exact fun hk => hk) : (s.modCores is f).Canonical := by
  obtain ⟨cores, rest⟩ := State.canonical_iff.mp h
  refine State.canonical_iff.mpr ⟨?_, rest⟩
  change (is.foldr _ s.panel.cores).all _ = true
  induction is with
  | nil => exact cores
  | cons i is ih => exact Table.all_put _ i _ Core.canonical (hf (Table.all_get _ i _ Core.canonical rfl ih)) ih

/-- A change of the listed cores, entry by entry, that keeps the form of each. -/
theorem State.Canonical.mapCores {f : Nat × Core → Nat × Core} {seqs flight nextNum phase}
    (hf : ∀ {e : Nat × Core}, e.2.Canonical → (f e).2.Canonical := by exact fun he => he) :
    ({ s with panel := { cores := s.panel.cores.map f, seqs, flight, nextNum, phase } } : State).Canonical := by
  obtain ⟨cores, rest⟩ := State.canonical_iff.mp h
  refine State.canonical_iff.mpr ⟨?_, rest⟩
  rw [List.all_map, List.all_eq_true]
  exact fun e he => hf (List.all_eq_true.mp cores e he)

theorem State.Canonical.mapOwned {c : Nat} {f : Nat → Core → Core}
    (hf : ∀ {i : Nat} {k : Core}, k.Canonical → (f i k).Canonical := by exact fun hk => hk) : (s.mapOwned c f).Canonical :=
  h.mapCores fun he => by split; exacts [hf he, he]

/-! ## Stack ports and host memory -/

theorem State.Canonical.port (p : Nat) : (s.port p).Canonical :=
  Table.all_get _ p _ (fun k : StackPort => Cells.wf 0 k.mem) rfl (State.canonical_iff.mp h).2.1

theorem State.Canonical.setPort {p : Nat} {k : StackPort} (hk : k.Canonical) : (s.setPort p k).Canonical := by
  obtain ⟨cores, ports, mem⟩ := State.canonical_iff.mp h
  exact State.canonical_iff.mpr ⟨cores, Table.all_put _ p k (fun k : StackPort => Cells.wf 0 k.mem) hk ports, mem⟩

theorem State.Canonical.modPort {p : Nat} {f : StackPort → StackPort}
    (hf : ∀ {k : StackPort}, k.Canonical → (f k).Canonical := by exact fun hk => hk) : (s.modPort p f).Canonical :=
  h.setPort (hf (h.port p))

/-- A change of the listed ports, entry by entry, that keeps the form of each. -/
theorem State.Canonical.mapPorts {f : Nat × StackPort → Nat × StackPort}
    (hf : ∀ {e : Nat × StackPort}, e.2.Canonical → (f e).2.Canonical := by exact fun he => he) :
    ({ s with ports := s.ports.map f } : State).Canonical := by
  obtain ⟨cores, ports, mem⟩ := State.canonical_iff.mp h
  refine State.canonical_iff.mpr ⟨cores, ?_, mem⟩
  rw [List.all_map, List.all_eq_true]
  exact fun e he => hf (List.all_eq_true.mp ports e he)

theorem State.Canonical.hostWrite {a : Nat} {bs : List Byte} : (s.hostWrite a bs).Canonical := by
  obtain ⟨cores, ports, mem⟩ := State.canonical_iff.mp h
  exact State.canonical_iff.mpr ⟨cores, ports, Cells.wf_write 0 bs _ a mem⟩

/-! ## Updates that touch no memory -/

theorem State.Canonical.setCtx {c : Nat} {x : Context} : (s.setCtx c x).Canonical := h
theorem State.Canonical.modCtx {c : Nat} {f : Context → Context} : (s.modCtx c f).Canonical := h
theorem State.Canonical.setFn {f : Nat} {x : HostFn} : (s.setFn f x).Canonical := h
theorem State.Canonical.modFn {f : Nat} {g : HostFn → HostFn} : (s.modFn f g).Canonical := h
theorem State.Canonical.setEpPort {p : Nat} {x : EpPort} : (s.setEpPort p x).Canonical := h
theorem State.Canonical.modEpPort {p : Nat} {g : EpPort → EpPort} : (s.modEpPort p g).Canonical := h
theorem State.Canonical.setJob {j : Nat} {x : Job} : (s.setJob j x).Canonical := h
theorem State.Canonical.ctl {m : CtlMsg} : (s.ctl m).Canonical := h
theorem State.Canonical.dropDesc {d : Taken} : (s.dropDesc d).Canonical := h
theorem State.Canonical.passTo {t : Nat} : (s.passTo t).Canonical := h
theorem State.Canonical.setMg {f : Mgmt → Mgmt} : (s.setMg f).Canonical := h
end

/-! ## Meanings at an operand -/

theorem Out.Canonical.branch {o u : Out} {p : Prop} [Decidable p] (ho : Out.Canonical o) (hu : Out.Canonical u) :
    Out.Canonical (if p then o else u) := by split <;> assumption

theorem Out.Canonical.atCore {x : CoreId} {s : State} {f : Nat → State → State} (hf : (f (coreIdx x) s).Canonical) :
    Out.Canonical (atCore x s f) := by
  unfold Machine.atCore
  split
  exacts [hf, trivial]

theorem Out.Canonical.atFn {f : Nat} {s : State} {g : State → State} (hg : (g s).Canonical) : Out.Canonical (atFn f s g) := by
  unfold Machine.atFn
  split
  exacts [hg, trivial]

theorem Out.Canonical.atBar {f : Nat} {s : State} {g : State → State} (h : s.Canonical) (hg : (g s).Canonical) :
    Out.Canonical (atBar f s g) := by
  unfold Machine.atBar
  split
  exacts [.ite hg h, trivial]

theorem Out.Canonical.atEp {p : BitVec 3} {s : State} {g : State → State} (hg : (g s).Canonical) : Out.Canonical (atEp p s g) := by
  unfold Machine.atEp
  split
  exacts [hg, trivial]

theorem Out.Canonical.atPod {p : BitVec 8} {s : State} {g : State → State} (hg : (g s).Canonical) : Out.Canonical (atPod p s g) := by
  unfold Machine.atPod
  split
  exacts [hg, trivial]

theorem Out.Canonical.atField {f : BitVec 6} {s : State} {g : State → State} (hg : (g s).Canonical) :
    Out.Canonical (atField f s g) := by
  unfold Machine.atField
  split
  exacts [hg, trivial]

/-! ## Cores -/

theorem Core.canonical_fields {c : Core} : c.Canonical ↔
    Cells.wf 0 c.acc = true ∧ Cells.wf 0 c.tile = true ∧ Cells.wf 0 c.vec = true ∧ Cells.wf 0 c.mem = true ∧
      Cells.wf 0 c.istore = true ∧ Cells.wf 0 c.dstore = true ∧ Cells.wf handleReset c.handles = true ∧ c.lenOk = true ∧
      c.tested.all (fun b => b.illegal?.isNone) = true := by
  simp only [Core.Canonical, Core.canonical, Bool.and_eq_true, and_assoc]

section
variable {c : Core} (h : c.Canonical)
include h

theorem Core.Canonical.withAcc {m : Cells (BitVec 32)} (hm : Cells.wf 0 m = true) : ({ c with acc := m } : Core).Canonical := by
  obtain ⟨-, rest⟩ := Core.canonical_fields.mp h
  exact Core.canonical_fields.mpr ⟨hm, rest⟩

theorem Core.Canonical.withTile {m : Cells (BitVec 32)} (hm : Cells.wf 0 m = true) : ({ c with tile := m } : Core).Canonical := by
  obtain ⟨acc, -, rest⟩ := Core.canonical_fields.mp h
  exact Core.canonical_fields.mpr ⟨acc, hm, rest⟩

theorem Core.Canonical.withVec {m : Cells (BitVec 32)} (hm : Cells.wf 0 m = true) : ({ c with vec := m } : Core).Canonical := by
  obtain ⟨acc, tile, -, rest⟩ := Core.canonical_fields.mp h
  exact Core.canonical_fields.mpr ⟨acc, tile, hm, rest⟩

theorem Core.Canonical.withMem {m : Cells Byte} (hm : Cells.wf 0 m = true) : ({ c with mem := m } : Core).Canonical := by
  obtain ⟨acc, tile, vec, -, rest⟩ := Core.canonical_fields.mp h
  exact Core.canonical_fields.mpr ⟨acc, tile, vec, hm, rest⟩

theorem Core.Canonical.withIstore {m : Cells (BitVec 32)} (hm : Cells.wf 0 m = true) : ({ c with istore := m } : Core).Canonical := by
  obtain ⟨acc, tile, vec, mem, -, rest⟩ := Core.canonical_fields.mp h
  exact Core.canonical_fields.mpr ⟨acc, tile, vec, mem, hm, rest⟩

theorem Core.Canonical.withDstore {m : Cells Byte} (hm : Cells.wf 0 m = true) : ({ c with dstore := m } : Core).Canonical := by
  obtain ⟨acc, tile, vec, mem, istore, -, rest⟩ := Core.canonical_fields.mp h
  exact Core.canonical_fields.mpr ⟨acc, tile, vec, mem, istore, hm, rest⟩

theorem Core.Canonical.withHandles {m : Cells (BitVec 128)} (hm : Cells.wf handleReset m = true) :
    ({ c with handles := m } : Core).Canonical := by
  obtain ⟨acc, tile, vec, mem, istore, dstore, -, rest⟩ := Core.canonical_fields.mp h
  exact Core.canonical_fields.mpr ⟨acc, tile, vec, mem, istore, dstore, hm, rest⟩

theorem Core.Canonical.withTested {b : Option Bundle} (hb : b.all (fun b => b.illegal?.isNone) = true) :
    ({ c with tested := b } : Core).Canonical := by
  obtain ⟨acc, tile, vec, mem, istore, dstore, handles, len, -⟩ := Core.canonical_fields.mp h
  exact Core.canonical_fields.mpr ⟨acc, tile, vec, mem, istore, dstore, handles, len, hb⟩

theorem Core.Canonical.withLen {r l : Nat} (hr : 1 ≤ r ∧ r ≤ 16) (hl : 1 ≤ l ∧ l ≤ 16) :
    ({ c with lenRow := r, lenCol := l } : Core).Canonical := by
  obtain ⟨acc, tile, vec, mem, istore, dstore, handles, -, tested⟩ := Core.canonical_fields.mp h
  exact Core.canonical_fields.mpr ⟨acc, tile, vec, mem, istore, dstore, handles, by simp [Core.lenOk, hr, hl], tested⟩

theorem Core.Canonical.acc_wf : Cells.wf 0 c.acc = true := by
  obtain ⟨hf, -⟩ := Core.canonical_fields.mp h
  exact hf

theorem Core.Canonical.tile_wf : Cells.wf 0 c.tile = true := by
  obtain ⟨-, hf, -⟩ := Core.canonical_fields.mp h
  exact hf

theorem Core.Canonical.vec_wf : Cells.wf 0 c.vec = true := by
  obtain ⟨-, -, hf, -⟩ := Core.canonical_fields.mp h
  exact hf

theorem Core.Canonical.mem_wf : Cells.wf 0 c.mem = true := by
  obtain ⟨-, -, -, hf, -⟩ := Core.canonical_fields.mp h
  exact hf

theorem Core.Canonical.istore_wf : Cells.wf 0 c.istore = true := by
  obtain ⟨-, -, -, -, hf, -⟩ := Core.canonical_fields.mp h
  exact hf

theorem Core.Canonical.dstore_wf : Cells.wf 0 c.dstore = true := by
  obtain ⟨-, -, -, -, -, hf, -⟩ := Core.canonical_fields.mp h
  exact hf

theorem Core.Canonical.handles_wf : Cells.wf handleReset c.handles = true := by
  obtain ⟨-, -, -, -, -, -, hf, -⟩ := Core.canonical_fields.mp h
  exact hf

theorem Core.Canonical.len_wf : c.lenOk = true := by
  obtain ⟨-, -, -, -, -, -, -, hf, -⟩ := Core.canonical_fields.mp h
  exact hf

theorem Core.Canonical.tested_wf : c.tested.all (fun b => b.illegal?.isNone) = true := by
  obtain ⟨-, -, -, -, -, -, -, -, hf⟩ := Core.canonical_fields.mp h
  exact hf

/-! ## Registers, handles and bytes of a core -/

theorem Core.Canonical.setHandle {n : Nat} {v : BitVec 128} : (c.setHandle n v).Canonical :=
  h.withHandles (Cells.wf_set _ _ _ _ h.handles_wf)

theorem Core.Canonical.setVlane {v n : Nat} {x : BitVec 32} : (c.setVlane v n x).Canonical :=
  h.withVec (Cells.wf_set _ _ _ _ h.vec_wf)

theorem Core.Canonical.putLanes {ls : List (Nat × BitVec 32)} : (c.putLanes ls).Canonical :=
  h.withTile (Cells.wf_foldl_set _ _ _ _ _ h.tile_wf)

theorem Core.Canonical.putVlanes {v : Nat} {ls : List (Nat × BitVec 32)} : (c.putVlanes v ls).Canonical :=
  h.withVec (Cells.wf_foldl_set _ _ _ _ _ h.vec_wf)

theorem Core.Canonical.writeBytes {a : Nat} {bs : List Byte} : (c.writeBytes a bs).Canonical :=
  h.withMem (Cells.wf_write _ _ _ _ h.mem_wf)

theorem Core.Canonical.writeDesc {a : Nat} {bs : List Byte} : ({ c with dstore := Cells.write 0 c.dstore a bs } : Core).Canonical :=
  h.withDstore (Cells.wf_write _ _ _ _ h.dstore_wf)

theorem Core.Canonical.raise {f : BitVec 5} : (c.raise f).Canonical := h
theorem Core.Canonical.setCtr {n : Nat} {v : BitVec 32} : (c.setCtr n v).Canonical := h
theorem Core.Canonical.pass {n : Nat} : (c.pass n).Canonical := h
theorem Core.Canonical.slipBy {n : Nat} : (c.slipBy n).Canonical := .ite h h
theorem Core.Canonical.waitOne {b : Bundle} : (c.waitOne b).Canonical := .ite h h
theorem Core.Canonical.stallOne {b : Bundle} (hb : b.illegal? = none) : (c.stallOne b).Canonical :=
  h.slipBy.withTested (by simp [hb])
theorem Core.Canonical.sendWatch {o : SyOp} : (Machine.sendWatch c o).Canonical := by
  unfold Machine.sendWatch
  split
  exacts [.ite h h, h]
end

/-! ## The memory of a stack -/

section
variable {p : StackPort} (h : p.Canonical)
include h

theorem StackPort.Canonical.write {a : Nat} {bs : List Byte} : (p.write a bs).Canonical := Cells.wf_write 0 bs _ a h
theorem StackPort.Canonical.ite {k : StackPort} {q : Prop} [Decidable q] (hk : k.Canonical) : (if q then p else k).Canonical := by
  split <;> assumption
end

/-! # Cores -/

/-! ## Stream elements -/

theorem Core.Canonical.correct {c : Core} (h : c.Canonical) {a n : Nat} : (c.correct a n).Canonical := .ite h (.upd h)

theorem Core.Canonical.overwritten {c : Core} (h : c.Canonical) {a n : Nat} : (c.overwritten a n).Canonical :=
  .ite h (.correct (.upd h))

theorem Core.Canonical.store {c k : Core} (h : c.Canonical) {a : Nat} {bs : List Byte} (hk : c.store a bs = .inl k) :
    k.Canonical := by
  unfold Core.store at hk
  split at hk
  · cases hk
  · cases hk
    exact .overwritten (.writeBytes h)

theorem Core.Canonical.runsEcc {c : Core} (h : c.Canonical) {rs : List (Nat × List Byte)} : (c.runsEcc rs).Canonical :=
  .ite h (.upd h)

theorem Core.Canonical.storeRuns {c : Core} (h : c.Canonical) {es : List (Nat × Nat × List Byte)} :
    (c.storeRuns es).1.Canonical := by
  unfold Core.storeRuns
  dsimp only
  split
  · exact .runsEcc (.foldl h fun _ hk => .writeBytes hk)
  · exact .runsEcc (.foldl h fun _ hk => .writeBytes hk)

/-! ## GATHER and SCATTER, turn by turn -/

theorem CopySt.writes_canonical {ls : List (Nat × Nat)} {t : CopySt} (h : t.c.Canonical) : (t.writes ls).1.c.Canonical := by
  unfold CopySt.writes
  dsimp only
  refine List.foldlRecOn (motive := fun q : CopySt × List Nat × Bool => q.1.c.Canonical) _ _ h fun q hq e _ => ?_
  split
  · exact hq
  · split
    · exact .storeRuns hq
    · exact .storeRuns hq

theorem CopySt.indexReads_c (ix : List (Nat × Nat)) (q : CopySt × List Nat) : (CopySt.indexReads ix q).1.c = q.1.c := by
  unfold CopySt.indexReads
  dsimp only
  refine List.foldlRecOn (motive := fun r : CopySt × List Nat × Bool => r.1.c = q.1.c) _ _ rfl fun r hr e _ => ?_
  split
  · exact hr
  · split
    · exact hr
    · exact hr

theorem CopySt.readOne_canonical {r : StreamRec} {old : List (Nat × List Byte)} {q : CopySt × List Nat × Option Nat × Bool}
    (h : q.1.c.Canonical) : (CopySt.readOne r old q).1.c.Canonical := by
  unfold CopySt.readOne
  dsimp only
  split
  · exact h
  split
  · exact h
  split
  · exact h
  · exact h
  split
  · exact h
  split
  · exact h
  · simp only [apply_ite CopySt.c, ite_self]
    exact h.correct

theorem CopySt.turn_canonical {r : StreamRec} {ix : List (Nat × Nat)} {t : CopySt} (h : t.c.Canonical) :
    (t.turn r ix).c.Canonical := by
  unfold CopySt.turn
  dsimp only
  split
  · exact CopySt.writes_canonical h
  · refine List.foldlRecOn (motive := fun q : CopySt × List Nat × Option Nat × Bool => q.1.c.Canonical) _ _ ?_
      fun q hq _ _ => CopySt.readOne_canonical hq
    dsimp only
    rw [CopySt.indexReads_c]
    exact CopySt.writes_canonical h

theorem CopySt.run_canonical {r : StreamRec} {ix : List (Nat × Nat)} (fuel : Nat) {t : CopySt} (h : t.c.Canonical) :
    (CopySt.run r ix fuel t).c.Canonical := by
  induction fuel generalizing t with
  | zero => exact h
  | succ n ih =>
    unfold CopySt.run
    split
    · exact h
    · exact ih (CopySt.turn_canonical h)

theorem Core.Canonical.copyElems {c : Core} (h : c.Canonical) {r : StreamRec} : (Machine.copyElems r c).1.Canonical :=
  .foldl (CopySt.run_canonical (t := { c := c, n := r.count }) _ h) fun _ hk => .ite hk.correct hk

/-! ## Source bytes of a QWRITE or MSEND -/

theorem Core.Canonical.correctSource {c : Core} (h : c.Canonical) {r : StreamRec} : (c.correctSource r).Canonical := by
  unfold Core.correctSource
  refine .ite h (.foldl h fun i hk => .ite (.correct hk) ?_)
  dsimp only
  split
  · exact .correct (.ite (.correct hk) hk)
  · exact .ite (.correct hk) hk

/-! ## The target -/

theorem Core.Canonical.deliver {c : Core} (h : c.Canonical) {r : StreamRec} {first : Nat} {bs : List Byte} :
    (c.deliver r first bs).1.Canonical :=
  .upd (.ite (.foldl (.storeRuns h) fun _ hk => .correct hk) (.storeRuns h))

theorem Core.Canonical.setStream {c : Core} (h : c.Canonical) {r : StreamRec} : (c.setStream r).Canonical := .upd h

/-! ## Effects of the SC slot -/

theorem Core.Canonical.scApply {c : Core} (h : c.Canonical) {c0 : Core} {o : ScOp} : (scApply c0 c o).Canonical := by
  unfold Machine.scApply
  split
  · exact .setCtr h
  · exact .setCtr h
  · exact .upd h
  · exact .setCtr h
  · exact .upd h
  · exact h
  · exact h
  · exact h
  · exact h
  · exact h

/-! ## Effects of the MX slot -/

theorem Core.Canonical.mxApply {c : Core} (h : c.Canonical) {c0 : Core} {o : MxOp} : (Machine.mxApply c0 c o).Canonical := by
  unfold Machine.mxApply
  split
  · exact .raise (h.withAcc (Cells.wf_foldl_set _ _ _ _ _ h.acc_wf))
  · exact h.withAcc (Cells.wf_drop _ _ _ h.acc_wf)
  · exact h

/-! ## Effects of the VE slot -/

theorem Core.Canonical.clearAcc {c : Core} (h : c.Canonical) {p : Nat → Bool} :
    ({ c with acc := Cells.drop c.acc p } : Core).Canonical :=
  h.withAcc (Cells.wf_drop _ _ _ h.acc_wf)

theorem Core.Canonical.veApply {c : Core} (h : c.Canonical) {c0 : Core} {o : VeOp} (ho : o.legal = true) :
    (Machine.veApply c0 c o).Canonical := by
  unfold Machine.veApply
  split
  · simp only [VeOp.legal, Bool.and_eq_true, decide_eq_true_eq, and_assoc] at ho
    obtain ⟨r1, r16, l1, l16⟩ := ho
    exact h.withLen ⟨r1, r16⟩ ⟨l1, l16⟩
  · exact .putLanes h
  · exact .foldl h fun _ hk => .writeBytes hk
  · exact .ite (.clearAcc (.putLanes h)) (.putLanes h)
  · exact .ite (.putVlanes h) (.putVlanes h)
  · exact .putLanes h
  · exact .raise (.putLanes h)
  · exact .raise (.putVlanes h)
  · exact .foldl h fun _ hk => .raise (.putLanes (.setVlane (.setVlane hk)))
  · exact .foldl h fun _ hk => .raise (.setVlane (.setVlane hk))
  · exact h

/-! ## Effects of the LD, ST and SY slots -/

theorem Core.Canonical.lsApply {c : Core} (h : c.Canonical) {c0 : Core} {isSt : Bool} {o : LsOp} :
    (lsApply c0 c isSt o).Canonical := by
  unfold Machine.lsApply
  dsimp only
  split
  · exact .upd h
  · exact h

theorem Core.Canonical.tickLatch {c : Core} (h : c.Canonical) {o : SyOp} : (tickLatch c o).Canonical := by
  unfold Machine.tickLatch
  split
  · exact .upd h
  · exact h

theorem Core.Canonical.syApply {c : Core} (h : c.Canonical) {c0 : Core} {o : SyOp} : (syApply c0 c o).Canonical := by
  unfold Machine.syApply
  split
  · exact .upd h
  · exact .upd h
  · exact .upd h
  · exact .upd h
  · exact .upd h
  · exact .upd h
  · exact .upd h
  · exact h

/-! ## Cycles of a core -/

theorem Core.Canonical.restart {c : Core} (h : c.Canonical) : (c.restart).Canonical := .upd h

theorem Core.Canonical.timing {c : Core} (h : c.Canonical) {lattab : Nat} {c0 : Core} {b : Bundle} :
    (timing lattab c0 c b).Canonical :=
  .upd h

theorem Core.Canonical.eccAfter {c : Core} (h : c.Canonical) {c0 : Core} {b : Bundle} : (c.eccAfter c0 b).Canonical :=
  .ite h (.foldl (.foldl h (fun _ ht => .correct ht)) (fun _ ht => .overwritten ht))

/-! ## Acceptance -/

theorem Core.Canonical.releaseAttend {c : Core} (h : c.Canonical) {id part : Nat} : (c.releaseAttend id part).Canonical := .upd h

/-! ## The walk -/

theorem Core.Canonical.releaseInputs {c : Core} (h : c.Canonical) {id : Nat} : (c.releaseInputs id).Canonical :=
  .releaseAttend (.releaseAttend (.releaseAttend h))

/-! ## Data in motion -/

theorem Core.Canonical.endStream {c : Core} (h : c.Canonical) {id : Nat} : (c.endStream id).Canonical := .upd h

/-! ## Execution state -/

theorem Core.Canonical.clearExec {c : Core} (h : c.Canonical) : c.clearExec.Canonical :=
  Core.canonical_fields.mpr ⟨rfl, rfl, rfl, h.mem_wf, h.istore_wf, h.dstore_wf, h.handles_wf, rfl, rfl⟩

theorem Core.Canonical.startClear {c : Core} (h : c.Canonical) : (c.startClear).Canonical := .upd (.clearExec h)
theorem Core.Canonical.dropStreams {c : Core} (h : c.Canonical) : (c.dropStreams).Canonical := .upd h

/-! ## The commit -/

theorem Core.Canonical.mirror {c : Core} (h : c.Canonical) {e : BitVec 128} : (c.mirror e).Canonical := .ite h.writeDesc h

theorem Core.Canonical.afterWrites {c : Core} (h : c.Canonical) {ws : List (Nat × BitVec 128)} : (c.afterWrites ws).Canonical :=
  .foldl (.foldl h (fun _ ht => .setHandle ht)) (fun _ ht => .ite ht (.mirror ht))

/-! ## Bytes in handles and windows -/

theorem Core.Canonical.hostStore {c k : Core} (h : c.Canonical) {n off : Nat} {bs : List Byte}
    (hk : c.hostStore n off bs = .inl k) :
    k.Canonical := by
  unfold Core.hostStore at hk
  dsimp only at hk
  split at hk
  · cases hk
  next c1 h1 =>
    cases hk
    have hc1 : c1.Canonical := h.store h1
    exact .ite hc1.writeDesc hc1

/-! ## Partitions -/

theorem Core.Canonical.fence {k : Core} (h : k.Canonical) {c : Nat} : (k.fence c).Canonical :=
  .upd (.foldl h (fun _ ht => .setHandle ht))

/-! ## Taking a partition away -/

/-- A scrubbed core has its memories empty and its handle entries written anew, whatever they held. -/
theorem Core.Canonical.scrub (c : Core) : c.scrub.Canonical :=
  .foldl (c := { cyc := c.cyc, phase := c.phase, nextId := c.nextId, uncorr := c.uncorr, selfFail := c.selfFail }) rfl fun _
    hk => hk.setHandle

/-! ## The cores as the image leaves them -/

theorem Core.Canonical.loadHandles {k : Core} (h : k.Canonical) {m : List Byte} {px py : Nat} :
    (loadHandles m px py k).Canonical :=
  .afterWrites h

theorem trapFill_wf {n : Nat} {is : Cells (BitVec 32)} (h : Cells.wf 0 is = true) : Cells.wf 0 (trapFill n is) = true :=
  List.foldlRecOn (motive := fun t => Cells.wf 0 t = true) _ _ h fun _ ht _ _ => Cells.wf_write _ _ _ _ ht

theorem stopStore_wf : Cells.wf 0 stopStore = true := trapFill_wf rfl

theorem blockStore_wf (m : List Byte) (r : CodeRec) : Cells.wf 0 (blockStore m r) = true :=
  trapFill_wf (Cells.wf_write _ _ _ _ rfl)

theorem Core.Canonical.loadData {k : Core} (h : k.Canonical) {m : List Byte} {r : DataRec} : (loadData m r k).Canonical :=
  .ite (.writeDesc h.writeBytes) h.writeBytes

/-! ## Writing the image -/

theorem Core.Canonical.writeGen {k : Core} (h : k.Canonical) {f : StreamFields} {g : Nat} : (writeGen k f g).Canonical :=
  .writeDesc h.writeBytes

/-! ## Module reset -/

theorem Core.Canonical.afterReset {c : Core} (h : c.Canonical) : c.afterReset.Canonical := .upd (.startClear h)

/-! # Stack ports -/

/-! ## Parts of the state by number -/

theorem StackPort.Canonical.setPair {p : StackPort} (h : p.Canonical) {c q : Nat} {x : Pair} : (p.setPair c q x).Canonical :=
  .upd h

/-! ## Stack bytes and their errors -/

theorem StackPort.Canonical.correct {p : StackPort} (h : p.Canonical) {a n : Nat} : (p.correct a n).Canonical := .ite h (.upd h)

theorem StackPort.Canonical.overwritten {p : StackPort} (h : p.Canonical) {a n : Nat} : (p.overwritten a n).Canonical :=
  .ite h (.correct (.upd h))

theorem StackPort.Canonical.store {p : StackPort} (h : p.Canonical) {a : Nat} {bs : List Byte} : (p.store a bs).Canonical :=
  .overwritten (.write h)

theorem StackPort.Canonical.countUe {p : StackPort} (h : p.Canonical) {tierA : Bool} {a : Nat} : (p.countUe tierA a).Canonical :=
  .upd h

theorem StackPort.Canonical.touch {p : StackPort} (h : p.Canonical) {now : Nat} : (p.touch now).Canonical := .upd h

/-! ## What a member computes -/

/-! ## The commit -/

theorem StackPort.Canonical.grantSlots {p : StackPort} (h : p.Canonical) {c : Nat} {mask : BitVec 64} :
    (p.grantSlots c mask).Canonical :=
  .upd h

/-! ## Microbatches at a tick -/

theorem StackPort.Canonical.askEngine {k : StackPort} (h : k.Canonical) {a : Nat × Nat} : (k.askEngine a).Canonical :=
  .ite (.upd h) (.ite h (.upd h))

/-! ## Module reset -/

theorem StackPort.Canonical.afterReset {k : StackPort} (h : k.Canonical) {p : Nat} : (k.afterReset p).Canonical := .upd h

/-! ## Loss of power -/

theorem StackPort.Canonical.afterPower {p : StackPort} (h : p.Canonical) {n : Nat} : (p.afterPower n).Canonical :=
  StackPort.Canonical.ite (p := {}) rfl (.upd h)

/-! # The state, and the meaning of each command that has a tick of its own -/

/-! ## Rings -/

section
variable {s : State} (h : s.Canonical)
include h

theorem State.Canonical.putEvent {f code cls ctx source arg0 arg1 : Nat} :
    (s.putEvent f code cls ctx source arg0 arg1).Canonical :=
  .ite (.upd (.setFn (.hostWrite h))) (.setFn (.hostWrite h))

theorem State.Canonical.flushLost {f : Nat} : (s.flushLost f).Canonical := .ite h (.putEvent (.setFn h))

theorem State.Canonical.post {f code cls ctx source arg0 arg1 : Nat} : (s.post f code cls ctx source arg0 arg1).Canonical :=
  .ite (.setFn (.flushLost h)) (.putEvent (.flushLost h))

theorem State.Canonical.postPf {code source arg0 arg1 : Nat} : (s.postPf code source arg0 arg1).Canonical := .post h
theorem State.Canonical.postCtx {c code source arg0 arg1 : Nat} : (s.postCtx c code source arg0 arg1).Canonical := .post h

theorem State.Canonical.postAll {code source arg0 arg1 : Nat} : (s.postAll code source arg0 arg1).Canonical :=
  .postPf (.foldl h (fun _ ht => .postCtx ht))

/-! ## The fault log -/

theorem State.Canonical.logAs {m code cls ctx source arg0 arg1 : Nat} : (s.logAs m code cls ctx source arg0 arg1).Canonical :=
  .ite (.upd h) (.upd h)

theorem State.Canonical.logFault {code cls ctx source arg0 arg1 : Nat} : (s.logFault code cls ctx source arg0 arg1).Canonical :=
  .logAs h

/-! ## Completion records -/

theorem State.Canonical.record {d : Taken} {status detail epoch lvf frame : Nat} {late rrec : Bool} :
    (s.record d status detail epoch lvf frame late rrec).Canonical :=
  .ite (.setFn h) (.ite (.upd (.setFn (.hostWrite h))) (.setFn (.hostWrite h)))

theorem State.Canonical.complete {d : Taken} {status detail : Nat} : (s.complete d status detail).Canonical :=
  .ite (.dropDesc (.record h)) (.dropDesc h)

theorem State.Canonical.completeSubmit {d : Taken} {status detail : Nat} : (s.completeSubmit d status detail).Canonical := by
  unfold State.completeSubmit
  dsimp only
  refine .ite ?_ h
  split
  · exact .modCtx (.dropDesc (.record h))
  · exact .dropDesc (.record h)

theorem State.Canonical.endBatch {c : Nat} {b : Batch} {status detail : Nat} {rrec : Bool} :
    (s.endBatch c b status detail rrec).Canonical :=
  .modCtx (.record h)

theorem State.Canonical.endBatches {c status detail : Nat} : (s.endBatches c status detail).Canonical :=
  .foldl h fun _ ht => .endBatch ht

/-! ## Context faults -/

theorem State.Canonical.tellFault {c code source arg0 arg1 : Nat} : (s.tellFault c code source arg0 arg1).Canonical :=
  .logFault (.post h)

theorem State.Canonical.reportFault {c code source arg0 arg1 : Nat} : (s.reportFault c code source arg0 arg1).Canonical :=
  .ite h (.ctl h)

theorem State.Canonical.ctxFault {c code source arg0 arg1 : Nat} : (s.ctxFault c code source arg0 arg1).Canonical := by
  unfold State.ctxFault
  dsimp only
  split
  · exact .reportFault (.modCtx (.endBatches (.tellFault h)))
  · exact .reportFault (.modCtx (.endBatches (.tellFault h)))
  · exact .reportFault (.modCtx (.endBatches (.tellFault h)))
  · exact .tellFault h

theorem State.Canonical.coreFault {i code arg0 arg1 : Nat} : (s.coreFault i code arg0 arg1).Canonical := by
  unfold State.coreFault
  split
  · exact .ctxFault h
  · exact h

/-! ## Time -/

theorem State.Canonical.draw : s.draw.2.Canonical := .upd h

/-! ## Cores that fail -/

theorem State.Canonical.retireNo {n source : Nat} : (s.retireNo n source).Canonical := .ite h (.logFault (.upd h))
theorem State.Canonical.retire {i : Nat} : (s.retire i).Canonical := .retireNo h

theorem State.Canonical.coreUe {i : Nat} : (s.coreUe i).Canonical :=
  .ite (.retire (.setCore h (.upd (h.core _)))) (.setCore h (.upd (h.core _)))

theorem State.Canonical.dataFault {i : Nat} {f : Nat × Nat × Nat} : (s.dataFault i f).Canonical := .coreFault (.ite (.coreUe h) h)

/-! ## Packets -/

theorem State.Canonical.inject {p : MeshPacket} : (s.inject p).Canonical := .upd h

theorem State.Canonical.sendLocal {x i : Nat} {r : StreamRec} {rs : List (Nat × List Byte)} {whole : Bool} :
    (s.sendLocal x i r rs whole).Canonical := by
  unfold State.sendLocal
  dsimp only
  split
  · exact .ctxFault h
  · exact .foldl h fun _ ht => .inject ht

theorem State.Canonical.pushEp {x i sid : Nat} {p : EpPacket} : (s.pushEp x i sid p).Canonical := .upd h

theorem State.Canonical.sendRemote {x i md cx : Nat} {r : StreamRec} {rs : List (Nat × List Byte)} {whole : Bool} :
    (s.sendRemote x i md cx r rs whole).Canonical := by
  unfold State.sendRemote
  dsimp only
  split
  · exact .ctxFault h
  · exact .foldl h fun _ ht => .pushEp ht

theorem State.Canonical.rankFault {x i rank : Nat} {unplanned : Bool} : (s.rankFault x i rank unplanned).Canonical := .ctxFault h

theorem State.Canonical.sendBytes {x i : Nat} {r : StreamRec} {rs : List (Nat × List Byte)} {whole : Bool} :
    (s.sendBytes x i r rs whole).Canonical := by
  unfold State.sendBytes
  split
  · exact .sendLocal h
  · exact .sendRemote h
  · exact .rankFault h
  · exact .rankFault h

theorem State.Canonical.sendRead {x i : Nat} {r : StreamRec} : (s.sendRead x i r).Canonical := by
  unfold State.sendRead
  dsimp only
  split
  · split
    · exact .ctxFault h
    · exact .inject h
  · split
    · exact .ctxFault h
    · exact .foldl h (fun _ ht => .upd (.pushEp ht))
  · exact .rankFault h
  · exact .rankFault h

/-! ## The target -/

theorem State.Canonical.refuse {p : MeshPacket} : (s.refuse p).Canonical := .ctxFault h
theorem State.Canonical.takePacket {p : MeshPacket} : (s.takePacket p).Canonical := .upd h
theorem State.Canonical.discardFlits {c n : Nat} : (s.discardFlits c n).Canonical := .modCtx h
theorem State.Canonical.discard {p : MeshPacket} : (s.discard p).Canonical := .discardFlits h

theorem State.Canonical.landWrite {p : MeshPacket} : (s.landWrite p).Canonical := by
  unfold State.landWrite
  dsimp only
  refine .ite (.refuse h) ?_
  split
  · exact .dataFault h
  · refine .setCore h (.ite (.upd (.store ?_ ‹_›)) (.store ?_ ‹_›))
    · exact (h.core _)
    · exact (h.core _)

theorem State.Canonical.stopStream {i id : Nat} {f : Nat × Nat × Nat} : (s.stopStream i id f).Canonical := by
  unfold State.stopStream
  dsimp only
  refine .dataFault ?_
  split
  · exact .setCore h (.setStream (h.core _))
  · exact h

theorem State.Canonical.landReply {i sid first : Nat} {bs : List Byte} {last : Bool} :
    (s.landReply i sid first bs last).Canonical := by
  unfold State.landReply
  dsimp only
  split
  · exact h
  · refine .ite h ?_
    split
    · exact .stopStream (.setCore h (.deliver (h.core _)))
    · exact .ite (.setCore (.setCore h (.deliver (h.core _))) (.setStream (.deliver (h.core _))))
        (.setCore h (.deliver (h.core _)))

/-! ## Reduction -/

theorem State.Canonical.finishKey {p : MeshPacket} {k : RedKey} : (s.finishKey p k).Canonical := by
  unfold State.finishKey
  dsimp only
  split
  · exact .dataFault (.setCore h (.upd (h.core _)))
  · refine .setCore h (.upd (.store ?_ ‹_›))
    exact .raise (.upd (h.core _))

theorem State.Canonical.absorb {p : MeshPacket} : (s.absorb p).Canonical := by
  unfold State.absorb
  dsimp only
  refine .ite (.refuse h) ?_
  split
  · exact .ite (.ctxFault h) (.ite (.finishKey h) (.setCore h (.upd (h.core _))))
  · exact .ite (.finishKey h) (.setCore h (.upd (h.core _)))

/-! ## Effects of the LD, ST and SY slots -/

theorem State.Canonical.postPacket {x i : Nat} {r : StreamRec} : (postPacket x i r s).Canonical :=
  .modPort h (fun ht => .upd (.setPair ht))

theorem State.Canonical.sendPacket {x i : Nat} {r : StreamRec} : (sendPacket x i r s).Canonical := by
  unfold Machine.sendPacket
  dsimp only
  split
  · exact .postPacket h
  · exact .ctxFault h

theorem State.Canonical.lsPost {x i : Nat} {c0 : Core} {id : Nat} {op : LsOp} : (lsPost x i c0 id op s).Canonical := by
  unfold Machine.lsPost
  split
  · exact .ite (.sendPacket h) (.ite (.sendRead h) h)
  · exact h

theorem State.Canonical.syPost {x i : Nat} {c0 : Core} {id : Nat} {op : SyOp} : (syPost x i c0 id op s).Canonical := by
  unfold Machine.syPost
  dsimp only
  split
  · exact .upd h
  · exact h

/-! ## Cycles of a core -/

end

theorem Core.Canonical.untested {c : Core} (h : c.Canonical) {n : BitVec 10} :
    ({ c with bidx := n, tested := none } : Core).Canonical :=
  Core.canonical_fields.mpr ⟨h.acc_wf, h.tile_wf, h.vec_wf, h.mem_wf, h.istore_wf, h.dstore_wf, h.handles_wf, h.len_wf, rfl⟩

theorem State.Canonical.issueNow {s : State} (h : s.Canonical) {x i : Nat} {c : Core} (hc : c.Canonical) {b : Bundle}
    (legal : b.ve.legal = true) : (Machine.issueNow s x i c b).Canonical :=
  .syPost (.lsPost (.lsPost (.setCore h (.untested (.pass (.eccAfter (.syApply (.lsApply (.lsApply (.mxApply (.veApply
    (.scApply (.tickLatch (.timing hc))) legal)))))))))))

theorem Bundle.ve_legal {b : Bundle} (h : b.illegal? = none) : b.ve.legal = true := by
  unfold Bundle.illegal? at h
  split at h
  · cases h
  split at h
  · cases h
  next hv => simpa using hv

/-- A bundle that meets no fault has passed its tests, now or in an earlier cycle: it is legal (R68). -/
theorem Core.Canonical.bundleFault_legal {c : Core} (h : c.Canonical) {s : State} {x i : Nat} {b : Bundle}
    (hf : bundleFault s x i c b = none) : b.illegal? = none := by
  unfold bundleFault at hf
  split at hf
  next tested => simpa [tested] using h.tested_wf
  next =>
    unfold issueFault at hf
    split at hf
    · cases hf
    · assumption

theorem State.Canonical.tryIssue {s : State} (h : s.Canonical) {patient : Bool} {i : Nat} {b : Bundle} :
    (Machine.tryIssue patient i b s).Canonical := by
  have hw : (sendWatch (s.core i) b.sy).Canonical := .sendWatch (h.core i)
  have hp := hw.pass (n := (sendWatch (s.core i) b.sy).earliest - (sendWatch (s.core i) b.sy).cyc)
  refine .ite h (.ite (h.setCore hw.waitOne) (.ite (h.setCore hw.pass) ?_))
  dsimp only
  split
  · exact .coreFault (h.setCore hp)
  next untroubled =>
    have legal := hp.bundleFault_legal untroubled
    split
    · exact .dataFault (h.setCore hp)
    · exact .ite (h.setCore (hp.stallOne legal)) (.ite (h.setCore (hp.slipBy.stallOne legal))
        (h.issueNow hp.slipBy (Bundle.ve_legal legal)))

section
variable {s : State} (h : s.Canonical)
include h

theorem Out.Canonical.runBundle {x : CoreId} {b : Bundle} : Out.Canonical (Machine.runBundle x b s) :=
  .atCore h.tryIssue

/-! ## Stack bytes and their errors -/

theorem State.Canonical.portUe {p a : Nat} : (s.portUe p a).Canonical :=
  .ite (.setPort h (.countUe (h.port _))) (.logFault (.setPort h (.countUe (h.port _))))

/-! ## Bytes of a window -/

theorem State.Canonical.windowWrite {x p off : Nat} {bs : List Byte} : (s.windowWrite x p off bs).Canonical := by
  unfold State.windowWrite
  dsimp only
  split
  · split
    · exact .ctxFault (.portUe h)
    · exact .modPort h (fun ht => .store (.touch ht))
  · exact h

theorem State.Canonical.windowUsed {x p off n : Nat} : (s.windowUsed x p off n).Canonical := by
  unfold State.windowUsed
  split
  · exact .modPort h (fun ht => .correct (.touch ht))
  · exact h

theorem State.Canonical.windowRead {u : State} {x p off n : Nat} (hu : s.windowRead x p off n = .inr u) : u.Canonical := by
  unfold State.windowRead at hu
  split at hu
  · split at hu
    · cases hu
      exact .ctxFault (.portUe (.windowUsed h))
    · cases hu
  · cases hu

/-! ## Updates of a pair -/

theorem State.Canonical.setPair {p x q : Nat} {pr : Pair} : (s.setPair p x q pr).Canonical := .modPort h fun ht => .setPair ht

/-! ## Packets of a sequencer -/

theorem State.Canonical.postAtt {x p q : Nat} {w : AttAcc} {bs : List Byte} : (s.postAtt x p q w bs).Canonical :=
  .modPort h (fun ht => .upd (.setPair ht))

theorem State.Canonical.nextPage {pod m : Nat} : (s.nextPage pod m).Canonical := by
  unfold State.nextPage
  dsimp only
  split
  · exact h
  · split
    · exact h
    · split
      · exact .postAtt (.upd h)
      · exact .upd h

theorem State.Canonical.endWalk {j : AttendJob} : (s.endWalk j).Canonical := .modPort h fun ht => .upd ht
theorem State.Canonical.setSeq {pod : Nat} {j : AttendJob} : (s.setSeq pod j).Canonical := .upd h

theorem State.Canonical.closeWalk {pod : Nat} : (s.closeWalk pod).Canonical := by
  unfold State.closeWalk
  split
  · exact h
  · exact .ite (.endWalk (.setSeq h)) h

theorem State.Canonical.pageServed {pod m b : Nat} {bs : List Byte} : (s.pageServed pod m b bs).Canonical := by
  unfold State.pageServed
  dsimp only
  split
  · exact h
  · exact .closeWalk (.ite (.nextPage (.setSeq h)) (.setSeq h))

theorem State.Canonical.startPages {pod : Nat} : (s.startPages pod).Canonical := by
  unfold State.startPages
  split
  · exact h
  · exact .closeWalk (.foldl h (fun _ ht => .nextPage (.nextPage ht)))

theorem State.Canonical.appendServed {pod : Nat} : (s.appendServed pod).Canonical := by
  unfold State.appendServed
  dsimp only
  split
  · exact h
  · exact .ite (.startPages (.setSeq h)) (.setSeq h)

/-! ## Acceptance -/

theorem State.Canonical.lendTeam {pod : Nat} {j : AttendJob} : (s.lendTeam pod j).Canonical :=
  .foldl h (fun _ ht => .modCore ht (fun hu => .upd hu))

/-! ## The walk -/

theorem State.Canonical.endIf {j : AttendJob} : (s.endIf j).Canonical := .ite (.endWalk h) h

theorem State.Canonical.seqFault {pod : Nat} {j : AttendJob} {f : Nat × Nat × Nat} : (s.seqFault pod j f).Canonical :=
  .ctxFault (.endIf (.setSeq h))

theorem State.Canonical.selectorRead {pod sel : Nat} : (s.selectorRead pod sel).Canonical := by
  unfold State.selectorRead
  dsimp only
  split
  · exact h
  · split
    · exact .seqFault h
    · exact .ite (.postAtt (.setSeq (.modPort h (fun ht => .upd ht)))) (.setSeq (.modPort h (fun ht => .upd ht)))

theorem State.Canonical.directoryRead {pod : Nat} {e : BitVec 64} : (s.directoryRead pod e).Canonical := by
  unfold State.directoryRead
  dsimp only
  split
  · exact h
  · split
    · exact .seqFault h
    · exact .ite h (.ite (.seqFault h) (.postAtt (.setSeq h)))

theorem State.Canonical.beginWalk {pod : Nat} {j : AttendJob} : (s.beginWalk pod j).Canonical := by
  unfold State.beginWalk
  dsimp only
  split
  · exact .dataFault h
  · exact .dataFault h
  · have hk : ∀ {a n b m id : Nat}, ((((s.core j.core).correct a n).correct b m).releaseInputs id).Canonical :=
      .releaseInputs (.correct (.correct (h.core j.core)))
    refine .ite (.startPages (.setSeq (h.setCore hk))) (.foldl (.setSeq (h.setCore hk)) fun _ ht => ?_)
    split
    exacts [ht, ht.postAtt]

theorem State.Canonical.entriesRead {pod : Nat} {es : List (BitVec 64)} : (s.entriesRead pod es).Canonical := by
  unfold State.entriesRead
  dsimp only
  split
  · exact h
  · refine .ite h (.ite (.seqFault h) ?_)
    split
    · exact .seqFault h
    · exact .beginWalk h

theorem State.Canonical.accept {pod : Nat} {j : AttendJob} : (s.accept pod j).Canonical := by
  unfold State.accept
  dsimp only
  refine .ite (.ctxFault h) ?_
  split
  · exact .ctxFault h
  · refine .ite (.ctxFault h) (.ite ?_ (.ite h (.postAtt (.lendTeam (.setSeq h)))))
    split
    · exact .ctxFault h
    · exact h

/-! ## Updates of a pair -/

theorem State.Canonical.sendLines {p x : Nat} {ls : List RetLine} : (s.sendLines p x ls).Canonical := .modPort h fun ht => .upd ht

theorem State.Canonical.stopPacket {p x q : Nat} {k : QPacket} {source : Nat} {f : Nat × Nat × Nat} :
    (s.stopPacket p x q k source f).Canonical := by
  unfold State.stopPacket
  dsimp only
  refine .ctxFault ?_
  split
  · exact .ite (.setCore (.setPair h) (.setStream (State.Canonical.core (.setPair h) _))) (.setPair h)
  · exact .setPair h

theorem State.Canonical.endRead {p x q : Nat} {k : QPacket} {t : Sending} : (s.endRead p x q k t).Canonical :=
  .sendLines (.setPair h)

theorem State.Canonical.endEmpty {p x q : Nat} {k : QPacket} {t : Sending} {pos : Nat} :
    (s.endEmpty p x q k t pos).Canonical := by
  unfold State.endEmpty
  dsimp only
  split
  · exact .stopPacket (.sendLines h)
  · exact .endRead h

/-! ## One atom access -/

theorem State.Canonical.feedRead {p x q : Nat} {k : QPacket} {bs : List Byte} {fin : Bool} :
    (s.feedRead p x q k bs fin).Canonical := by
  unfold State.feedRead
  dsimp only
  split
  · exact .stopPacket (.sendLines h)
  · exact .ite (.endRead h) (.sendLines (.setPair h))

theorem State.Canonical.serveAccess {p x q : Nat} {k : QPacket} : (s.serveAccess p x q k).Canonical := by
  unfold State.serveAccess
  dsimp only
  split
  · exact .stopPacket (.ite (.portUe h) h)
  · refine .ite (.feedRead (.modPort h (fun ht => .foldl ht (fun _ hu => .correct hu)))) ?_
    split
    · exact .stopPacket (.portUe h)
    · exact .setPair (.modPort h (fun ht => .overwritten (.foldl ht (fun _ hu => .write hu))))

theorem State.Canonical.serveRingWrite {p x q : Nat} {k : QPacket} : (s.serveRingWrite p x q k).Canonical := by
  unfold State.serveRingWrite
  dsimp only
  split
  · refine .ite (.stopPacket h) ?_
    split
    · exact .stopPacket (.portUe h)
    · exact .setPair (.modPort h (fun ht => .store ht))
  · exact .setPair h

theorem State.Canonical.serveRingRead {p x q : Nat} {k : QPacket} {r : RingPkt} : (s.serveRingRead p x q k r).Canonical := by
  unfold State.serveRingRead
  dsimp only
  refine .ite (.endEmpty h) ?_
  split
  · exact .stopPacket (.portUe h)
  · split
    · exact .ite (.endEmpty (.feedRead (.modPort h (fun ht => .correct ht)))) (.feedRead (.modPort h (fun ht => .correct ht)))
    · exact .feedRead (.modPort h (fun ht => .correct ht))

theorem State.Canonical.takeRing {p x q : Nat} {k : QPacket} : (s.takeRing p x q k).Canonical := by
  unfold State.takeRing
  dsimp only
  split
  · exact .endEmpty (.setPair h)
  · exact .ite (.setPair h) (.postCtx (.setPair h))

theorem State.Canonical.settlePair {p x q : Nat} (n : Nat) : (State.settlePair p x q n s).Canonical := by
  induction n generalizing s with
  | zero => exact h
  | succ n ih =>
    unfold State.settlePair
    refine .ite h ?_
    split
    · split
      exacts [ih h.stopPacket, h]
    · split
      exacts [ih h.takeRing, h]

theorem State.Canonical.settlePort {p : Nat} : (s.settlePort p).Canonical :=
  .foldl h fun _ ht => .settlePair ht _

theorem State.Canonical.attServed {x : Nat} {w : AttAcc} {bs : List Byte} : (s.attServed x w bs).Canonical := by
  unfold State.attServed
  refine .ite h ?_
  split
  · exact .pageServed h
  · exact .appendServed h
  · exact .selectorRead h
  · exact .directoryRead h
  · exact .entriesRead h

theorem State.Canonical.serveAtt {p x q : Nat} {k : QPacket} {t : AttAcc} : (s.serveAtt p x q k t).Canonical := by
  unfold State.serveAtt
  dsimp only
  split
  · exact .ctxFault (.setPair (.portUe h))
  · exact .ite (.setPair (.modPort h (fun ht => .ite (.correct ht) (.store ht))))
      (.attServed (.setPair (.modPort h (fun ht => .ite (.correct ht) (.store ht)))))

theorem State.Canonical.servePacket {p x q : Nat} {k : QPacket} : (s.servePacket p x q k).Canonical := by
  unfold State.servePacket
  dsimp only
  refine .ite (.ite (.serveRingWrite h) ?_) ?_
  · split
    · exact h
    · split
      · exact .serveRingRead h
      · exact .endEmpty h
  · split
    · exact .serveAtt h
    · exact .serveAccess h

theorem State.Canonical.serveStk {p x : Nat} : (s.serveStk p x).Canonical := by
  unfold State.serveStk
  dsimp only
  split
  · exact h
  · exact .modPort (.windowWrite h) fun ht => .upd ht

theorem State.Canonical.serveSlot {p slot : Nat} : (s.serveSlot p slot).Canonical := by
  unfold State.serveSlot
  dsimp only
  refine .ite h ?_
  split
  · exact .settlePort h
  · split
    · exact .serveStk (.settlePort h)
    · split
      · exact .settlePort h
      · exact .servePacket (.modPort (.settlePort h) (fun ht => .upd (.touch ht)))

/-! ## Flush -/

theorem State.Canonical.flushPacket {p x q : Nat} {k : QPacket} : (s.flushPacket p x q k).Canonical := by
  unfold State.flushPacket
  split
  · exact .attServed (.setPair h)
  · exact .ite (.endEmpty h) (.setPair h)

theorem State.Canonical.flushPair {p x q : Nat} : (s.flushPair p x q).Canonical :=
  .postCtx (.foldl (.setPair h) (fun _ ht => .flushPacket ht))

/-! ## Self-refresh -/

theorem State.Canonical.patrol {p n : Nat} : (s.patrol p n).Canonical :=
  .foldl (.setPort h (.upd (h.port _))) (fun _ ht => .logFault (.portUe ht))

theorem State.Canonical.wakeTierA : (s.wakeTierA).Canonical := .foldl h (fun _ ht => .ite (.modPort ht (fun hu => .upd hu)) ht)

/-! ## Data in motion -/

theorem State.Canonical.queueNotice {i : Nat} {r : StreamRec} : (s.queueNotice i r).Canonical :=
  .ite (.setCore h (.upd (h.core _))) (.coreFault h)

theorem State.Canonical.handData {x i : Nat} {r : StreamRec} {bs : List Byte} {whole : Bool} :
    (s.handData x i r bs whole).Canonical :=
  .modPort h fun ht => .setPair ht

theorem State.Canonical.finishStream {i : Nat} {r : StreamRec} : (finishStream i r s).Canonical := by
  unfold Machine.finishStream
  dsimp only
  split
  · split
    · exact .stopStream (.setCore h (.copyElems (h.core _)))
    · exact .setCore h (.endStream (.copyElems (h.core _)))
  · split
    · exact .stopStream (.setCore h (.copyElems (h.core _)))
    · exact .setCore h (.endStream (.copyElems (h.core _)))
  · exact .ite (.queueNotice (.setCore h (.endStream (h.core _)))) h
  · exact .ite (.setCore h (.endStream (h.core _))) h
  · split
    · exact .stopStream (.handData (.setCore h (.correctSource (h.core _))))
    · exact .handData (.setCore h (.endStream (.correctSource (h.core _))))
  · split
    · exact .stopStream (.sendBytes (.setCore h (.correctSource (h.core _))))
    · exact .sendBytes (.setCore h (.endStream (.correctSource (h.core _))))

theorem Out.Canonical.execStreamComplete {x : CoreId} {st : Bool} {id : Nat} : Out.Canonical (execStreamComplete x st id s) := by
  unfold Machine.execStreamComplete
  dsimp only
  refine .atCore ?_
  split
  · exact .ite h (.finishStream h)
  · exact h

theorem Out.Canonical.execMeshPacketLand {src dst : CoreId} {chan : BitVec 4} :
    Out.Canonical (execMeshPacketLand src dst chan s) := by
  unfold Machine.execMeshPacketLand
  dsimp only
  refine .branch trivial (.atCore ?_)
  split
  · exact h
  · exact .ite (.discard (.takePacket h)) (.ite (.landReply (.takePacket h)) (.landWrite (.takePacket h)))

theorem State.Canonical.notice {i : Nat} {tag : BitVec 3} : (s.notice i tag).Canonical := by
  unfold State.notice
  dsimp only
  split
  · exact .setCore h (.upd (h.core _))
  · exact .ite (.setCore h (.upd (h.core _))) (.coreFault h)

theorem Out.Canonical.execMeshNotice {x : CoreId} {tag : BitVec 3} : Out.Canonical (execMeshNotice x tag s) :=
  .atCore (.ite (.notice (.setCore h (.upd (h.core _)))) h)

theorem State.Canonical.replyLocal {p : MeshPacket} {bs : List Byte} : (s.replyLocal p bs).Canonical :=
  .foldl h fun _ ht => .inject ht

theorem State.Canonical.replyRemote {p : MeshPacket} {hd : EpPacket} {bs : List Byte} : (s.replyRemote p hd bs).Canonical := by
  unfold State.replyRemote
  split
  · exact .ctxFault h
  · exact .pushEp h

theorem Out.Canonical.execRreadRequest {src dst : CoreId} {chan : BitVec 4} :
    Out.Canonical (execRreadRequest src dst chan s) := by
  unfold Machine.execRreadRequest
  dsimp only
  refine .branch trivial (.atCore ?_)
  split
  · exact h
  · refine .ite (.discard (.takePacket h)) (.ite (.refuse (.takePacket h)) ?_)
    split
    · exact .dataFault (.takePacket h)
    · split
      · exact .replyLocal (.setCore (.takePacket h) (.correct (State.Canonical.core (.takePacket h) _)))
      · exact .replyRemote (.setCore (.takePacket h) (.correct (State.Canonical.core (.takePacket h) _)))

theorem Out.Canonical.execReduceAddPacket {src dst : CoreId} : Out.Canonical (execReduceAddPacket src dst s) := by
  unfold Machine.execReduceAddPacket
  dsimp only
  refine .branch trivial (.atCore ?_)
  split
  · exact h
  · exact .ite (.discard (.takePacket h)) (.ite h (.ite (.setCore h (.upd (h.core _)))
      (.absorb (.takePacket (.setCore h (.upd (h.core _)))))))

/-! ## Stack ports -/

theorem Out.Canonical.execPortSlotService {port : BitVec 5} {slot : BitVec 6} : Out.Canonical (execPortSlotService port slot s) :=
  .serveSlot h

theorem Out.Canonical.execReturnLine {port : BitVec 5} {x : CoreId} : Out.Canonical (execReturnLine port x s) := by
  unfold Machine.execReturnLine
  dsimp only
  refine .atCore ?_
  split
  · exact h
  · exact .ite (.landReply (.setPort h (.upd (h.port _)))) (.discardFlits (.setPort h (.upd (h.port _))))

theorem Out.Canonical.execQlevAnswer {x : CoreId} : Out.Canonical (execQlevAnswer x s) := by
  unfold Machine.execQlevAnswer
  dsimp only
  refine .atCore ?_
  split
  · exact .ite (.setCore h (.upd (h.core _))) h
  · exact h

theorem Out.Canonical.execQrFlush {c : BitVec 6} {port : BitVec 5} {qp : BitVec 8} : Out.Canonical (execQrFlush c port qp s) :=
  .ite (.flushPair h) h

theorem Out.Canonical.execPortRefresh {port : BitVec 5} : Out.Canonical (execPortRefresh port s) :=
  .ite (.setPort h (.upd (h.port _))) h

theorem Out.Canonical.execPatrolScrub {port : BitVec 5} {atoms : Nat} : Out.Canonical (execPatrolScrub port atoms s) :=
  .ite (.patrol h) h

theorem Out.Canonical.execSelfRefreshEntry {port : BitVec 5} : Out.Canonical (execSelfRefreshEntry port s) :=
  .ite (.modPort (.ite (.passTo h) h) (fun ht => .upd ht)) h

/-! ## The attention sequencer's commands -/

theorem Out.Canonical.execAttendAccept {pod : BitVec 8} : Out.Canonical (execAttendAccept pod s) := by
  unfold Machine.execAttendAccept
  refine .atPod ?_
  split
  · exact .ite h (.accept h)
  · exact h

/-! ## What a member computes -/

theorem State.Canonical.releaseMember {pod : Nat} {j : AttendJob} {m : Nat} : (s.releaseMember pod j m).Canonical :=
  .upd (.upd (.setCore h (.upd (.writeBytes (h.core _)))))

theorem State.Canonical.memberRelease {pod m : Nat} {j : AttendJob} : (s.memberRelease pod m j).Canonical := by
  unfold State.memberRelease
  dsimp only
  refine .ite h (.ite (.releaseMember h) ?_)
  split
  · exact .dataFault h
  · refine .releaseMember (.setCore h (.store ?_ ‹_›))
    exact (h.core _)

theorem Out.Canonical.execAttendMemberRelease {pod : BitVec 8} {member : Nat} :
    Out.Canonical (execAttendMemberRelease pod member s) := by
  unfold Machine.execAttendMemberRelease
  refine .atPod ?_
  split
  · exact .ite (.memberRelease h) h
  · exact h

theorem Out.Canonical.execAttendComplete {pod : BitVec 8} : Out.Canonical (execAttendComplete pod s) := by
  unfold Machine.execAttendComplete
  dsimp only
  refine .atPod ?_
  split
  · exact .ite (.upd (.setCore h (.ite (.upd (.raise (.releaseAttend (h.core _)))) (.raise (.releaseAttend (h.core _)))))) h
  · exact h

theorem State.Canonical.leaveAttend {pod : Nat} : (s.leaveAttend pod).Canonical := by
  unfold State.leaveAttend
  dsimp only
  split
  · exact h
  · exact .foldl (.upd (.endIf h)) (fun _ ht => .modCore ht (fun hu => .upd hu))

theorem State.Canonical.endAttend {pod : Nat} : (s.endAttend pod).Canonical :=
  .ite (.mapPorts (.leaveAttend h)) (.leaveAttend h)

/-! ## Execution state -/

theorem State.Canonical.endWalks {c : Nat} : (s.endWalks c).Canonical := .foldl h fun _ ht => .leaveAttend ht
theorem State.Canonical.flushCtx {c : Nat} : (s.flushCtx c).Canonical := .foldl h fun _ ht => .flushPair ht

/-! ## The commit -/

theorem State.Canonical.putShadow {c : Nat} {w : Shadow} : (s.putShadow c w).Canonical :=
  .modCtx (.foldl (.foldl (.modCores h (fun ht => .afterWrites ht)) (fun _ ht => .ite (.setPair ht) ht))
    (fun _ ht => .modPort ht (fun hu => .grantSlots hu)))

theorem State.Canonical.commit {c : Nat} : (s.commit c).Canonical := by
  unfold State.commit
  dsimp only
  refine .ite h ?_
  split
  · exact .foldl (.putShadow h) fun _ ht => .complete ht
  · exact .foldl (.postCtx (.modCtx h)) fun _ ht => .complete ht

/-! ## Quiesce and resume -/

theorem State.Canonical.quiesced {c : Nat} {q : Quiesce} : (s.quiesced c q).Canonical := by
  unfold State.quiesced
  dsimp only
  split
  · exact .complete (.modCtx h)
  · exact .modCtx h

theorem State.Canonical.cutQuiesce {c : Nat} : (s.cutQuiesce c).Canonical :=
  .endBatches (.flushCtx (.endWalks (.mapOwned h (fun ht => .upd (.dropStreams ht)))))

theorem State.Canonical.quiesceNow {c : Nat} {q : Quiesce} {n : Nat} : (s.quiesceNow c q n).Canonical :=
  .ite (.quiesced (.cutQuiesce h)) (.modCtx h)

theorem State.Canonical.drainStep {c n : Nat} : (s.drainStep c n).Canonical := by
  unfold State.drainStep
  dsimp only
  split
  · split
    · exact .ite (.quiesced (.modCtx h)) (.modCtx h)
    · exact h
  · exact h

theorem State.Canonical.resumeNow {c : Nat} : (s.resumeNow c).Canonical := by
  unfold State.resumeNow
  dsimp only
  split
  · exact .complete (.ite (.mapOwned (.modCtx (.wakeTierA h)) (fun ht => .upd (.clearExec ht))) (.modCtx (.wakeTierA h)))
  · exact .ite (.mapOwned (.modCtx (.wakeTierA h)) (fun ht => .upd (.clearExec ht))) (.modCtx (.wakeTierA h))

/-! ## Swap -/

theorem State.Canonical.dropRecheck {c : Nat} : (s.dropRecheck c).Canonical := by
  unfold State.dropRecheck
  dsimp only
  split
  · exact h
  · exact .modCtx (.modPort h (fun ht => .ite (.upd ht) ht))

theorem State.Canonical.switchSwap {c n frame : Nat} : (s.switchSwap c n frame).Canonical := by
  unfold State.switchSwap
  dsimp only
  split
  · exact .modCtx (.dropRecheck h)
  · exact .dropRecheck h

/-! ## Stretch -/

theorem State.Canonical.tellStretch {c at_ old new : Nat} : (s.tellStretch c at_ old new).Canonical :=
  .ite (.postCtx h) (.postCtx h)

theorem State.Canonical.stretchNow {c : Nat} : (s.stretchNow c).Canonical := by
  unfold State.stretchNow
  dsimp only
  split
  · exact h
  · exact .modCtx h

theorem State.Canonical.budgetNow {c : Nat} : (s.budgetNow c).Canonical := by
  unfold State.budgetNow
  split
  · exact .ctxFault (.modCtx h)
  · exact h

/-! ## Overruns and publications -/

theorem State.Canonical.findOverruns {c : Nat} : (s.findOverruns c).Canonical := by
  unfold State.findOverruns
  dsimp only
  split
  · exact h
  · exact .postCtx (.modCtx h)

theorem State.Canonical.lookOverruns {c n : Nat} : (s.lookOverruns c n).Canonical := .ite (.findOverruns (.modCtx h)) (.modCtx h)

theorem State.Canonical.publish {c : Nat} : (s.publish c).Canonical := by
  unfold State.publish
  dsimp only
  split
  · exact .ite (.postCtx (.mapOwned (.modCtx h) (fun ht => .upd ht))) (.mapOwned (.modCtx h) (fun ht => .upd ht))
  · exact .mapOwned (.modCtx h) fun ht => .upd ht

theorem State.Canonical.deliverTick {c : Nat} {fresh : Bool} : (s.deliverTick c fresh).Canonical :=
  .mapOwned h (fun ht => .ite (.upd (.restart ht)) (.ite (.restart ht) (.upd (.restart ht))))

/-! ## Microbatches at a tick -/

theorem State.Canonical.overrunTick {c : Nat} : (s.overrunTick c).Canonical := .foldl h fun _ ht => .endBatch ht
theorem State.Canonical.batchTicks {c : Nat} : (s.batchTicks c).Canonical := .foldl (.modCtx h) fun _ ht => .endBatch ht
theorem State.Canonical.admitNow {c : Nat} {d : Taken} : (s.admitNow c d).Canonical := .modCtx (.modFn h)

theorem State.Canonical.lineAt {c : Nat} {p : Program} {line : List Byte} {i : Nat} : (s.lineAt c p line i).Canonical := by
  unfold State.lineAt
  dsimp only
  refine .ite (.ctxFault h) (.ite (.ctxFault h) ?_)
  split
  · refine .setCore h (.upd (.store ?_ ‹_›))
    exact (h.core _)
  · exact .dataFault h

theorem State.Canonical.lines_ {c : Nat} {d : Option Taken} : (s.lines_ c d).Canonical := by
  unfold State.lines_
  split
  · exact h
  · cases d with
    | none => exact .foldl (.upd h) fun _ ht => .lineAt ht
    | some d => exact .foldl h fun _ ht => .lineAt ht

theorem State.Canonical.askEngine {p : Nat} {a : Nat × Nat} : (s.askEngine p a).Canonical :=
  .ite (.modPort h (fun ht => .askEngine (.upd ht))) h

theorem State.Canonical.startRecheck {c : Nat} : (s.startRecheck c).Canonical := .ite (.askEngine (.modCtx h)) h

/-! ## The tick -/

theorem State.Canonical.countTicks {c : Nat} : (s.countTicks c).Canonical := .modCtx (.modFn h)

theorem State.Canonical.dueEvents {c n frame : Nat} : (s.dueEvents c n frame).Canonical := by
  unfold State.dueEvents
  dsimp only
  refine .drainStep (.modCtx (.ite (.switchSwap ?_) ?_))
  · split
    · exact .ite (.quiesceNow (.ite (.modCtx (.ite (.resumeNow
        (.ite (.budgetNow (.ite (.stretchNow h) h)) (.ite (.stretchNow h) h)))
        (.ite (.budgetNow (.ite (.stretchNow h) h)) (.ite (.stretchNow h) h))))
        (.ite (.resumeNow (.ite (.budgetNow (.ite (.stretchNow h) h)) (.ite (.stretchNow h) h)))
        (.ite (.budgetNow (.ite (.stretchNow h) h)) (.ite (.stretchNow h) h)))))
        (.ite (.modCtx (.ite (.resumeNow (.ite (.budgetNow (.ite (.stretchNow h) h)) (.ite (.stretchNow h) h)))
        (.ite (.budgetNow (.ite (.stretchNow h) h)) (.ite (.stretchNow h) h))))
        (.ite (.resumeNow (.ite (.budgetNow (.ite (.stretchNow h) h)) (.ite (.stretchNow h) h)))
        (.ite (.budgetNow (.ite (.stretchNow h) h)) (.ite (.stretchNow h) h))))
    · exact .ite (.modCtx (.ite (.resumeNow (.ite (.budgetNow (.ite (.stretchNow h) h)) (.ite (.stretchNow h) h)))
        (.ite (.budgetNow (.ite (.stretchNow h) h)) (.ite (.stretchNow h) h))))
        (.ite (.resumeNow (.ite (.budgetNow (.ite (.stretchNow h) h)) (.ite (.stretchNow h) h)))
        (.ite (.budgetNow (.ite (.stretchNow h) h)) (.ite (.stretchNow h) h)))
  · split
    · exact .ite (.quiesceNow (.ite (.modCtx (.ite (.resumeNow
        (.ite (.budgetNow (.ite (.stretchNow h) h)) (.ite (.stretchNow h) h)))
        (.ite (.budgetNow (.ite (.stretchNow h) h)) (.ite (.stretchNow h) h))))
        (.ite (.resumeNow (.ite (.budgetNow (.ite (.stretchNow h) h)) (.ite (.stretchNow h) h)))
        (.ite (.budgetNow (.ite (.stretchNow h) h)) (.ite (.stretchNow h) h)))))
        (.ite (.modCtx (.ite (.resumeNow (.ite (.budgetNow (.ite (.stretchNow h) h)) (.ite (.stretchNow h) h)))
        (.ite (.budgetNow (.ite (.stretchNow h) h)) (.ite (.stretchNow h) h))))
        (.ite (.resumeNow (.ite (.budgetNow (.ite (.stretchNow h) h)) (.ite (.stretchNow h) h)))
        (.ite (.budgetNow (.ite (.stretchNow h) h)) (.ite (.stretchNow h) h))))
    · exact .ite (.modCtx (.ite (.resumeNow (.ite (.budgetNow (.ite (.stretchNow h) h)) (.ite (.stretchNow h) h)))
        (.ite (.budgetNow (.ite (.stretchNow h) h)) (.ite (.stretchNow h) h))))
        (.ite (.resumeNow (.ite (.budgetNow (.ite (.stretchNow h) h)) (.ite (.stretchNow h) h)))
        (.ite (.budgetNow (.ite (.stretchNow h) h)) (.ite (.stretchNow h) h)))

theorem State.Canonical.frameTick {c : Nat} {fresh : Bool} : (s.frameTick c fresh).Canonical := by
  unfold State.frameTick
  dsimp only
  refine .ite ?_ (.overrunTick (.batchTicks (.ite (.deliverTick (.ite h (.publish h)))
    (.mapOwned (.ite h (.publish h)) (fun ht => .restart ht)))))
  split
  · exact .lines_ (.overrunTick (.admitNow (.batchTicks (.ite (.deliverTick (.ite h (.publish h)))
      (.mapOwned (.ite h (.publish h)) (fun ht => .restart ht))))))
  · exact .lines_ (.overrunTick (.batchTicks (.ite (.deliverTick (.ite h (.publish h)))
      (.mapOwned (.ite h (.publish h)) (fun ht => .restart ht)))))

theorem State.Canonical.runaway {c : Nat} : (s.runaway c).Canonical := by
  unfold State.runaway
  split
  · exact .ctxFault h
  · exact h

theorem State.Canonical.tick {c : Nat} : (s.tick c).Canonical := by
  unfold State.tick
  exact .startRecheck (.ite (.frameTick (.countTicks (.commit
    (.modCtx (.dueEvents (.lookOverruns (.modCtx (.passTo (.runaway h)))))))))
    (.countTicks (.commit (.modCtx (.dueEvents (.lookOverruns (.modCtx (.passTo (.runaway h)))))))))

theorem Out.Canonical.execContextTick {c : BitVec 6} : Out.Canonical (execContextTick c s) := .ite h (.tick h)
theorem Out.Canonical.execFrameRunaway {c : BitVec 6} : Out.Canonical (execFrameRunaway c s) := .runaway h

theorem State.Canonical.underCount {c : Nat} {f : State → State}
    (hf : ∀ {t : State}, t.Canonical → (f t).Canonical) : (s.underCount c f).Canonical :=
  .ite (.modCtx (hf (.modCtx h))) (hf h)

theorem Out.Canonical.execQuiesceTick {c : BitVec 6} : Out.Canonical (execQuiesceTick c s) := by
  unfold Machine.execQuiesceTick
  dsimp only
  split
  · exact .ite (.underCount (.passTo h) (fun ht => .drainStep (.quiesceNow (.lookOverruns ht)))) h
  · exact h

theorem Out.Canonical.execSwapSwitch {c : BitVec 6} : Out.Canonical (execSwapSwitch c s) := by
  unfold Machine.execSwapSwitch
  dsimp only
  split
  · exact .ite (.underCount (.passTo h) (fun ht => .switchSwap (.lookOverruns ht))) h
  · exact h

theorem Out.Canonical.execSwapResume {c : BitVec 6} : Out.Canonical (execSwapResume c s) := by
  unfold Machine.execSwapResume
  split
  · exact .modCtx (.passTo h)
  · exact h

theorem Out.Canonical.execStretchOn {c : BitVec 6} : Out.Canonical (execStretchOn c s) := by
  unfold Machine.execStretchOn
  dsimp only
  split
  · exact .stretchNow (.passTo h)
  · exact .budgetNow (.passTo h)
  · exact h

/-! ## Configuration events -/

theorem State.Canonical.cfgCtx {c code space off v : Nat} : (s.cfgCtx c code space off v).Canonical := .postCtx h
theorem State.Canonical.cfgPf {code space off v : Nat} : (s.cfgPf code space off v).Canonical := .postPf h
theorem State.Canonical.cfgFn {f code space off v : Nat} : (s.cfgFn f code space off v).Canonical := .ite (.cfgPf h) (.cfgCtx h)

/-! ## Ring control and doorbells -/

theorem State.Canonical.rctlWrite {f : Nat} {v : BitVec 32} : (s.rctlWrite f v).Canonical :=
  .ite (.cfgFn (.setFn h)) (.ite (.cfgFn (.setFn h)) (.setFn h))

theorem Out.Canonical.execHiRctlEnable {fn : Nat} {v : BitVec 32} : Out.Canonical (execHiRctlEnable fn v s) :=
  .atBar h (.rctlWrite h)

theorem State.Canonical.badDoorbell {f ring : Nat} {v : BitVec 32} : (s.badDoorbell f ring v).Canonical := .post (.modFn h)
theorem State.Canonical.dbSqt {f : Nat} {v : BitVec 32} : (s.dbSqt f v).Canonical := .ite (.modFn h) (.badDoorbell h)
theorem State.Canonical.dbCqh {f : Nat} {v : BitVec 32} : (s.dbCqh f v).Canonical := .ite (.modFn h) (.badDoorbell h)
theorem State.Canonical.dbEqh {f : Nat} {v : BitVec 32} : (s.dbEqh f v).Canonical := .ite (.modFn h) (.badDoorbell h)
theorem State.Canonical.dbCommit {f : Nat} {v : BitVec 32} : (s.dbCommit f v).Canonical := .ite h (.ite (.commit h) h)
theorem Out.Canonical.execHiDbSqt {fn : Nat} {v : BitVec 32} : Out.Canonical (execHiDbSqt fn v s) := .atBar h (.dbSqt h)
theorem Out.Canonical.execHiDbCqh {fn : Nat} {v : BitVec 32} : Out.Canonical (execHiDbCqh fn v s) := .atBar h (.dbCqh h)
theorem Out.Canonical.execHiDbEqh {fn : Nat} {v : BitVec 32} : Out.Canonical (execHiDbEqh fn v s) := .atBar h (.dbEqh h)
theorem Out.Canonical.execHiDbCommit {fn : Nat} {v : BitVec 32} : Out.Canonical (execHiDbCommit fn v s) := .atBar h (.dbCommit h)
theorem Out.Canonical.execEventLost {fn : Nat} : Out.Canonical (execEventLost fn s) := .atFn (.flushLost h)
theorem Out.Canonical.execHostRingLost {fn : Nat} : Out.Canonical (execHostRingLost fn s) := .atFn (.postPf (.modFn h))

/-! ## Taking -/

theorem Out.Canonical.execDescriptorTake {fn : Nat} : Out.Canonical (execDescriptorTake fn s) := by
  unfold Machine.execDescriptorTake
  dsimp only
  refine .atFn (.ite ?_ h)
  split
  · exact .record (.setFn h)
  · exact .modFn (.setFn h)

theorem State.Canonical.setSt {d : Taken} {st : TakenSt} : (s.setSt d st).Canonical := .modFn h
theorem State.Canonical.toBg {d : Taken} {st : TakenSt} : (s.toBg d st).Canonical := .modFn h
theorem State.Canonical.hostAbort {d : Taken} {off : Nat} : (s.hostAbort d off).Canonical := .upd (.complete h)

/-! ## Bytes in handles and windows -/

theorem State.Canonical.hostFault {i : Nat} : (s.hostFault i).Canonical := by
  unfold State.hostFault
  split
  · exact .ctxFault h
  · exact h

theorem State.Canonical.turnStore {i hd off : Nat} {bs : List Byte} : (s.turnStore i hd off bs).Canonical := by
  unfold State.turnStore
  refine .ite h ?_
  split
  · refine .setCore h (.hostStore ?_ ‹_›)
    exact (h.core _)
  · exact .dataFault h

theorem State.Canonical.hostStore {i hd off : Nat} {bs : List Byte} : (s.hostStore i hd off bs).Canonical :=
  .ite (.hostFault h) (.turnStore h)

theorem State.Canonical.handleRead {u : State} {i n off k : Nat} (hu : s.handleRead i n off k = .inr u) : u.Canonical := by
  unfold State.handleRead at hu
  split at hu
  · cases hu
    exact .hostFault h
  · split at hu
    · cases hu
    · cases hu
      exact .dataFault h

theorem State.Canonical.handleUsed {i hd off n : Nat} : (s.handleUsed i hd off n).Canonical := .modCore h fun ht => .correct ht

theorem State.Canonical.slotWrite {c : Nat} {a : IoArea} {slot : Nat} {bs : List Byte} : (s.slotWrite c a slot bs).Canonical :=
  .ite (.windowWrite h) (.foldl h (fun _ ht => .hostStore ht))

end

/-- What each read of a list does, a run of reads does: a read that fails answers a canonical state. -/
theorem canonical_of_reads {α β : Type} {f : β ⊕ State → α → β ⊕ State} {l : List α} {b : β} {u : State}
    (hf : ∀ (r : β ⊕ State) (a : α), (∀ v, r = .inr v → v.Canonical) → ∀ v, f r a = .inr v → v.Canonical)
    (hu : l.foldl f (.inl b) = .inr u) : u.Canonical :=
  List.foldlRecOn (motive := fun r : β ⊕ State => ∀ v, r = .inr v → v.Canonical) l f fun _ hv => by cases hv
    (fun r hr a _ => hf r a hr) u hu

theorem State.Canonical.slotRead {s u : State} (h : s.Canonical) {c : Nat} {a : IoArea} {slot n : Nat}
    (hu : s.slotRead c a slot n = .inr u) :
    u.Canonical := by
  unfold State.slotRead at hu
  split at hu
  · exact h.windowRead hu
  · refine canonical_of_reads (fun r e hr v hv => ?_) hu
    cases r with
    | inr w => exact hr v hv
    | inl bs =>
      dsimp only at hv
      split at hv
      · cases hv
      · split at hv
        · cases hv
        next w hw =>
          cases hv
          exact h.handleRead hw

section
variable {s : State} (h : s.Canonical)
include h

theorem State.Canonical.slotUsed {c : Nat} {a : IoArea} {slot n : Nat} : (s.slotUsed c a slot n).Canonical :=
  .ite (.windowUsed h) (.foldl h (fun _ ht => .handleUsed ht))

/-! ## SUBMIT -/

theorem Out.Canonical.execSubmit {fn : Nat} : Out.Canonical (execSubmit fn s) := by
  unfold Machine.execSubmit
  dsimp only
  refine .atFn ?_
  split
  · exact h
  · split
    · exact .completeSubmit h
    · exact .ite (.completeSubmit h) (.ite (.completeSubmit h) (.ite h (.modFn (.modCtx h))))

theorem Out.Canonical.execInputFetchDone {c : BitVec 6} {dma : Dma} : Out.Canonical (execInputFetchDone c dma s) := by
  unfold Machine.execInputFetchDone
  dsimp only
  split
  · split
    · exact .upd (.completeSubmit h)
    · exact .slotWrite (.modFn h)
  · exact h

/-! ## Results -/

theorem State.Canonical.postResult {c : Nat} {b : Batch} {out : List Byte} : (s.postResult c b out).Canonical :=
  .endBatch (.ite (.hostWrite (.hostWrite h)) (.hostWrite h))

theorem Out.Canonical.execCompletionPost {c : BitVec 6} {seq : Nat} {dma : Dma} :
    Out.Canonical (execCompletionPost c seq dma s) := by
  unfold Machine.execCompletionPost
  dsimp only
  split
  · split
    · exact .upd (.endBatch h)
    · split
      · exact .postResult (.slotUsed h)
      · exact .slotRead h ‹_›
  · exact h

/-! ## Load ends -/

theorem State.Canonical.listShards {c : Nat} {ns : List Nat} : (s.listShards c ns).Canonical := .foldl h fun _ ht => .postCtx ht

theorem State.Canonical.reportLoad {c : Nat} {l : Load} {failed : Option (List Nat)} : (s.reportLoad c l failed).Canonical :=
  .ite (.ctl h) h

theorem State.Canonical.endLoad {c : Nat} {l : Load} : (s.endLoad c l).Canonical :=
  .ite (.reportLoad (.complete (.modCtx h))) (.reportLoad (.complete (.listShards (.modCtx h))))

theorem State.Canonical.freeEngines {c : Nat} : (s.freeEngines c).Canonical :=
  h.mapPorts fun he => by split; exacts [he, he]

theorem State.Canonical.timeoutLoad {c : Nat} {l : Load} : (s.timeoutLoad c l).Canonical := .endLoad (.modCtx (.freeEngines h))

/-! ## Timeouts -/

theorem State.Canonical.dropEdit {d : Taken} : (s.dropEdit d).Canonical := .modPort h fun ht => .upd ht

theorem State.Canonical.timeoutOp {d : Taken} : (s.timeoutOp d).Canonical := by
  unfold State.timeoutOp
  dsimp only
  split
  · exact .ite (.timeoutLoad h) (.toBg (.record h))
  · exact .ite (.complete h) (.ite (.dropEdit (.complete h)) (.toBg (.record h)))

theorem Out.Canonical.execDescriptorTimeout {fn slot : Nat} : Out.Canonical (execDescriptorTimeout fn slot s) := by
  unfold Machine.execDescriptorTimeout
  refine .atFn (.ite ?_ ?_)
  · split
    · exact .timeoutOp (.passTo h)
    · exact h
  · split
    · exact .ite (.completeSubmit h) (.timeoutOp h)
    · split
      · exact .endBatch h
      · exact h

/-! ## Start, quiesce, resume -/

theorem State.Canonical.refuseCx {d : Taken} {c : Nat} : (s.refuseCx d c).Canonical := .complete h

theorem State.Canonical.startCtx {c at_ : Nat} : (s.startCtx c at_).Canonical := by
  unfold State.startCtx
  exact .mapOwned (.modCtx (.wakeTierA h)) fun ht => .startClear ht

theorem Out.Canonical.execStart {fn : Nat} : Out.Canonical (execStart fn s) := by
  unfold Machine.execStart
  dsimp only
  refine .atFn ?_
  split
  · exact h
  · refine .ite (.refuseCx h) ?_
    split
    · exact .complete h
    · exact .complete (.startCtx h)

theorem Out.Canonical.execQuiesce {fn : Nat} : Out.Canonical (execQuiesce fn s) := by
  unfold Machine.execQuiesce
  dsimp only
  refine .atFn ?_
  split
  · exact h
  · exact .ite (.refuseCx h) (.ite (.complete h) (.ite (.refuseCx h) (.modCtx (.setSt h))))

theorem Out.Canonical.execResume {fn : Nat} : Out.Canonical (execResume fn s) := by
  unfold Machine.execResume
  dsimp only
  refine .atFn ?_
  split
  · exact h
  · refine .ite (.refuseCx h) (.ite (.complete h) ?_)
    split
    · exact .complete h
    · exact .modCtx (.setSt (.wakeTierA h))

/-! ## Partitions -/

theorem State.Canonical.bindTo {c : Nat} {r : Rect} : (s.bindTo c r).Canonical := .modCtx (.modCores h (fun ht => .fence ht))

theorem Out.Canonical.execCreateContext : Out.Canonical (execCreateContext s) := by
  unfold Machine.execCreateContext
  dsimp only
  split
  · exact h
  · exact .ite (.refuseCx h) (.ite (.complete h) (.complete (.setCtx h)))

theorem Out.Canonical.execBind : Out.Canonical (execBind s) := by
  unfold Machine.execBind
  dsimp only
  split
  · exact h
  · refine .ite (.refuseCx h) ?_
    split
    · exact .complete h
    · exact .complete (.bindTo h)

/-! ## Taking a partition away -/

theorem State.Canonical.abortLoad {c : Nat} : (s.abortLoad c).Canonical := by
  unfold State.abortLoad
  split
  · exact h
  · exact .complete (.modCtx (.freeEngines h))

theorem State.Canonical.dropEp {c : Nat} : (s.dropEp c).Canonical := .upd h
theorem State.Canonical.purgeFlits {c : Nat} : (s.purgeFlits c).Canonical := .upd h
theorem State.Canonical.deletePairs {c : Nat} : (s.deletePairs c).Canonical := h.mapPorts
theorem State.Canonical.endHandleXfers {c : Nat} : (s.endHandleXfers c).Canonical := .foldl h fun _ ht => .complete ht

theorem State.Canonical.scrubPart {c : Nat} {r : Rect} : (s.scrubPart c r).Canonical :=
  .upd (.modCores (.purgeFlits h) fun _ => .scrub _)

theorem State.Canonical.landLines {c : Nat} : (s.landLines c).Canonical :=
  .foldl h.mapPorts fun _ ht => ht.landReply

theorem State.Canonical.stopFlush {c : Nat} {keep : Bool} : (s.stopFlush c keep).Canonical :=
  .ite (.endHandleXfers (.mapOwned (.landLines (.flushCtx
    (.endWalks (.mapOwned (.dropEp (.dropRecheck (.abortLoad h))) (fun ht => .upd ht))))) (fun ht => .dropStreams ht)))
    (.deletePairs (.endHandleXfers (.mapOwned (.landLines
    (.flushCtx (.endWalks (.mapOwned (.dropEp (.dropRecheck (.abortLoad h))) (fun ht => .upd ht)))))
    (fun ht => .dropStreams ht))))

theorem State.Canonical.withdrawPod {pod : Nat} : (s.withdrawPod pod).Canonical := .logFault (.upd h)
theorem State.Canonical.listPods {ps : List Nat} : (s.listPods ps).Canonical := .foldl h fun _ ht => .postPf ht
theorem State.Canonical.restartTicks {c : Nat} : (s.restartTicks c).Canonical := .modCtx h
theorem State.Canonical.askQuiesce {c : Nat} {cut : Bool} {why : QuiesceFor} : (s.askQuiesce c cut why).Canonical := .modCtx h

theorem Out.Canonical.execRebind : Out.Canonical (execRebind s) := by
  unfold Machine.execRebind
  dsimp only
  split
  · exact h
  · refine .ite (.refuseCx h) (.ite (.refuseCx h) (.ite (.complete h) ?_))
    split
    · exact .complete h
    · exact .ite (.askQuiesce (.modCtx (.setSt h))) (.modCtx (.modCtx (.setSt h)))

theorem State.Canonical.rebindSteps {a b : Nat} {r : Rect} {bad : List Nat} {took : Nat} {d : Taken} :
    (s.rebindSteps a b r bad took d).Canonical :=
  .ite (.complete (.modCtx (.bindTo (.restartTicks (.modCtx (.scrubPart (.stopFlush h)))))))
    (.complete (.listPods (.foldl (.restartTicks (.modCtx (.scrubPart (.stopFlush h)))) (fun _ ht => .withdrawPod ht))))

theorem Out.Canonical.execRebindProceed {c : BitVec 6} {bad : List (BitVec 8)} {took : Nat} :
    Out.Canonical (execRebindProceed c bad took s) := by
  unfold Machine.execRebindProceed
  dsimp only
  split
  · exact .ite h (.rebindSteps (.passTo h))
  · exact h

/-! ## Windows -/

theorem Out.Canonical.execWindowGrant : Out.Canonical (execWindowGrant s) := by
  unfold Machine.execWindowGrant
  dsimp only
  split
  · exact h
  · refine .ite (.refuseCx h) (.ite (.complete h) (.ite (.complete h) (.ite ?_ (.ite (.complete h) ?_))))
    · split
      · exact .complete h
      · exact .complete (.setPort h (.upd (h.port _)))
    · split
      · exact .complete h
      · exact .complete (.setPort h (.upd (h.port _)))

theorem State.Canonical.retain {c p : Nat} {w : Window} : (s.retain c p w).1.Canonical :=
  .modPort (.upd h)

theorem State.Canonical.scrubWindow {c p : Nat} {w : Window} {num : Nat} : (s.scrubWindow c p w num).Canonical :=
  .modPort h (fun ht => .upd (.touch ht))

theorem State.Canonical.endWindowXfers {c p : Nat} : (s.endWindowXfers c p).Canonical := .foldl h fun _ ht => .complete ht
theorem State.Canonical.awaitScrub {d : Taken} {status detail : Nat} : (s.awaitScrub d status detail).Canonical := .upd (.setSt h)

theorem Out.Canonical.execWindowRelease : Out.Canonical (execWindowRelease s) := by
  unfold Machine.execWindowRelease
  dsimp only
  split
  · exact h
  · split
    · exact .complete h
    · exact .ite (.complete (.modPort (.endWindowXfers h) (fun ht => .upd ht)))
        (.ite (.awaitScrub (.scrubWindow (.endWindowXfers h))) (.complete (.postPf (.retain (.endWindowXfers h)))))

theorem Out.Canonical.execRetainedFree : Out.Canonical (execRetainedFree s) := by
  unfold Machine.execRetainedFree
  dsimp only
  split
  · exact h
  · split
    · exact .complete h
    · exact .awaitScrub (.modPort h (fun ht => .upd (.touch ht)))

theorem Out.Canonical.execWindowScrubDone {port : BitVec 5} : Out.Canonical (execWindowScrubDone port s) := by
  unfold Machine.execWindowScrubDone
  dsimp only
  split
  · exact h
  next j js _ =>
    refine .foldl (.upd (h.modPort fun hk => ?_)) fun _ ht => .complete ht
    have scrubbed := Cells.wf_drop _ _ (fun a => decide (j.base * blockBytes ≤ a) && decide
      (a < (j.base + j.blocks) * blockBytes)) hk
    exact scrubbed

theorem Out.Canonical.execSlotGrant : Out.Canonical (execSlotGrant s) := by
  unfold Machine.execSlotGrant
  dsimp only
  split
  · exact h
  · refine .ite (.refuseCx h) (.ite (.complete h) ?_)
    split
    · exact .complete h
    · exact .modCtx (.setSt h)

/-! ## Handles and queue pairs -/

theorem Out.Canonical.execHandle {fn : Nat} : Out.Canonical (execHandle fn s) := by
  unfold Machine.execHandle
  dsimp only
  refine .atFn ?_
  split
  · exact h
  · exact .modCtx (.setSt h)

theorem State.Canonical.cfgSticky {c bit code space off v : Nat} : (s.cfgSticky c bit code space off v).Canonical :=
  .cfgCtx (.modCtx h)

theorem Out.Canonical.execQueueCreate {fn : Nat} : Out.Canonical (execQueueCreate fn s) := by
  unfold Machine.execQueueCreate
  dsimp only
  refine .atFn ?_
  split
  · exact h
  · exact .ite (.refuseCx h) (.ite (.complete h) (.ite (.complete h) (.complete (.ite (.setPair h) (.cfgSticky (.setPair h))))))

theorem Out.Canonical.execQueueConfigure {fn : Nat} : Out.Canonical (execQueueConfigure fn s) := by
  unfold Machine.execQueueConfigure
  dsimp only
  refine .atFn ?_
  split
  · exact h
  · exact .ite (.complete h) (.ite (.complete h) (.modCtx
      (.setSt (.ite (.foldl h (fun _ ht => .cfgCtx (.setPair ht))) (.ite (.setPair h) (.cfgSticky (.setPair h)))))))

theorem Out.Canonical.execQueueDelete {fn : Nat} : Out.Canonical (execQueueDelete fn s) := by
  unfold Machine.execQueueDelete
  dsimp only
  refine .atFn ?_
  split
  · exact h
  · exact .ite (.complete h) (.ite (.complete h) (.ite (.complete h) (.complete (.modPort h (fun ht => .upd ht)))))

/-! ## Teardown -/

theorem State.Canonical.capture {c : Nat} {d : Taken} {dma : Dma} : (s.capture c d dma).1.Canonical := by
  unfold State.capture
  split
  · exact h
  · dsimp only
    split
    exacts [.upd h, .hostWrite h]

theorem State.Canonical.dropStacks {c : Nat} {scrub : Bool} {num : Nat} : (s.dropStacks c scrub num).1.Canonical := by
  unfold State.dropStacks
  refine List.foldlRecOn (motive := fun t : State × List (Nat × Nat) => t.1.Canonical) _ _ h.mapPorts fun t ht e _ => ?_
  dsimp only
  split
  · exact ht
  · split
    exacts [ht.scrubWindow, ht.retain]

theorem State.Canonical.resetFn {f : Nat} : (s.resetFn f).Canonical := .setFn h

theorem State.Canonical.tellRanks {job : Nat} {ranks : List (Nat × BitVec 32)} : (s.tellRanks job ranks).Canonical :=
  .foldl h fun _ ht => .ctl ht

theorem State.Canonical.leaveJob {c : Nat} : (s.leaveJob c).Canonical :=
  .ite h (.ite (.tellRanks (.upd (.ite (.setJob h) h))) (.ctl (.upd (.ite (.setJob h) h))))

theorem State.Canonical.tear {c : Nat} {d : Taken} {bad : List (BitVec 8)} {dma : Dma} :
    (s.tear c d bad dma).Canonical := by
  have ended : ∀ {u : State} {n k : Nat}, u.Canonical → (if u.scrubbing d.num then u.awaitScrub d n k else u.complete d n
    k).Canonical :=
    fun hu => .ite hu.awaitScrub hu.complete
  unfold State.tear
  refine ended (.foldl (.setCtx (.resetFn (.leaveJob (.dropStacks ?_)))) fun _ hu => .postPf hu)
  split
  · exact .deletePairs (.flushCtx h)
  · exact .listPods (.foldl (.scrubPart (.capture (.stopFlush h))) fun _ ht => .withdrawPod ht)

theorem Out.Canonical.execTeardown {bad : List (BitVec 8)} {dma : Dma} : Out.Canonical (execTeardown bad dma s) := by
  unfold Machine.execTeardown
  dsimp only
  split
  · exact h
  · exact .ite (.tear h) (.ite (.refuseCx h) (.ite (.complete h) (.ite (.complete h) (.ite (.askQuiesce (.setSt h)) (.tear h)))))

/-! ## Host transfers -/

theorem State.Canonical.sendStk {c m x : Nat} {d : Taken} {bs : List Byte} : (s.sendStk c m x d bs).Canonical :=
  .foldl h fun _ ht => .pushEp ht

theorem Out.Canonical.execHostXfer {fn : Nat} : Out.Canonical (execHostXfer fn s) := by
  unfold Machine.execHostXfer
  dsimp only
  refine .atFn ?_
  split
  · exact h
  · split
    · exact .complete h
    · split
      · exact .sendStk (.setSt h)
      · exact .setSt h

theorem State.Canonical.moveIn {c : Nat} {d : Taken} {bs : List Byte} : (s.moveIn c d bs).Canonical :=
  .ite (.foldl h (fun _ ht => .hostStore ht)) (.ite (.windowWrite h) h)

theorem State.Canonical.moveOut {u : State} {c : Nat} {d : Taken} (hu : s.moveOut c d = .inr u) : u.Canonical := by
  unfold State.moveOut at hu
  split at hu
  · refine canonical_of_reads (fun r i hr v hv => ?_) hu
    cases r with
    | inr w => exact hr v hv
    | inl bs =>
      dsimp only at hv
      split at hv
      · cases hv
      next w hw =>
        cases hv
        exact h.handleRead hw
  · exact h.windowRead hu

theorem State.Canonical.moveOutUsed {c : Nat} {d : Taken} : (s.moveOutUsed c d).Canonical :=
  .ite (.foldl h (fun _ ht => .handleUsed ht)) (.windowUsed h)

theorem State.Canonical.xferEcc {d : Taken} : (s.xferEcc d).Canonical := .complete (.upd h)

theorem Out.Canonical.execHostXferDone {fn : Nat} {dma : Dma} : Out.Canonical (execHostXferDone fn dma s) := by
  unfold Machine.execHostXferDone
  dsimp only
  refine .atFn ?_
  split
  · exact h
  · split
    · refine .hostAbort (.upd (.ite ?_ (.moveIn h)))
      split
      · exact .hostWrite (.moveOutUsed h)
      · exact .moveOut h ‹_›
    · refine .ite (.complete h) (.ite ?_ (.ite h (.complete (.moveIn h))))
      split
      · exact .complete (.hostWrite (.moveOutUsed h))
      · exact .xferEcc (.moveOut h ‹_›)

/-! ## Debug reads -/

theorem State.Canonical.debugRecords {u : State} {c : Nat} {d : Taken} (hu : s.debugRecords c d = .inr u) :
    u.Canonical := by
  unfold State.debugRecords at hu
  dsimp only at hu
  split at hu
  · refine canonical_of_reads (fun r i hr v hv => ?_) hu
    cases r with
    | inr w => exact hr v hv
    | inl rs =>
      dsimp only at hv
      split at hv
      · cases hv
      next w hw =>
        cases hv
        exact h.handleRead hw
  · repeat' split at hu
    all_goals cases hu

theorem State.Canonical.debugUsed {c : Nat} {d : Taken} : (s.debugUsed c d).Canonical :=
  .ite (.foldl h (fun _ ht => .handleUsed ht)) h

theorem Out.Canonical.execDebugRead {fn : Nat} {dma : Dma} : Out.Canonical (execDebugRead fn dma s) := by
  unfold Machine.execDebugRead
  dsimp only
  refine .atFn ?_
  split
  · exact h
  · refine .ite (.complete h) ?_
    split
    · exact .xferEcc (.debugRecords h ‹_›)
    · split
      · exact .hostAbort (.hostWrite (.debugUsed h))
      · exact .complete (.hostWrite (.debugUsed h))

/-! ## Page tables -/

theorem State.Canonical.modRegion {p c base : Nat} {f : Region → Region} : (s.modRegion p c base f).Canonical :=
  .modPort h fun ht => .upd ht

theorem Out.Canonical.execEditPagetableInit {fn : Nat} {dma : Dma} : Out.Canonical (execEditPagetableInit fn dma s) := by
  unfold Machine.execEditPagetableInit
  dsimp only
  refine .atFn ?_
  split
  · exact h
  · refine .ite (.complete h) (.ite (.complete h) (.ite (.complete h) ?_))
    split
    · exact .hostAbort h
    · exact .complete (.modPort (.windowWrite h) (fun ht => .upd ht))

theorem Out.Canonical.execEditPagetableEdit {fn : Nat} {dma : Dma} : Out.Canonical (execEditPagetableEdit fn dma s) := by
  unfold Machine.execEditPagetableEdit
  dsimp only
  refine .atFn ?_
  split
  · exact h
  · split
    · exact .complete h
    · refine .ite (.complete h) ?_
      split
      · exact .hostAbort h
      · exact .toBg (.modRegion h)

theorem State.Canonical.completePt {c n status detail : Nat} : (s.completePt c n status detail).Canonical := by
  unfold State.completePt
  split
  · exact .complete h
  · exact h

theorem State.Canonical.performEdit {p : Nat} {r : Region} {e : List (BitVec 32)} {n : Nat} :
    (s.performEdit p r e n).Canonical := by
  unfold State.performEdit
  dsimp only
  split
  next hu => exact h.windowRead hu
  · split
    · exact .completePt (.modRegion (.windowUsed h))
    · split
      · exact .completePt (.modRegion (.windowUsed h))
      · exact .modRegion (.windowWrite (.windowWrite (.windowUsed h)))

theorem Out.Canonical.execPtEditPerform {c : BitVec 6} {port : BitVec 5} {base : Nat} :
    Out.Canonical (execPtEditPerform c port base s) := by
  unfold Machine.execPtEditPerform
  dsimp only
  split
  · split
    · exact .ite (.performEdit h) h
    · exact h
  · exact h

theorem Out.Canonical.execPtEditComplete {c : BitVec 6} {port : BitVec 5} {base : Nat} :
    Out.Canonical (execPtEditComplete c port base s) := by
  unfold Machine.execPtEditComplete
  dsimp only
  split
  · split
    · exact .ite (.completePt (.modRegion h)) h
    · exact h
  · exact h

theorem State.Canonical.clearRegion {p c base : Nat} : (s.clearRegion p c base).Canonical := .modPort h fun ht => .upd ht

theorem Out.Canonical.execEditPagetableRelease {fn : Nat} : Out.Canonical (execEditPagetableRelease fn s) := by
  unfold Machine.execEditPagetableRelease
  dsimp only
  refine .atFn ?_
  split
  · split
    · exact .complete h
    · exact .ite (.complete h) (.ite (.complete (.clearRegion h)) (.toBg (.modRegion h)))
  · split
    · exact .completePt (.clearRegion h)
    · exact h

/-! ## Acceptance -/

theorem State.Canonical.settle {c : Nat} : (s.settle c).Canonical := by
  unfold State.settle
  split
  · exact .ite (.endLoad h) h
  · exact h

theorem State.Canonical.acceptLoad {c : Nat} {d : Taken} {g : Manifest} : (s.acceptLoad c d g).Canonical :=
  .settle (.modCtx (.toBg (.dropRecheck h)))

theorem State.Canonical.acceptSwap {c : Nat} {d : Taken} {g : Manifest} : (s.acceptSwap c d g).Canonical := .modCtx (.toBg h)

theorem State.Canonical.wsetOp {c : Nat} {d : Taken} {dma : Dma} {go : State → Manifest → State}
    (hgo : ∀ m, (go s m).Canonical) : (s.wsetOp c d dma go).Canonical := by
  unfold State.wsetOp
  split
  · exact .hostAbort h
  · dsimp only
    split
    · exact .complete h
    · split
      exacts [.complete h, hgo _]

theorem Out.Canonical.execWsetLoad {fn : Nat} {dma : Dma} : Out.Canonical (execWsetLoad fn dma s) := by
  unfold Machine.execWsetLoad
  refine .atFn ?_
  split
  · exact h
  · exact .wsetOp h fun _ => .acceptLoad h

theorem Out.Canonical.execWsetSwap {fn : Nat} {dma : Dma} : Out.Canonical (execWsetSwap fn dma s) := by
  unfold Machine.execWsetSwap
  dsimp only
  refine .atFn ?_
  split
  · exact h
  · exact .ite (.refuseCx h) (.wsetOp h (fun _ => .acceptSwap h))

/-! ## Transfers of shards -/

theorem State.Canonical.modShard {c i : Nat} {f : Shard → Shard} : (s.modShard c i f).Canonical := .modCtx h
theorem State.Canonical.startShard {c : Nat} {l : Load} {i : Nat} : (s.startShard c l i).Canonical := .modCtx (.modShard h)

theorem Out.Canonical.execShardTransferStart {c : BitVec 6} {i : Nat} : Out.Canonical (execShardTransferStart c i s) := by
  unfold Machine.execShardTransferStart
  dsimp only
  split
  · exact h
  · refine .ite ?_ h
    split
    · exact .ite (.startShard (.modPort (.askEngine h) (fun ht => .touch ht))) (.askEngine h)
    · exact .ite (.startShard h) h

theorem State.Canonical.shardRead {c : Nat} {l : Load} {hd : Shard} {i : Nat} : (s.shardRead c l hd i).Canonical :=
  .ite (.windowUsed h) (.ite (.modPort h (fun ht => .correct (.touch ht))) h)

theorem State.Canonical.placeShard {c : Nat} {l : Load} {sh : Shard} {bs : List Byte} :
    (s.placeShard c l sh bs).Canonical :=
  .foldl h fun _ ht => by split; exacts [ht.hostStore, ht.turnStore]

theorem State.Canonical.freeEngine {c i : Nat} : (s.freeEngine c i).Canonical :=
  h.mapPorts fun he => by split; exacts [he, he]

theorem Out.Canonical.execShardVerdict {c : BitVec 6} {i : Nat} {dma : Dma} : Out.Canonical (execShardVerdict c i dma s) := by
  unfold Machine.execShardVerdict
  dsimp only
  split
  · exact h
  · refine .ite h (.settle (.modShard (.freeEngine (.placeShard ?_))))
    split
    · exact .logFault (.portUe (.shardRead h))
    · exact .shardRead h

/-! ## Re-checks -/

theorem State.Canonical.suspect {c i : Nat} {ecc : Option (Nat × Nat × Nat × Nat)} : (s.suspect c i ecc).Canonical := by
  unfold State.suspect
  dsimp only
  split
  · exact .dataFault (.ctxFault (.endBatches (.modCtx (.modShard h))))
  · exact .ctxFault (.endBatches (.modCtx (.modShard h)))

theorem State.Canonical.shardUsed {c : Nat} {hd : Shard} : (s.shardUsed c hd).Canonical :=
  .foldl h (fun _ ht => .modCore ht (fun hu => .correct hu))

theorem State.Canonical.judge {c i : Nat} : (s.judge c i).Canonical := by
  unfold State.judge
  dsimp only
  split
  · exact .suspect (.shardUsed (.dropRecheck h))
  · exact .ite (.modShard (.shardUsed (.dropRecheck h))) (.suspect (.shardUsed (.dropRecheck h)))

theorem Out.Canonical.execRecheckVerdict {c : BitVec 6} : Out.Canonical (execRecheckVerdict c s) := by
  unfold Machine.execRecheckVerdict
  dsimp only
  split
  · exact h
  · exact .ite (.dropRecheck h) (.ite (.judge (.askEngine h)) (.askEngine h))

theorem Out.Canonical.execRecheckAbandon {c : BitVec 6} : Out.Canonical (execRecheckAbandon c s) := by
  unfold Machine.execRecheckAbandon
  dsimp only
  split
  · exact h
  · exact .modCtx (.dropRecheck (.passTo h))

/-! ## The tier-B library -/

theorem Out.Canonical.execLibraryInstall {dma : Dma} : Out.Canonical (execLibraryInstall dma s) := by
  unfold Machine.execLibraryInstall
  dsimp only
  split
  · exact h
  · refine .ite (.complete h) ?_
    split
    · exact .hostAbort h
    · split
      · exact .complete h
      · refine .ite (.complete h) ?_
        split
        · exact .complete h
        · exact .setSt (.upd (.foldl h (fun _ ht => .modPort ht (fun hu => .upd hu))))

theorem State.Canonical.libDelete {n : Nat} : (s.libDelete n).Canonical := .mapPorts (.upd h)

theorem State.Canonical.libWrite {e : LibEntry} {room : Nat} : (s.libWrite e room).Canonical := by
  unfold State.libWrite
  refine List.foldlRecOn (motive := fun t : State × Nat => t.1.Canonical) _ _ h fun t ht p _ => ?_
  dsimp only
  split
  · exact ht
  · exact ht.modPort fun hk => .upd (.write hk)

theorem Out.Canonical.execLibraryInstallDone {n : Nat} {dma : Dma} : Out.Canonical (execLibraryInstallDone n dma s) := by
  unfold Machine.execLibraryInstallDone
  dsimp only
  split
  · exact h
  · refine .ite h ?_
    split
    · exact .hostAbort (.libDelete (.libWrite h))
    · exact .ite (.complete (.upd (.libWrite h))) (.complete (.libDelete (.libWrite h)))

theorem Out.Canonical.execLibraryGrant : Out.Canonical (execLibraryGrant s) := by
  unfold Machine.execLibraryGrant
  dsimp only
  split
  · exact h
  · refine .ite (.complete h) ?_
    split
    · exact .complete h
    · exact .complete (.upd h)

theorem Out.Canonical.execLibraryRemove : Out.Canonical (execLibraryRemove s) := by
  unfold Machine.execLibraryRemove
  split
  · exact h
  · refine .ite (.complete h) ?_
    split
    · exact .complete h
    · exact .ite (.complete h) (.complete (.libDelete h))

/-! ## Writing the image -/

theorem State.Canonical.loadGens {x : Context} {m : List Byte} {gens : List Nat} {r : CodeRec} {i : Nat} :
    (s.loadGens x m gens r i).Canonical :=
  .modCore h (fun ht => .foldl ht (fun _ hu => .writeGen hu))

theorem State.Canonical.loadCores {x : Context} {m : List Byte} {gens is : List Nat} :
    (s.loadCores x m gens is).Canonical :=
  have handles := h.modCores (is := is) (f := fun i k => Machine.loadHandles m ((x.rel i).getD (0, 0)).1
    ((x.rel i).getD (0, 0)).2 k)
    fun hk => hk.loadHandles
  have gens := State.Canonical.foldl (l := imgCode m) (State.Canonical.foldl (l := imgData m) handles fun r ht => ht.modCores
    fun hk => hk.loadData (r := r))
    fun r ht => State.Canonical.foldl ht fun i hu => hu.loadGens (r := r) (i := i)
  .foldl (.modCores gens fun hk => hk.withIstore stopStore_wf) fun _ ht => .modCores ht fun hu => hu.withIstore
    (blockStore_wf _ _)

theorem State.Canonical.loadPart {x : Context} {m : List Byte} {gens : List Nat} {n g : Nat} :
    (s.loadPart x m gens n g).Canonical :=
  .foldl (.foldl (.modCores h (fun ht => .loadHandles ht)) (fun _ ht => .modCores ht (fun hu => .loadData hu)))
    (fun _ ht => .foldl ht (fun _ hu => .loadGens hu))

theorem State.Canonical.loadImage {c : Nat} {m : List Byte} {gens : List Nat} : (s.loadImage c m gens).Canonical :=
  .modCtx (.loadCores h)

theorem State.Canonical.loadExpired {c : Nat} : (s.loadExpired c).Canonical :=
  .modCtx (.modCores h fun hk => .withIstore (.foldl hk fun _ hu => hu.setHandle) stopStore_wf)

theorem State.Canonical.loaderFind {c : Nat} {f : Finding} : (s.loaderFind c f).Canonical := .postCtx h
theorem State.Canonical.loaderWarn {c : Nat} {m : List Byte} : (s.loaderWarn c m).Canonical := .ite h (.postCtx h)

theorem State.Canonical.loadTimeout {c : Nat} {m : List Byte} {gens : List Nat} : (s.loadTimeout c m gens).Canonical :=
  .ite (.upd h) (.loadExpired (.loadPart (.loaderWarn (.upd h))))

theorem Out.Canonical.execProgramLoad {fn : Nat} {dma : Dma} : Out.Canonical (execProgramLoad fn dma s) := by
  unfold Machine.execProgramLoad
  dsimp only
  refine .atFn ?_
  split
  · exact h
  · split
    · exact .hostAbort h
    · split
      · exact .ite (.complete h) (.complete (.loaderFind h))
      · exact .ite (.complete (.loadTimeout h)) (.complete (.loadImage (.loaderWarn h)))

/-! ## Reports to the manager -/

theorem State.Canonical.tellManager {code cls ctx source arg0 arg1 : Nat} :
    (s.tellManager code cls ctx source arg0 arg1).Canonical :=
  .ite h (.ctl h)

theorem State.Canonical.leaveUp {p st : Nat} : (s.leaveUp p st).Canonical :=
  .ite (.postPf (.upd (.logFault (.modEpPort h)))) (.ite (.ctl (.logFault (.modEpPort h))) (.logFault (.modEpPort h)))

theorem State.Canonical.portTo {p st : Nat} : (s.portTo p st).Canonical := .ite (.leaveUp h) (.modEpPort h)
theorem State.Canonical.tryTrain {p : Nat} : (s.tryTrain p).Canonical := .ite (.modEpPort h) h
theorem State.Canonical.readCable {p : Nat} : (s.readCable p).Canonical := .tryTrain (.modEpPort (.ite h (.portTo h)))

theorem Out.Canonical.execCableChange {port : BitVec 3} {cable : CableClass} : Out.Canonical (execCableChange port cable s) :=
  .atEp (.ite (.readCable (.modEpPort h)) (.modEpPort h))

theorem Out.Canonical.execCageOvercurrent {port : BitVec 3} : Out.Canonical (execCageOvercurrent port s) :=
  .atEp (.modEpPort (.portTo h))

theorem Out.Canonical.execLinkTrained {port : BitVec 3} : Out.Canonical (execLinkTrained port s) := .atEp (.modEpPort h)

theorem Out.Canonical.execLinkTrainingTimeout {port : BitVec 3} : Out.Canonical (execLinkTrainingTimeout port s) :=
  .atEp (.ite (.modEpPort (.passTo h)) h)

theorem Out.Canonical.execLinkTrainingRetry {port : BitVec 3} : Out.Canonical (execLinkTrainingRetry port s) :=
  .atEp (.ite (.tryTrain (.passTo h)) h)

theorem Out.Canonical.execLinkAligned {port : BitVec 3} {nbr : BitVec 10} {nport : BitVec 3} {delay : BitVec 16} :
    Out.Canonical (execLinkAligned port nbr nport delay s) :=
  .atEp (.modEpPort h)

theorem Out.Canonical.execLinkAlignTimeout {port : BitVec 3} : Out.Canonical (execLinkAlignTimeout port s) :=
  .atEp (.ite (.modEpPort (.passTo h)) h)

theorem Out.Canonical.execLinkDown {port : BitVec 3} {lanes : BitVec 8} : Out.Canonical (execLinkDown port lanes s) :=
  .atEp (.ite (.modEpPort (.leaveUp h)) h)

/-! ## Codeword groups -/

theorem State.Canonical.emit {p : Nat} {r : EpPort × List Group} : (s.emit p r).Canonical :=
  .ite (.setEpPort h) (.upd (.setEpPort h))

theorem State.Canonical.pump {p job : Nat} : (s.pump p job).Canonical := .ite (.emit h) h
theorem State.Canonical.sendIdle {p cjob : Nat} : (s.sendIdle p cjob).Canonical := .ite (.emit h) h

theorem State.Canonical.linkPips {p k : Nat} : (s.linkPips p k).Canonical :=
  .ite (.postPf (.logFault (.modEpPort h))) (.ite (.ctl (.logFault (.modEpPort h))) (.logFault (.modEpPort h)))

theorem Out.Canonical.execCodewordGroupRx {port : BitVec 3} {g : Group} : Out.Canonical (execCodewordGroupRx port g s) := by
  unfold Machine.execCodewordGroupRx
  dsimp only
  refine .atEp (.ite h ?_)
  split
  · exact .pump (.setEpPort h)
  · exact .sendIdle (.linkPips (.setEpPort h))
  · exact .sendIdle (.setEpPort h)

theorem Out.Canonical.execReplayResend {port : BitVec 3} {pip : BitVec 6} : Out.Canonical (execReplayResend port pip s) :=
  .atEp (.ite h (.ite (.modEpPort (.leaveUp h)) (.emit h)))

theorem State.Canonical.sendOut {p job : Nat} {bs : List Byte} : (s.sendOut p job bs).Canonical := .pump (.modEpPort h)

theorem Out.Canonical.execEpfinPacketTx {n : Nat} : Out.Canonical (execEpfinPacketTx n s) := by
  unfold Machine.execEpfinPacketTx
  dsimp only
  split
  · exact h
  · exact .ite h (.ite h (.sendOut (.upd h)))

theorem State.Canonical.takeBytes {p : Nat} {k : EpPacket} : (s.takeBytes p k).Canonical :=
  .ite (.ite (.setEpPort h) (.sendIdle (.setEpPort h))) h

theorem State.Canonical.loopDrop {p : Nat} : (s.loopDrop p).Canonical := .tellManager (.logFault h)
theorem State.Canonical.forward {p : Nat} {k : EpPacket} : (s.forward p k).Canonical := .ite (.loopDrop h) (.ite (.sendOut h) h)

theorem Out.Canonical.execEpfinForward {port : BitVec 3} {pkt : EpPacket} : Out.Canonical (execEpfinForward port pkt s) :=
  .atEp (.ite h (.forward (.takeBytes h)))

theorem State.Canonical.stkWrite {p : Nat} {k : EpPacket} : (s.stkWrite p k).Canonical := by
  unfold State.stkWrite
  dsimp only
  split
  · exact .ctxFault h
  · exact .ite (.ctxFault h) (.ite (.ctxFault h) (.ite h (.modPort h (fun ht => .upd (.touch ht)))))

theorem State.Canonical.enterPanel {p : Nat} {k : EpPacket} : (s.enterPanel p k).Canonical :=
  .ite (.ctxFault h) (.ite (.inject h) (.foldl h (fun _ ht => .inject ht)))

theorem State.Canonical.epReply {p : Nat} {k : EpPacket} : (s.epReply p k).Canonical := by
  unfold State.epReply
  dsimp only
  split
  · exact h
  · exact .ite (.ctxFault (.upd h)) (.foldl (.upd h) (fun _ ht => .inject ht))

theorem State.Canonical.deliverEp {p : Nat} {k : EpPacket} : (s.deliverEp p k).Canonical :=
  .ite (.modCtx h) (.ite (.ite (.stkWrite h) h) (.ite (.epReply h) (.ite (.ctxFault h) (.enterPanel h))))

theorem State.Canonical.receiveEp {p : Nat} {k : EpPacket} : (s.receiveEp p k).Canonical :=
  .ite (.ite h (.forward h)) (.ite (.ite h (.ctxFault h))
    (.ite h (.ite (.tellManager (.logFault h)) (.ite (.ctxFault h) (.deliverEp (.upd h))))))

theorem Out.Canonical.execEpfinPacketRx {port : BitVec 3} {pkt : EpPacket} : Out.Canonical (execEpfinPacketRx port pkt s) :=
  .atEp (.ite h (.receiveEp (.takeBytes h)))

/-! ## The tests of a module -/

theorem State.Canonical.setEx {e : Option Exchange} : (s.setEx e).Canonical := .upd h
theorem State.Canonical.respond {m : CtlMsg} : (s.respond m).Canonical := .ite h (.ctl h)
theorem State.Canonical.tryReply {e : Exchange} : (s.tryReply e).Canonical := .ite (.setEx h) (.ctl (.setEx h))

/-! ## PREPARE -/

theorem State.Canonical.spread {arrival : Nat} {m : CtlMsg} : (s.spread arrival m).Canonical := .ite h (.ctl h)
theorem State.Canonical.tryRelay {e : Exchange} : (s.tryRelay e).Canonical := .ite (.upd h) (.ctl (.upd h))

theorem Out.Canonical.execPrepare {p : PrepareMsg} : Out.Canonical (execPrepare p s) :=
  .ite h (.ite (.tryRelay (.spread h)) (.tryReply (.spread h)))

theorem State.Canonical.openExchange {m : PrepareMsg} {d : Option Taken} : (s.openExchange m d).Canonical := .setEx (.spread h)

theorem Out.Canonical.execMergedReply {r : MergedMsg} : Out.Canonical (execMergedReply r s) := by
  unfold Machine.execMergedReply
  dsimp only
  split
  · exact .ite (.tryReply (.passTo h)) (.tryReply h)
  · exact .ite (.tryRelay (.passTo h)) (.tryRelay h)
  · exact h

/-! ## GO, the count, ABORT -/

theorem State.Canonical.tellGo {e : Exchange} : (s.tellGo e).Canonical := by
  unfold State.tellGo
  split
  · exact .tellStretch h
  · exact .tellStretch h
  · exact h

theorem State.Canonical.holdGo {e : Exchange} : (s.holdGo e).Canonical := .setEx (.spread (.ite (.tellGo (.modCtx h)) h))

theorem Out.Canonical.execGo {c : BitVec 6} : Out.Canonical (execGo c s) := by
  unfold Machine.execGo
  split
  · exact h
  · exact .ite (.holdGo h) h

theorem State.Canonical.unstretch {e : Exchange} : (s.unstretch e).Canonical := .tellStretch (.modCtx h)
theorem State.Canonical.undoGo {e : Exchange} : (s.undoGo e).Canonical := .ite (.unstretch h) (.modCtx h)

theorem State.Canonical.nogo {e : Exchange} : (s.nogo e).Canonical :=
  .ite (.setEx (.ite (.undoGo h) h)) (.tryReply (.respond (.ite (.undoGo h) h)))

theorem Out.Canonical.execNogo {c : BitVec 6} : Out.Canonical (execNogo c s) := by
  unfold Machine.execNogo
  dsimp only
  split
  · exact h
  · exact .ite (.ite (.nogo (.passTo h)) (.passTo h)) h

theorem State.Canonical.dropSeq {job : Nat} : (s.dropSeq job).Canonical := .upd h

theorem State.Canonical.reachCount {e : Exchange} : (s.reachCount e).Canonical := by
  unfold State.reachCount
  dsimp only
  split
  · exact .ite (.complete (.setJob (.setEx h))) (.setEx h)
  · exact .setEx h

theorem Out.Canonical.execLaunchCount {c : BitVec 6} : Out.Canonical (execLaunchCount c s) := by
  unfold Machine.execLaunchCount
  dsimp only
  split
  · exact h
  · exact .ite (.ite (.nogo (.passTo h)) (.ite (.reachCount (.ite (.startCtx (.dropSeq (.passTo h))) (.passTo h)))
      (.tryReply (.respond (.ite (.startCtx (.dropSeq (.passTo h))) (.passTo h)))))) h

theorem State.Canonical.stopLaunched {c at_ m reason : Nat} : (s.stopLaunched c at_ m reason).Canonical :=
  .postCtx (.modCtx (.mapOwned (.cutQuiesce h) (fun ht => .clearExec ht)))

theorem State.Canonical.abortMember {e : Exchange} {m reason : Nat} : (s.abortMember e m reason).Canonical := by
  unfold State.abortMember
  refine .ite h ?_
  split
  · exact .ite (.stopLaunched h) h
  · exact .ite (.abortLoad h) h
  · exact .ite (.undoGo h) (.ite h (.modCtx h))

theorem State.Canonical.dropChanges {e : Exchange} : (s.dropChanges e).Canonical := .ite (.upd h) h

theorem State.Canonical.abortEx {e : Exchange} {m reason : Nat} : (s.abortEx e m reason).Canonical :=
  .setEx (.spread (.dropChanges (.abortMember h)))

theorem State.Canonical.abortRelay {c m reason : Nat} : (s.abortRelay c m reason).Canonical := by
  unfold State.abortRelay
  dsimp only
  split
  · exact h
  · exact .upd (.spread h)

theorem Out.Canonical.execAbort {c : BitVec 6} {m : BitVec 10} {reason : BitVec 16} : Out.Canonical (execAbort c m reason s) := by
  unfold Machine.execAbort
  split
  · exact .abortEx h
  · exact .abortRelay h

/-! ## The manager's decisions -/

theorem State.Canonical.jobTo {job : Nat} {st : JobSt} : (s.jobTo job st).Canonical := .setJob h

/-! ## Table changes -/

theorem State.Canonical.takeChange {c : TableChange} : (s.takeChange c).Canonical := by
  unfold State.takeChange
  dsimp only
  refine .ite (.ite (.tellRanks (.setJob ?_)) ?_) (.upd (.ite (.tellRanks (.setJob ?_)) ?_))
  · split
    · exact .modCtx (.ite h (.upd h))
    · exact .ite h (.upd h)
  · split
    · exact .modCtx (.ite h (.upd h))
    · exact .ite h (.upd h)
  · split
    · exact .modCtx (.ite h (.upd h))
    · exact .ite h (.upd h)
  · split
    · exact .modCtx (.ite h (.upd h))
    · exact .ite h (.upd h)

theorem State.Canonical.sendChange {m : Nat} {c : TableChange} : (s.sendChange m c).Canonical := .ite (.takeChange h) (.ctl h)

theorem State.Canonical.openTables : (s.openTables).Canonical := by
  unfold State.openTables
  dsimp only
  split
  · exact h
  · exact .ite h (.openExchange (.foldl h (fun _ ht => .sendChange ht)))

theorem State.Canonical.queueTables {d : Option (Taken × Nat)} {l : List (Nat × TableChange)} : (s.queueTables d l).Canonical :=
  .openTables (.upd h)

theorem State.Canonical.tablesDone : (s.tablesDone).Canonical := by
  unfold State.tablesDone
  dsimp only
  split
  · exact .complete (.upd h)
  · exact .upd h

theorem State.Canonical.undoTables {e : Exchange} : (s.undoTables e).Canonical := by
  unfold State.undoTables
  dsimp only
  split
  · exact .setJob (.upd h)
  · exact h

theorem State.Canonical.managerAbort {e : Exchange} {n : Nat × Nat} : (s.managerAbort e n).Canonical := by
  unfold State.managerAbort
  dsimp only
  refine .openTables ?_
  split
  · exact .complete (.ite (.abortEx h) (.jobTo (.undoTables (.abortEx h))))
  · exact .ite (.abortEx h) (.jobTo (.undoTables (.abortEx h)))

theorem Out.Canonical.execExchangeDecision : Out.Canonical (execExchangeDecision s) := by
  unfold Machine.execExchangeDecision
  dsimp only
  split
  · exact h
  · refine .ite h ?_
    split
    · exact .managerAbort (.passTo h)
    · exact .holdGo (.passTo h)

theorem State.Canonical.exchangeDone {e : Exchange} : (s.exchangeDone e).Canonical := by
  unfold State.exchangeDone
  dsimp only
  refine .openTables ?_
  split
  · split
    · exact .complete (.setJob (.setEx h))
    · exact .setJob (.setEx h)
  · exact .setEx h
  · exact .setEx h
  · exact .setJob (.setEx h)
  · exact .setJob (.setEx h)
  · exact .jobTo (.setEx h)
  · exact .tablesDone (.setEx h)

theorem Out.Canonical.execStartCollectionDeadline : Out.Canonical (execStartCollectionDeadline s) := by
  unfold Machine.execStartCollectionDeadline
  dsimp only
  split
  · exact h
  · refine .ite h (.ite (.reachCount (.passTo h)) ?_)
    split
    · exact .managerAbort (.passTo h)
    · exact .exchangeDone (.passTo h)

/-! ## PREPARE of a job -/

theorem State.Canonical.jobPrepare {kind : ExKind} {job k : Nat} {unit : Nat → Nat} {cut : Bool} {epoch : Nat} :
    (s.jobPrepare kind job k unit cut epoch).2.Canonical := by
  unfold State.jobPrepare
  split
  exacts [h, .upd h]

/-! ## Stretch -/

theorem State.Canonical.ownStretch {c k unit : Nat} : (s.ownStretch c k unit).Canonical := .tellStretch (.modCtx h)

theorem State.Canonical.jobStretch {id : Nat} {kind : ExKind} {k unit : Nat} : (s.jobStretch id kind k unit).Canonical :=
  .ite h (.openExchange (.jobPrepare h))

theorem State.Canonical.jobBudget {id at_ stp : Nat} : (s.jobBudget id at_ stp).Canonical :=
  .foldl h (fun _ ht => .ite (.modCtx ht) (.ctl ht))

theorem State.Canonical.takeAsk {m id p d stp : Nat} : (s.takeAsk m id p d stp).Canonical := by
  unfold State.takeAsk
  dsimp only
  split
  · exact .jobBudget h
  · exact .ite (.setJob h) (.jobStretch (.setJob h))

theorem Out.Canonical.execStretchRequest {c : BitVec 6} {stp : StretchNeed} : Out.Canonical (execStretchRequest c stp s) := by
  unfold Machine.execStretchRequest
  dsimp only
  split
  · exact .ite (.takeAsk h) h
  · exact h
  · refine .ite h (.ite (.ctl (.modCtx h)) ?_)
    split
    · exact .ite (.jobBudget h) (.modCtx h)
    · exact .ite h (.ite (.takeAsk (.modCtx h)) (.ownStretch (.modCtx h)))

theorem State.Canonical.takeHeld {m id : Nat} : (s.takeHeld m id).Canonical := .ite (.jobStretch (.setJob h)) (.setJob h)

theorem State.Canonical.stretchEnds {c : Nat} : (s.stretchEnds c).Canonical := by
  unfold State.stretchEnds
  dsimp only
  split
  · exact .stretchNow (.passTo h)
  · exact .ite h (.ite (.ctl (.passTo h)) (.ite (.takeHeld (.passTo h)) (.ownStretch (.passTo h))))
  · exact h

theorem Out.Canonical.execStretchOff {c : StretchEnd} : Out.Canonical (execStretchOff c s) := by
  unfold Machine.execStretchOff
  split
  · exact .ite (.takeHeld h) h
  · exact .stretchEnds h

/-! ## Engines and the work on them -/

theorem State.Canonical.faultWorkers {source code : Nat} : (s.faultWorkers source code).Canonical :=
  .foldl h fun _ ht => .ctxFault ht

theorem Out.Canonical.execEngineFault {source : BitVec 32} : Out.Canonical (execEngineFault source s) :=
  .ite h (.tellManager (.faultWorkers (.logFault (.post (.upd h)))))

/-! ## RESET descriptors -/

theorem State.Canonical.resetBusy {d : Taken} {level : Nat} : (s.resetBusy d level).Canonical := .complete h

/-! ## Context reset -/

theorem State.Canonical.dropLaunch {c : Nat} : (s.dropLaunch c).Canonical := by
  unfold State.dropLaunch
  split
  · exact h
  · exact .ite h (.ite (.setEx h) (.nogo h))

theorem State.Canonical.resetSteps {c n : Nat} : (s.resetSteps c n).Canonical :=
  .ite (.restartTicks (.modCtx (.ite (.mapOwned (.ite (.mapOwned
    (.purgeFlits (.dropEp (.ite (.endWalks (.ite (.flushCtx (.ite (.modCtx (.abortLoad h)) h))
    (.ite (.modCtx (.abortLoad h)) h))) (.ite (.flushCtx (.ite (.modCtx (.abortLoad h)) h)) (.ite (.modCtx (.abortLoad h)) h)))))
    (fun ht => .upd ht)) (.ite (.endWalks (.ite (.flushCtx (.ite (.modCtx (.abortLoad h)) h)) (.ite (.modCtx (.abortLoad h)) h)))
    (.ite (.flushCtx (.ite (.modCtx (.abortLoad h)) h)) (.ite (.modCtx (.abortLoad h)) h)))) (fun ht => .clearExec ht))
    (.ite (.mapOwned (.purgeFlits (.dropEp (.ite (.endWalks
    (.ite (.flushCtx (.ite (.modCtx (.abortLoad h)) h)) (.ite (.modCtx (.abortLoad h)) h)))
    (.ite (.flushCtx (.ite (.modCtx (.abortLoad h)) h)) (.ite (.modCtx (.abortLoad h)) h))))) (fun ht => .upd ht))
    (.ite (.endWalks (.ite (.flushCtx (.ite (.modCtx (.abortLoad h)) h)) (.ite (.modCtx (.abortLoad h)) h)))
    (.ite (.flushCtx (.ite (.modCtx (.abortLoad h)) h)) (.ite (.modCtx (.abortLoad h)) h)))))))
    (.ite (.mapOwned (.ite (.mapOwned (.purgeFlits (.dropEp
    (.ite (.endWalks (.ite (.flushCtx (.ite (.modCtx (.abortLoad h)) h)) (.ite (.modCtx (.abortLoad h)) h)))
    (.ite (.flushCtx (.ite (.modCtx (.abortLoad h)) h)) (.ite (.modCtx (.abortLoad h)) h))))) (fun ht => .upd ht))
    (.ite (.endWalks (.ite (.flushCtx (.ite (.modCtx (.abortLoad h)) h)) (.ite (.modCtx (.abortLoad h)) h)))
    (.ite (.flushCtx (.ite (.modCtx (.abortLoad h)) h)) (.ite (.modCtx (.abortLoad h)) h)))) (fun ht => .clearExec ht))
    (.ite (.mapOwned (.purgeFlits (.dropEp (.ite (.endWalks
    (.ite (.flushCtx (.ite (.modCtx (.abortLoad h)) h)) (.ite (.modCtx (.abortLoad h)) h)))
    (.ite (.flushCtx (.ite (.modCtx (.abortLoad h)) h)) (.ite (.modCtx (.abortLoad h)) h))))) (fun ht => .upd ht))
    (.ite (.endWalks (.ite (.flushCtx (.ite (.modCtx (.abortLoad h)) h)) (.ite (.modCtx (.abortLoad h)) h)))
    (.ite (.flushCtx (.ite (.modCtx (.abortLoad h)) h)) (.ite (.modCtx (.abortLoad h)) h)))))

theorem State.Canonical.finishReset {c : Nat} : (s.finishReset c).1.Canonical := by
  have hr : ∀ n, ((s.modCtx c fun x => { x with resetting := none }).resetSteps c n).Canonical := fun _ => .resetSteps (.modCtx h)
  unfold State.finishReset
  dsimp only
  rw [apply_ite Prod.fst]
  exact .ite (.modCtx (hr 5)) (hr 6)

theorem State.Canonical.hostReset {c : Nat} : (s.hostReset c).Canonical := .ite (.ctxFault h) h
theorem State.Canonical.beginReset {c : Nat} : (s.beginReset c).Canonical := .modCtx (.hostReset (.dropLaunch h))

theorem Out.Canonical.execContextReset : Out.Canonical (execContextReset s) := by
  unfold Machine.execContextReset
  dsimp only
  split
  · refine .ite (.refuseCx h) ?_
    split
    · exact .resetBusy h
    · exact .ite (.beginReset (.setSt h)) (.complete (.finishReset (.beginReset (.setSt h))))
  · exact .ite h (.complete (.finishReset h))
  · exact h

theorem State.Canonical.hungReset {c source : Nat} : (s.hungReset c source).Canonical := .modCtx (.resetSteps h)

theorem Out.Canonical.execEngineHung {c : BitVec 6} {source : BitVec 32} : Out.Canonical (execEngineHung c source s) := by
  unfold Machine.execEngineHung
  dsimp only
  split
  · exact h
  · exact .ite h (.complete (.hungReset (.ite (.beginReset (.setSt h)) h)))

/-! ## Function level reset -/

theorem State.Canonical.flrRings {c : Nat} : (s.flrRings c).Canonical := .modCtx (.setFn h)

theorem Out.Canonical.execFlr {c : BitVec 6} : Out.Canonical (execFlr c s) :=
  .ite h (.ite (.beginReset (.flrRings h)) (.flrRings h))

theorem Out.Canonical.execFlrDone {c : BitVec 6} {hung : Option (BitVec 32)} : Out.Canonical (execFlrDone c hung s) := by
  unfold Machine.execFlrDone
  dsimp only
  refine .ite h ?_
  split
  · exact .postPf (.ite (.hungReset (.modFn h)) (.modFn h))
  · exact .postPf (.ite (.finishReset (.modFn h)) (.modFn h))

/-! ## Engine reset -/

theorem State.Canonical.stopEngine {p : Nat} : (s.stopEngine p).Canonical := by
  unfold State.stopEngine
  dsimp only
  split
  · exact h
  · exact .ite (.modShard (.modPort h (fun ht => .upd ht))) (.ite (.modCtx (.dropRecheck h)) (.modPort h (fun ht => .upd ht)))

theorem State.Canonical.resetPort {p : Nat} : (s.resetPort p).Canonical :=
  .modPort (.foldl (.foldl h (fun _ ht => .endAttend ht)) (fun _ ht => .flushPair ht)) fun ht => .upd ht

theorem State.Canonical.loseShards {c i : Nat} : (s.loseShards c i).Canonical :=
  .ite h (.modCtx (.foldl h (fun _ ht => .modShard ht)))

theorem State.Canonical.resetCore {i : Nat} : (s.resetCore i).Canonical := by
  unfold State.resetCore
  dsimp only
  split
  · exact .loseShards (.setCore h (.upd (.scrub _)))
  · exact .setCore h (.scrub _)

theorem State.Canonical.resetEngine {source : Nat} : (s.resetEngine source).Canonical := by
  unfold State.resetEngine
  dsimp only
  split
  · exact .resetPort h
  · exact .ite (.endAttend h) h
  · exact .tryTrain (.portTo h)
  · exact .resetCore h

theorem State.Canonical.beginEngineReset {source : Nat} : (s.beginEngineReset source).Canonical :=
  .resetEngine (.foldl (.ite (.stopEngine (.faultWorkers h)) (.faultWorkers h)) (fun _ ht => .abortLoad ht))

theorem Out.Canonical.execEngineReset : Out.Canonical (execEngineReset s) := by
  unfold Machine.execEngineReset
  dsimp only
  split
  · exact h
  · split
    · exact .complete h
    · exact .ite (.resetBusy h) (.upd (.beginEngineReset (.setSt h)))

theorem State.Canonical.coreBack {i : Nat} {good : Bool} : (s.coreBack i good).Canonical := by
  unfold State.coreBack
  dsimp only
  refine .ite (.retire (.modCore h (fun ht => .upd ht))) ?_
  split
  · exact h
  · split
    · exact .loadCores (.modCore h (fun ht => .fence ht))
    · exact .modCore h fun ht => .fence ht

theorem State.Canonical.engineBack {source : Nat} {good : Bool} : (s.engineBack source good).Canonical := by
  unfold State.engineBack
  split
  · exact .modPort h fun ht => .upd ht
  · exact .coreBack h
  · exact h

theorem Out.Canonical.execEngineResetDone {source : BitVec 32} {good : Bool} :
    Out.Canonical (execEngineResetDone source good s) := by
  unfold Machine.execEngineResetDone
  dsimp only
  split
  · exact h
  · exact .complete (.postPf (.foldl (.engineBack (.upd h)) (fun _ ht => .postCtx ht)))

/-! ## Partition reset -/

theorem State.Canonical.partSteps {c : Nat} {r : Rect} {bad : List Nat} {d : Taken} : (s.partSteps c r bad d).Canonical :=
  .ite (.complete (.bindTo (.restartTicks (.modCtx (.scrubPart (.endBatches (.stopFlush h)))))))
    (.complete (.listPods (.foldl (.restartTicks (.modCtx (.scrubPart (.endBatches (.stopFlush h)))))
    (fun _ ht => .withdrawPod ht))))

theorem Out.Canonical.execPartitionReset {bad : List (BitVec 8)} : Out.Canonical (execPartitionReset bad s) := by
  unfold Machine.execPartitionReset
  dsimp only
  split
  · refine .ite (.refuseCx h) ?_
    split
    · exact .resetBusy h
    · exact .refuseCx h
    · exact .ite (.modCtx (.askQuiesce (.setSt (.dropLaunch h)))) (.partSteps (.dropLaunch h))
  · split
    · exact .ite h (.partSteps h)
    · exact h
  · exact h

/-! ## Module reset -/

theorem State.Canonical.retainCtx {c : Nat} : (s.retainCtx c).Canonical := by
  unfold State.retainCtx
  dsimp only
  refine .foldl h fun _ ht => ?_
  split
  · exact .logFault (.retain ht)
  · exact ht

theorem State.Canonical.retainAll : (s.retainAll).Canonical := .foldl h fun _ ht => .retainCtx ht
theorem State.Canonical.portsDown : (s.portsDown).Canonical := .foldl h (fun _ ht => .ite (.leaveUp ht) ht)

theorem State.Canonical.moduleReset {cause : Nat} : (s.moduleReset cause).Canonical := by
  have hr : s.retainAll.portsDown.Canonical := .portsDown (.retainAll h)
  have hcores := hr.mapCores (f := fun e => (e.1, e.2.afterReset)) (seqs := []) (flight := []) (nextNum := 0) (phase := 0)
    fun he => he.afterReset
  have hports := hr.mapPorts (f := fun e => (e.1, e.2.afterReset e.1)) fun he => he.afterReset
  unfold State.moduleReset
  split
  · exact h
  · generalize s.retainAll.portsDown = r at *
    obtain ⟨cores, -⟩ := State.canonical_iff.mp hcores
    obtain ⟨-, rest⟩ := State.canonical_iff.mp hports
    rw [State.canonical_iff]
    exact ⟨cores, rest⟩

theorem Out.Canonical.execModuleReset : Out.Canonical (execModuleReset s) := by
  unfold Machine.execModuleReset
  split
  · exact .moduleReset h
  · exact h

theorem Out.Canonical.execMgReset {window : Bool} {v : BitVec 32} : Out.Canonical (execMgReset window v s) :=
  .ite (.moduleReset h) h

theorem Out.Canonical.execWatchdog : Out.Canonical (execWatchdog s) := .ite h (.moduleReset (.logFault (.passTo h)))
theorem Out.Canonical.execSmbusReset {v : BitVec 32} : Out.Canonical (execSmbusReset v s) := .ite (.moduleReset h) h
theorem State.Canonical.flogAck {v : Nat} : (s.flogAck v).Canonical := .ite h (.upd h)
theorem Out.Canonical.execMgFlogack {v : BitVec 32} : Out.Canonical (execMgFlogack v s) := .ite (.flogAck h) h

/-! ## Loss of power -/

theorem State.Canonical.powerOff : s.powerOff.Canonical := by
  have hp : ({ s with ports := s.ports.map fun e => (e.1, e.2.afterPower e.1) } : State).Canonical := h.mapPorts fun he =>
    he.afterPower
  obtain ⟨-, ports, mem⟩ := State.canonical_iff.mp hp
  exact State.canonical_iff.mpr ⟨rfl, ports, mem⟩

/-! ## The boot ROM -/

theorem State.Canonical.flashCheck : s.flashCheck.2.Canonical := by
  unfold State.flashCheck
  split
  exacts [.upd h, h]

theorem State.Canonical.handOff : (s.handOff).Canonical := .upd h
theorem State.Canonical.enterRecovery {code : Nat} : (s.enterRecovery code).Canonical := .upd h

theorem State.Canonical.boot : s.boot.Canonical := by
  unfold State.boot
  dsimp only
  split
  exacts [.handOff h.flashCheck, .enterRecovery (.logFault h.flashCheck)]

/-! ## Recovery -/

theorem State.Canonical.toRecovery : (s.toRecovery).Canonical := .upd (.moduleReset h)
theorem Out.Canonical.execRecoveryEnter {v : BitVec 32} : Out.Canonical (execRecoveryEnter v s) := .ite (.toRecovery h) h
theorem State.Canonical.rcvFail {code : Nat} : (s.rcvFail code).Canonical := .upd h

theorem State.Canonical.rcvImage {m : List Byte} {len : Nat} {flashOk : Bool} : (s.rcvImage m len flashOk).Canonical := by
  unfold State.rcvImage
  dsimp only
  refine .ite (.rcvFail h) ?_
  split
  · exact .rcvFail h
  · exact .ite (.handOff (.upd h)) (.rcvFail (.upd h))

theorem Out.Canonical.execRecoveryTransfer {dma : Dma} {flashOk : Bool} : Out.Canonical (execRecoveryTransfer dma flashOk s) := by
  unfold Machine.execRecoveryTransfer
  dsimp only
  refine .ite h ?_
  split
  · exact .rcvFail (.upd h)
  · refine .ite (.ite (.rcvFail h) ?_) (.rcvImage h)
    split
    · exact .rcvFail h
    · exact .boot (.upd h)

/-! ## Disabled units at a start -/

theorem State.Canonical.withdraw {pod : Nat} : (s.withdraw pod).Canonical := .ite h (.logFault (.upd h))

/-! ## The stages -/

theorem State.Canonical.supplyFail {arg0 arg1 : Nat} : (s.supplyFail arg0 arg1).Canonical := .upd (.logFault (.setMg h))

theorem State.Canonical.raiseRails {rails : List (BitVec 6)} : (s.raiseRails rails).Canonical :=
  .foldl (.foldl (.upd h) (fun _ ht => .withdraw ht)) (fun _ ht => .readCable (.modEpPort ht))

theorem State.Canonical.retireTested {spare : List Nat} {n : Nat} : (s.retireTested spare n).Canonical :=
  .ite (.retireNo h) (.retireNo (.draw h))

theorem State.Canonical.selfTest {cores : List Nat} : (s.selfTest cores).Canonical :=
  .foldl (.setMg (.foldl h (fun _ ht => .retireTested ht))) fun _ ht => .withdraw ht

theorem State.Canonical.trainCrossings {edges : List (BitVec 8)} : (s.trainCrossings edges).Canonical :=
  .upd (.foldl h (fun _ ht => .withdraw ht))

theorem State.Canonical.buildDistance : (s.buildDistance).Canonical := .setMg h

theorem State.Canonical.scrubPanel {pods : List (BitVec 8)} : (s.scrubPanel pods).Canonical := by
  obtain ⟨-, rest⟩ := State.canonical_iff.mp h
  exact .foldl (State.canonical_iff.mpr ⟨rfl, rest⟩) fun _ ht => .withdrawPod ht

theorem State.Canonical.trainStacks {ports : List (BitVec 5)} : (s.trainStacks ports).Canonical :=
  .foldl (.foldl h (fun _ ht => .ite ht (.ite (.logFault (.modPort ht (fun hu => .upd hu))) (.modPort ht (fun hu => .upd hu)))))
    fun _ ht => .libDelete ht

theorem State.Canonical.hostReady : (s.hostReady).Canonical := .ite (.setMg h) (.logFault (.setMg h))
theorem State.Canonical.endStage {k : Nat} {us : BitVec 32} : (s.endStage k us).Canonical := .setMg h

theorem State.Canonical.stageDo {k : Nat} {r : StageResult} : (s.stageDo k r).1.Canonical := by
  unfold State.stageDo
  split <;> simp only [apply_ite Prod.fst]
  · exact .ite h.supplyFail h
  · exact .ite h (.ite h.enterRecovery h.boot)
  · exact h
  · exact .ite h.setMg h.raiseRails
  · exact h.selfTest
  · exact h.trainCrossings
  · exact h.buildDistance
  · exact h.scrubPanel
  · exact h.trainStacks
  · exact h.hostReady

theorem Out.Canonical.execModuleStartStage {r : StageResult} : Out.Canonical (execModuleStartStage r s) :=
  .ite h (.ite (.endStage (.stageDo (.ite (.passTo h) (.ite (.passTo h) h)))) (.stageDo (.ite (.passTo h) (.ite (.passTo h) h))))

theorem Out.Canonical.execRefAbsent : Out.Canonical (execRefAbsent s) := .ite h (.upd (.logFault (.setMg h)))
theorem Out.Canonical.execTemperatureGateClear : Out.Canonical (execTemperatureGateClear s) := .ite (.upd h) h

/-! ## Lines and power -/

theorem State.Canonical.assertPerst : (s.assertPerst).Canonical := .upd (.ite (.moduleReset h) h)
theorem Out.Canonical.execPerst : Out.Canonical (execPerst s) := .ite h (.assertPerst h)
theorem State.Canonical.trainHost : (s.trainHost).Canonical := .ite h (.upd h)
theorem Out.Canonical.execPerstDeassert : Out.Canonical (execPerstDeassert s) := .ite (.trainHost (.upd h)) (.upd h)
theorem Out.Canonical.execHostLinkDown : Out.Canonical (execHostLinkDown s) := .upd (.assertPerst h)
theorem Out.Canonical.execPwrEnRise : Out.Canonical (execPwrEnRise s) := .ite (.upd h) (.ite (.upd h) (.trainHost (.upd h)))
theorem Out.Canonical.execPwrEnFall : Out.Canonical (execPwrEnFall s) := .upd (.powerOff h)
theorem Out.Canonical.execInputPowerLoss : Out.Canonical (execInputPowerLoss s) := .upd (.powerOff h)
theorem Out.Canonical.execModRstN : Out.Canonical (execModRstN s) := .upd (.moduleReset h)
theorem Out.Canonical.execModRstNRelease : Out.Canonical (execModRstNRelease s) := .upd h

/-! ## The time counter -/

theorem State.Canonical.setTcb {f : TimeBlock → TimeBlock} : (s.setTcb f).Canonical := .upd h

/-! ## Lock and pulses -/

theorem Out.Canonical.execReferenceLock : Out.Canonical (execReferenceLock s) := .ite h (.setTcb h)
theorem State.Canonical.loadCounter : (s.loadCounter).Canonical := .setTcb h
theorem State.Canonical.checkPulse : (s.checkPulse).Canonical := .ite h (.logFault (.postAll (.setTcb h)))
theorem Out.Canonical.execSyncPulse : Out.Canonical (execSyncPulse s) := .ite h (.ite (.loadCounter h) (.ite (.checkPulse h) h))

/-! ## Holdover -/

theorem State.Canonical.loseTime {align : Bool} : (s.loseTime align).Canonical := .upd h
theorem Out.Canonical.execTcHoldover : Out.Canonical (execTcHoldover s) := .ite h (.logFault (.postAll (.setTcb (.loseTime h))))
theorem Out.Canonical.execTimeLost : Out.Canonical (execTimeLost s) := .ite h (.foldl (.passTo h) (fun _ ht => .ctxFault ht))
theorem Out.Canonical.execReferenceReturn {off : ℤ} : Out.Canonical (execReferenceReturn off s) := .ite h (.setTcb h)

/-! ## Slewing -/

theorem Out.Canonical.execCounterSlew : Out.Canonical (execCounterSlew s) := by
  unfold Machine.execCounterSlew
  dsimp only
  refine .ite h (.ite (.setTcb (.passTo ?_)) (.setTcb ?_))
  · split
    · exact .passTo h
    · exact h
  · split
    · exact .passTo h
    · exact h

/-! ## Alignment across racks -/

theorem State.Canonical.drifted : (s.drifted).Canonical := .foldl h (fun _ ht => .ctl (.postCtx ht))
theorem State.Canonical.realign : (s.realign).Canonical := .ite (.drifted (.loseTime (.setTcb h))) (.setTcb h)

theorem State.Canonical.takeOffset {sum : ℤ} : (s.takeOffset sum).Canonical :=
  .realign (.ite (.setTcb (.setTcb h)) (.setTcb (.setTcb h)))

theorem Out.Canonical.execTimeTreeExchange {t1 t2 t3 t4 : Nat} : Out.Canonical (execTimeTreeExchange t1 t2 t3 t4 s) :=
  .ite h (.ite (.setTcb h) (.takeOffset h))

theorem Out.Canonical.execFerrMeasure {err : BitVec 16} : Out.Canonical (execFerrMeasure err s) :=
  .ite h (.realign (.setTcb (.passTo h)))

theorem Out.Canonical.execTimeDrift {m : BitVec 10} {aligned : Bool} : Out.Canonical (execTimeDrift m aligned s) := by
  unfold Machine.execTimeDrift
  dsimp only
  refine .ite h (.ite (.upd h) ?_)
  split
  · exact h
  · exact .foldl (.upd (.passTo h)) (fun _ ht => .jobTo (.foldl ht (fun _ hu => .ite (.ctxFault hu) (.ctl hu))))

/-! ## Latched reads -/

theorem State.Canonical.readOut {v : BitVec 32} : (s.readOut v).Canonical := .upd h
theorem State.Canonical.latchNow {p : Path} : (s.latchNow p).Canonical := .setTcb h

theorem Out.Canonical.execTcNowLoRead {path : Path} : Out.Canonical (execTcNowLoRead path s) :=
  .ite (.readOut (.latchNow h)) (.readOut h)

theorem State.Canonical.latchFcount {p : Path} {c : Nat} : (s.latchFcount p c).Canonical := .modCtx h

theorem Out.Canonical.execCxFcountLoRead {path : Path} {c : BitVec 6} : Out.Canonical (execCxFcountLoRead path c s) :=
  .ite (.readOut (.latchFcount h)) (.readOut h)

/-! ## The count that passes when no command waits -/

theorem State.Canonical.rotate {old : State} : (s.rotate old).Canonical := h.mapCores

theorem State.Canonical.coreCycle : s.coreCycle.Canonical :=
  .rotate (.foldl h fun _ ht => .ite ht.tryIssue ht)

theorem State.Canonical.coreCycles (n : Nat) : (State.coreCycles n s).Canonical := by
  induction n generalizing s with
  | zero => exact h
  | succ n ih => exact ih h.coreCycle

theorem State.Canonical.idleCount : s.idleCount.Canonical :=
  .ite h (.coreCycles (.setTcb (.passTo h)) _)

/-! ## Table changes -/

theorem State.Canonical.forgetJob {id : Nat} : (s.forgetJob id).Canonical := .upd (.foldl h (fun _ ht => .modCtx ht))

theorem State.Canonical.noteCut {q : Nat × Nat × Bool} : (s.noteCut q).Canonical :=
  .postPf (.upd (.foldl h (fun _ ht => .modEpPort ht)))

theorem State.Canonical.applyChange {c : TableChange} : (s.applyChange c).Canonical := by
  unfold State.applyChange
  dsimp only
  split
  · refine .noteCut (.ite (.forgetJob (.foldl ?_ (fun _ ht => .modEpPort ht))) (.foldl ?_ (fun _ ht => .modEpPort ht)))
    · split
      · exact .upd (.ite (.upd h) (.ite h (.foldl (.upd h) (fun _ ht => .modEpPort ht))))
      · exact .ite (.upd h) (.ite h (.foldl (.upd h) (fun _ ht => .modEpPort ht)))
    · split
      · exact .upd (.ite (.upd h) (.ite h (.foldl (.upd h) (fun _ ht => .modEpPort ht))))
      · exact .ite (.upd h) (.ite h (.foldl (.upd h) (fun _ ht => .modEpPort ht)))
  · refine .ite (.forgetJob (.foldl ?_ (fun _ ht => .modEpPort ht))) (.foldl ?_ (fun _ ht => .modEpPort ht))
    · split
      · exact .upd (.ite (.upd h) (.ite h (.foldl (.upd h) (fun _ ht => .modEpPort ht))))
      · exact .ite (.upd h) (.ite h (.foldl (.upd h) (fun _ ht => .modEpPort ht)))
    · split
      · exact .upd (.ite (.upd h) (.ite h (.foldl (.upd h) (fun _ ht => .modEpPort ht))))
      · exact .ite (.upd h) (.ite h (.foldl (.upd h) (fun _ ht => .modEpPort ht)))

theorem Out.Canonical.execTableChange {t : Option TableChange} : Out.Canonical (execTableChange t s) := by
  unfold Machine.execTableChange
  dsimp only
  refine .ite h ?_
  split
  · exact .takeChange h
  · exact .applyChange (.passTo (.upd h))
  · exact h

/-! ## Formation -/

theorem State.Canonical.endJobs : (s.endJobs).Canonical := .upd (.foldl h (fun _ ht => .modCtx ht))
theorem State.Canonical.adoptOn {arrival mgr : Nat} : (s.adoptOn arrival mgr).Canonical := .foldl h fun _ ht => .ctl ht
theorem State.Canonical.tellTime {ms : List Nat} : (s.tellTime ms).Canonical := .ite (.foldl h (fun _ ht => .ctl ht)) h

theorem State.Canonical.form {found : List FoundMod} : (s.form found).Canonical := by
  unfold State.form
  extract_lets _ e s1 t _ s2
  have h1 : s1.Canonical := .adoptOn (.upd h)
  have h2 : s2.Canonical := .upd h1
  clear_value s1 s2
  split
  · exact .postPf h1
  · exact .tellTime (.foldl h2 fun _ hu => .ctl hu)

theorem State.Canonical.writeReq {v : BitVec 2} {found : List FoundMod} : (s.writeReq v found).Canonical :=
  .ite h (.ite (.cfgPf (.upd h)) (.ite (.cfgPf h) (.ite (.form (.upd h)) (.ite (.upd (.upd h)) (.upd h)))))

theorem Out.Canonical.execRingFormation {v : BitVec 2} {found : List FoundMod} : Out.Canonical (execRingFormation v found s) :=
  .atBar h (.writeReq h)

theorem State.Canonical.adopted {a : AdoptMsg} : (s.adopted a).Canonical := .upd (.endJobs h)

theorem Out.Canonical.execAdoption {a : AdoptMsg} : Out.Canonical (execAdoption a s) :=
  .ite h (.ite (.postPf h) (.ite h (.adoptOn (.adopted h))))

theorem Out.Canonical.execManagerTake {found : List FoundMod} : Out.Canonical (execManagerTake found s) := by
  unfold Machine.execManagerTake
  dsimp only
  split
  · exact h
  · exact .ite h (.complete (.form (.endJobs h)))

/-! ## Beacons and heartbeats -/

theorem Out.Canonical.execBeacon : Out.Canonical (execBeacon s) := .ite (.spread (.upd (.passTo h))) (.ite (.spread (.upd h)) h)

theorem Out.Canonical.execHeartbeat {m : BitVec 10} : Out.Canonical (execHeartbeat m s) := by
  unfold Machine.execHeartbeat
  dsimp only
  refine .ite (.ctl (.upd ?_)) (.ite (.upd h) h)
  split
  · exact .passTo h
  · exact h

theorem Out.Canonical.execManagerLost : Out.Canonical (execManagerLost s) := .ite h (.postAll (.upd (.passTo h)))

/-! ## Jobs -/

theorem State.Canonical.layJob {id : Nat} {j : Job} {r : State × List (Nat × TableChange)}
    (hr : s.layJob id j = .inr r) : r.1.Canonical := by
  unfold State.layJob at hr
  dsimp only at hr
  split at hr
  · cases hr
  · split at hr
    · cases hr
    · cases hr
      exact .setJob (.upd h)

theorem State.Canonical.sendRanks {id : Nat} {j : Job} : (s.sendRanks id j).Canonical := .foldl h fun _ ht => .sendChange ht

theorem State.Canonical.createJob {d : Taken} {bad : List Nat} : (s.createJob d bad).Canonical := by
  unfold State.createJob
  dsimp only
  refine .ite (.complete h) ?_
  split
  · exact .complete h
  · refine .ite (.complete h) ?_
    split
    · exact .complete h
    next r hr => exact .queueTables (.setSt (.sendRanks (.upd (h.layJob hr))))

theorem Out.Canonical.execJobCreate {dma : Dma} {bad : List Nat} : Out.Canonical (execJobCreate dma bad s) := by
  unfold Machine.execJobCreate
  split
  · exact h
  · refine .ite (.complete h) ?_
    split
    · exact .hostAbort h
    · exact .createJob h

theorem State.Canonical.jobCmd {op : Nat} {f : Taken → Nat → State} (hf : ∀ d n, (f d n).Canonical) :
    (s.jobCmd op f).Canonical := by
  unfold State.jobCmd
  split
  · exact h
  · exact .ite (.complete h) (.ite (hf _ _) (.complete h))

theorem Out.Canonical.execJobEnd : Out.Canonical (execJobEnd s) :=
  .jobCmd h (fun _ _ => .ite (.complete h) (.queueTables (.setSt (.upd h))))

theorem Out.Canonical.execJobLaunch : Out.Canonical (execJobLaunch s) := by
  refine .jobCmd h fun d id => ?_
  dsimp only
  split
  · exact .complete h
  · exact .complete h
  · split
    · exact .complete h
    · exact .complete (.setJob h)
    · split
      · exact .complete h
      next hr => exact .upd (.openExchange (.foldl (.jobPrepare (.setSt (.jobTo (h.layJob hr)))) fun _ hu => .sendChange hu))

theorem State.Canonical.jobExchange {d : Taken} {id : Nat} {kind : ExKind} {fit cut : Bool} {epoch : Nat} {st : JobSt} :
    (s.jobExchange d id kind fit cut epoch st).Canonical := by
  unfold State.jobExchange
  dsimp only
  split
  · exact .complete h
  · exact .openExchange (.jobPrepare (.setSt (.jobTo h)))

theorem Out.Canonical.execJobQuiesce : Out.Canonical (execJobQuiesce s) := .jobCmd h fun _ _ => .jobExchange h
theorem Out.Canonical.execJobResume : Out.Canonical (execJobResume s) := .jobCmd h fun _ _ => .jobExchange h

theorem State.Canonical.swapOf {id : Nat} : (s.swapOf id).2.Canonical := by
  unfold State.swapOf
  split
  exacts [h, .upd h]

theorem Out.Canonical.execJobSwap : Out.Canonical (execJobSwap s) := .jobCmd h (fun _ _ => .jobExchange (.setJob (.swapOf h)))

theorem Out.Canonical.execSwapLoadedReport {job : BitVec 16} {m : BitVec 10} {failed : Option (List (BitVec 16))} :
    Out.Canonical (execSwapLoadedReport job m failed s) := by
  unfold Machine.execSwapLoadedReport
  dsimp only
  refine .ite h ?_
  split
  · split
    · exact .complete h
    · exact h
  · exact .ite (.setJob h) (.openExchange (.jobPrepare (.setJob h)))

/-! ## Failures and reshaping -/

theorem State.Canonical.raiseAt {q : Nat × Nat} {code source a0 a1 : Nat} : (s.raiseAt q code source a0 a1).Canonical :=
  .ite (.ctxFault h) (.ctl h)

theorem State.Canonical.raiseJob {id code source a0 : Nat} : (s.raiseJob id code source a0).Canonical :=
  .jobTo (.foldl h (fun _ ht => .raiseAt ht))

theorem State.Canonical.reJob {old : Epfin} {id : Nat} : (s.reJob old id).1.Canonical := .setJob (.upd h)

theorem State.Canonical.declare {ms : List Nat} {link : Option Hop} {excluded : Bool} :
    (s.declare ms link excluded).Canonical := by
  unfold State.declare
  extract_lets e0 links mark ms' lostHops ids hitMod hitHop first second s1 s2 pips _ s3 s4 lost items cuts
  have h1 : s1.Canonical := .foldl h fun _ ht => .raiseJob ht
  have h2 : s2.Canonical := .foldl h1 fun _ ht => .raiseJob ht
  have h3 : s3.Canonical := .upd h2
  have h4 : s4.1.Canonical := second.foldlRecOn (motive := fun t : State × List (Nat × TableChange) => t.1.Canonical) _ h3
    fun t ht _ _ => .reJob ht
  exact .ite h4 (.queueTables h4)

theorem Out.Canonical.execModuleFailed {m : BitVec 10} {link : Option (BitVec 3)} :
    Out.Canonical (execModuleFailed m link s) := by
  unfold Machine.execModuleFailed
  dsimp only
  refine .ite h ?_
  split
  · exact .ite h (.ite (.declare h) (.declare (.passTo h)))
  · exact .ite h (.declare h)

theorem Out.Canonical.execExclude {dma : Dma} : Out.Canonical (execExclude dma s) := by
  unfold Machine.execExclude
  dsimp only
  split
  · exact h
  · refine .ite (.complete h) ?_
    split
    · exact .hostAbort h
    · exact .ite (.complete h) (.complete (.declare h))

theorem State.Canonical.readmit {m : Nat} : (s.readmit m).Canonical := .queueTables (.ite (.tellTime (.ctl (.upd h))) (.upd h))

theorem Out.Canonical.execReadmit {bad : Option (BitVec 3)} : Out.Canonical (execReadmit bad s) := by
  unfold Machine.execReadmit
  dsimp only
  split
  · exact h
  · refine .ite (.complete h) (.ite (.complete h) ?_)
    split
    · exact .complete (.postPf h)
    · exact .complete (.readmit h)

/-! ## Fault reports -/

theorem State.Canonical.tellMembers {m c code : Nat} : (s.tellMembers m c code).Canonical := by
  unfold State.tellMembers
  split
  · exact h
  · exact .jobTo (.foldl h (fun _ ht => .ite (.ctxFault ht) (.ctl ht)))

theorem State.Canonical.logReport {m code cls c source a0 a1 : Nat} : (s.logReport m code cls c source a0 a1).Canonical :=
  .postPf (.logAs h)

theorem Out.Canonical.execFaultReport {m : BitVec 10} {code : BitVec 16} {cls : BitVec 3} {c : BitVec 6}
    {source arg0 arg1 : BitVec 32} : Out.Canonical (execFaultReport m code cls c source arg0 arg1 s) :=
  .ite h (.ite (.ite h (.upd h)) (.ite (.tellMembers (.ite (.ite h (.logReport h))
    (.ite (.postPf (.upd (.ite h (.logReport h)))) (.ite (.postPf (.ite h (.logReport h))) (.ite h (.logReport h))))))
    (.ite (.ite h (.logReport h)) (.ite (.postPf (.upd (.ite h (.logReport h))))
    (.ite (.postPf (.ite h (.logReport h))) (.ite h (.logReport h)))))))

theorem Out.Canonical.execMemberFault {c : BitVec 6} {m : BitVec 10} {code : MemberCode} :
    Out.Canonical (execMemberFault c m code s) := by
  unfold Machine.execMemberFault
  refine .ite h ?_
  split
  · exact .ctxFault h
  · exact .ite (.modCtx h) (.ctxFault h)

/-! ## Frequency steps, forced steps, voltage loops, power, heat and the input supply -/

theorem State.Canonical.setFs {f : FreqBlock → FreqBlock} : (s.setFs f).Canonical := .upd h

/-! ## Step changes -/

theorem State.Canonical.atStep {n : Nat} : (s.atStep n).Canonical := .foldl (.setFs h) fun _ ht => .modCtx ht

theorem Out.Canonical.execStepChange {stp : BitVec 3} : Out.Canonical (execStepChange stp s) := by
  unfold Machine.execStepChange
  dsimp only
  split
  · exact h
  · exact .ite h (.setFs (.atStep h))

/-! ## The required steps -/

theorem State.Canonical.sample {v : Sensors} : (s.sample v).Canonical := .upd h
theorem State.Canonical.evalCoolant : (s.evalCoolant).Canonical := .ite (.postPf (.setFs (.setFs h))) (.setFs h)

theorem State.Canonical.applyReq : (s.applyReq).Canonical :=
  .ite (.ite (.setFs (.setFs h)) (.setFs h)) (.ite (.setFs (.setFs h)) (.setFs h))

theorem State.Canonical.endExcursion : (s.endExcursion).Canonical := .upd h

theorem Out.Canonical.execStepEvaluation {v : Sensors} : Out.Canonical (execStepEvaluation v s) :=
  .ite h (.ite (.endExcursion (.sample (.setFs (.passTo h))))
    (.ite (.setFs (.setFs (.evalCoolant (.endExcursion (.sample (.setFs (.passTo h)))))))
    (.applyReq (.setFs (.evalCoolant (.endExcursion (.sample (.setFs (.passTo h)))))))))

/-! ## Forced steps -/

theorem State.Canonical.force {code at_ : Nat} : (s.force code at_).Canonical :=
  .ite (.setFs h) (.logFault (.postAll (.setFs (.atStep (.setFs h)))))

theorem Out.Canonical.execForcedStep {cond : ForcedCond} {at_ : BitVec 32} : Out.Canonical (execForcedStep cond at_ s) :=
  .ite (.force h) h

theorem Out.Canonical.execForcedStepRelease : Out.Canonical (execForcedStepRelease s) := by
  unfold Machine.execForcedStepRelease
  dsimp only
  split
  · exact h
  · exact .ite h (.setFs (.setFs (.passTo h)))

theorem Out.Canonical.execXskew {edge : BitVec 32} : Out.Canonical (execXskew edge s) := .ite (.logFault (.setFs (.force h))) h

/-! ## Voltage loops and the supply -/

theorem Out.Canonical.execVoltageDroop {field : BitVec 6} {mv : Nat} : Out.Canonical (execVoltageDroop field mv s) :=
  .atField (.ite (.setFs (.upd h)) h)

theorem Out.Canonical.execVdroop {field : BitVec 6} : Out.Canonical (execVdroop field s) :=
  .atField (.ite (.logFault (.force h)) h)

theorem Out.Canonical.execSupplyFail {cause : SupplyCause} : Out.Canonical (execSupplyFail cause s) := by
  unfold Machine.execSupplyFail
  split
  · exact .ite (.supplyFail h) h
  · exact .ite (.supplyFail h) h

theorem Out.Canonical.execSupplyHigh {v : BitVec 16} : Out.Canonical (execSupplyHigh v s) := .ite (.postPf (.upd h)) h
theorem Out.Canonical.execSupplyLow {v : BitVec 16} : Out.Canonical (execSupplyLow v s) := .ite (.postPf (.upd h)) h

/-! ## Trip and coolant -/

theorem Out.Canonical.execThermalTrip {sensor : BitVec 32} {reading : BitVec 16} :
    Out.Canonical (execThermalTrip sensor reading s) :=
  .ite h (.moduleReset (.logFault (.setFs h)))

theorem Out.Canonical.execCoolantOk : Out.Canonical (execCoolantOk s) := by
  unfold Machine.execCoolantOk
  dsimp only
  split
  · exact h
  · exact .ite h (.postPf (.setFs (.passTo h)))

/-! ## The power cap -/

theorem State.Canonical.writePcap {cap v : Nat} : (s.writePcap cap v).Canonical := .ite (.setFs h) (.cfgPf h)
theorem Out.Canonical.execFsPcap {v : BitVec 32} : Out.Canonical (execFsPcap v s) := .atBar h (.writePcap h)
theorem Out.Canonical.execSmbusPcap {v : BitVec 16} : Out.Canonical (execSmbusPcap v s) := .ite (.writePcap h) h

/-! ## SMBus -/

theorem State.Canonical.latchRead {p : Path} {off : Nat} : (s.latchRead p off).Canonical :=
  .ite (.latchNow h) (.ite (.latchFcount h) h)

theorem Out.Canonical.execSmbusRead {off : BitVec 32} : Out.Canonical (execSmbusRead off s) :=
  .ite h (.ite (.upd h) (.ite (.upd h) (.upd (.latchRead h))))

/-! ## Writes -/

theorem State.Canonical.tcWrite {off : Nat} {v : BitVec 32} : (s.tcWrite off v).Canonical :=
  .ite (.ite (.tellTime (.ite h (.ite (.cfgPf (.setTcb h)) (.setTcb h)))) (.ite h (.ite (.cfgPf (.setTcb h)) (.setTcb h))))
    (.ite (.ite h (.ite (.cfgPf (.setTcb h)) (.setTcb h))) (.ite (.setTcb h) h))

theorem State.Canonical.shapeWrite {v : BitVec 32} : (s.shapeWrite v).Canonical := .ite h (.ite (.cfgPf (.upd h)) (.upd h))

theorem State.Canonical.pctlWrite {n : Nat} {v : BitVec 32} : (s.pctlWrite n v).Canonical :=
  .ite h (.ite (.cfgPf (.upd h)) (.ite (.cfgPf (.ite (.modEpPort h) (.ite (.tryTrain (.modEpPort h)) (.portTo (.modEpPort h)))))
    (.ite (.modEpPort h) (.ite (.tryTrain (.modEpPort h)) (.portTo (.modEpPort h))))))

theorem State.Canonical.epWrite {off : Nat} {v : BitVec 32} : (s.epWrite off v).Canonical :=
  .ite (.writeReq h) (.ite (.shapeWrite h) (.ite (.upd h) (.ite (.ite (.pctlWrite h) (.ite (.modEpPort h) h)) h)))

theorem State.Canonical.frameWrite {c space off : Nat} {v : BitVec 32} : (s.frameWrite c space off v).Canonical :=
  .ite h (.ite (.cfgSticky h) (.ite (.ite (.restartTicks (.modCtx h)) (.modCtx h)) (.cfgSticky (.modCtx h))))

theorem State.Canonical.pageWrite {c space base off : Nat} {v : BitVec 32} : (s.pageWrite c space base off v).Canonical :=
  .ite (.modCtx h) (.ite (.frameWrite h) (.ite (.modCtx h) (.ite (.modCtx h) h)))

theorem State.Canonical.ringBaseWrite {f off : Nat} {v old : BitVec 32} {low : Bool} {set : HostFn → BitVec 32 → HostFn} :
    (s.ringBaseWrite f off v old low set).Canonical :=
  .ite h (.ite (.cfgFn (.modFn h)) (.ite (.cfgFn (.modFn h)) (.modFn h)))

theorem State.Canonical.ringWrite {f off : Nat} {v : BitVec 32} : (s.ringWrite f off v).Canonical :=
  .ite (.ringBaseWrite h) (.ite (.ringBaseWrite h) (.ite (.ringBaseWrite h)
    (.ite (.ringBaseWrite h) (.ite (.ringBaseWrite h) (.ite (.ringBaseWrite h) (.ite (.rctlWrite h) (.ite (.modFn h) h)))))))

theorem State.Canonical.bellWrite {f off : Nat} {v : BitVec 32} : (s.bellWrite f off v).Canonical :=
  .ite (.dbSqt h) (.ite (.dbCqh h) (.ite (.dbEqh h) (.ite (.dbCommit h) h)))

theorem State.Canonical.pairStatic {p c q off : Nat} {v : BitVec 32} {changes ok : Bool} {f : Pair → Pair} :
    (s.pairStatic p c q off v changes ok f).Canonical :=
  .ite h (.ite (.cfgCtx (.setPair h)) (.ite (.setPair h) (.cfgSticky (.setPair h))))

theorem State.Canonical.recordWrite {c off : Nat} {v : BitVec 32} : (s.recordWrite c off v).Canonical :=
  .ite h (.ite (.modCtx (.pairStatic h)) (.ite (.modCtx h)
    (.ite (.pairStatic h) (.ite (.pairStatic h) (.ite (.ite (.flushPair (.setPair h)) (.setPair h)) h)))))

theorem State.Canonical.mgWrite {off : Nat} {v : BitVec 32} : (s.mgWrite off v).Canonical := .ite (.flogAck h) (.ite (.upd h) h)

theorem State.Canonical.bar0Write {off : Nat} {v : BitVec 32} : (s.bar0Write off v).Canonical :=
  .ite (.ite (.moduleReset h) h) (.ite h (.ite (.tcWrite h)
    (.ite (.writePcap h) (.ite (.mgWrite h) (.ite (.epWrite h)
    (.ite (.pageWrite h) (.ite (.bellWrite h) (.ite (.ringWrite h) h))))))))

theorem State.Canonical.vfWrite {f off : Nat} {v : BitVec 32} : (s.vfWrite f off v).Canonical :=
  .ite h (.ite (.bellWrite h) (.ite (.ringWrite h) (.ite (.pageWrite h) h)))

theorem State.Canonical.mgmtWrite {off : Nat} {v : BitVec 32} : (s.mgmtWrite off v).Canonical :=
  .ite h (.ite (.ite (.moduleReset h) h) (.ite (.ite (.toRecovery h) h)
    (.ite (.ite (.upd h) h) (.ite (.ite (.upd h) h) (.ite (.ite (.upd h) h) (.ite (.ite (.upd h) h) h))))))

theorem State.Canonical.controlWrite {off : Nat} {v : BitVec 32} : (s.controlWrite off v).Canonical := .ite (.tcWrite h) h

theorem Out.Canonical.execRegisterWrite {space : Space} {off v : BitVec 32} {be : BitVec 4} :
    Out.Canonical (execRegisterWrite space off v be s) := by
  unfold Machine.execRegisterWrite
  dsimp only
  refine .ite (.controlWrite h) (.ite h (.ite (.ite (.upd h) h) ?_))
  split
  · exact .bar0Write h
  · exact .mgmtWrite h
  · exact .ite (.vfWrite h) h
  · exact .ite (.recordWrite h) h
  · exact h

/-! ## The responder -/

theorem State.Canonical.setSpdm {f : Spdm → Spdm} : (s.setSpdm f).Canonical := .upd h
theorem State.Canonical.spdmReply {r : SpdmReply} : (s.spdmReply r).Canonical := .setSpdm h

theorem Out.Canonical.spdm {ok : Bool} {f : State → State} (hf : (f s).Canonical) : Out.Canonical (s.spdm ok f) :=
  State.Canonical.ite h (.ite hf (.spdmReply h))

theorem Out.Canonical.execGetVersion : Out.Canonical (execGetVersion s) := .spdm h (.setSpdm h)
theorem Out.Canonical.execGetCapabilities : Out.Canonical (execGetCapabilities s) := .spdm h (.setSpdm h)

theorem Out.Canonical.execNegotiateAlgorithms {offer : AlgOffer} : Out.Canonical (execNegotiateAlgorithms offer s) :=
  .spdm h (.setSpdm h)

theorem Out.Canonical.execGetDigests : Out.Canonical (execGetDigests s) := .spdm h (.spdmReply h)

theorem Out.Canonical.execGetCertificate {slot : BitVec 4} {off len : BitVec 16} :
    Out.Canonical (execGetCertificate slot off len s) :=
  .spdm h (.spdmReply h)

theorem Out.Canonical.execChallenge {slot : BitVec 4} {nonce : BitVec 256} : Out.Canonical (execChallenge slot nonce s) :=
  .spdm h (.upd (.spdmReply h))

/-! ## Attestation reports -/

theorem Out.Canonical.execGetMeasurements {index : BitVec 8} {nonce : BitVec 256} :
    Out.Canonical (execGetMeasurements index nonce s) :=
  .spdm h (.upd (.spdmReply h))

/-! ## Sessions and IDE -/

theorem Out.Canonical.execKeyExchange {slot : BitVec 4} {o : BitVec 256} {o' : BitVec 512} :
    Out.Canonical (execKeyExchange slot o o' s) :=
  .spdm h (.upd (.setSpdm h))

theorem Out.Canonical.execFinish {good : Bool} : Out.Canonical (execFinish good s) :=
  .spdm h (.ite (.upd (.setSpdm h)) (.setSpdm h))

theorem Out.Canonical.execEndSession : Out.Canonical (execEndSession s) := .spdm h (.setSpdm h)

theorem Out.Canonical.execIdeKm {stream : BitVec 3} {key : BitVec 256} : Out.Canonical (execIdeKm stream key s) :=
  .spdm h (.upd h.spdmReply)

theorem Out.Canonical.execIdeFail {stream : BitVec 3} : Out.Canonical (execIdeFail stream s) :=
  .ite (.postPf (.logFault (.upd h))) h

/-! ## Lines -/

theorem State.Canonical.setMon {f : Monitor → Monitor} : (s.setMon f).Canonical := .upd h

/-! ## Answers -/

theorem State.Canonical.shown {ls : List MonOut} : (s.shown ls).Canonical := .setMon h
theorem State.Canonical.endAttempt : (s.endAttempt).Canonical := .upd h

theorem State.Canonical.tryUnlock {m : List Byte} : (s.tryUnlock m).Canonical :=
  .ite (.shown (.endAttempt (.postAll (.logFault (.upd h))))) (.shown (.endAttempt (.logFault h)))

theorem State.Canonical.takeLine {l : List Byte} : (s.takeLine l).Canonical := by
  unfold State.takeLine
  split
  · split
    · exact .ite (.tryUnlock h) (.setMon h)
    · exact .shown (.endAttempt h)
  · exact .ite h (.ite (.setMon h) (.ite (.setMon h) (.shown h)))

theorem State.Canonical.endAnswer : (s.endAnswer).Canonical := by
  unfold State.endAnswer
  dsimp only
  split
  · exact .takeLine (.setMon h)
  · exact .setMon h

theorem Out.Canonical.execMonitorLine {line : List Byte} : Out.Canonical (execMonitorLine line s) :=
  .ite h (.ite (.shown h) (.ite (.ite (.setMon h) h) (.takeLine h)))

theorem Out.Canonical.execMonitorAbort : Out.Canonical (execMonitorAbort s) :=
  .ite h (.ite (.shown (.endAttempt h)) (.ite (.endAnswer (.shown h)) h))

theorem Out.Canonical.answer {f : State → State × Answer} (hf : (f s).1.Canonical) :
    Out.Canonical (s.answer f) :=
  State.Canonical.ite h (.ite (.shown (.endAttempt h)) (.endAnswer (.shown hf)))

theorem Out.Canonical.printed {a : State → Answer} : Out.Canonical (s.printed a) := .answer h h

/-! ## Read commands -/

theorem Out.Canonical.execMonitorId : Out.Canonical (execMonitorId s) := .printed h

theorem Out.Canonical.execMonitorReg {off n : Nat} : Out.Canonical (execMonitorReg off n s) := by
  refine .answer h ?_
  dsimp only
  rw [apply_ite Prod.fst]
  exact .ite h (.foldl h fun _ ht => .latchRead ht)

theorem Out.Canonical.execMonitorStart : Out.Canonical (execMonitorStart s) := .printed h
theorem Out.Canonical.execMonitorTemp : Out.Canonical (execMonitorTemp s) := .printed h
theorem Out.Canonical.execMonitorLog {n : Nat} : Out.Canonical (execMonitorLog n s) := .printed h
theorem Out.Canonical.execMonitorLogFlash {n : Nat} : Out.Canonical (execMonitorLogFlash n s) := .printed h

theorem Out.Canonical.execMonitorCtx {c : Nat} : Out.Canonical (execMonitorCtx c s) := by
  refine .answer h ?_
  dsimp only
  rw [apply_ite Prod.fst]
  exact .ite h h.latchFcount

theorem Out.Canonical.execMonitorCore {cx cy : Nat} : Out.Canonical (execMonitorCore cx cy s) := .printed h

theorem Out.Canonical.execMonitorHandle {cx cy : Nat} {hd : Option Nat} : Out.Canonical (execMonitorHandle cx cy hd s) :=
  .printed h

theorem State.Canonical.monUe {i : Nat} {f : Nat × Nat × Nat} : (s.monUe i f).Canonical := .coreUe (.logFault h)

theorem Out.Canonical.execMonitorMem {cx cy addr len : Nat} :
    Out.Canonical (execMonitorMem cx cy addr len s) := by
  refine .answer h ?_
  have hc : (s.modCore (coreAt cx cy) fun k => k.correct addr len).Canonical := .modCore h fun hk => .correct hk
  dsimp only
  split
  · exact h
  · split
    · exact h
    · split
      exacts [hc, .monUe hc]

theorem Out.Canonical.execMonitorIstore {cx cy b n : Nat} :
    Out.Canonical (execMonitorIstore cx cy b n s) := by
  refine .answer h ?_
  have hc : (s.modCore (coreAt cx cy) fun k => k.correct (196608 + 32 * b) (32 * n)).Canonical := .modCore h fun hk => .correct hk
  dsimp only
  split
  · exact h
  · split
    · exact h
    · split
      exacts [.monUe hc, hc]

theorem Out.Canonical.execMonitorPort {n : Nat} : Out.Canonical (execMonitorPort n s) := .printed h
theorem Out.Canonical.execMonitorPips {n : Nat} : Out.Canonical (execMonitorPips n s) := .printed h
theorem Out.Canonical.execMonitorRank {job : Nat} : Out.Canonical (execMonitorRank job s) := .printed h
theorem Out.Canonical.execMonitorRoute {job : Nat} : Out.Canonical (execMonitorRoute job s) := .printed h
theorem Out.Canonical.execMonitorBmask : Out.Canonical (execMonitorBmask s) := .printed h
theorem Out.Canonical.execMonitorDist {bx by_ : Nat} : Out.Canonical (execMonitorDist bx by_ s) := .printed h
theorem Out.Canonical.execMonitorChallenge : Out.Canonical (execMonitorChallenge s) := .printed h

/-! ## Unlocking and write commands -/

theorem Out.Canonical.execMonitorUnlock {cert : List Byte} : Out.Canonical (execMonitorUnlock cert s) :=
  .ite h (.ite (.endAnswer (.tryUnlock h)) (.endAnswer (.shown (.endAttempt h))))

theorem Out.Canonical.execMonitorLock : Out.Canonical (execMonitorLock s) := .answer h (.upd h)

theorem Out.Canonical.writeCmd {bit : Nat} {f : State → State × Answer} (hf : (f s).1.Canonical) :
    Out.Canonical (s.writeCmd bit f) :=
  .answer h (by split; exact h; split; exact h; split; exacts [h, hf])

theorem Out.Canonical.execMonitorWreg {off : Nat} {v : BitVec 32} :
    Out.Canonical (execMonitorWreg off v s) := by
  refine .branch (.bar0Write (.endAnswer (.shown h))) (.writeCmd h ?_)
  rw [apply_ite Prod.fst]
  exact .ite h h.bar0Write

theorem State.Canonical.panelWrite {ok : Bool} {i : Nat} {f : State → State × Answer} (hf : (f s).1.Canonical) :
    (s.panelWrite ok i f).1.Canonical := by
  unfold State.panelWrite
  split
  · exact h
  · split
    exacts [h, hf]

theorem Out.Canonical.execMonitorWmem {cx cy addr : Nat} {v : BitVec 32} :
    Out.Canonical (execMonitorWmem cx cy addr v s) := by
  refine .writeCmd h (.panelWrite h ?_)
  split
  next hk =>
    have stored := (h.core _).store hk
    exact .setCore h (.ite stored.writeDesc stored)
  · exact .monUe h

theorem Out.Canonical.execMonitorWistore {cx cy b : Nat} {ws : List (BitVec 32)} :
    Out.Canonical (execMonitorWistore cx cy b ws s) := by
  refine .writeCmd h ?_
  dsimp only
  rw [apply_ite Prod.fst]
  refine .ite h (.panelWrite h (.modCore h fun hk => ?_))
  exact .upd (hk.withIstore (Cells.wf_write _ _ _ _ hk.istore_wf))

theorem Out.Canonical.execMonitorReset : Out.Canonical (execMonitorReset s) :=
  .branch (.moduleReset (.endAnswer (.shown h))) (.writeCmd h h)

end

/-! # Every command, every step -/

/-- The slot commands of a bundle come first: each is its bundle's own. -/
theorem Out.Canonical.exec {s : State} (h : s.Canonical) {i : Instr} : Out.Canonical (exec i s) := by
  unfold Machine.exec
  split
  iterate 47 · exact .runBundle h
  exacts [.execStreamComplete h, .execMeshPacketLand h, .execMeshNotice h, .execRreadRequest h, .execReduceAddPacket h,
    .execPortSlotService h, .execReturnLine h, .execQlevAnswer h, .execQrFlush h, .execPortRefresh h, .execPatrolScrub h,
    .execSelfRefreshEntry h, .execAttendAccept h, .execAttendMemberRelease h, .execAttendComplete h, .execContextTick h,
    .execFrameRunaway h, .execCompletionPost h, .execInputFetchDone h, .execSyncPulse h, .execReferenceLock h, .execTcHoldover h,
    .execTimeLost h, .execReferenceReturn h, .execCounterSlew h, .execTimeTreeExchange h, .execFerrMeasure h, .execTimeDrift h,
    .execTcNowLoRead h, .execCxFcountLoRead h, .execPrepare h, .execMergedReply h, .execExchangeDecision h, .execGo h,
    .execNogo h, .execAbort h, .execLaunchCount h, .execStartCollectionDeadline h, .execStretchRequest h, .execStretchOn h,
    .execStretchOff h, .execStepEvaluation h, .execStepChange h, .execForcedStep h, .execForcedStepRelease h,
    .execVoltageDroop h, .execVdroop h, .execSupplyFail h, .execXskew h, .execThermalTrip h, .execCoolantOk h, .execSupplyHigh h,
    .execSupplyLow h, .execWatchdog h, .execHiDbSqt h, .execHiDbCqh h, .execHiDbEqh h, .execHiDbCommit h, .execHiRctlEnable h,
    .execDescriptorTake h, .execDescriptorTimeout h, .execEventLost h, .execHostRingLost h, .execSubmit h, .execProgramLoad h,
    .execHandle h, .execQueueCreate h, .execQueueConfigure h, .execQueueDelete h, .execWsetLoad h, .execWsetSwap h,
    .execSwapSwitch h, .execShardTransferStart h, .execShardVerdict h, .execSwapResume h, .execSwapLoadedReport h,
    .execRecheckVerdict h, .execRecheckAbandon h, .execEditPagetableInit h, .execEditPagetableEdit h, .execPtEditPerform h,
    .execPtEditComplete h, .execEditPagetableRelease h, .execStart h, .execQuiesce h, .execQuiesceTick h, .execResume h,
    .execHostXfer h, .execHostXferDone h, .execDebugRead h, .execCreateContext h, .execBind h, .execRebind h,
    .execRebindProceed h, .execTeardown h, .execWindowScrubDone h, .execWindowGrant h, .execWindowRelease h, .execRetainedFree h,
    .execSlotGrant h, .execLibraryInstall h, .execLibraryInstallDone h, .execLibraryGrant h, .execLibraryRemove h,
    .execContextReset h, .execEngineHung h, .execEngineReset h, .execEngineResetDone h, .execEngineFault h,
    .execPartitionReset h, .execModuleReset h, .execFlr h, .execFlrDone h, .execJobCreate h, .execJobEnd h, .execJobLaunch h,
    .execJobQuiesce h, .execJobResume h, .execJobSwap h, .execManagerTake h, .execReadmit h, .execExclude h,
    .execRingFormation h, .execAdoption h, .execBeacon h, .execHeartbeat h, .execManagerLost h, .execModuleFailed h,
    .execFaultReport h, .execTableChange h, .execCableChange h, .execCageOvercurrent h, .execLinkTrained h,
    .execLinkTrainingTimeout h, .execLinkTrainingRetry h, .execLinkAligned h, .execLinkAlignTimeout h, .execLinkDown h,
    .execCodewordGroupRx h, .execReplayResend h, .execEpfinPacketTx h, .execEpfinForward h, .execEpfinPacketRx h, .execIdeFail h,
    .execPerst h, .execPwrEnRise h, .execPwrEnFall h, .execModRstN h, .execModuleStartStage h, .execRefAbsent h,
    .execTemperatureGateClear h, .execMgReset h, .execMgFlogack h, .execFsPcap h, .execRegisterWrite h, .execRecoveryEnter h,
    .execRecoveryTransfer h, .execGetVersion h, .execGetCapabilities h, .execNegotiateAlgorithms h, .execGetDigests h,
    .execGetCertificate h, .execChallenge h, .execGetMeasurements h, .execKeyExchange h, .execFinish h, .execEndSession h,
    .execIdeKm h, .execSmbusRead h, .execSmbusReset h, .execSmbusPcap h, .execMonitorLine h, .execMonitorAbort h,
    .execMonitorId h, .execMonitorReg h, .execMonitorStart h, .execMonitorTemp h, .execMonitorLog h, .execMonitorLogFlash h,
    .execMonitorCtx h, .execMonitorCore h, .execMonitorHandle h, .execMonitorMem h, .execMonitorIstore h, .execMonitorPort h,
    .execMonitorPips h, .execMonitorRank h, .execMonitorRoute h, .execMonitorBmask h, .execMonitorDist h,
    .execMonitorChallenge h, .execMonitorUnlock h, .execMonitorLock h, .execMonitorWreg h, .execMonitorWmem h,
    .execMonitorWistore h, .execMonitorReset h, .execInputPowerLoss h, .execPerstDeassert h, .execHostLinkDown h,
    .execModRstNRelease h, .execMemberFault h]

theorem Out.Canonical.step {s : State} (h : s.Canonical) : Out.Canonical (step s) := by
  unfold Machine.step
  split
  · exact .idleCount h
  · exact .exec (.upd h)

/-- Settles O59: a step is one command's meaning, or a cycle of the issuing cores, and each operation either of them is made of
keeps the form. -/
theorem everyStepKeepsTheCanonicalForm : Obligations.EveryStepKeepsTheCanonicalForm := by
  intro s t hs next
  have h := Out.Canonical.step (s := s) hs
  rw [next] at h
  exact h

end Sys2Proof.Machine
end

section
/-! What a bundle that issues leaves in the registers of its core (R48, R57, R59): its VE slot works first, its MX slot on what the
VE slot left, both on the operands as they stood. -/
namespace Sys2Proof

/-! ## Memories: entries taken out, runs written -/

theorem Cells.get_drop {β : Type} (d : β) (c : Cells β) (p : Nat → Bool) (a : Nat) :
    Cells.get d (Cells.drop c p) a = if p a then d else Cells.get d c a := by
  induction c with
  | nil => simp [Cells.drop, Cells.get]
  | cons e c ih =>
    obtain ⟨k, v⟩ := e
    simp only [Cells.drop] at ih
    simp only [Cells.drop, List.filter_cons, Cells.get]
    by_cases hk : k = a
    · subst hk
      by_cases hp : p k = true
      · simpa [hp] using ih
      · simp [hp, Cells.get]
    · by_cases hp : p k = true
      · simpa [hp, hk] using ih
      · simpa [hp, hk, Cells.get] using ih

/-- Runs that do not hold an address leave it. -/
theorem Cells.get_foldl_write_ne {β γ : Type} [DecidableEq β] (d : β) (f : γ → Nat) (g : γ → List β) (b : Nat) (l : List γ) :
    ∀ (c : Cells β), Cells.wf d c = true → (∀ e ∈ l, b < f e ∨ f e + (g e).length ≤ b) →
      Cells.get d (l.foldl (fun t e => Cells.write d t (f e) (g e)) c) b = Cells.get d c b := by
  induction l with
  | nil => exact fun _ _ _ => rfl
  | cons e l ih =>
    intro c h apart
    rw [List.foldl_cons, ih _ (Cells.wf_write d _ c _ h) fun e' he => apart e' (List.mem_cons_of_mem _ he),
      Cells.get_write_ne d _ b c _ h (apart e List.mem_cons_self)]

/-- Runs apart from one another: each holds its own values. -/
theorem Cells.get_foldl_write_mem {β γ : Type} [DecidableEq β] (d : β) (f : γ → Nat) (g : γ → List β) (x : γ) {k : Nat}
    (hk : k < (g x).length) (l : List γ) : ∀ (c : Cells β), Cells.wf d c = true → x ∈ l →
      (∀ e ∈ l, e = x ∨ f x + k < f e ∨ f e + (g e).length ≤ f x + k) →
      Cells.get d (l.foldl (fun t e => Cells.write d t (f e) (g e)) c) (f x + k) = (g x).getD k d := by
  induction l with
  | nil => exact fun _ _ h => absurd h List.not_mem_nil
  | cons e l ih =>
    intro c h hx apart
    have hw := Cells.wf_write d (g e) c (f e) h
    rw [List.foldl_cons]
    by_cases later : x ∈ l
    · exact ih _ hw later fun e' he => apart e' (List.mem_cons_of_mem _ he)
    · obtain rfl : x = e := (List.mem_cons.mp hx).resolve_right later
      rw [Cells.get_foldl_write_ne d f g _ l _ hw, Cells.get_write d _ c _ k h hk]
      exact fun e' he => (apart e' (List.mem_cons_of_mem _ he)).resolve_left fun same => later (same ▸ he)

namespace Machine

/-! ## The registers, LEN, the scratchpad and the sticky flags of a core -/

/-- Two cores hold the same registers, the same LEN, the same bytes and the same sticky flags. -/
structure Core.SameRegs (c d : Core) : Prop where
  tile : c.tile = d.tile
  vec : c.vec = d.vec
  acc : c.acc = d.acc
  mem : c.mem = d.mem
  lenRow : c.lenRow = d.lenRow
  lenCol : c.lenCol = d.lenCol
  sticky : c.sticky = d.sticky

theorem Core.SameRegs.foldl {α : Type} {f g : Core → α → Core} (hf : ∀ {c d : Core} (a : α), c.SameRegs d → (f c a).SameRegs (g d a))
    {l : List α} {c d : Core} (h : c.SameRegs d) : (l.foldl f c).SameRegs (l.foldl g d) := by
  induction l generalizing c d with
  | nil => exact h
  | cons a l ih => exact ih (hf a h)

section
variable {c d : Core} (h : c.SameRegs d)
include h

theorem Core.SameRegs.trans {e : Core} (h' : d.SameRegs e) : c.SameRegs e where
  tile := h.tile.trans h'.tile
  vec := h.vec.trans h'.vec
  acc := h.acc.trans h'.acc
  mem := h.mem.trans h'.mem
  lenRow := h.lenRow.trans h'.lenRow
  lenCol := h.lenCol.trans h'.lenCol
  sticky := h.sticky.trans h'.sticky

theorem Core.SameRegs.accAt (a j l : Nat) : c.accAt a j l = d.accAt a j l := by rw [Core.accAt, h.acc, Core.accAt]
theorem Core.SameRegs.lane (n r l : Nat) : c.lane n r l = d.lane n r l := by rw [Core.lane, h.tile, Core.lane]
theorem Core.SameRegs.vlane (w l : Nat) : c.vlane w l = d.vlane w l := by rw [Core.vlane, h.vec, Core.vlane]

theorem Core.SameRegs.raise (f : BitVec 5) : (c.raise f).SameRegs (d.raise f) :=
  { h with sticky := congrArg (· ||| f) h.sticky }

theorem Core.SameRegs.putLanes (ls : List (Nat × BitVec 32)) : (c.putLanes ls).SameRegs (d.putLanes ls) :=
  { h with tile := by simp only [Core.putLanes, h.tile] }

theorem Core.SameRegs.putVlanes (v : Nat) (ls : List (Nat × BitVec 32)) : (c.putVlanes v ls).SameRegs (d.putVlanes v ls) :=
  { h with vec := by simp only [Core.putVlanes, h.vec] }

theorem Core.SameRegs.setVlane (v n : Nat) (x : BitVec 32) : (c.setVlane v n x).SameRegs (d.setVlane v n x) :=
  { h with vec := congrArg (Cells.set 0 · (16 * v + n) x) h.vec }

theorem Core.SameRegs.writeBytes (a : Nat) (bs : List Byte) : (c.writeBytes a bs).SameRegs (d.writeBytes a bs) :=
  { h with mem := congrArg (Cells.write 0 · a bs) h.mem }

theorem Core.SameRegs.dropAcc (p : Nat → Bool) :
    ({ c with acc := Cells.drop c.acc p } : Core).SameRegs { d with acc := Cells.drop d.acc p } :=
  { h with acc := congrArg (Cells.drop · p) h.acc }

theorem Core.SameRegs.veApply (c0 : Core) (o : VeOp) : (veApply c0 c o).SameRegs (veApply c0 d o) := by
  cases o with
  | vsetlen r l => exact { h with lenRow := rfl, lenCol := rfl }
  | vldt f => exact h.putLanes _
  | vstt f =>
    simp only [Machine.veApply]
    refine Core.SameRegs.foldl (fun p hk => ?_) h
    exact hk.writeBytes ..
  | vacc t a clr =>
    have moved := h.putLanes ((lanes 16 16).map fun p => (256 * t.toNat + 16 * p.1 + p.2, c0.accAt a.toNat p.1 p.2))
    cases clr with
    | false =>
      simp only [Machine.veApply, Bool.false_eq_true, if_false]
      exact moved
    | true =>
      simp only [Machine.veApply, if_true]
      exact moved.dropAcc _
  | vmovv t v sub =>
    simp only [Machine.veApply]
    split <;> exact h.putVlanes ..
  | vbct t v sub => exact h.putLanes _
  | va o f => exact (h.putLanes _).raise _
  | vred col t v sub => exact (h.putVlanes ..).raise _
  | vsmax t v w =>
    simp only [Machine.veApply]
    refine Core.SameRegs.foldl (fun r hk => ?_) h
    exact (((hk.setVlane ..).setVlane ..).putLanes _).raise _
  | vssum t v w =>
    simp only [Machine.veApply]
    refine Core.SameRegs.foldl (fun r hk => ?_) h
    exact ((hk.setVlane ..).setVlane ..).raise _
  | nop => exact h
  | reserved => exact h

theorem Core.SameRegs.mxApply (c0 : Core) (o : MxOp) : (mxApply c0 c o).SameRegs (mxApply c0 d o) := by
  cases o with
  | mma z m =>
    exact { h with acc := by simp only [Machine.mxApply, Core.raise, h.acc], sticky := by simp only [Machine.mxApply, Core.raise, h.sticky] }
  | mzero a => exact h.dropAcc _
  | nop => exact h
  | reserved => exact h

end

/-! ## A bundle that issues -/

theorem issuedCore_sameRegs (s : State) (c0 : Core) (b : Bundle) :
    (issuedCore s c0 b).SameRegs (mxApply c0 (veApply c0 c0 b.ve) b.mx) := by
  let c2 := scApply c0 (tickLatch (timing s.ident.lattab.toNat c0 c0 b) b.sy) b.sc
  have before : c2.SameRegs c0 := by constructor <;> simp [c2]
  have after : (issuedCore s c0 b).SameRegs (mxApply c0 (veApply c0 c2 b.ve) b.mx) := by constructor <;> simp [issuedCore, c2]
  exact after.trans ((before.veApply c0 b.ve).mxApply c0 b.mx)

/-- What the VE and MX slots leave in the registers of core `i`. -/
def State.regsAfter (s : State) (i : Nat) (b : Bundle) : Core := mxApply (s.core i) (veApply (s.core i) (s.core i) b.ve) b.mx

/-- The clock, the slip counts and the watch of the core do not reach the operands of VE and MX. -/
theorem State.issueCore_sameRegs (s : State) (i : Nat) (b : Bundle) :
    (mxApply (s.issueCore i b) (veApply (s.issueCore i b) (s.issueCore i b) b.ve) b.mx).SameRegs (s.regsAfter i b) := by
  have operands : veApply (s.issueCore i b) = veApply (s.core i) ∧ mxApply (s.issueCore i b) = mxApply (s.core i) := by
    rw [State.issueCore_frame]
    exact ⟨funext fun _ => funext fun o => by cases o <;> rfl, funext fun _ => funext fun o => by cases o <;> rfl⟩
  obtain ⟨ve, mx⟩ := operands
  have same : (s.issueCore i b).SameRegs (s.core i) := by constructor <;> simp
  rw [ve, mx]
  exact (same.veApply _ _).mxApply _ _

/-- A slot command whose bundle issues answers a state whose core holds what VE and MX left in the registers. -/
theorem answers_regs {cmd : Instr} {x : CoreId} {b : Bundle} {s : State} {P : State → Prop} (hc : slotOf cmd = some (x, b))
    (hx : inArray x = true) (h : Issues s (coreIdx x) b = true)
    (hp : ∀ t : State, (t.core (coreIdx x)).SameRegs (s.regsAfter (coreIdx x) b) → P t) : Answers cmd s P :=
  answers_issues hc hx h (hp _ (by rw [issueNow_core_self]; exact (issuedCore_sameRegs ..).trans (s.issueCore_sameRegs ..)))

/-- A bundle that issues from a canonical core is legal: it has passed its tests, now or in an earlier cycle (R68). -/
theorem issues_legal {s : State} {i : Nat} {b : Bundle} (h : Issues s i b = true) (hc : (s.core i).canonical = true) : b.illegal? = none := by
  obtain ⟨-, -, untroubled, -⟩ := issues_iff.mp h
  have waited : (s.waitedCore i b).Canonical := .pass (.sendWatch hc)
  exact waited.bundleFault_legal untroubled

/-! ## What the VE slot leaves, which MX does not touch -/

section
variable {t s : State} {i : Nat} {b : Bundle} (h : (t.core i).SameRegs (s.regsAfter i b))
include h

theorem tile_after : (t.core i).tile = (veApply (s.core i) (s.core i) b.ve).tile := h.tile.trans (mxApply_tile ..)
theorem vec_after : (t.core i).vec = (veApply (s.core i) (s.core i) b.ve).vec := h.vec.trans (mxApply_vec ..)
theorem mem_after : (t.core i).mem = (veApply (s.core i) (s.core i) b.ve).mem := h.mem.trans (mxApply_mem ..)
theorem lenRow_after : (t.core i).lenRow = (veApply (s.core i) (s.core i) b.ve).lenRow := h.lenRow.trans (mxApply_lenRow ..)
theorem lenCol_after : (t.core i).lenCol = (veApply (s.core i) (s.core i) b.ve).lenCol := h.lenCol.trans (mxApply_lenCol ..)

theorem lane_after (n r l : Nat) : (t.core i).lane n r l = (veApply (s.core i) (s.core i) b.ve).lane n r l := by
  rw [Core.lane, tile_after h, Core.lane]

theorem vlane_after (w l : Nat) : (t.core i).vlane w l = (veApply (s.core i) (s.core i) b.ve).vlane w l := by
  rw [Core.vlane, vec_after h, Core.vlane]

end

end Machine
end Sys2Proof
end

section
/-! The matrix engine (R57, R71 to R77): MMA, MMAZ and MZERO in one accumulator. -/
namespace Sys2Proof.Machine

open Sys2Proof

/-! ## Elements of the accumulators -/

theorem accAt_dropped (acc : Cells (BitVec 32)) (k : Nat) {a j l : Nat} (hj : j < 16) (hl : l < 16) :
    Cells.get 0 (Cells.drop acc (fun n => n / 256 == k)) (256 * a + 16 * j + l) =
      if a = k then 0 else Cells.get 0 acc (256 * a + 16 * j + l) := by
  have number : (256 * a + 16 * j + l) / 256 = a := by omega
  simp [Cells.get_drop, number]

/-- What MMA or MMAZ with these fields leaves in element (j, l): the exact sum of the 32 products of vector j of A and vector l of B, and
for MMA of the old value, rounded once (R71, R75). -/
def Core.mmaElem (c : Core) (z : Bool) (m : MxFields) (j l : Nat) : FRes :=
  let n := footprint m.fmt.toNat
  let ta := c.bytes (hByte (c.handle m.ah.toNat) + c.tileOff m.aoff m.aidx m.fmt) n
  let tb := c.bytes (hByte (c.handle m.bh.toNat) + c.tileOff m.boff m.bidx m.fmt) n
  dotElem (if z then none else some (c.accAt m.acc.toNat j l)) (tileVec m.fmt.toNat ta j) (tileVec m.fmt.toNat tb l)

theorem mmaTiles_eq (fmt : Nat) (z : Bool) (acc : Nat → Nat → BitVec 32) (ta tb : List Byte) :
    mmaTiles fmt z acc ta tb = (lanes 16 16).map (fun p =>
      (16 * p.1 + p.2, dotElem (if z then none else some (acc p.1 p.2)) (tileVec fmt ta p.1) (tileVec fmt tb p.2))) := by
  refine List.map_congr_left fun p hp => ?_
  obtain ⟨h1, h2⟩ := (mem_lanes 16 16 p).mp hp
  simp [List.getD_eq_getElem?_getD, h1, h2]

/-- MMA and MMAZ write each element of the accumulator they name and no other. -/
theorem mxApply_mma_accAt (c0 : Core) {c : Core} (hc : Cells.wf 0 c.acc = true) (z : Bool) (m : MxFields) {a j l : Nat} (hj : j < 16)
    (hl : l < 16) : (mxApply c0 c (.mma z m)).accAt a j l = if a = m.acc.toNat then (c0.mmaElem z m j l).1 else c.accAt a j l := by
  have written := get_put_lanes c.acc hc m.acc.toNat 16 16 a j l (fun p => (c0.mmaElem z m p.1 p.2).1) le_rfl le_rfl hj hl
  simp only [hj, hl, and_true, List.foldl_map] at written
  simp only [Core.accAt, mxApply, Core.raise, mmaTiles_eq, List.foldl_map, ← Nat.add_assoc]
  exact written

theorem mxApply_mzero_accAt (c0 c : Core) (k : BitVec 2) {a j l : Nat} (hj : j < 16) (hl : l < 16) :
    (mxApply c0 c (.mzero k)).accAt a j l = if a = k.toNat then 0 else c.accAt a j l := accAt_dropped c.acc k.toNat hj hl

/-- VE leaves the elements of every accumulator that it does not clear. -/
theorem veApply_accAt (c0 c : Core) {o : VeOp} {a j l : Nat} (hj : j < 16) (hl : l < 16) (h : ∀ d, o ≠ .vacc d (BitVec.ofNat 2 a) true) :
    (veApply c0 c o).accAt a j l = c.accAt a j l := by
  by_cases clears : ∃ d k, o = .vacc d k true
  · obtain ⟨d, k, rfl⟩ := clears
    have other : a ≠ k.toNat := by
      rintro rfl
      exact h d (by simp)
    simp only [veApply, if_true, Core.accAt, Core.putLanes, accAt_dropped c.acc k.toNat hj hl, other, if_false]
  · have kept := veApply_acc c0 (op := o) (fun d k e => clears ⟨d, k, e⟩) c
    rw [Core.accAt, kept, Core.accAt]

/-- Settles O10: VE clears at most an accumulator that is not asked about, and MX writes after VE. -/
theorem matrixCommandsWriteOneAccumulator : Obligations.MatrixCommandsWriteOneAccumulator := by
  intro s x rest hx hc
  refine ⟨fun z m a j l h ha hj hl => ?_, fun k a j l h ha hj hl => ?_⟩
  · have wf : Cells.wf 0 (veApply (s.core (coreIdx x)) (s.core (coreIdx x)) rest.ve).acc = true :=
      (Core.Canonical.veApply hc (Bundle.ve_legal (issues_legal h hc))).acc_wf
    refine answers_regs (by cases z <;> rfl) hx h fun t same => ?_
    have elem := (same.accAt a j l).trans (mxApply_mma_accAt (s.core (coreIdx x)) wf z m hj hl)
    exact ⟨fun e => by subst e; exact elem.trans (if_pos rfl), fun ne unclear => (elem.trans (if_neg ne)).trans (veApply_accAt _ _ hj hl unclear)⟩
  · refine answers_regs rfl hx h fun t same => ?_
    have elem := (same.accAt a j l).trans (mxApply_mzero_accAt (s.core (coreIdx x)) _ k hj hl)
    exact ⟨fun e => elem.trans (if_pos e), fun ne unclear => (elem.trans (if_neg ne)).trans (veApply_accAt _ _ hj hl unclear)⟩

end Sys2Proof.Machine
end

section
/-! The vector engine (R59, R80 to R89): the lanes that each operation writes. -/
namespace Sys2Proof.Machine

open Sys2Proof

/-! ## Lanes put into tiles and vectors -/

theorem Core.lane_putLanes {c : Core} (hc : Cells.wf 0 c.tile = true) (d : Nat) {R C n r l : Nat} (g : Nat × Nat → BitVec 32) (hC : C ≤ 16)
    (hR : R ≤ 16) (hr : r < 16) (hl : l < 16) :
    (c.putLanes ((lanes R C).map fun p => (256 * d + 16 * p.1 + p.2, g p))).lane n r l =
      if n = d ∧ r < R ∧ l < C then g (r, l) else c.lane n r l := get_put_lanes c.tile hc d R C n r l g hC hR hr hl

theorem Core.vlane_putVlanes {c : Core} (hc : Cells.wf 0 c.vec = true) (v : Nat) {N w l : Nat} (g : Nat → BitVec 32) (hN : N ≤ 16) (hl : l < 16) :
    (c.putVlanes v ((List.range N).map fun k => (k, g k))).vlane w l = if w = v ∧ l < N then g l else c.vlane w l :=
  get_put_vlanes c.vec hc v N w l g hN hl

/-- LEN of a canonical core is at most 16 in each direction (R69). -/
theorem Core.Canonical.len_le {c : Core} (h : c.Canonical) : c.lenRow ≤ 16 ∧ c.lenCol ≤ 16 := by
  have hl := h.len_wf
  simp only [Core.lenOk, Bool.and_eq_true, decide_eq_true_eq] at hl
  omega

/-! ## VSTT: words stored at their addresses -/

theorem veApply_vstt_mem (c : Core) (f : VmFields) :
    (veApply c c (.vstt f)).mem = (lanes c.lenRow c.lenCol).foldl (fun m p =>
      Cells.write 0 m (hByte (c.handle f.h.toNat) + c.vmOff f + 64 * p.1 + 4 * p.2) (leBytes 4 (c.lane f.t.toNat p.1 p.2).toNat)) c.mem :=
  (List.foldl_hom Core.mem fun _ _ => rfl).symm

/-- VSTT leaves each word at its address and every byte outside the words as it was (R99, R102). -/
theorem veApply_vstt_bytes {c : Core} (hc : c.Canonical) (f : VmFields) :
    (∀ r l k, r < c.lenRow → l < c.lenCol → k < 4 →
      Cells.get 0 (veApply c c (.vstt f)).mem (hByte (c.handle f.h.toNat) + c.vmOff f + 64 * r + 4 * l + k) =
        (leBytes 4 (c.lane f.t.toNat r l).toNat).getD k 0) ∧
    (∀ b, (∀ r l k, r < c.lenRow → l < c.lenCol → k < 4 → b ≠ hByte (c.handle f.h.toNat) + c.vmOff f + 64 * r + 4 * l + k) →
      Cells.get 0 (veApply c c (.vstt f)).mem b = Cells.get 0 c.mem b) := by
  obtain ⟨-, hC⟩ := hc.len_le
  rw [veApply_vstt_mem]
  refine ⟨fun r l k hr hl hk => ?_, fun b outside => ?_⟩
  · refine Cells.get_foldl_write_mem 0 _ _ (r, l) (by rwa [leBytes_length]) _ _ hc.mem_wf ((mem_lanes ..).mpr ⟨hr, hl⟩) fun e he => ?_
    obtain ⟨r', l'⟩ := e
    have inside := (mem_lanes ..).mp he
    simp only [leBytes_length, Prod.mk.injEq] at inside ⊢
    omega
  · refine Cells.get_foldl_write_ne 0 _ _ b _ _ hc.mem_wf fun e he => ?_
    obtain ⟨r, l⟩ := e
    obtain ⟨hr, hl⟩ := (mem_lanes ..).mp he
    rw [leBytes_length]
    by_contra inside
    exact outside r l (b - (hByte (c.handle f.h.toNat) + c.vmOff f + 64 * r + 4 * l)) hr hl (by omega) (by omega)

theorem veApply_vstt_tile (c0 c : Core) (f : VmFields) : (veApply c0 c (.vstt f)).tile = c.tile := by
  simp only [veApply]
  refine Core.foldl_keeps Core.tile ?_ _ c
  exact fun _ _ => rfl

theorem veApply_vstt_vec (c0 c : Core) (f : VmFields) : (veApply c0 c (.vstt f)).vec = c.vec := by
  simp only [veApply]
  refine Core.foldl_keeps Core.vec ?_ _ c
  exact fun _ _ => rfl

/-! ## VACC beside MX: no accumulator with two writers -/

theorem Bundle.clash_of_legal {b : Bundle} (h : b.illegal? = none) : b.clash = false := by
  unfold Bundle.illegal? at h
  split at h
  · cases h
  split at h
  · cases h
  split at h
  · cases h
  next legal =>
    simp only [Bool.or_eq_true, not_or, Bool.not_eq_true] at legal
    exact legal.2

/-- MX leaves the elements of every accumulator that it does not write. -/
theorem mxApply_accAt (c0 : Core) {c : Core} (hc : Cells.wf 0 c.acc = true) {o : MxOp} {a j l : Nat} (h : o.acc? ≠ some a) (hj : j < 16)
    (hl : l < 16) : (mxApply c0 c o).accAt a j l = c.accAt a j l := by
  cases o with
  | mma z m => exact (mxApply_mma_accAt c0 hc z m hj hl).trans (if_neg fun e => h (by rw [e]; rfl))
  | mzero k => exact (mxApply_mzero_accAt c0 c k hj hl).trans (if_neg fun e => h (by rw [e]; rfl))
  | nop => rfl
  | reserved => rfl

theorem veApply_vacc_lane {c : Core} (hc : c.Canonical) (d : BitVec 4) (a : BitVec 2) (clr : Bool) {n r l : Nat} (hr : r < 16) (hl : l < 16) :
    (veApply c c (.vacc d a clr)).lane n r l = if n = d.toNat then c.accAt a.toNat r l else c.lane n r l := by
  have copied := Core.lane_putLanes (n := n) hc.tile_wf d.toNat (fun p => c.accAt a.toNat p.1 p.2) le_rfl le_rfl hr hl
  simp only [hr, hl, and_true] at copied
  have tile : (veApply c c (.vacc d a clr)).tile = (c.putLanes ((lanes 16 16).map fun p =>
      (256 * d.toNat + 16 * p.1 + p.2, c.accAt a.toNat p.1 p.2))).tile := by
    cases clr <;> simp only [veApply, if_true, Bool.false_eq_true, if_false]
  rw [Core.lane, tile]
  exact copied

theorem veApply_vacc_vec (c0 c : Core) (d : BitVec 4) (a : BitVec 2) (clr : Bool) : (veApply c0 c (.vacc d a clr)).vec = c.vec := by
  cases clr <;> simp only [veApply, Core.putLanes, if_true, Bool.false_eq_true, if_false]

theorem veApply_vmovv_tile (c0 c : Core) (n : BitVec 4) (v sub : BitVec 3) : (veApply c0 c (.vmovv n v sub)).tile = c.tile := by
  simp only [veApply]
  split <;> rfl

/-- Settles O11: each operation is one write of the lanes it names, and MX leaves tiles, vectors, LEN and bytes; the accumulator that a VACC
clears has no other writer beside it (R49). -/
theorem lengthTileAndRegisterMovesCopyLanes : Obligations.LengthTileAndRegisterMovesCopyLanes := by
  refine ⟨fun s x rest hx hc => ?_, fun s x rest hx hc => ?_⟩ <;>
    (have canon : (s.core (coreIdx x)).Canonical := hc
     obtain ⟨hR, hC⟩ := canon.len_le)
  · refine ⟨fun rows cols h => ?_, fun f n r l h hn hr hl => ?_, fun f h => ?_⟩
    · have legal := Bundle.ve_legal (issues_legal h hc)
      simp only [VeOp.legal, Bool.and_eq_true, decide_eq_true_eq, and_assoc] at legal
      refine answers_regs rfl hx h fun t same => ?_
      have row : (t.core (coreIdx x)).lenRow = rows.toNat := lenRow_after same
      have col : (t.core (coreIdx x)).lenCol = cols.toNat := lenCol_after same
      exact ⟨row, col, by simp [Core.lenOk, row, col, legal], tile_after same, vec_after same, mem_after same⟩
    · refine answers_regs rfl hx h fun t same => ⟨?_, vec_after same, mem_after same⟩
      exact (lane_after same n r l).trans (Core.lane_putLanes canon.tile_wf f.t.toNat _ hC hR hr hl)
    · refine answers_regs rfl hx h fun t same => ?_
      obtain ⟨stored, others⟩ := veApply_vstt_bytes canon f
      rw [mem_after same]
      exact ⟨stored, others, (tile_after same).trans (veApply_vstt_tile ..), (vec_after same).trans (veApply_vstt_vec ..)⟩
  · refine ⟨fun d a clr n r l h hn hr hl => ?_, fun n v sub w l h hw hl => ?_, fun d v sub n r l h hn hr hl => ?_⟩
    · have legal := issues_legal h hc
      refine answers_regs rfl hx h fun t same => ⟨?_, fun clears => ?_, (vec_after same).trans (veApply_vacc_vec ..),
        (mem_after same).trans (veApply_mem _ (fun f => by simp) _)⟩
      · refine (lane_after same n r l).trans ((veApply_vacc_lane canon d a clr hr hl).trans ?_)
        rfl
      · subst clears
        have only : rest.mx.acc? ≠ some a.toNat := by
          intro written
          simpa [Bundle.clash, written, VeOp.writes] using Bundle.clash_of_legal legal
        have wf := (Core.Canonical.veApply canon (c0 := s.core (coreIdx x)) (Bundle.ve_legal legal)).acc_wf
        refine (same.accAt a.toNat r l).trans ((mxApply_accAt _ wf only hr hl).trans ?_)
        exact (accAt_dropped _ a.toNat hr hl).trans (if_pos rfl)
    · refine answers_regs rfl hx h fun t same => ⟨(vlane_after same w l).trans ?_, (tile_after same).trans (veApply_vmovv_tile ..),
        (mem_after same).trans (veApply_mem _ (fun f => by simp) _)⟩
      by_cases row : sub = 0
      · simp only [veApply, row, if_true, Core.vlane_putVlanes canon.vec_wf v.toNat _ hC hl]
        simp
      · simp only [veApply, row, if_false, Core.vlane_putVlanes canon.vec_wf v.toNat _ hR hl]
        simp [show ¬sub = 0#3 from row]
    · refine answers_regs rfl hx h fun t same => ⟨?_, vec_after same, mem_after same⟩
      exact (lane_after same n r l).trans (Core.lane_putLanes canon.tile_wf d.toNat _ hC hR hr hl)

end Sys2Proof.Machine
end

section
/-! The lane operations of VE, the staging of VCVT and the reductions (R82 to R90). -/
namespace Sys2Proof.Machine

open Sys2Proof

/-! ## Flags gathered over a list -/

theorem getLsbD_foldl_or {α : Type} (g : α → BitVec 5) (l : List α) (f : BitVec 5) (k : Nat) :
    (l.foldl (fun e a => e ||| g a) f).getLsbD k = (f.getLsbD k || l.any fun a => (g a).getLsbD k) := by
  induction l generalizing f with
  | nil => simp
  | cons a l ih => simp [ih, Bool.or_assoc]

/-- Each flag that an element raises stands in the flags gathered over the list. -/
theorem foldl_or_mem {α : Type} (g : α → BitVec 5) {l : List α} {a : α} (ha : a ∈ l) (f : BitVec 5) :
    l.foldl (fun e a => e ||| g a) f &&& g a = g a := by
  refine BitVec.eq_of_getLsbD_eq fun k _ => ?_
  rw [BitVec.getLsbD_and, getLsbD_foldl_or]
  by_cases raised : (g a).getLsbD k = true
  · have gathered : l.any (fun a => (g a).getLsbD k) = true := List.any_eq_true.mpr ⟨a, ha, raised⟩
    simp [gathered]
  · simp [raised]

/-- Flags already gathered stay when more are raised. -/
theorem or_and_of_and {x y : BitVec 5} (h : x &&& y = y) (z : BitVec 5) : (x ||| z) &&& y = y := by
  rw [BitVec.and_comm, BitVec.and_or_distrib_left, BitVec.and_comm y x, h]
  refine BitVec.eq_of_getLsbD_eq fun k _ => ?_
  simp only [BitVec.getLsbD_or, BitVec.getLsbD_and]
  cases y.getLsbD k <;> rfl

/-! ## Lane operations -/

/-- What a lane operation gives in lane (r, l). -/
def Core.vaRes (c : Core) (o : VaOp) (f : VaFields) (r l : Nat) : FRes :=
  vaLane o f.sub.toNat (c.lane f.srca.toNat r l) (c.opB f r l) (c.lane f.srcc.toNat r l)

theorem vaResults_lanes (c : Core) {o : VaOp} {f : VaFields} (h : o = .vcvt → f.sub.toNat ≤ 1 ∨ f.sub.toNat = 7) :
    vaResults c o f = ((lanes c.lenRow c.lenCol).map (fun p => (256 * f.dst.toNat + 16 * p.1 + p.2, (c.vaRes o f p.1 p.2).1)),
      (lanes c.lenRow c.lenCol).foldl (fun e p => e ||| (c.vaRes o f p.1 p.2).2) 0) := by
  have lanewise : ¬(o = .vcvt ∧ 2 ≤ f.sub.toNat ∧ f.sub.toNat ≤ 6) := fun ⟨e, h2, h6⟩ => by have := h e; omega
  simp only [vaResults, lanewise, if_false, List.map_map, List.foldl_map]
  rfl

theorem slotOf_vaCommand (o : VaOp) (x : CoreId) (f : VaFields) (rest : Bundle) :
    slotOf (vaCommand o x f rest) = some (x, { rest with ve := .va o f }) := by cases o <;> rfl

theorem veApply_va_lane {c : Core} (hc : c.Canonical) {o : VaOp} {f : VaFields} (h : o = .vcvt → f.sub.toNat ≤ 1 ∨ f.sub.toNat = 7)
    {n r l : Nat} (hr : r < 16) (hl : l < 16) :
    (veApply c c (.va o f)).lane n r l =
      if n = f.dst.toNat ∧ r < c.lenRow ∧ l < c.lenCol then (c.vaRes o f r l).1 else c.lane n r l := by
  obtain ⟨hR, hC⟩ := hc.len_le
  have put := Core.lane_putLanes (n := n) hc.tile_wf f.dst.toNat (fun p => (c.vaRes o f p.1 p.2).1) hC hR hr hl
  simp only [veApply, vaResults_lanes c h]
  exact put

theorem veApply_va_sticky (c : Core) {o : VaOp} {f : VaFields} (h : o = .vcvt → f.sub.toNat ≤ 1 ∨ f.sub.toNat = 7) :
    (veApply c c (.va o f)).sticky = c.sticky ||| (lanes c.lenRow c.lenCol).foldl (fun e p => e ||| (c.vaRes o f p.1 p.2).2) 0 := by
  simp only [veApply, vaResults_lanes c h, Core.raise, Core.putLanes]

/-- Settles O12: the lanes inside LEN are one write each, and the flags of all of them are raised before those of MX. -/
theorem laneArithmeticWritesTheLanesInsideLen : Obligations.LaneArithmeticWritesTheLanesInsideLen := by
  intro s x rest o f n r l hx hc hn hr hl i c h lanewise
  refine answers_regs (slotOf_vaCommand ..) hx h fun t same => ?_
  have after : (t.core i).sticky = (mxApply c (veApply c c (.va o f)) rest.mx).sticky := same.sticky
  obtain ⟨g, -, more⟩ := mxApply_raises c (veApply c c (.va o f)) rest.mx
  rw [veApply_va_sticky c lanewise] at more
  have raised (inside : r < c.lenRow ∧ l < c.lenCol) : (t.core i).sticky &&& (c.vaRes o f r l).2 = (c.vaRes o f r l).2 := by
    rw [after, more, BitVec.or_comm c.sticky]
    exact or_and_of_and (or_and_of_and (foldl_or_mem (fun p : Nat × Nat => (c.vaRes o f p.1 p.2).2) ((mem_lanes _ _ (r, l)).mpr inside) 0) _) _
  have kept : (t.core i).sticky &&& c.sticky = c.sticky := by
    rw [after, more]
    exact or_and_of_and (or_and_of_and BitVec.and_self _) _
  exact ⟨(lane_after same n r l).trans (veApply_va_lane hc lanewise hr hl), fun hr' hl' => raised ⟨hr', hl'⟩, kept, vec_after same,
    mem_after same⟩

end Sys2Proof.Machine
end

section
/-! VCVT that stages rows, and the reductions of VE (R83, R85 to R89): one result for each row or column inside LEN. -/
namespace Sys2Proof.Machine

open Sys2Proof

/-! ## Rows put one after the other -/

/-- Rows of C words written one after the other are the lanes of a rectangle. -/
theorem flatMap_rows (d R C : Nat) {row : Nat → List (BitVec 32)} (hrow : ∀ r, (row r).length = C) :
    (List.range R).flatMap (fun r => (row r).zipIdx.map fun p => (256 * d + 16 * r + p.2, p.1)) =
      (lanes R C).map fun p => (256 * d + 16 * p.1 + p.2, (row p.1).getD p.2 0) := by
  simp only [lanes, List.map_flatMap, List.map_map]
  refine congrArg (List.flatMap · _) (funext fun r => List.ext_getElem (by simp [hrow]) fun k h1 h2 => ?_)
  simp at h1
  simp [h1]

theorem fst_foldl_append {α β : Type} (f : α → List β) (g : α → BitVec 5) (l : List α) (t : List β × BitVec 5) :
    (l.foldl (fun t r => (t.1 ++ f r, t.2 ||| g r)) t).1 = t.1 ++ l.flatMap f := by
  induction l generalizing t with
  | nil => simp
  | cons a l ih => rw [List.foldl_cons, ih, List.flatMap_cons, List.append_assoc]

/-! ## VCVT to the formats that share a scale -/

theorem stageRow_length (fmt : Nat) (as bs : List (BitVec 32)) (h : bs.length = as.length) : (stageRow fmt as bs).1.length = as.length := by
  simp only [stageRow]
  split <;> simp [h]

/-- The words to which VCVT stages row r. -/
def Core.stagedRow (c : Core) (f : VaFields) (r : Nat) : List (BitVec 32) :=
  (stageRow f.sub.toNat ((List.range c.lenCol).map (c.lane f.srca.toNat r)) ((List.range c.lenCol).map (c.opB f r))).1

theorem vaResults_staged (c : Core) {f : VaFields} (h2 : 2 ≤ f.sub.toNat) (h6 : f.sub.toNat ≤ 6) :
    (vaResults c .vcvt f).1 =
      (lanes c.lenRow c.lenCol).map fun p => (256 * f.dst.toNat + 16 * p.1 + p.2, (c.stagedRow f p.1).getD p.2 0) := by
  have staged : VaOp.vcvt = .vcvt ∧ 2 ≤ f.sub.toNat ∧ f.sub.toNat ≤ 6 := ⟨rfl, h2, h6⟩
  simp only [vaResults, staged, and_self, if_true]
  refine (fst_foldl_append _ _ _ _).trans ?_
  exact flatMap_rows f.dst.toNat c.lenRow c.lenCol (row := c.stagedRow f) fun r => by simp [Core.stagedRow, stageRow_length]

/-- Settles O13: the rows staged are the lanes inside LEN. -/
theorem vcvtStagesEachRow : Obligations.VcvtStagesEachRow := by
  intro s x rest f n r l hx hc hn hr hl i c h h2 h6
  have canon : c.Canonical := hc
  obtain ⟨hR, hC⟩ := canon.len_le
  have put := Core.lane_putLanes (n := n) canon.tile_wf f.dst.toNat (fun p => (c.stagedRow f p.1).getD p.2 0) hC hR hr hl
  rw [← vaResults_staged c h2 h6] at put
  exact answers_regs rfl hx h fun t same => ⟨(lane_after same n r l).trans put, vec_after same, mem_after same⟩

/-! ## Two vectors, one lane of each for every row -/

theorem get_put_twoPerRow {vec : Cells (BitVec 32)} (hv : Cells.wf 0 vec = true) {v w : Nat} (ne : v ≠ w) (f g : Nat → BitVec 32) {R k r : Nat}
    (hR : R ≤ 16) (hr : r < 16) :
    Cells.get 0 ((List.range R).foldl (fun m r => Cells.set 0 (Cells.set 0 m (16 * v + r) (f r)) (16 * w + r) (g r)) vec) (16 * k + r) =
      if k = v ∧ r < R then f r else if k = w ∧ r < R then g r else Cells.get 0 vec (16 * k + r) := by
  induction R with
  | zero => simp
  | succ R ih =>
    have wf : Cells.wf 0 ((List.range R).foldl (fun m r => Cells.set 0 (Cells.set 0 m (16 * v + r) (f r)) (16 * w + r) (g r)) vec) = true :=
      List.foldlRecOn (motive := fun m => Cells.wf 0 m = true) _ _ hv fun m hm r _ => Cells.wf_set _ _ _ _ (Cells.wf_set _ _ _ _ hm)
    rw [List.range_succ, List.foldl_append, List.foldl_cons, List.foldl_nil, Cells.get_set _ _ _ _ _ (Cells.wf_set _ _ _ _ wf),
      Cells.get_set _ _ _ _ _ wf, ih (by omega)]
    have atW : (16 * w + R = 16 * k + r) ↔ k = w ∧ r = R := by omega
    have atV : (16 * v + R = 16 * k + r) ↔ k = v ∧ r = R := by omega
    simp only [atW, atV]
    by_cases last : r = R
    · subst last
      by_cases isV : k = v
      · subst isV
        simp [ne]
      · simp [isV]
    · have before : r < R + 1 ↔ r < R := by omega
      simp [last, before]

/-- A fold that puts one lane in each of two vectors for every row, whatever else it does to the core. -/
theorem vec_foldl_twoPerRow {step : Core → Nat → Core} {v w : Nat} {f g : Nat → BitVec 32}
    (h : ∀ k r, (step k r).vec = Cells.set 0 (Cells.set 0 k.vec (16 * v + r) (f r)) (16 * w + r) (g r)) (l : List Nat) (c : Core) :
    (l.foldl step c).vec = l.foldl (fun m r => Cells.set 0 (Cells.set 0 m (16 * v + r) (f r)) (16 * w + r) (g r)) c.vec :=
  (List.foldl_hom Core.vec fun k r => (h k r).symm).symm

/-! ## VSMAX and VSSUM -/

theorem smaxRow_length (v : BitVec 32) (ts : List (BitVec 32)) : (smaxRow v ts).2.2.1.length = ts.length := by
  simp only [smaxRow]
  split <;> simp

/-- The results of VSMAX for row r. -/
def Core.smaxAt (c : Core) (t : BitVec 4) (v : BitVec 3) (r : Nat) : BitVec 32 × BitVec 32 × List (BitVec 32) × BitVec 5 :=
  smaxRow (c.vlane v.toNat r) ((List.range c.lenCol).map (c.lane t.toNat r))

/-- The results of VSSUM for row r. -/
def Core.ssumAt (c : Core) (t : BitVec 4) (v w : BitVec 3) (r : Nat) : BitVec 32 × BitVec 32 × BitVec 5 :=
  ssumRow (c.vlane v.toNat r) (c.vlane w.toNat r) ((List.range c.lenCol).map (c.lane t.toNat r))

theorem veApply_vsmax_vec (c : Core) (t : BitVec 4) (v w : BitVec 3) :
    (veApply c c (.vsmax t v w)).vec = (List.range c.lenRow).foldl (fun m r =>
      Cells.set 0 (Cells.set 0 m (16 * v.toNat + r) (c.smaxAt t v r).1) (16 * w.toNat + r) (c.smaxAt t v r).2.1) c.vec := by
  simp only [veApply]
  exact vec_foldl_twoPerRow (fun _ _ => rfl) _ c

theorem veApply_vsmax_tile (c : Core) (t : BitVec 4) (v w : BitVec 3) :
    (veApply c c (.vsmax t v w)).tile =
      (c.putLanes ((lanes c.lenRow c.lenCol).map fun p => (256 * t.toNat + 16 * p.1 + p.2, (c.smaxAt t v p.1).2.2.1.getD p.2 0))).tile := by
  rw [← flatMap_rows t.toNat c.lenRow c.lenCol (row := fun r => (c.smaxAt t v r).2.2.1) fun r => by simp [Core.smaxAt, smaxRow_length],
    Core.putLanes, List.foldl_flatMap]
  simp only [veApply]
  exact (List.foldl_hom Core.tile fun _ _ => rfl).symm

theorem veApply_vssum_vec (c : Core) (t : BitVec 4) (v w : BitVec 3) :
    (veApply c c (.vssum t v w)).vec = (List.range c.lenRow).foldl (fun m r =>
      Cells.set 0 (Cells.set 0 m (16 * v.toNat + r) (c.ssumAt t v w r).1) (16 * w.toNat + r) (c.ssumAt t v w r).2.1) c.vec := by
  simp only [veApply]
  exact vec_foldl_twoPerRow (fun _ _ => rfl) _ c

theorem veApply_vssum_tile (c0 c : Core) (t : BitVec 4) (v w : BitVec 3) : (veApply c0 c (.vssum t v w)).tile = c.tile := by
  simp only [veApply]
  refine Core.foldl_keeps Core.tile ?_ _ c
  exact fun _ _ => rfl

/-! ## VREDR and VREDC -/

theorem veApply_vredr_vlane {c : Core} (hc : c.Canonical) (n : BitVec 4) (v sub : BitVec 3) (w : Nat) {l : Nat} (hl : l < 16) :
    (veApply c c (.vred false n v sub)).vlane w l =
      if w = v.toNat ∧ l < c.lenRow then (reduceLanes sub.toNat ((List.range c.lenCol).map (c.lane n.toNat l))).1 else c.vlane w l := by
  obtain ⟨hR, -⟩ := hc.len_le
  have put := Core.vlane_putVlanes (w := w) hc.vec_wf v.toNat
    (fun r => (reduceLanes sub.toNat ((List.range c.lenCol).map (c.lane n.toNat r))).1) hR hl
  simp only [veApply, Bool.false_eq_true, if_false, List.map_map]
  exact put

theorem veApply_vredc_vlane {c : Core} (hc : c.Canonical) (n : BitVec 4) (v sub : BitVec 3) (w : Nat) {l : Nat} (hl : l < 16) :
    (veApply c c (.vred true n v sub)).vlane w l =
      if w = v.toNat ∧ l < c.lenCol then (reduceLanes sub.toNat ((List.range c.lenRow).map fun r => c.lane n.toNat r l)).1
      else c.vlane w l := by
  obtain ⟨-, hC⟩ := hc.len_le
  have put := Core.vlane_putVlanes (w := w) hc.vec_wf v.toNat
    (fun l => (reduceLanes sub.toNat ((List.range c.lenRow).map fun r => c.lane n.toNat r l)).1) hC hl
  simp only [veApply, if_true, List.map_map]
  exact put

/-- Settles O14: VREDR and VREDC put their results in one vector; the two vectors of VSMAX and VSSUM are never one (R88, R89). -/
theorem reductionsWriteOneResultPerRow : Obligations.ReductionsWriteOneResultPerRow := by
  intro s x rest hx hc i c row
  have canon : c.Canonical := hc
  obtain ⟨hR, hC⟩ := canon.len_le
  refine ⟨fun n v sub w l h hw hl => ?_, fun n v sub w l h hw hl => ?_, fun n v w m k r l h hm hk hr hl => ?_, fun n v w k r h hk hr => ?_⟩
  · exact answers_regs rfl hx h fun t same =>
      ⟨(vlane_after same w l).trans (veApply_vredr_vlane canon n v sub w hl), tile_after same, mem_after same⟩
  · exact answers_regs rfl hx h fun t same =>
      ⟨(vlane_after same w l).trans (veApply_vredc_vlane canon n v sub w hl), tile_after same, mem_after same⟩
  · have ne : v.toNat ≠ w.toNat := fun e => by simpa [VeOp.legal, BitVec.eq_of_toNat_eq e] using Bundle.ve_legal (issues_legal h hc)
    refine answers_regs rfl hx h fun t same => ⟨?_, ?_, (mem_after same).trans (veApply_mem _ (fun f => by simp) _)⟩
    · rw [Core.vlane, vec_after same, veApply_vsmax_vec]
      exact get_put_twoPerRow canon.vec_wf ne _ _ hR hr
    · rw [Core.lane, tile_after same, veApply_vsmax_tile]
      exact Core.lane_putLanes canon.tile_wf n.toNat _ hC hR hr hl
  · have ne : v.toNat ≠ w.toNat := fun e => by simpa [VeOp.legal, BitVec.eq_of_toNat_eq e] using Bundle.ve_legal (issues_legal h hc)
    refine answers_regs rfl hx h fun t same =>
      ⟨?_, (tile_after same).trans (veApply_vssum_tile ..), (mem_after same).trans (veApply_mem _ (fun f => by simp) _)⟩
    rw [Core.vlane, vec_after same, veApply_vssum_vec]
    exact get_put_twoPerRow canon.vec_wf ne _ _ hR hr

end Sys2Proof.Machine
end

section
/-! Sums that ignore the order of their terms: the exact sum of the engines, rounded once (R71, R75), and a reduction (R131). -/
namespace Sys2Proof.Machine

open Sys2Proof

/-! ## The exact sum (R75) -/

/-- A dyadic number with the exponent of its lowest bit can be written with any lower exponent. -/
theorem dyad_rescale (v : Int) {x q r : Int} (hq : q ≤ x) (hr : r ≤ q) : v * 2 ^ (x - q).toNat * 2 ^ (q - r).toNat = v * 2 ^ (x - r).toNat := by
  rw [mul_assoc, ← pow_add]
  congr 2
  omega

theorem addDyad_fin (a : Int × Int) (neg : Bool) (m : Nat) (e : Int) :
    addDyad a (.fin neg m e) =
      (a.1 * 2 ^ (a.2 - min a.2 e).toNat + (if neg then -(m : Int) else m) * 2 ^ (e - min a.2 e).toNat, min a.2 e) := rfl

theorem addDyad_rightCommutative : RightCommutative addDyad where
  right_comm a x y := by
    cases x with
    | fin n m e =>
      cases y with
      | fin n' m' e' =>
        simp only [addDyad_fin]
        have low : min (min a.2 e) e' = min (min a.2 e') e := by omega
        rw [add_mul, add_mul, dyad_rescale _ (by omega) (by omega), dyad_rescale _ (by omega) (by omega), dyad_rescale _ (by omega) (by omega),
          dyad_rescale _ (by omega) (by omega), low, add_right_comm]
      | _ => rfl
    | _ => cases y <;> rfl

theorem exactSum_perm {a b : List Fp} (h : a.Perm b) : exactSum a = exactSum b := by
  have sum : a.foldl addDyad (0, 0) = b.foldl addDyad (0, 0) := h.foldl_eq (rcomm := addDyad_rightCommutative) _
  simp only [exactSum, h.any_eq, h.all_eq, sum, h.isEmpty_eq]

/-! ## Reductions (R131) -/

/-- A contribution adds what it would leave in an empty element: to the sum its value, to the four marks its own. -/
theorem RedElem.add_eq (e : RedElem) (x : Fp) :
    e.add x = { sum := e.sum + (RedElem.add {} x).sum, nan := e.nan || (RedElem.add {} x).nan, pinf := e.pinf || (RedElem.add {} x).pinf,
                ninf := e.ninf || (RedElem.add {} x).ninf, finOvf := e.finOvf || (RedElem.add {} x).finOvf } := by
  cases x with
  | fin neg m k => cases neg <;> by_cases big : m ≠ 0 ∧ (111 : Int) ≤ (Nat.log2 m : Int) + k <;> simp [RedElem.add, big, BitVec.sub_eq_add_neg]
  | inf neg => cases neg <;> simp [RedElem.add]
  | nan => simp [RedElem.add]
  | bad => simp [RedElem.add]

theorem RedElem.add_rightCommutative : RightCommutative RedElem.add where
  right_comm e x y := by
    rw [RedElem.add_eq (e.add x) y, RedElem.add_eq (e.add y) x, RedElem.add_eq e x, RedElem.add_eq e y]
    simp only [add_right_comm, Bool.or_right_comm]

/-- Settles O21: exact addition and the addition of a contribution commute. -/
theorem sumsIgnoreTheOrderOfTheirTerms : Obligations.SumsIgnoreTheOrderOfTheirTerms :=
  ⟨fun _ _ h => exactSum_perm h, fun _ _ e h => h.foldl_eq (rcomm := RedElem.add_rightCommutative) e⟩

end Sys2Proof.Machine
end

section
/-! STREAM_COMPLETE (R108, R117, R149): what the last access of a stream does, and what it leaves of its core. -/
namespace Sys2Proof.Machine

open Sys2Proof

/-! ## What the accesses of a stream leave of its core (R97, R112) -/

/-- The core but for what the last work of a stream may write: bytes, error marks and packet notices. -/
def Core.streamFrame (c : Core) : Core := { c with mem := [], eccSingle := [], eccDouble := [], correctable := 0, qnotes := [] }

theorem Core.correct_mem (c : Core) (a n : Nat) : (c.correct a n).mem = c.mem := by rw [Core.correct_frame]

@[simp] theorem Core.correct_streamFrame (c : Core) (a n : Nat) : (c.correct a n).streamFrame = c.streamFrame := by
  rw [Core.correct_frame]
  rfl

@[simp] theorem Core.runsEcc_streamFrame (c : Core) (rs : List (Nat × List Byte)) : (c.runsEcc rs).streamFrame = c.streamFrame := by
  unfold Core.runsEcc
  split <;> rfl

@[simp] theorem Core.storeRuns_streamFrame (c : Core) (es : List (Nat × Nat × List Byte)) :
    (c.storeRuns es).1.streamFrame = c.streamFrame := by
  have written (rs : List (Nat × List Byte)) : (rs.foldl (fun k r => k.writeBytes r.1 r.2) c).streamFrame = c.streamFrame :=
    Core.foldl_keeps Core.streamFrame (f := fun k r => k.writeBytes r.1 r.2) (fun _ _ => rfl) rs c
  unfold Core.storeRuns
  dsimp only
  split <;> rw [Core.runsEcc_streamFrame, written]

theorem CopySt.writes_streamFrame (ls : List (Nat × Nat)) (t : CopySt) : (t.writes ls).1.c.streamFrame = t.c.streamFrame := by
  unfold CopySt.writes
  dsimp only
  refine List.foldlRecOn (motive := fun q : CopySt × List Nat × Bool => q.1.c.streamFrame = t.c.streamFrame) _ _ rfl fun q hq e _ => ?_
  split
  · exact hq
  · split <;> exact (Core.storeRuns_streamFrame ..).trans hq

theorem CopySt.readOne_streamFrame (r : StreamRec) (old : List (Nat × List Byte)) (q : CopySt × List Nat × Option Nat × Bool) :
    (CopySt.readOne r old q).1.c.streamFrame = q.1.c.streamFrame := by
  unfold CopySt.readOne
  dsimp only
  split
  · rfl
  split
  · rfl
  split
  · rfl
  · rfl
  split
  · rfl
  split
  · rfl
  · simp only [apply_ite CopySt.c, ite_self]
    exact Core.correct_streamFrame ..

theorem CopySt.turn_streamFrame (r : StreamRec) (ix : List (Nat × Nat)) (t : CopySt) : (t.turn r ix).c.streamFrame = t.c.streamFrame := by
  have begun := CopySt.writes_streamFrame (t.writeList r) t
  unfold CopySt.turn
  dsimp only
  split
  · exact begun
  · refine List.foldlRecOn (motive := fun q : CopySt × List Nat × Option Nat × Bool => q.1.c.streamFrame = t.c.streamFrame) _ _ ?_
      fun q hq _ _ => (CopySt.readOne_streamFrame ..).trans hq
    exact (congrArg Core.streamFrame (CopySt.indexReads_c ..)).trans begun

theorem CopySt.run_streamFrame (r : StreamRec) (ix : List (Nat × Nat)) (fuel : Nat) (t : CopySt) :
    (CopySt.run r ix fuel t).c.streamFrame = t.c.streamFrame := by
  induction fuel generalizing t with
  | zero => rfl
  | succ n ih =>
    unfold CopySt.run
    split
    · rfl
    · exact (ih _).trans (CopySt.turn_streamFrame ..)

theorem copyElems_streamFrame (r : StreamRec) (c : Core) : (copyElems r c).1.streamFrame = c.streamFrame := by
  refine (Core.foldl_keeps Core.streamFrame (fun k e => ?_) _ _).trans (CopySt.run_streamFrame r _ _ { c := c, n := r.count })
  split
  · exact Core.correct_streamFrame ..
  · rfl

/-- What every correction keeps, the reads of a source side keep (R112). -/
theorem Core.correctSource_keeps {γ : Type} (g : Core → γ) (hg : ∀ k a n, g (Core.correct k a n) = g k) (c : Core) (r : StreamRec) :
    g (c.correctSource r) = g c := by
  unfold Core.correctSource
  split
  · rfl
  refine Core.foldl_keeps g (fun k i => ?_) _ c
  have index : g (if (dSrc r.desc).indexed then k.correct ((dSrc r.desc).idxAt r.srcIH (dIw r.desc) i) (dIw r.desc) else k) = g k := by
    split
    · exact hg ..
    · rfl
  split
  · exact hg ..
  dsimp only
  split
  · exact (hg ..).trans index
  · exact index

theorem Core.correctSource_mem (c : Core) (r : StreamRec) : (c.correctSource r).mem = c.mem :=
  Core.correctSource_keeps Core.mem Core.correct_mem c r

theorem Core.correctSource_streamFrame (c : Core) (r : StreamRec) : (c.correctSource r).streamFrame = c.streamFrame :=
  Core.correctSource_keeps Core.streamFrame Core.correct_streamFrame c r

/-! ## A stream that has left its slot (R108) -/

/-- From `s` to `t` the stream has left its slot of core i and its ranges are released; the counters and tiles of the core and
every other core are as they were. -/
def StreamLeft (s t : State) (i id : Nat) : Prop :=
  (∀ q ∈ (t.core i).ld ++ (t.core i).st, q.id ≠ id) ∧
  (∀ e ∈ (t.core i).ranges, e.owner ≠ .stream id true ∧ e.owner ≠ .stream id false) ∧
  (∀ j, j ≠ i → t.core j = s.core j) ∧ (t.core i).ctrs = (s.core i).ctrs ∧ (t.core i).tile = (s.core i).tile

theorem Core.endStream_slots (c : Core) (id : Nat) : ∀ q ∈ (c.endStream id).ld ++ (c.endStream id).st, q.id ≠ id := by
  simp only [Core.endStream, List.mem_append, List.mem_filter, bne_iff_ne]
  rintro q (⟨_, apart⟩ | ⟨_, apart⟩) <;> exact apart

theorem Core.endStream_ranges (c : Core) (id : Nat) :
    ∀ e ∈ (c.endStream id).ranges, e.owner ≠ .stream id true ∧ e.owner ≠ .stream id false := by
  simp only [Core.endStream, List.mem_filter, Bool.and_eq_true, bne_iff_ne]
  exact fun e he => he.2

theorem Core.endStream_streamFrame (c : Core) (id : Nat) : (c.endStream id).streamFrame = c.streamFrame.endStream id := rfl

/-- The stream has left where its core is, but for what the accesses write, the one that ends it, and no other core has changed. -/
theorem StreamLeft.of_streamFrame {s t : State} {i id : Nat} (own : (t.core i).streamFrame = (s.core i).streamFrame.endStream id)
    (rest : ∀ j, j ≠ i → t.core j = s.core j) : StreamLeft s t i id := by
  have ld : (t.core i).ld = ((s.core i).endStream id).ld := (congrArg Core.ld own :)
  have st : (t.core i).st = ((s.core i).endStream id).st := (congrArg Core.st own :)
  have ranges : (t.core i).ranges = ((s.core i).endStream id).ranges := (congrArg Core.ranges own :)
  refine ⟨?_, ?_, rest, (congrArg Core.ctrs own :), (congrArg Core.tile own :)⟩
  · rw [ld, st]
    exact (s.core i).endStream_slots id
  · rw [ranges]
    exact (s.core i).endStream_ranges id

/-- The same where the cores are as after core i, as the accesses left it, has ended the stream. -/
theorem StreamLeft.of_setCore {s t : State} {i id : Nat} {k : Core} (accessed : k.streamFrame = (s.core i).streamFrame)
    (cores : ∀ j, t.core j = (s.setCore i (k.endStream id)).core j) : StreamLeft s t i id :=
  .of_streamFrame (by rw [cores, State.core_setCore_self, Core.endStream_streamFrame, accessed])
    fun j hj => (cores j).trans (State.core_setCore_ne s hj _)

/-! ## The bytes of a QWRITE (R105, R140) -/

theorem stackIdxs_congr (r : StreamRec) {c k : Core} (h : k.mem = c.mem) (n : Nat) : stackIdxs r k n = stackIdxs r c n := by
  have index : k.index = c.index := by
    funext sd ih w m
    simp only [Core.index, Core.bytes, h]
  rw [stackIdxs, index, stackIdxs]

@[simp] theorem State.handData_core (s : State) (x i : Nat) (r : StreamRec) (bs : List Byte) (whole : Bool) (j : Nat) :
    (s.handData x i r bs whole).core j = s.core j := rfl

/-- The request of the stream in its pair's queue has taken the bytes and the index values; every other request is as it was. -/
theorem State.handData_reqs (s : State) (x i : Nat) (r : StreamRec) (bs : List Byte) (whole : Bool) :
    (((s.handData x i r bs whole).port (dPort r.desc)).pair x (dQp r.desc)).reqs =
      ((s.port (dPort r.desc)).pair x (dQp r.desc)).reqs.map (fun q =>
        if q.core = i ∧ q.s.id = r.id ∧ q.read = false then
          { q with data := bs, idxs := stackIdxs r (s.core i) (bs.length / dElem r.desc), handed := whole }
        else q) := by
  refine (congrArg Pair.reqs (State.setPair_pair s (dPort r.desc) x (dQp r.desc) _) :).trans (List.map_congr_left fun q _ => ?_)
  simp only [Bool.not_eq_true']

/-! ## The packets of an MSEND (R117, R124) -/

/-- Cutting a run loses no byte (R117). -/
theorem cutRun_bytes {blk cap : Nat} (hblk : 0 < blk) (hcap : 0 < cap) {fuel : Nat} (off : Nat) {bs : List Byte}
    (enough : bs.length < fuel) :
    (cutRun blk cap fuel off bs).flatMap (·.2) = bs := by
  induction fuel generalizing off bs with
  | zero => omega
  | succ fuel ih =>
    unfold cutRun
    split
    next none_left => simp [List.isEmpty_iff.mp none_left]
    next some_left =>
      have left : 0 < bs.length := List.length_pos_iff.mpr fun h => some_left (by simp [h])
      have cut : 0 < min (blk - off % blk) cap := by have := Nat.mod_lt off hblk; omega
      rw [List.flatMap_cons, ih _ (by rw [List.length_drop]; omega), List.take_append_drop]

theorem cutRun_length_le {blk cap : Nat} (fuel off : Nat) (bs : List Byte) : ∀ e ∈ cutRun blk cap fuel off bs, e.2.length ≤ cap := by
  induction fuel generalizing off bs with
  | zero => simp [cutRun]
  | succ fuel ih =>
    unfold cutRun
    split
    · simp
    · refine List.forall_mem_cons.mpr ⟨?_, ih _ _⟩
      exact (List.length_take_le ..).trans (min_le_right ..)

theorem cutRuns_bytes {blk cap : Nat} (hblk : 0 < blk) (hcap : 0 < cap) (off : Nat) (rs : List (Nat × List Byte)) :
    (cutRuns blk cap off rs).flatMap (·.2) = rs.flatMap (·.2) := by
  rw [cutRuns, List.flatMap_assoc]
  exact congrArg (rs.flatMap ·) (funext fun p => cutRun_bytes hblk hcap _ (Nat.lt_succ_self _))

theorem cutRuns_length_le {blk cap : Nat} (off : Nat) (rs : List (Nat × List Byte)) : ∀ e ∈ cutRuns blk cap off rs, e.2.length ≤ cap := by
  intro e he
  obtain ⟨p, _, cut⟩ := List.mem_flatMap.mp he
  exact cutRun_length_le _ _ _ e cut

theorem rSize_pos (rfmt : Nat) : 0 < rSize rfmt := by
  rcases rfmt with _ | _ | _ | _ | n <;> simp [rSize]

/-- The most bytes that a mesh packet of an MSEND holds (R117). -/
def packetCap (d : List (BitVec 32)) : Nat := if dRop d = 2 then min 256 (128 * rSize (dRfmt d)) else 256

theorem cutCap_eq_packetCap (d : List (BitVec 32)) : (if dRop d = 2 then min 256 (128 * rSize (dRfmt d)) else 256) = packetCap d := rfl

theorem packetCap_pos (d : List (BitVec 32)) : 0 < packetCap d := by
  have := rSize_pos (dRfmt d)
  unfold packetCap
  split <;> omega

theorem packetCap_le (d : List (BitVec 32)) : packetCap d ≤ 256 := by
  unfold packetCap
  split <;> omega

theorem flatMap_zipIdx_fst {α β : Type} (l : List α) (f : α → List β) : l.zipIdx.flatMap (fun p => f p.1) = l.flatMap f := by
  rw [← List.flatMap_map Prod.fst f, List.zipIdx_map_fst]

/-- Packets that enter the mesh one after the other stand behind those under way, in their order. -/
theorem State.foldl_inject_flight {α : Type} {mk : α → MeshPacket} {P : MeshPacket → Prop} {l : List α}
    (made : ∀ a ∈ l, ∀ n, P { mk a with num := n }) (s : State) :
    ∃ ps, (l.foldl (fun t a => t.inject (mk a)) s).panel.flight = s.panel.flight ++ ps ∧
      ps.flatMap (fun p => p.data) = l.flatMap (fun a => (mk a).data) ∧ ∀ p ∈ ps, P p := by
  induction l generalizing s with
  | nil => exact ⟨[], by simp⟩
  | cons a l ih =>
    obtain ⟨first, later⟩ := List.forall_mem_cons.mp made
    obtain ⟨ps, flight, bytes, each⟩ := ih later (s.inject (mk a))
    refine ⟨{ mk a with num := s.panel.nextNum } :: ps, ?_, ?_, List.forall_mem_cons.mpr ⟨first _, each⟩⟩
    · rw [List.foldl_cons, flight]
      simp [State.inject]
    · rw [List.flatMap_cons, bytes, List.flatMap_cons]

theorem State.resolve_setCore (s : State) (i : Nat) (k : Core) (x rank : Nat) : (s.setCore i k).resolve x rank = s.resolve x rank := rfl

theorem State.sendFault_setCore (s : State) (i : Nat) (k : Core) (x j cx cy wh off : Nat) :
    (s.setCore i k).sendFault x j cx cy wh off = s.sendFault x j cx cy wh off := rfl

section
variable {s : State} {x i : Nat} {r : StreamRec} (here : s.resolve x (dRank r.desc) = .loc)
  (sent : s.sendFault x i (dCx r.desc) (dCy r.desc) (dWh r.desc) (remoteOff r.desc (dDst r.desc) r.iter.toNat) = none)
include here sent

theorem State.sendBytes_core (rs : List (Nat × List Byte)) (whole : Bool) (j : Nat) : (s.sendBytes x i r rs whole).core j = s.core j := by
  simp only [State.sendBytes, here, State.sendLocal, sent]
  exact foldl_keeps (State.core · j) _ (by intros; rfl) _ s

/-- An MSEND to this module that is not refused sends the bytes of its runs in order, in packets of at most 256 bytes to its
target (R117). -/
theorem State.sendBytes_flight (rs : List (Nat × List Byte)) (whole : Bool) :
    ∃ ps, (s.sendBytes x i r rs whole).panel.flight = s.panel.flight ++ ps ∧ ps.flatMap (fun p => p.data) = rs.flatMap (·.2) ∧
      ∀ p ∈ ps, p.src = i ∧ p.dst = 640 * dCy r.desc + dCx r.desc ∧ p.ctx = x ∧ p.data.length ≤ 256 := by
  simp only [State.sendBytes, here, State.sendLocal, sent, cutCap_eq_packetCap]
  rw [← cutRuns_bytes (by decide : 0 < 256) (packetCap_pos r.desc) (remoteOff r.desc (dDst r.desc) r.iter.toNat) rs, ← flatMap_zipIdx_fst]
  refine State.foldl_inject_flight (fun a ha _ => ⟨rfl, rfl, rfl, ?_⟩) s
  exact (cutRuns_length_le _ _ _ (List.fst_mem_of_mem_zipIdx ha)).trans (packetCap_le _)

end

/-! ## The last access, stream by stream (R108) -/

/-- The core with one more packet notice of the stream's pair. -/
def Core.noticed (c : Core) (r : StreamRec) : Core :=
  let k := 256 * dPort r.desc + dQp r.desc
  { c with qnotes := c.qnotes.put k (c.qnotes.get k 0 + 1) }

theorem Core.noticed_qnotes (c : Core) (r : StreamRec) :
    (c.noticed r).qnotes.get (256 * dPort r.desc + dQp r.desc) 0 = c.qnotes.get (256 * dPort r.desc + dQp r.desc) 0 + 1 :=
  Table.get_put_self ..

theorem Core.noticed_mem (c : Core) (r : StreamRec) : (c.noticed r).mem = c.mem := rfl
theorem Core.noticed_streamFrame (c : Core) (r : StreamRec) : (c.noticed r).streamFrame = c.streamFrame := rfl

theorem State.queueNotice_counts {s : State} {i : Nat} {r : StreamRec}
    (room : (s.core i).qnotes.get (256 * dPort r.desc + dQp r.desc) 0 < 255) :
    s.queueNotice i r = s.setCore i ((s.core i).noticed r) := by
  simp only [State.queueNotice, room, if_true]
  rfl

section
variable {i : Nat} {r : StreamRec} {s : State}

theorem finishStream_qread (op : r.op = .qread) (closed : r.closed = true)
    (room : (s.core i).qnotes.get (256 * dPort r.desc + dQp r.desc) 0 < 255) :
    finishStream i r s = s.setCore i (((s.core i).endStream r.id).noticed r) := by
  simp only [finishStream, op, closed, if_true]
  rw [State.queueNotice_counts (by rwa [State.core_setCore_self]), State.core_setCore_self, State.setCore_setCore]

theorem finishStream_rread (op : r.op = .rread) (closed : r.closed = true) :
    finishStream i r s = s.setCore i ((s.core i).endStream r.id) := by
  simp only [finishStream, op, closed, if_true]

theorem finishStream_qwrite (op : r.op = .qwrite) (clean : (sourceBytes r (s.core i)).2 = none) :
    finishStream i r s = (s.setCore i (((s.core i).correctSource r).endStream r.id)).handData (s.ownerOf i) i r
      (sourceBytes r (s.core i)).1 true := by
  simp only [finishStream, op, clean]
  rfl

theorem finishStream_msend (op : r.op = .msend) (clean : (sourceBytes r (s.core i)).2 = none) :
    finishStream i r s = (s.setCore i (((s.core i).correctSource r).endStream r.id)).sendBytes (s.ownerOf i) i r
      (sourceRuns r (s.core i)).1 true := by
  have whole : (sourceRuns r (s.core i)).2 = none := clean
  simp only [finishStream, op, whole]
  rfl

theorem finishStream_copy (op : r.op = .gather ∨ r.op = .scatter) (clean : (copyElems r (s.core i)).2 = none) :
    finishStream i r s = s.setCore i ((copyElems r (s.core i)).1.endStream r.id) := by
  rcases op with op | op <;> simp only [finishStream, op, clean]

/-- A QREAD whose packet is closed counts one packet notice of its pair (R149). -/
theorem finishStream_qread_counts (op : r.op = .qread) (closed : r.closed = true)
    (room : (s.core i).qnotes.get (256 * dPort r.desc + dQp r.desc) 0 < 255) :
    StreamLeft s (finishStream i r s) i r.id ∧
    ((finishStream i r s).core i).qnotes.get (256 * dPort r.desc + dQp r.desc) 0 =
      (s.core i).qnotes.get (256 * dPort r.desc + dQp r.desc) 0 + 1 ∧
    ((finishStream i r s).core i).mem = (s.core i).mem := by
  rw [finishStream_qread op closed room]
  refine ⟨.of_streamFrame ?_ fun j hj => State.core_setCore_ne s hj _, ?_, ?_⟩ <;> rw [State.core_setCore_self]
  · exact Core.noticed_streamFrame ..
  · exact Core.noticed_qnotes ..
  · exact Core.noticed_mem ..

theorem finishStream_rread_leaves (op : r.op = .rread) (closed : r.closed = true) :
    StreamLeft s (finishStream i r s) i r.id ∧ ((finishStream i r s).core i).qnotes = (s.core i).qnotes ∧
    ((finishStream i r s).core i).mem = (s.core i).mem := by
  rw [finishStream_rread op closed]
  refine ⟨.of_setCore rfl fun _ => rfl, ?_, ?_⟩ <;> rw [State.core_setCore_self] <;> rfl

/-- A QWRITE hands its bytes and index values to its request (R140). -/
theorem finishStream_qwrite_hands (op : r.op = .qwrite) (clean : (sourceBytes r (s.core i)).2 = none) :
    StreamLeft s (finishStream i r s) i r.id ∧ ((finishStream i r s).core i).mem = (s.core i).mem ∧
    (((finishStream i r s).port (dPort r.desc)).pair (s.ownerOf i) (dQp r.desc)).reqs =
      ((s.port (dPort r.desc)).pair (s.ownerOf i) (dQp r.desc)).reqs.map (fun q =>
        if q.core = i ∧ q.s.id = r.id ∧ q.read = false then
          { q with data := (sourceBytes r (s.core i)).1
                   idxs := stackIdxs r (s.core i) ((sourceBytes r (s.core i)).1.length / dElem r.desc), handed := true }
        else q) := by
  have mem : (((s.core i).correctSource r).endStream r.id).mem = (s.core i).mem := Core.correctSource_mem ..
  rw [finishStream_qwrite op clean]
  refine ⟨.of_setCore (Core.correctSource_streamFrame ..) fun _ => State.handData_core .., ?_, ?_⟩
  · rw [State.handData_core, State.core_setCore_self, mem]
  · rw [State.handData_reqs, State.core_setCore_self, stackIdxs_congr r mem, State.port_setCore]

/-- An MSEND to this module sends its bytes in order, in packets of at most 256 bytes (R117). -/
theorem finishStream_msend_sends (op : r.op = .msend) (clean : (sourceBytes r (s.core i)).2 = none)
    (here : s.resolve (s.ownerOf i) (dRank r.desc) = .loc)
    (sent : s.sendFault (s.ownerOf i) i (dCx r.desc) (dCy r.desc) (dWh r.desc) (remoteOff r.desc (dDst r.desc) r.iter.toNat) = none) :
    StreamLeft s (finishStream i r s) i r.id ∧ ((finishStream i r s).core i).mem = (s.core i).mem ∧
    ∃ ps, (finishStream i r s).panel.flight = s.panel.flight ++ ps ∧ ps.flatMap (fun p => p.data) = (sourceBytes r (s.core i)).1 ∧
      ∀ p ∈ ps, p.src = i ∧ p.dst = 640 * dCy r.desc + dCx r.desc ∧ p.ctx = s.ownerOf i ∧ p.data.length ≤ 256 := by
  rw [finishStream_msend op clean]
  rw [← State.resolve_setCore s i (((s.core i).correctSource r).endStream r.id)] at here
  rw [← State.sendFault_setCore s i (((s.core i).correctSource r).endStream r.id)] at sent
  have cores := State.sendBytes_core here sent (sourceRuns r (s.core i)).1 true
  refine ⟨.of_setCore (Core.correctSource_streamFrame ..) cores, ?_, State.sendBytes_flight here sent ..⟩
  rw [cores, State.core_setCore_self]
  exact Core.correctSource_mem ..

/-- GATHER and SCATTER have copied their elements, in their core alone (R97, R105). -/
theorem finishStream_copy_copies (op : r.op = .gather ∨ r.op = .scatter) (clean : (copyElems r (s.core i)).2 = none) :
    StreamLeft s (finishStream i r s) i r.id ∧ ((finishStream i r s).core i).mem = (copyElems r (s.core i)).1.mem ∧
    finishStream i r s = s.setCore i ((finishStream i r s).core i) := by
  rw [finishStream_copy op clean]
  refine ⟨.of_setCore (copyElems_streamFrame ..) fun _ => rfl, ?_, ?_⟩ <;> rw [State.core_setCore_self]
  rfl

end

/-! ## STREAM_COMPLETE (R108) -/

theorem exec_streamComplete {s : State} {x : CoreId} {st : Bool} {id : Nat} {r : StreamRec} (hx : inArray x = true)
    (found : (if st then (s.core (coreIdx x)).st else (s.core (coreIdx x)).ld).find? (fun q => q.id = id) = some r)
    (live : r.dead = false) (goes : s.streamsGo (coreIdx x) = true) :
    exec (.streamComplete x st id) s = .next (finishStream (coreIdx x) r s) := by
  simp [exec, execStreamComplete, atCore, hx, found, live, goes]

/-- Settles O22: the command finishes the stream it finds, and what that does is told stream by stream. -/
theorem streamCompletionReleasesTheStream : Obligations.StreamCompletionReleasesTheStream := by
  intro s x st id r hx i c o gone found live goes
  obtain rfl : r.id = id := by simpa using List.find?_some found
  have finishes {P : State → Prop} (h : P (finishStream i r s)) : Answers (.streamComplete x st r.id) s P :=
    ⟨_, exec_streamComplete hx found live goes, h⟩
  exact ⟨fun op closed room => finishes (finishStream_qread_counts op closed room),
    fun op closed => finishes (finishStream_rread_leaves op closed),
    fun op clean => finishes (finishStream_qwrite_hands op clean),
    fun op clean here sent => finishes (finishStream_msend_sends op clean here sent),
    fun op clean => finishes (finishStream_copy_copies op clean)⟩

end Sys2Proof.Machine
end

section
/-! RREAD_REQUEST and REDUCE_ADD_PACKET (R127, R130, R131, R133). -/
namespace Sys2Proof.Machine

open Sys2Proof

/-! ## A read request is answered (R117, R127) -/

theorem Core.load_readable {c : Core} {a n : Nat} (clean : c.eccRead a n = none) : c.load a n = .inl (c.bytes a n) := by
  simp only [Core.load, clean]

section
variable (s : State) (p : MeshPacket) (bs : List Byte)

theorem State.replyLocal_core (j : Nat) : (s.replyLocal p bs).core j = s.core j :=
  foldl_keeps (State.core · j) _ (by intros; rfl) _ s

theorem State.replyLocal_ctxs : (s.replyLocal p bs).ctxs = s.ctxs :=
  foldl_keeps State.ctxs _ (by intros; rfl) _ s

/-- The replies carry the bytes read, in order, back to the stream that asked for them. -/
theorem State.replyLocal_flight : ∃ ps, (s.replyLocal p bs).panel.flight = s.panel.flight ++ ps ∧ ps.flatMap (fun q => q.data) = bs ∧
    ∀ q ∈ ps, q.op = .readReply ∧ q.src = p.dst ∧ q.dst = p.src ∧ q.sid = p.sid ∧ q.ctx = p.ctx := by
  have cut : (cutRun 256 256 (bs.length + 1) p.off bs).flatMap (fun e => e.2) = bs :=
    cutRun_bytes (by decide) (by decide) p.off (Nat.lt_succ_self _)
  rw [← flatMap_zipIdx_fst] at cut
  rw [State.replyLocal]
  conv => enter [1, ps, 2, 1, 2]; rw [← cut]
  exact State.foldl_inject_flight (fun _ _ _ => ⟨rfl, rfl, rfl, rfl, rfl⟩) s

end

theorem exec_rreadRequest {s : State} {src dst : CoreId} {chan : BitVec 4} {p : MeshPacket} (hs : inArray src = true) (hd : inArray dst = true)
    (oldest : s.oldestOn (coreIdx src) (coreIdx dst) (if chan.toNat < 12 then 0 else 2)
      (fun q => decide (q.op = .readReq) && decide (q.chan = chan.toNat)) = some p)
    (owner : (s.core (coreIdx dst)).owner = some p.ctx) (ok : windowOk (s.core (coreIdx dst)) p p.len = true)
    (clean : (s.core (coreIdx dst)).eccRead (hByte ((s.core (coreIdx dst)).handle p.wh) + p.off) p.len = none) (here : p.via = none) :
    exec (.rreadRequest src dst chan) s =
      .next (((s.takePacket p).setCore (coreIdx dst)
        ((s.core (coreIdx dst)).correct (hByte ((s.core (coreIdx dst)).handle p.wh) + p.off) p.len)).replyLocal p
        ((s.core (coreIdx dst)).bytes (hByte ((s.core (coreIdx dst)).handle p.wh) + p.off) p.len)) := by
  change execRreadRequest src dst chan s = _
  simp [execRreadRequest, atCore, hs, hd, oldest, owner, ok, Core.load_readable clean, here]

/-! ## A contribution waits, opens its key or is added to it (R130, R131, R133) -/

/-- The core with packet n among the contributions that wait for accumulators. -/
def Core.holdsBack (c : Core) (n : Nat) : Core := { c with redWait := if c.redWait.contains n then c.redWait else c.redWait ++ [n] }

/-- The core with packet n no longer among them. -/
def Core.letsPass (c : Core) (n : Nat) : Core := { c with redWait := c.redWait.filter (· != n) }

theorem Core.mem_holdsBack (c : Core) (n : Nat) : n ∈ (c.holdsBack n).redWait := by
  rw [Core.holdsBack]
  dsimp only
  split
  next there => exact List.contains_iff_mem.mp there
  · simp

section
variable {s : State} {src dst : CoreId} {p : MeshPacket} (hs : inArray src = true) (hd : inArray dst = true)
  (oldest : s.oldestOn (coreIdx src) (coreIdx dst) 1 (fun q => decide (q.op = .reduceAdd)) = some p)
  (owner : (s.core (coreIdx dst)).owner = some p.ctx) (free : s.redBlocked p = false)
include hs hd oldest owner free

theorem exec_reduceAddPacket_waits (waits : redWaits (s.core (coreIdx dst)) p = true) :
    exec (.reduceAddPacket src dst) s = .next (s.setCore (coreIdx dst) ((s.core (coreIdx dst)).holdsBack p.num)) := by
  change execReduceAddPacket src dst s = _
  simp only [execReduceAddPacket, atCore, hs, hd, oldest, owner, free, waits, Bool.not_true, Bool.false_eq_true, if_false, if_true, ne_eq,
    not_true_eq_false, Core.holdsBack]

theorem exec_reduceAddPacket_absorbs (room : redWaits (s.core (coreIdx dst)) p = false) :
    exec (.reduceAddPacket src dst) s =
      .next (((s.setCore (coreIdx dst) ((s.core (coreIdx dst)).letsPass p.num)).takePacket p).absorb p) := by
  change execReduceAddPacket src dst s = _
  simp only [execReduceAddPacket, atCore, hs, hd, oldest, owner, free, room, Bool.not_true, Bool.false_eq_true, if_false, if_true, ne_eq,
    not_true_eq_false, Core.letsPass]

end

/-- The key that the first contribution of a reduction opens. -/
def MeshPacket.openKey (p : MeshPacket) : RedKey :=
  { ctx := p.ctx, wh := p.wh, off := p.off, len := p.data.length, tag := p.tag, rfmt := p.rfmt, rcount := p.rcount, count := 1,
    elems := (redElems p).map (RedElem.add {}) }

/-- The key with one more contribution added to it. -/
def RedKey.plus (k : RedKey) (p : MeshPacket) : RedKey :=
  { k with count := k.count + 1, elems := (k.elems.zip (redElems p)).map (fun e => e.1.add e.2) }

theorem MeshPacket.openKey_matches (p : MeshPacket) : p.openKey.matches p = true := by
  simp [RedKey.matches, MeshPacket.openKey]

theorem RedKey.plus_matches (k : RedKey) (p : MeshPacket) : (k.plus p).matches p = k.matches p := rfl

section
variable {s : State} {p : MeshPacket} {j : Nat} {c : Core} (target : p.dst = j) (ok : windowOk c p p.data.length = true)
include target ok

theorem State.absorb_opens (fresh : c.keys.find? (fun k => k.matches p) = none) (more : p.rcount ≠ 1) :
    ((s.setCore j c).takePacket p).absorb p = (s.takePacket p).setCore j { c with keys := c.keys ++ [p.openKey] } := by
  subst target
  simp only [State.absorb, State.takePacket_core, State.core_setCore_self, ok, fresh, more, Bool.not_true, Bool.false_eq_true, if_false]
  exact State.setCore_setCore (s.takePacket p) ..

theorem State.absorb_adds {k : RedKey} (found : c.keys.find? (fun k => k.matches p) = some k) (fmt : k.rfmt = p.rfmt)
    (count : k.rcount = p.rcount) (more : k.count + 1 ≠ k.rcount) :
    ((s.setCore j c).takePacket p).absorb p =
      (s.takePacket p).setCore j { c with keys := c.keys.map (fun q => if q.matches p then k.plus p else q) } := by
  subst target
  have same : ¬(k.rfmt ≠ p.rfmt ∨ k.rcount ≠ p.rcount) := by simp [fmt, count]
  simp only [State.absorb, State.takePacket_core, State.core_setCore_self, ok, found, same, more, Bool.not_true, Bool.false_eq_true, if_false]
  exact State.setCore_setCore (s.takePacket p) ..

end

section
variable {ks : List RedKey} {p : MeshPacket} {k : RedKey}

/-- After the addition the keys of the packet are the one with its contribution. -/
theorem keys_added_matching {q : RedKey} (hq : q ∈ ks.map (fun q => if q.matches p then k.plus p else q)) (m : q.matches p = true) :
    q = k.plus p := by
  obtain ⟨r, -, rfl⟩ := List.mem_map.mp hq
  split at m
  next own => exact if_pos own
  next other => exact absurd m other

/-- The addition leaves every other key. -/
theorem keys_added_others (matching : k.matches p = true) {q : RedKey} (m : q.matches p = false) :
    q ∈ ks.map (fun q => if q.matches p then k.plus p else q) ↔ q ∈ ks := by
  rw [List.mem_map]
  constructor
  · rintro ⟨r, hr, rfl⟩
    split at m
    next own => exact absurd ((k.plus_matches p).trans matching) (by simp [m])
    next other => rwa [if_neg other]
  · exact fun hq => ⟨q, hq, by simp [m]⟩

end

/-- Settles O24: the reply is the window's bytes cut into packets, and a contribution waits, opens its key or is added to it. -/
theorem readsAreAnsweredAndContributionsAdded : Obligations.ReadsAreAnsweredAndContributionsAdded := by
  refine ⟨fun s src dst chan p hs hd => ?_, fun s src dst p hs hd => ?_⟩
  · intro j c a oldest owner ok clean here
    have cores (k : Nat) := State.replyLocal_core ((s.takePacket p).setCore j (c.correct a p.len)) p (c.bytes a p.len) k
    refine ⟨_, exec_rreadRequest hs hd oldest owner ok clean here, ?_, fun k hk => ?_, State.replyLocal_ctxs .., State.replyLocal_flight ..⟩
    · rw [cores, State.core_setCore_self, Core.correct_mem]
    · exact (cores k).trans (State.core_setCore_ne _ hk _)
  · intro j c oldest target owner free
    refine ⟨fun waits => ?_, fun room ok fresh more => ?_, fun k room ok found fmt count more => ?_⟩
    · refine ⟨_, exec_reduceAddPacket_waits hs hd oldest owner free waits, ?_⟩
      beta_reduce
      rw [State.core_setCore_self]
      exact ⟨Core.mem_holdsBack .., rfl, rfl, rfl, rfl⟩
    · have acts := exec_reduceAddPacket_absorbs hs hd oldest owner free room
      rw [State.absorb_opens (c := c.letsPass p.num) target ok fresh more] at acts
      refine ⟨_, acts, ?_⟩
      beta_reduce
      rw [State.core_setCore_self]
      exact ⟨⟨p.openKey, rfl, p.openKey_matches, rfl, rfl, rfl, rfl⟩, rfl, rfl⟩
    · have matching : k.matches p = true := List.find?_some (p := fun q : RedKey => q.matches p) found
      have acts := exec_reduceAddPacket_absorbs hs hd oldest owner free room
      rw [State.absorb_adds (c := c.letsPass p.num) target ok found fmt count more] at acts
      refine ⟨_, acts, ?_⟩
      beta_reduce
      rw [State.core_setCore_self]
      refine ⟨fun q hq m => ?_, fun q m => keys_added_others matching m, rfl, rfl⟩
      rw [keys_added_matching hq m]
      exact ⟨rfl, rfl⟩

end Sys2Proof.Machine
end

section
/-! RETURN_LINE, QLEV_ANSWER and QR_FLUSH (R127, R140, R145, R150, R247). -/
namespace Sys2Proof.Machine

open Sys2Proof

/-! ## A line's bytes reach their stream (R127, R140) -/

@[simp] theorem Core.runsEcc_qnotes (c : Core) (rs : List (Nat × List Byte)) : (c.runsEcc rs).qnotes = c.qnotes := by
  unfold Core.runsEcc
  split <;> rfl

theorem Core.storeRuns_qnotes (c : Core) (es : List (Nat × Nat × List Byte)) : (c.storeRuns es).1.qnotes = c.qnotes := by
  have written (rs : List (Nat × List Byte)) : (rs.foldl (fun k r => k.writeBytes r.1 r.2) c).qnotes = c.qnotes :=
    Core.foldl_keeps Core.qnotes (f := fun k r => k.writeBytes r.1 r.2) (fun _ _ => rfl) rs c
  unfold Core.storeRuns
  dsimp only
  split <;> rw [Core.runsEcc_qnotes, written]

/-- A delivery counts no notice: that is the stream's last access (R149). -/
theorem Core.deliver_qnotes (c : Core) (r : StreamRec) (first : Nat) (bs : List Byte) : (c.deliver r first bs).1.qnotes = c.qnotes := by
  unfold Core.deliver
  dsimp only
  split
  · exact (Core.foldl_keeps Core.qnotes (fun k i => by rw [Core.correct_frame]) _ _).trans (Core.storeRuns_qnotes ..)
  · exact Core.storeRuns_qnotes ..

/-- The stream slots that hold the stream's number hold the stream as it was put. -/
theorem Core.setStream_slots {c : Core} {r q : StreamRec} (hq : q ∈ (c.setStream r).ld ++ (c.setStream r).st) (same : q.id = r.id) : q = r := by
  simp only [Core.setStream, ← List.map_append] at hq
  obtain ⟨o, -, rfl⟩ := List.mem_map.mp hq
  split at same
  next own => exact if_pos own
  next other => exact absurd same other

/-- The core once a line or reply of a stream is written: the last one has closed the stream. -/
def Core.received (c : Core) (r : StreamRec) (first : Nat) (bs : List Byte) (last : Bool) : Core :=
  if last then (c.deliver r first bs).1.setStream { r with closed := true } else (c.deliver r first bs).1

section
variable (c : Core) (r : StreamRec) (first : Nat) (bs : List Byte) (last : Bool)

theorem Core.received_mem : (c.received r first bs last).mem = (c.deliver r first bs).1.mem := by
  unfold Core.received
  split <;> rfl

theorem Core.received_qnotes : (c.received r first bs last).qnotes = c.qnotes := by
  unfold Core.received
  split <;> exact Core.deliver_qnotes ..

theorem Core.received_closed {q : StreamRec} (hq : q ∈ (c.received r first bs true).ld ++ (c.received r first bs true).st)
    (same : q.id = r.id) : q.closed = true :=
  Core.setStream_slots (r := { r with closed := true }) hq same ▸ rfl

end

/-- A reply that meets no fault is written, and the last one closes its stream. -/
theorem State.landReply_delivers {s : State} {i sid first : Nat} {bs : List Byte} {last : Bool} {r : StreamRec}
    (found : (s.core i).stream? sid = some r) (live : r.dead = false) (clean : ((s.core i).deliver r first bs).2 = none) :
    s.landReply i sid first bs last = s.setCore i ((s.core i).received r first bs last) := by
  simp only [State.landReply, found, live, clean, Bool.false_eq_true, if_false, Core.received]
  split
  · exact State.setCore_setCore ..
  · rfl

/-- The port once a line has left it. -/
def StackPort.lineGone (a : StackPort) (l : RetLine) : StackPort := { a with lines := a.lines.erase l }

section
variable {s : State} {port : BitVec 5} {x : CoreId} {l : RetLine} (hx : inArray x = true)
  (oldest : (s.port port.toNat).lines.find? (fun q => q.core = coreIdx x) = some l)
include hx oldest

theorem exec_returnLine_lands (owner : (s.core (coreIdx x)).owner = some l.ctx) :
    exec (.returnLine port x) s = .next ((s.setPort port.toNat ((s.port port.toNat).lineGone l)).landReply
      (coreIdx x) l.sid l.first l.data l.fin) := by
  change execReturnLine port x s = _
  simp only [execReturnLine, atCore, hx, oldest, owner, if_true, StackPort.lineGone]

theorem exec_returnLine_stray (owner : (s.core (coreIdx x)).owner ≠ some l.ctx) :
    exec (.returnLine port x) s = .next ((s.setPort port.toNat ((s.port port.toNat).lineGone l)).discardFlits
      l.ctx (1 + (l.data.length + 31) / 32)) := by
  change execReturnLine port x s = _
  simp only [execReturnLine, atCore, hx, oldest, owner, if_true, if_false, StackPort.lineGone]

end

/-! ## A depth watch is answered (R145) -/

theorem exec_qlevAnswer {s : State} {x : CoreId} {w : Watch} {o : Nat} (hx : inArray x = true) (watch : (s.core (coreIdx x)).watch = some w)
    (owner : (s.core (coreIdx x)).owner = some o) :
    exec (.qlevAnswer x) s = .next (if w.test ((s.port w.port).pair o w.qp) then
      s.setCore (coreIdx x) { s.core (coreIdx x) with watch := some { w with held := true } } else s) := by
  change execQlevAnswer x s = _
  simp only [execQlevAnswer, atCore, hx, watch, owner, if_true]

/-! ## What serving a sequencer's access does to the ports (R167, R177, R178) -/

/-- Packets of sequencers have joined the pair's queue, and nothing else of the pair has changed. -/
def Pair.Gains (a b : Pair) : Prop := ∃ ps : List QPacket, (∀ r ∈ ps, r.att.isSome = true) ∧ b = { a with reqs := a.reqs ++ ps }

theorem Pair.Gains.refl (a : Pair) : a.Gains a := ⟨[], by simp, by simp⟩

theorem Pair.Gains.trans {a b c : Pair} (h : a.Gains b) (k : b.Gains c) : a.Gains c := by
  obtain ⟨ps, hps, rfl⟩ := h
  obtain ⟨qs, hqs, rfl⟩ := k
  exact ⟨ps ++ qs, List.forall_mem_append.mpr ⟨hps, hqs⟩, by simp⟩

/-- No byte of the stack has changed, and packets of sequencers have joined the queues of the port's pairs. -/
def StackPort.Gains (a b : StackPort) : Prop := b.mem = a.mem ∧ ∀ k, (a.pairs.get k {}).Gains (b.pairs.get k {})

theorem StackPort.Gains.of_same {a b : StackPort} (mem : b.mem = a.mem) (pairs : b.pairs = a.pairs) : a.Gains b :=
  ⟨mem, fun _ => pairs ▸ .refl _⟩

/-- From `s` to `t` the ports have only taken packets of sequencers into the queues of their pairs. -/
def State.Posts (s t : State) : Prop := ∀ n, (s.port n).Gains (t.port n)

theorem State.port_congr {s t : State} (h : t.ports = s.ports) (n : Nat) : t.port n = s.port n := by
  rw [State.port, h]
  rfl

theorem State.dataFault_ports (s : State) (i : Nat) (f : Nat × Nat × Nat) : (s.dataFault i f).ports = s.ports := by
  have error : (s.coreUe i).ports = s.ports := by
    simp only [State.coreUe, State.retire, State.retireNo]
    split
    · split
      · rfl
      · exact State.logFault_ports ..
    · rfl
  rw [State.dataFault, State.coreFault_ports]
  split
  · exact error
  · rfl

theorem State.Posts.refl (s : State) : s.Posts s := fun _ => .of_same rfl rfl

section
variable {s t u : State} (h : s.Posts t)
include h

theorem State.Posts.of_ports (same : u.ports = t.ports) : s.Posts u := fun n => (State.port_congr same n).symm ▸ h n

theorem State.Posts.ite {c : Prop} [Decidable c] (k : s.Posts u) : s.Posts (if c then t else u) := by
  split
  exacts [h, k]

theorem State.Posts.foldl {α : Type} {f : State → α → State} {l : List α} (hf : ∀ {u : State} (a : α), s.Posts u → s.Posts (f u a)) :
    s.Posts (l.foldl f t) :=
  List.foldlRecOn _ _ h fun _ hu a _ => hf a hu

theorem State.Posts.modPort {p : Nat} {f : StackPort → StackPort} (hf : ∀ a : StackPort, a.Gains (f a)) : s.Posts (t.modPort p f) := by
  intro n
  obtain ⟨mem, pairs⟩ := h n
  by_cases own : n = p
  · subst own
    obtain ⟨mem', pairs'⟩ := hf (t.port n)
    rw [State.port_modPort_self]
    exact ⟨mem'.trans mem, fun k => (pairs k).trans (pairs' k)⟩
  · rw [State.modPort, State.port_setPort_ne t own]
    exact ⟨mem, pairs⟩

theorem State.Posts.setRegions {p : Nat} {f : StackPort → List Region} : s.Posts (t.modPort p fun a => { a with regions := f a }) :=
  h.modPort fun _ => .of_same rfl rfl

theorem State.Posts.setSeq {pod : Nat} {j : AttendJob} : s.Posts (t.setSeq pod j) := h.of_ports rfl

theorem State.Posts.postAtt {x p q : Nat} {w : AttAcc} {bs : List Byte} : s.Posts (t.postAtt x p q w bs) := by
  refine h.modPort fun a => ⟨rfl, fun k => ?_⟩
  dsimp only [StackPort.setPair]
  rw [Table.get_put]
  split
  next own => exact own ▸ ⟨[_], by simp, rfl⟩
  · exact .refl _

theorem State.Posts.nextPage {pod m : Nat} : s.Posts (t.nextPage pod m) := by
  unfold State.nextPage
  dsimp only
  split
  · exact h
  split
  · exact h
  split
  · exact .postAtt h.setSeq
  · exact h.setSeq

theorem State.Posts.endWalk {j : AttendJob} : s.Posts (t.endWalk j) := h.setRegions

theorem State.Posts.closeWalk {pod : Nat} : s.Posts (t.closeWalk pod) := by
  unfold State.closeWalk
  split
  · exact h
  · exact .ite h.setSeq.endWalk h

theorem State.Posts.pageServed {pod m b : Nat} {bs : List Byte} : s.Posts (t.pageServed pod m b bs) := by
  unfold State.pageServed
  split
  · exact h
  · exact .closeWalk (.ite h.setSeq.nextPage h.setSeq)

theorem State.Posts.startPages {pod : Nat} : s.Posts (t.startPages pod) := by
  unfold State.startPages
  split
  · exact h
  · exact .closeWalk (h.foldl fun _ hu => hu.nextPage.nextPage)

theorem State.Posts.appendServed {pod : Nat} : s.Posts (t.appendServed pod) := by
  unfold State.appendServed
  split
  · exact h
  · exact .ite h.setSeq.startPages h.setSeq

theorem State.Posts.seqFault {pod : Nat} {j : AttendJob} {f : Nat × Nat × Nat} : s.Posts (t.seqFault pod j f) :=
  .of_ports (.ite h.setSeq.endWalk h.setSeq) (State.ctxFault_ports ..)

theorem State.Posts.selectorRead {pod sel : Nat} : s.Posts (t.selectorRead pod sel) := by
  unfold State.selectorRead
  dsimp only
  split
  · exact h
  split
  · exact h.seqFault
  · exact .ite (.postAtt (.setSeq h.setRegions)) (.setSeq h.setRegions)

theorem State.Posts.directoryRead {pod : Nat} {e : BitVec 64} : s.Posts (t.directoryRead pod e) := by
  unfold State.directoryRead
  dsimp only
  split
  · exact h
  split
  · exact h.seqFault
  · exact .ite h (.ite h.seqFault (.postAtt h.setSeq))

theorem State.Posts.beginWalk {pod : Nat} {j : AttendJob} : s.Posts (t.beginWalk pod j) := by
  unfold State.beginWalk
  dsimp only
  split
  · exact h.of_ports (State.dataFault_ports ..)
  · exact h.of_ports (State.dataFault_ports ..)
  · have ready {i : Nat} {c : Core} {j : AttendJob} : s.Posts ((t.setCore i c).setSeq pod j) := h.of_ports rfl
    refine .ite ready.startPages (ready.foldl fun w hu => ?_)
    split
    exacts [hu, hu.postAtt]

theorem State.Posts.entriesRead {pod : Nat} {es : List (BitVec 64)} : s.Posts (t.entriesRead pod es) := by
  unfold State.entriesRead
  dsimp only
  split
  · exact h
  refine .ite h (.ite h.seqFault ?_)
  split
  · exact h.seqFault
  · exact h.beginWalk

theorem State.Posts.attServed {x : Nat} {w : AttAcc} {bs : List Byte} : s.Posts (t.attServed x w bs) := by
  unfold State.attServed
  refine .ite h ?_
  split
  · exact h.pageServed
  · exact h.appendServed
  · exact h.selectorRead
  · exact h.directoryRead
  · exact h.entriesRead

end

/-! ## One packet is flushed (R150) -/

/-- The port once a packet has left the queue of a pair. -/
def StackPort.without (a : StackPort) (x q : Nat) (k : QPacket) (ring : List RingPkt) (lines : List RetLine) : StackPort :=
  { a.setPair x q { (a.pair x q).remove k with ring := ring } with lines := lines }

theorem State.stopPacket_ports (s : State) (p x q : Nat) (k : QPacket) (source : Nat) (f : Nat × Nat × Nat) :
    (s.stopPacket p x q k source f).ports = (s.setPair p x q (((s.port p).pair x q).remove k)).ports := by
  rw [State.stopPacket, State.ctxFault_ports]
  split
  · split <;> rfl
  · rfl

theorem State.setPair_mem (s : State) (p x q : Nat) (a : Pair) (n : Nat) : ((s.setPair p x q a).port n).mem = (s.port n).mem := by
  by_cases own : n = p
  · subst own
    rw [State.setPair, State.port_modPort_self]
    rfl
  · exact congrArg StackPort.mem (State.port_setPort_ne s own _)

theorem State.setPort_setPort (s : State) (p : Nat) (a b : StackPort) : (s.setPort p a).setPort p b = s.setPort p b := by
  simp only [State.setPort, Table.put_put]

theorem State.modPort_modPort (s : State) (p : Nat) (f g : StackPort → StackPort) :
    (s.modPort p f).modPort p g = s.setPort p (g (f (s.port p))) := by
  rw [State.modPort, State.port_modPort_self]
  exact State.setPort_setPort ..

section
variable (s : State) (p x q : Nat) (k : QPacket)

/-- A QREAD that ends leaves its pair's queue, and of the ring at most the packet it took. -/
theorem State.endEmpty_ports (t : Sending) (pos : Nat) : ∃ ring lines, ring ⊆ ((s.port p).pair x q).ring ∧
    (s.endEmpty p x q k t pos).ports = (s.setPort p ((s.port p).without x q k ring lines)).ports := by
  simp only [State.endEmpty]
  split
  · rw [State.stopPacket_ports, State.setPair, State.sendLines, State.modPort_modPort, State.port_modPort_self]
    exact ⟨((s.port p).pair x q).ring, _, List.Subset.refl _, rfl⟩
  · simp only [State.endRead, State.sendLines, State.setPair, State.modPort_modPort]
    split
    · exact ⟨_, _, fun _ => List.mem_of_mem_filter, rfl⟩
    · exact ⟨((s.port p).pair x q).ring, _, List.Subset.refl _, rfl⟩

/-- A packet of a stream only leaves its pair's queue. -/
theorem State.flushPacket_stream (stream : k.att = none) : ∃ ring lines, ring ⊆ ((s.port p).pair x q).ring ∧
    (s.flushPacket p x q k).ports = (s.setPort p ((s.port p).without x q k ring lines)).ports := by
  simp only [State.flushPacket, stream]
  split
  · exact State.endEmpty_ports ..
  · exact ⟨((s.port p).pair x q).ring, (s.port p).lines, List.Subset.refl _, rfl⟩

/-- A packet of a sequencer leaves its pair's queue, and what follows its access posts packets of sequencers only. -/
theorem State.flushPacket_sequencer (sequencer : k.att.isSome = true) :
    (s.setPair p x q (((s.port p).pair x q).remove k)).Posts (s.flushPacket p x q k) := by
  obtain ⟨w, hw⟩ := Option.isSome_iff_exists.mp sequencer
  simp only [State.flushPacket, hw]
  exact .attServed (.refl _)

end

/-! ## The packets of a pair are flushed (R150) -/

/-- From `s` to `t` the packets `l` have left the queue of pair q of context x at port p: no byte of a stack has changed, of the
pair only ring and queue have, and all that is new in the queue is of sequencers. Where no packet of `l` is of a sequencer, nothing
is new there, and no other pair or port has changed. -/
structure Flushed (p x q : Nat) (l : List QPacket) (s t : State) : Prop where
  mem : ∀ n, (t.port n).mem = (s.port n).mem
  pair : ∃ ring reqs, ring ⊆ ((s.port p).pair x q).ring ∧
    (t.port p).pair x q = { (s.port p).pair x q with ring := ring, reqs := reqs }
  left : ∀ r ∈ ((t.port p).pair x q).reqs, r.att.isSome = true ∨ r ∈ ((s.port p).pair x q).reqs ∧ ∀ k ∈ l, r.num ≠ k.num
  alone : (∀ k ∈ l, k.att = none) → ((t.port p).pair x q).reqs ⊆ ((s.port p).pair x q).reqs ∧
    (∀ k, k ≠ pairKey x q → (t.port p).pairs.get k {} = (s.port p).pairs.get k {}) ∧ ∀ n, n ≠ p → t.port n = s.port n

theorem Flushed.refl (p x q : Nat) (s : State) : Flushed p x q [] s s where
  mem _ := rfl
  pair := ⟨_, _, List.Subset.refl _, rfl⟩
  left _ hr := .inr ⟨hr, by simp⟩
  alone _ := ⟨List.Subset.refl _, fun _ _ => rfl, fun _ _ => rfl⟩

theorem Flushed.cons {p x q : Nat} {k : QPacket} {l : List QPacket} {s t u : State} (h : Flushed p x q [k] s t)
    (h' : Flushed p x q l t u) : Flushed p x q (k :: l) s u where
  mem n := (h'.mem n).trans (h.mem n)
  pair := by
    obtain ⟨ring, reqs, sub, pair⟩ := h.pair
    obtain ⟨ring', reqs', sub', pair'⟩ := h'.pair
    rw [pair] at sub' pair'
    exact ⟨ring', reqs', List.Subset.trans sub' sub, pair'⟩
  left r hr := by
    rcases h'.left r hr with posted | ⟨old, apart⟩
    · exact .inl posted
    rcases h.left r old with posted | ⟨old, first⟩
    · exact .inl posted
    · exact .inr ⟨old, List.forall_mem_cons.mpr ⟨first k (List.mem_singleton_self k), apart⟩⟩
  alone streams := by
    obtain ⟨first, later⟩ := List.forall_mem_cons.mp streams
    obtain ⟨reqs, pairs, ports⟩ := h.alone (by simpa using first)
    obtain ⟨reqs', pairs', ports'⟩ := h'.alone later
    exact ⟨List.Subset.trans reqs' reqs, fun key hk => (pairs' key hk).trans (pairs key hk), fun n hn => (ports' n hn).trans (ports n hn)⟩

theorem Pair.mem_remove {a : Pair} {k r : QPacket} : r ∈ (a.remove k).reqs ↔ r ∈ a.reqs ∧ r.num ≠ k.num := by
  simp [Pair.remove]

theorem StackPort.without_pair (a : StackPort) (x q : Nat) (k : QPacket) (ring : List RingPkt) (lines : List RetLine) :
    (a.without x q k ring lines).pair x q = { (a.pair x q).remove k with ring := ring } := Table.get_put_self ..

section
variable (s : State) (p x q : Nat) {k : QPacket}

theorem State.flushPacket_stream_flushed (stream : k.att = none) : Flushed p x q [k] s (s.flushPacket p x q k) := by
  obtain ⟨ring, lines, sub, ports⟩ := s.flushPacket_stream p x q k stream
  have here : (s.flushPacket p x q k).port p = (s.port p).without x q k ring lines :=
    (State.port_congr ports p).trans (State.port_setPort_self ..)
  have elsewhere (n : Nat) (hn : n ≠ p) : (s.flushPacket p x q k).port n = s.port n :=
    (State.port_congr ports n).trans (State.port_setPort_ne s hn _)
  constructor
  case mem =>
    intro n
    by_cases own : n = p
    · subst own
      rw [here]
      rfl
    · rw [elsewhere n own]
  case pair =>
    rw [here, StackPort.without_pair]
    exact ⟨ring, _, sub, rfl⟩
  case left =>
    rw [here, StackPort.without_pair]
    intro r hr
    obtain ⟨old, apart⟩ := Pair.mem_remove.mp hr
    exact .inr ⟨old, by simpa using apart⟩
  case alone =>
    rw [here, StackPort.without_pair]
    exact fun _ => ⟨fun r hr => (Pair.mem_remove.mp hr).1, fun key hk => Table.get_put_ne _ hk .., elsewhere⟩

theorem State.flushPacket_sequencer_flushed (sequencer : k.att.isSome = true) : Flushed p x q [k] s (s.flushPacket p x q k) := by
  have posts := s.flushPacket_sequencer p x q k sequencer
  have removed : ((s.setPair p x q (((s.port p).pair x q).remove k)).port p).pair x q = ((s.port p).pair x q).remove k :=
    State.setPair_pair ..
  obtain ⟨ps, att, pair⟩ : (((s.port p).pair x q).remove k).Gains (((s.flushPacket p x q k).port p).pair x q) :=
    removed ▸ (posts p).2 (pairKey x q)
  constructor
  case mem => exact fun n => (posts n).1.trans (State.setPair_mem ..)
  case pair => exact ⟨_, _, List.Subset.refl _, pair⟩
  case left =>
    rw [pair]
    intro r hr
    rcases List.mem_append.mp hr with old | new
    · obtain ⟨old, apart⟩ := Pair.mem_remove.mp old
      exact .inr ⟨old, by simpa using apart⟩
    · exact .inl (att r new)
  case alone =>
    intro streams
    simp [streams k (List.mem_singleton_self k)] at sequencer

theorem State.flushPacket_flushed (k : QPacket) : Flushed p x q [k] s (s.flushPacket p x q k) := by
  by_cases stream : k.att = none
  · exact s.flushPacket_stream_flushed p x q stream
  · exact s.flushPacket_sequencer_flushed p x q (Option.isSome_iff_ne_none.mpr stream)

theorem State.foldl_flushPacket_flushed (l : List QPacket) : Flushed p x q l s (l.foldl (fun t k => t.flushPacket p x q k) s) := by
  induction l generalizing s with
  | nil => exact .refl p x q s
  | cons k l ih => exact .cons (s.flushPacket_flushed p x q k) (ih _)

end

/-- The pair as a flush finds it: its ring empty, the flush counted. -/
def Pair.flushBegun (a : Pair) : Pair := { a with ring := [], flushes := satAdd a.flushes 1 }

/-- A flush has flushed every packet of the pair, from the state in which its ring is empty. -/
theorem State.flushPair_flushed (s : State) (p x q : Nat) : ∃ t, (s.flushPair p x q).ports = t.ports ∧
    Flushed p x q ((s.port p).pair x q).reqs (s.setPair p x q ((s.port p).pair x q).flushBegun) t :=
  ⟨_, State.postCtx_ports .., State.foldl_flushPacket_flushed ..⟩

theorem exec_qrFlush {s : State} {c : BitVec 6} {port : BitVec 5} {qp : BitVec 8} (live : s.barLive = true)
    (has : (s.port port.toNat).hasPair c.toNat qp.toNat = true) :
    exec (.qrFlush c port qp) s = .next (s.flushPair port.toNat c.toNat qp.toNat) := by
  change execQrFlush c port qp s = _
  simp only [execQrFlush, live, has, Bool.and_self, if_true]

/-- Settles O26: a line is delivered or discarded, a watch is held once its test holds, and a flush is its packets' flushes. -/
theorem portAnswersReachTheirCore : Obligations.PortAnswersReachTheirCore := by
  refine ⟨fun s port x l r hx => ?_, fun s x w o hx => ?_, fun s c port qp live has => ?_⟩
  · intro i c oldest
    refine ⟨fun owner => ?_, fun owner found alive clean => ?_⟩
    · exact ⟨_, exec_returnLine_stray hx oldest owner, rfl, congrArg Context.discard (State.ctx_modCtx_self ..),
        State.port_setPort_self .., fun d hd => State.ctx_modCtx_ne _ hd _⟩
    · have acts := exec_returnLine_lands hx oldest owner
      rw [State.landReply_delivers (s := s.setPort port.toNat ((s.port port.toNat).lineGone l)) found alive clean] at acts
      have number : r.id = l.sid := by simpa using List.find?_some found
      refine ⟨_, acts, ?_⟩
      beta_reduce
      rw [State.core_setCore_self]
      refine ⟨Core.received_mem .., Core.received_qnotes .., fun last q hq same => ?_, State.port_setPort_self ..,
        fun j hj => State.core_setCore_ne _ hj _, fun n hn => State.port_setPort_ne s hn _, rfl⟩
      rw [last] at hq
      exact Core.received_closed _ _ _ _ hq (same.trans number.symm)
  · intro i watch owner
    have acts := exec_qlevAnswer hx watch owner
    exact ⟨fun held => ⟨_, acts, if_pos held⟩, fun fails => ⟨_, acts, if_neg (by simp [fails])⟩⟩
  · intro pr
    refine ⟨_, exec_qrFlush live has, ?_⟩
    obtain ⟨t, ports, ⟨mem, ⟨ring, reqs, sub, pair⟩, left, alone⟩⟩ := s.flushPair_flushed port.toNat c.toNat qp.toNat
    rw [State.setPair_pair] at sub pair left alone
    obtain rfl : ring = [] := List.eq_nil_of_subset_nil sub
    have posted : ∀ k ∈ ((t.port port.toNat).pair c.toNat qp.toNat).reqs, k.att.isSome = true := fun k hk =>
      (left k hk).resolve_right fun ⟨old, apart⟩ => apart k old rfl
    simp only [State.port_congr ports]
    refine ⟨by rw [pair], posted, by rw [pair]; rfl, by rw [pair]; rfl, by rw [pair]; rfl,
      fun n => (mem n).trans (State.setPair_mem ..), fun streams => ?_⟩
    obtain ⟨old, pairs, elsewhere⟩ := alone streams
    refine ⟨List.eq_nil_iff_forall_not_mem.mpr fun k hk => ?_, fun k hk => (pairs k hk).trans ?_, fun n hn =>
      (elsewhere n hn).trans (State.port_setPort_ne s hn _)⟩
    · simpa [streams k (old hk)] using posted k hk
    · rw [State.setPair, State.port_modPort_self]
      exact Table.get_put_ne _ hk ..

end Sys2Proof.Machine
end

section
/-! PORT_REFRESH, PATROL_SCRUB and SELF_REFRESH_ENTRY (R155, R156, R157). -/
namespace Sys2Proof.Machine

open Sys2Proof

/-! ## What a counted error leaves unchanged (R317) -/

/-- From `s` to `t` port p has only counted uncorrectable errors: its counters and its list of bad blocks may differ, and the log. -/
structure CountsErrors (p : Nat) (s t : State) : Prop where
  port : ∃ ue ueBlocks bad, t.port p = { s.port p with ue := ue, ueBlocks := ueBlocks, bad := bad }
  others : ∀ n, n ≠ p → t.port n = s.port n
  panel : t.panel = s.panel
  ctxs : t.ctxs = s.ctxs

theorem CountsErrors.refl (p : Nat) (s : State) : CountsErrors p s s := ⟨⟨_, _, _, rfl⟩, fun _ _ => rfl, rfl, rfl⟩

theorem CountsErrors.trans {p : Nat} {s t u : State} (h : CountsErrors p s t) (k : CountsErrors p t u) : CountsErrors p s u where
  port := by
    obtain ⟨_, _, _, first⟩ := h.port
    obtain ⟨ue, ueBlocks, bad, second⟩ := k.port
    exact ⟨ue, ueBlocks, bad, by rw [second, first]⟩
  others n hn := (k.others n hn).trans (h.others n hn)
  panel := k.panel.trans h.panel
  ctxs := k.ctxs.trans h.ctxs

theorem State.logFault_countsErrors (s : State) (p code cls ctx source arg0 arg1 : Nat) :
    CountsErrors p s (s.logFault code cls ctx source arg0 arg1) :=
  ⟨⟨_, _, _, State.logFault_port ..⟩, fun _ _ => State.logFault_port .., State.logFault_panel .., State.logFault_ctxs ..⟩

theorem State.portUe_countsErrors (s : State) (p a : Nat) : CountsErrors p s (s.portUe p a) := by
  have counted : CountsErrors p s (s.setPort p ((s.port p).countUe (decide (p < 24)) a)) :=
    ⟨⟨_, _, _, State.port_setPort_self ..⟩, fun _ hn => State.port_setPort_ne s hn _, rfl, rfl⟩
  exact ite_holds (CountsErrors p s) counted (counted.trans (State.logFault_countsErrors ..))

theorem CountsErrors.foldl {α : Type} {p : Nat} {f : State → α → State} (step : ∀ t a, CountsErrors p t (f t a)) (l : List α) (s : State) :
    CountsErrors p s (l.foldl f s) :=
  List.foldlRecOn _ _ (.refl p s) fun t ht a _ => ht.trans (step t a)

/-! ## Patrol scrub (R155) -/

/-- The port once the patrol has passed n atoms: the correctable errors it met are corrected and counted. -/
def StackPort.patrolled (a : StackPort) (p n : Nat) : StackPort :=
  let hits := a.eccSingle.filter (patrolHit (stackAtoms p) a.patrolAt n)
  { a with eccSingle := a.eccSingle.filter (fun w => !hits.contains w), ce := satAdd a.ce hits.length,
           patrol := a.patrol + BitVec.ofNat 32 ((a.patrolAt + n) / stackAtoms p), patrolAt := (a.patrolAt + n) % stackAtoms p }

theorem State.patrol_countsErrors (s : State) (p n : Nat) : CountsErrors p (s.setPort p ((s.port p).patrolled p n)) (s.patrol p n) :=
  .foldl (fun _ _ => (State.portUe_countsErrors ..).trans (State.logFault_countsErrors ..)) _ _

/-- What the patrol has passed holds no correctable error. -/
theorem StackPort.mem_patrolled_eccSingle {a : StackPort} {p n w : Nat} (hw : w ∈ (a.patrolled p n).eccSingle) :
    w ∈ a.eccSingle ∧ patrolHit (stackAtoms p) a.patrolAt n w = false := by
  simp only [StackPort.patrolled, List.mem_filter, List.contains_eq_mem, Bool.not_eq_true', decide_eq_false_iff_not] at hw
  obtain ⟨old, kept⟩ := hw
  exact ⟨old, by simpa [old] using kept⟩

/-! ## The three commands -/

theorem exec_portRefresh {s : State} {port : BitVec 5} (serves : s.portServes port.toNat = true) (tierA : port.toNat < 24)
    (awake : (s.port port.toNat).selfRef = false) :
    exec (.portRefresh port) s = .next (s.setPort port.toNat { s.port port.toNat with refreshes := (s.port port.toNat).refreshes + 1 }) := by
  change execPortRefresh port s = _
  simp only [execPortRefresh, serves, tierA, awake, decide_true, Bool.not_false, Bool.and_self, if_true]

theorem exec_portRefresh_asleep {s : State} {port : BitVec 5} (asleep : (s.port port.toNat).selfRef = true) :
    exec (.portRefresh port) s = .next s := by
  change execPortRefresh port s = _
  simp only [execPortRefresh, asleep, Bool.not_true, Bool.and_false, Bool.false_eq_true, if_false]

theorem exec_patrolScrub {s : State} {port : BitVec 5} {atoms : Nat} (serves : s.portServes port.toNat = true)
    (awake : (s.port port.toNat).selfRef = false) : exec (.patrolScrub port atoms) s = .next (s.patrol port.toNat atoms) := by
  change execPatrolScrub port atoms s = _
  simp only [execPatrolScrub, serves, awake, Bool.not_false, Bool.and_self, if_true]

theorem exec_patrolScrub_asleep {s : State} {port : BitVec 5} {atoms : Nat} (asleep : (s.port port.toNat).selfRef = true) :
    exec (.patrolScrub port atoms) s = .next s := by
  change execPatrolScrub port atoms s = _
  simp only [execPatrolScrub, asleep, Bool.not_true, Bool.and_false, Bool.false_eq_true, if_false]

/-- A port that was woken enters self-refresh no earlier than 1,000,000 tc after its last access. -/
def State.idleEnough (s : State) (p : Nat) : State :=
  if (s.port p).woken then s.passTo ((s.port p).idleSince + 1000000) else s

theorem exec_selfRefreshEntry {s : State} {port : BitVec 5} (serves : s.portServes port.toNat = true) (tierA : port.toNat < 24)
    (awake : (s.port port.toNat).selfRef = false) (quiet : s.tierAQuiet = true) (idle : s.portIdle port.toNat = true) :
    exec (.selfRefreshEntry port) s =
      .next ((s.idleEnough port.toNat).modPort port.toNat fun k => { k with selfRef := true, woken := false }) := by
  change execSelfRefreshEntry port s = _
  simp only [execSelfRefreshEntry, serves, tierA, awake, quiet, idle, decide_true, Bool.not_false, Bool.and_self, if_true]
  rfl

section
variable (s : State) (p : Nat)

theorem State.idleEnough_same : (s.idleEnough p).ports = s.ports ∧ (s.idleEnough p).panel = s.panel ∧ (s.idleEnough p).ctxs = s.ctxs :=
  ite_holds (fun t : State => t.ports = s.ports ∧ t.panel = s.panel ∧ t.ctxs = s.ctxs) ⟨rfl, rfl, rfl⟩ ⟨rfl, rfl, rfl⟩

theorem State.idleEnough_now (woken : (s.port p).woken = true) : (s.port p).idleSince + 1000000 ≤ (s.idleEnough p).tcb.now := by
  rw [State.idleEnough, if_pos woken]
  exact Nat.le_max_right ..

theorem State.idleEnough_rested (rested : (s.port p).woken = false) : (s.idleEnough p).tcb.now = s.tcb.now := by
  rw [State.idleEnough, if_neg (by simp [rested])]

end

/-- Settles O27: none of the three commands writes a byte, the patrol's faults only count and log. -/
theorem portHousekeepingKeepsEveryByte : Obligations.PortHousekeepingKeepsEveryByte := by
  intro s port atoms p sp
  refine ⟨fun serves tierA awake => ?_, fun serves awake => ?_, fun asleep => ?_, fun serves tierA awake quiet idle => ?_⟩
  · exact ⟨_, exec_portRefresh serves tierA awake, by rw [State.port_setPort_self], State.port_setPort_self ..⟩
  · refine ⟨_, exec_patrolScrub serves awake, ?_⟩
    obtain ⟨⟨_, _, _, here⟩, others, panel, ctxs⟩ := s.patrol_countsErrors p atoms
    rw [State.port_setPort_self] at here
    rw [here]
    exact ⟨rfl, rfl, fun w hw => StackPort.mem_patrolled_eccSingle hw, rfl, rfl,
      fun n hn => (others n hn).trans (State.port_setPort_ne s hn _), panel, ctxs⟩
  · exact ⟨⟨s, exec_portRefresh_asleep asleep, rfl⟩, ⟨s, exec_patrolScrub_asleep asleep, rfl⟩⟩
  · obtain ⟨ports, panel, ctxs⟩ := s.idleEnough_same p
    refine ⟨_, exec_selfRefreshEntry serves tierA awake quiet idle, ?_, fun n hn => ?_,
      fun woken => s.idleEnough_now p woken, fun rested => s.idleEnough_rested p rested, panel, ctxs⟩
    · rw [State.port_modPort_self, State.port_congr ports]
    · exact (State.port_setPort_ne _ hn _).trans (State.port_congr ports n)

end Sys2Proof.Machine
end

section
/-! PORT_SLOT_SERVICE (R140, R147, R153, R155, R177, R223). -/
namespace Sys2Proof

/-! ## Bytes written one after the other -/

/-- Of several values written at one address the last stays. -/
theorem Cells.get_foldl_range_set {β : Type} [DecidableEq β] (d : β) (f : Nat → Nat) (g : Nat → β) {c : Cells β} (h : Cells.wf d c = true)
    {i m : Nat} (hi : i < m) (last : ∀ j, i < j → j < m → f j ≠ f i) :
    Cells.get d ((List.range m).foldl (fun t j => Cells.set d t (f j) (g j)) c) (f i) = g i := by
  induction m with
  | zero => exact absurd hi (Nat.not_lt_zero i)
  | succ m ih =>
    rw [List.range_succ, List.foldl_append, List.foldl_cons, List.foldl_nil, Cells.get_set d _ _ _ _ (Cells.wf_foldl_set d f g _ c h)]
    rcases Nat.lt_succ_iff_lt_or_eq.mp hi with earlier | rfl
    · rw [if_neg (last m earlier (Nat.lt_succ_self m)), ih earlier fun j hij hj => last j hij (Nat.lt_succ_of_lt hj)]
    · exact if_pos rfl

/-- The first values of a list, each with the address of its place. -/
theorem zip_map_range {α β : Type} (f : Nat → α) {m : Nat} {bs : List β} (d : β) (h : m ≤ bs.length) :
    ((List.range m).map f).zip bs = (List.range m).map fun n => (f n, bs.getD n d) := by
  apply List.ext_getElem
  · simpa using h
  · intro n hn _
    have hb : n < bs.length := (List.length_zip ▸ hn).trans_le (Nat.min_le_right ..)
    simp [List.getD_eq_getElem?_getD, hb]

namespace Machine

open Sys2Proof

/-! ## What serving an access leaves of a port (R155) -/

/-- From `a` to `b` the port has changed nothing but its words in error and its count of corrections. -/
def StackPort.Settles (a b : StackPort) : Prop := ∃ single double ce, b = { a with eccSingle := single, eccDouble := double, ce := ce }

theorem StackPort.Settles.refl (a : StackPort) : a.Settles a := ⟨_, _, _, rfl⟩

theorem StackPort.Settles.trans {a b c : StackPort} (h : a.Settles b) (k : b.Settles c) : a.Settles c := by
  obtain ⟨_, _, _, rfl⟩ := h
  obtain ⟨single, double, ce, rfl⟩ := k
  exact ⟨single, double, ce, rfl⟩

theorem StackPort.Settles.mem {a b : StackPort} (h : a.Settles b) : b.mem = a.mem := by
  obtain ⟨_, _, _, rfl⟩ := h
  rfl

theorem StackPort.Settles.pairs {a b : StackPort} (h : a.Settles b) : b.pairs = a.pairs := by
  obtain ⟨_, _, _, rfl⟩ := h
  rfl

theorem StackPort.setPair_pair (a : StackPort) (x q : Nat) (pr : Pair) : (a.setPair x q pr).pair x q = pr := Table.get_put_self ..

theorem StackPort.settles_correct (a : StackPort) (b n : Nat) : a.Settles (a.correct b n) :=
  ite_holds a.Settles (.refl a) ⟨_, _, _, rfl⟩

theorem StackPort.settles_overwritten (a : StackPort) (b n : Nat) : a.Settles (a.overwritten b n) :=
  ite_holds a.Settles (.refl a) (.trans ⟨_, _, _, rfl⟩ (StackPort.settles_correct ..))

theorem StackPort.settles_corrections (a : StackPort) (l : List Nat) : a.Settles (l.foldl (fun t b => t.correct b 1) a) :=
  List.foldlRecOn _ _ (.refl a) fun t ht b _ => ht.trans (t.settles_correct b 1)

/-- Bytes written one by one, each at its address. -/
def StackPort.writeEach (a : StackPort) (ws : List (Nat × Byte)) : StackPort := ws.foldl (fun t w => t.write w.1 [w.2]) a

theorem StackPort.writeEach_eq (a : StackPort) (ws : List (Nat × Byte)) :
    a.writeEach ws = { a with mem := ws.foldl (fun c w => Cells.set 0 c w.1 w.2) a.mem } := by
  induction ws generalizing a with
  | nil => rfl
  | cons w ws ih => exact ih (a.write w.1 [w.2])

/-- The port as it serves a slot: it has left self-refresh and notes the pair it serves (R153, R157). -/
def StackPort.slotted (a : StackPort) (now x q : Nat) : StackPort := { a.touch now with lastQp := a.lastQp.put x q }

/-! ## The run of bytes that one access serves (R140) -/

/-- Stack address of byte n of a packet. -/
def QPacket.stackAddr (k : QPacket) (sp : StackPort) (x : Nat) (c : Core) (n : Nat) : Nat := (sp.addr? x (k.byteOff c n) 1).getD 0

/-- Stack addresses of the bytes from the packet's next one up to byte e. -/
def QPacket.stackAddrs (k : QPacket) (sp : StackPort) (x : Nat) (c : Core) (e : Nat) : List Nat :=
  (List.range (e - k.pos)).map fun n => k.stackAddr sp x c (k.pos + n)

section
variable {k : QPacket} {sp : StackPort} {p x : Nat} {c : Core} {n0 : Nat}

theorem QPacket.le_runEnd (fuel n : Nat) : n ≤ k.runEnd sp p x c n0 fuel n := by
  induction fuel generalizing n with
  | zero => exact le_rfl
  | succ fuel ih =>
    have next := (Nat.le_succ n).trans (ih (n + 1))
    rw [QPacket.runEnd]
    exact ite_holds (n ≤ ·) le_rfl (ite_holds (n ≤ ·) le_rfl (ite_holds (n ≤ ·) le_rfl next))

theorem QPacket.runEnd_le_total (fuel : Nat) {n : Nat} (h : n ≤ k.total) : k.runEnd sp p x c n0 fuel n ≤ k.total := by
  induction fuel generalizing n with
  | zero => exact h
  | succ fuel ih =>
    rw [QPacket.runEnd]
    split
    · exact h
    next more => exact ite_holds (· ≤ k.total) h (ite_holds (· ≤ k.total) h (ih (by omega)))

/-- An access serves at least one byte. -/
theorem QPacket.lt_runEnd (h : n0 < k.total) (data : k.read = false → k.data.length = k.total) :
    n0 < k.runEnd sp p x c n0 (k.total - n0) n0 := by
  obtain ⟨fuel, hf⟩ : ∃ fuel, k.total - n0 = fuel + 1 := Nat.exists_eq_succ_of_ne_zero (by omega)
  have more : ¬ (k.total ≤ n0 ∨ (!k.read ∧ k.data.length ≤ n0)) := by
    rintro (past | ⟨write, short⟩)
    · omega
    · have := data (by simpa using write)
      omega
  rw [hf, QPacket.runEnd, if_neg more, if_neg (by simp), if_neg (by simp)]
  exact QPacket.le_runEnd fuel (n0 + 1)

theorem QPacket.runEnd_slotted (now y q fuel n : Nat) :
    k.runEnd (sp.slotted now y q) p x c n0 fuel n = k.runEnd sp p x c n0 fuel n := by
  induction fuel generalizing n with
  | zero => rfl
  | succ fuel ih =>
    rw [QPacket.runEnd, QPacket.runEnd, ih]
    rfl

end

/-! ## The packet goes on, or leaves its queue -/

/-- The pair once bytes of a packet up to byte e are performed. -/
def Pair.performed (a : Pair) (k : QPacket) (e : Nat) : Pair := if e = k.total then a.remove k else a.replace { k with pos := e }

theorem Pair.performed_reqs (a : Pair) (k : QPacket) (e : Nat) : (a.performed k e).reqs =
    if e = k.total then a.reqs.filter (fun r => r.num != k.num) else a.reqs.map (fun r => if r.num = k.num then { k with pos := e } else r) := by
  unfold Pair.performed
  split <;> rfl

theorem Pair.performed_ring (a : Pair) (k : QPacket) (e : Nat) : (a.performed k e).ring = a.ring := by
  unfold Pair.performed
  split <;> rfl

/-- The state with a pair of one port changed, after that port. -/
theorem State.setPort_setPair (s : State) (p x q : Nat) (a : StackPort) (pr : Pair) :
    (s.setPort p a).setPair p x q pr = s.setPort p (a.setPair x q pr) := by
  rw [State.setPair, State.modPort, State.port_setPort_self, State.setPort_setPort]

/-! ## An access of an access-mode pair (R140) -/

theorem QPacket.map_stackAddrs {α : Type} (k : QPacket) (sp : StackPort) (x : Nat) (c : Core) (e : Nat) (f : Nat → α) :
    (k.stackAddrs sp x c e).map f = (List.range (e - k.pos)).map fun n => f (k.stackAddr sp x c (k.pos + n)) := List.map_map

theorem QPacket.headD_stackAddrs (k : QPacket) (sp : StackPort) (x : Nat) (c : Core) {e : Nat} (more : k.pos < e) :
    (k.stackAddrs sp x c e).headD 0 = k.stackAddr sp x c k.pos := by
  obtain ⟨m, hm⟩ : ∃ m, e - k.pos = m + 1 := Nat.exists_eq_succ_of_ne_zero (by omega)
  simp [QPacket.stackAddrs, hm, List.range_succ_eq_map]

section
variable {s : State} {p x q : Nat} {k : QPacket}

/-- End of the run that the next access of a packet serves. -/
def QPacket.accessEnd (k : QPacket) (sp : StackPort) (p x : Nat) (c : Core) : Nat := k.runEnd sp p x c k.pos (k.total - k.pos) k.pos

/-- The element that begins with the packet's next byte, if one does, has no fault. -/
def QPacket.clean (k : QPacket) (sp : StackPort) (p x : Nat) (c : Core) : Prop :=
  k.pos % dElem k.s.desc = 0 → k.elemFault sp p x c k.pos = none

theorem QPacket.clean.none {sp : StackPort} {c : Core} (h : k.clean sp p x c) :
    (if k.pos % dElem k.s.desc = 0 then k.elemFault sp p x c k.pos else none) = none := by
  split
  exacts [h ‹_›, rfl]

section
variable {a : StackPort} {c : Core} {e : Nat} (here : s.port p = a) (core : s.core k.core = c) (ends : k.accessEnd a p x c = e)
  (clean : k.clean a p x c)
include here core ends clean

theorem State.serveAccess_write (write : k.read = false) (more : k.pos < e) (readable : a.eccAt (k.stackAddr a x c k.pos / 64 * 64) 64 = none) :
    ∃ b, s.serveAccess p x q k = s.setPort p b ∧
      b.mem = (a.writeEach ((k.stackAddrs a x c e).zip (k.data.drop k.pos))).mem ∧ b.pair x q = (a.pair x q).performed k e := by
  have settled : ∃ b, (a.writeEach ((k.stackAddrs a x c e).zip (k.data.drop k.pos))).Settles b ∧
      s.serveAccess p x q k = s.setPort p (b.setPair x q ((b.pair x q).performed k e)) := by
    subst here core ends
    rw [← QPacket.headD_stackAddrs k _ x _ more] at readable
    simp only [QPacket.stackAddrs, QPacket.stackAddr, QPacket.accessEnd] at readable
    have notRead : ¬ k.read = true := by simp [write]
    simp only [State.serveAccess, clean.none, if_neg notRead, readable, ite_self, State.modPort,
      State.port_setPort_self, State.setPort_setPair]
    exact ⟨_, StackPort.settles_overwritten .., rfl⟩
  obtain ⟨b, only, acts⟩ := settled
  refine ⟨_, acts, only.mem, ?_⟩
  rw [StackPort.setPair_pair, StackPort.pair, only.pairs, StackPort.writeEach_eq]
  rfl

theorem State.serveAccess_read (read : k.read = true) :
    ∃ b, a.Settles b ∧ s.serveAccess p x q k = (s.setPort p b).feedRead p x q k ((k.stackAddrs a x c e).map fun n => Cells.get 0 a.mem n)
      (decide (e = k.total)) := by
  subst here core ends
  simp only [State.serveAccess, clean.none, if_pos read]
  exact ⟨_, StackPort.settles_corrections .., rfl⟩

end

/-- Each byte the access serves holds the last byte written to its address, and no other byte of the stack is touched. -/
theorem QPacket.get_written (c : Core) {a : StackPort} {e : Nat} (he : e ≤ k.data.length) (wf : Cells.wf 0 a.mem = true) :
    (∀ b, (∀ n, k.pos ≤ n → n < e → k.stackAddr a x c n ≠ b) →
      Cells.get 0 (a.writeEach ((k.stackAddrs a x c e).zip (k.data.drop k.pos))).mem b = Cells.get 0 a.mem b) ∧
    ∀ n, k.pos ≤ n → n < e → (∀ m, n < m → m < e → k.stackAddr a x c m ≠ k.stackAddr a x c n) →
      Cells.get 0 (a.writeEach ((k.stackAddrs a x c e).zip (k.data.drop k.pos))).mem (k.stackAddr a x c n) = k.data.getD n 0 := by
  rw [QPacket.stackAddrs, zip_map_range _ 0 (by simp; omega), StackPort.writeEach_eq, List.foldl_map]
  constructor
  · intro b apart
    refine Cells.get_foldl_set_ne 0 _ _ b _ _ wf fun i hi => ?_
    have := List.mem_range.mp hi
    exact apart _ (by omega) (by omega)
  · intro n hn hne last
    obtain ⟨i, rfl⟩ := Nat.exists_eq_add_of_le hn
    refine (Cells.get_foldl_range_set 0 (fun j => k.stackAddr a x c (k.pos + j)) _ wf (by omega)
      fun j hij hj => last _ (by omega) (by omega)).trans ?_
    simp [List.getD_eq_getElem?_getD]

end

/-! ## What a QREAD sends (R140) -/

/-- What a packet has put into lines, or holds for the next. -/
def Sending.sent (t : Sending) : List Byte := t.lines.flatMap (fun l => l.data) ++ t.buf

/-- From `t` to `u` the bytes `bs` of a stream have been added. -/
structure Sending.Gets (core sid : Nat) (t u : Sending) (bs : List Byte) : Prop where
  sent : u.sent = t.sent ++ bs
  lines : ∀ l ∈ u.lines, l ∈ t.lines ∨ l.core = core ∧ l.sid = sid

theorem Sending.Gets.refl (core sid : Nat) (t : Sending) : t.Gets core sid t [] := ⟨(List.append_nil _).symm, fun _ => .inl⟩

theorem Sending.Gets.trans {core sid : Nat} {t u v : Sending} {bs cs : List Byte} (h : t.Gets core sid u bs) (k : u.Gets core sid v cs) :
    t.Gets core sid v (bs ++ cs) where
  sent := by rw [k.sent, h.sent, List.append_assoc]
  lines l hl := (k.lines l hl).elim (h.lines l) .inr

theorem Sending.gets_add (t : Sending) (core sid pos a : Nat) (b : Byte) : t.Gets core sid (t.add core sid pos a b) [b] := by
  unfold Sending.add
  split
  next empty => exact ⟨by simp [Sending.sent, List.isEmpty_iff.mp empty], fun _ => .inl⟩
  split
  · exact ⟨by simp [Sending.sent], fun _ => .inl⟩
  · refine ⟨by simp [Sending.sent], fun l hl => ?_⟩
    rcases List.mem_append.mp hl with old | new
    · exact .inl old
    · rw [List.mem_singleton.mp new]
      exact .inr ⟨rfl, rfl⟩

section
variable {k : QPacket} {c : Core} {t : Sending} {pos : Nat} {bs : List Byte}

/-- Every byte of a QREAD finds its place in the destination: the bytes are added to what it sends, with no fault. -/
theorem QPacket.gotBytes_gets (placed : ∀ i, i < bs.length → (k.dstAddr c (pos + i)).isLeft = true) :
    (k.gotBytes c t pos bs).2 = none ∧ t.Gets k.core k.s.id (k.gotBytes c t pos bs).1 bs := by
  induction bs using List.reverseRecOn with
  | nil => exact ⟨rfl, .refl ..⟩
  | append_singleton bs b ih =>
    obtain ⟨clean, gets⟩ := ih fun i hi => placed i (by simp; omega)
    obtain ⟨a, ha⟩ := Sum.isLeft_iff.mp (placed bs.length (by simp))
    simp only [QPacket.gotBytes] at clean gets
    simp only [QPacket.gotBytes, List.zipIdx_append, List.foldl_append, Nat.zero_add, List.zipIdx_singleton, List.foldl_cons,
      List.foldl_nil, clean, ha, true_and]
    exact gets.trans (Sending.gets_add ..)

end

section
variable (s : State) (p x q : Nat) (k : QPacket) (bs : List Byte)

/-- Lines on their way to a core of context x. -/
def RetLine.of (x : Nat) (l : RetLine) : RetLine := { l with ctx := x }

/-- What a QREAD sends once the bytes have joined it. -/
def State.fed : Sending := (k.gotBytes (s.core k.core) (k.sending (s.core k.core)) k.pos bs).1

/-- A QREAD that goes on, with the bytes that it has not sent. -/
def QPacket.goesOn (k : QPacket) (n : Nat) (t : Sending) : QPacket := { k with pos := k.pos + n, buf := t.buf, bufAt := t.bufAt }

variable {s p x q k bs} (placed : ∀ i, i < bs.length → (k.dstAddr (s.core k.core) (k.pos + i)).isLeft = true)
include placed

theorem State.feedRead_ends : ∃ ring, s.feedRead p x q k bs true =
    s.setPort p ((s.port p).without x q k ring ((s.port p).lines ++ ((s.fed k bs).close k.core k.s.id).map (RetLine.of x))) := by
  obtain ⟨clean, -⟩ := QPacket.gotBytes_gets (t := k.sending (s.core k.core)) placed
  simp only [State.feedRead, clean, if_true, State.endRead, State.sendLines, State.setPair, State.modPort_modPort]
  split
  · exact ⟨_, rfl⟩
  · exact ⟨((s.port p).pair x q).ring, rfl⟩

theorem State.feedRead_goesOn : s.feedRead p x q k bs false =
    s.setPort p { (s.port p).setPair x q (((s.port p).pair x q).replace (k.goesOn bs.length (s.fed k bs))) with
      lines := (s.port p).lines ++ (s.fed k bs).lines.map (RetLine.of x) } := by
  obtain ⟨clean, -⟩ := QPacket.gotBytes_gets (t := k.sending (s.core k.core)) placed
  simp only [State.feedRead, clean, Bool.false_eq_true, if_false, State.sendLines, State.setPair, State.modPort_modPort]
  rfl

end

/-- From `a` to `b` a QREAD of pair q has taken the bytes `bs` up to its byte e: what has left in lines and what it holds are its
bytes in order, it leaves the queue once it has sent everything, and no byte of the stack has changed. -/
structure StackPort.Sends (a b : StackPort) (x q : Nat) (k : QPacket) (e : Nat) (bs : List Byte) : Prop where
  mem : b.mem = a.mem
  lines : ∃ ls buf, b.lines = a.lines ++ ls ∧ ls.flatMap (fun l => l.data) ++ buf = k.buf ++ bs ∧
    (∀ l ∈ ls, l.core = k.core ∧ l.sid = k.s.id ∧ l.ctx = x) ∧
    (e = k.total → buf = [] ∧ ∀ r ∈ (b.pair x q).reqs, r.num ≠ k.num) ∧
    (e ≠ k.total → ∀ r ∈ (b.pair x q).reqs, r.num = k.num → r.pos = e ∧ r.buf = buf)

theorem Pair.mem_replace {a : Pair} {k r : QPacket} (hr : r ∈ (a.replace k).reqs) (same : r.num = k.num) : r = k := by
  obtain ⟨old, -, rfl⟩ := List.mem_map.mp hr
  split at same
  next own => exact if_pos own
  next other => exact absurd same other

section
variable {s : State} {p x q : Nat} {k : QPacket} {bs : List Byte}

theorem RetLine.flatMap_of (x : Nat) (ls : List RetLine) : (ls.map (RetLine.of x)).flatMap (fun l => l.data) = ls.flatMap (fun l => l.data) :=
  List.flatMap_map ..

theorem State.feedRead_sends (placed : ∀ i, i < bs.length → (k.dstAddr (s.core k.core) (k.pos + i)).isLeft = true) :
    ∃ b, s.feedRead p x q k bs (decide (k.pos + bs.length = k.total)) = s.setPort p b ∧
      (s.port p).Sends b x q k (k.pos + bs.length) bs := by
  obtain ⟨sent, owned⟩ := (QPacket.gotBytes_gets (t := k.sending (s.core k.core)) placed).2
  change (s.fed k bs).sent = k.buf ++ bs at sent
  have ours : ∀ l ∈ (s.fed k bs).lines, l.core = k.core ∧ l.sid = k.s.id := fun l hl => (owned l hl).resolve_left List.not_mem_nil
  by_cases last : k.pos + bs.length = k.total
  · obtain ⟨ring, ends⟩ := State.feedRead_ends placed (p := p) (x := x) (q := q)
    rw [decide_eq_true last, ends]
    refine ⟨_, rfl, rfl, _, [], rfl, ?_, fun _ mem => ?_, fun _ => ⟨rfl, fun r hr => ?_⟩, absurd last⟩
    · simpa [RetLine.flatMap_of, Sending.close, Sending.sent, RetLine.of] using sent
    · obtain ⟨l, hl, rfl⟩ := List.mem_map.mp mem
      rcases List.mem_append.mp hl with earlier | final
      · exact ⟨(ours l earlier).1, (ours l earlier).2, rfl⟩
      · rw [List.mem_singleton.mp final]
        exact ⟨rfl, rfl, rfl⟩
    · rw [StackPort.without_pair] at hr
      exact (Pair.mem_remove.mp hr).2
  · rw [decide_eq_false last, State.feedRead_goesOn placed]
    refine ⟨_, rfl, rfl, _, (s.fed k bs).buf, rfl, ?_, fun _ mem => ?_,
      (absurd · last), fun _ r hr same => ?_⟩
    · simpa [RetLine.flatMap_of, Sending.sent] using sent
    · obtain ⟨l, hl, rfl⟩ := List.mem_map.mp mem
      exact ⟨(ours l hl).1, (ours l hl).2, rfl⟩
    · have pair : ∀ lines, ({ (s.port p).setPair x q (((s.port p).pair x q).replace (k.goesOn bs.length (s.fed k bs))) with
          lines := lines } : StackPort).pair x q = ((s.port p).pair x q).replace (k.goesOn bs.length (s.fed k bs)) :=
        fun _ => Table.get_put_self ..
      rw [pair] at hr
      obtain rfl := Pair.mem_replace hr same
      exact ⟨rfl, rfl⟩

end

theorem State.serveAccess_sends {s : State} {p x q e : Nat} {k : QPacket} {a : StackPort} {c : Core} (here : s.port p = a)
    (core : s.core k.core = c) (ends : k.accessEnd a p x c = e) (clean : k.clean a p x c) (read : k.read = true) (more : k.pos < e)
    (inside : e ≤ k.total) (placed : ∀ n, n < k.total → (k.dstAddr c n).isLeft = true) :
    ∃ b, s.serveAccess p x q k = s.setPort p b ∧
      a.Sends b x q k e ((List.range (e - k.pos)).map fun n => Cells.get 0 a.mem (k.stackAddr a x c (k.pos + n))) := by
  obtain ⟨_, ⟨single, double, ce, rfl⟩, acts⟩ := State.serveAccess_read here core ends clean read (q := q)
  rw [k.map_stackAddrs] at acts
  have length : k.pos + ((List.range (e - k.pos)).map fun n => Cells.get 0 a.mem (k.stackAddr a x c (k.pos + n))).length = e := by
    simp
    omega
  generalize (List.range (e - k.pos)).map _ = bs at acts length ⊢
  subst core
  obtain ⟨b, feeds, sends⟩ := State.feedRead_sends (s := s.setPort p { a with eccSingle := single, eccDouble := double, ce := ce })
    (p := p) (x := x) (q := q) (k := k) (bs := bs) fun i hi => placed _ (by omega)
  rw [State.port_setPort_self, length] at sends
  exact ⟨b, by rw [acts, ← length, feeds, State.setPort_setPort], sends.mem, sends.lines⟩

/-! ## A write of a channel-mode pair (R147) -/

/-- A ring with n more bytes of packet number `num` written. -/
def Pair.ringGot (a : Pair) (num n : Nat) (r : RingPkt) : Pair :=
  { a with ring := a.ring.map fun w => if w.num = num then { r with got := r.got + n } else w }

theorem Pair.mem_ringGot {a : Pair} {num n : Nat} {r w : RingPkt} (hw : w ∈ (a.ringGot num n r).ring) (same : w.num = num) :
    w.got = r.got + n := by
  obtain ⟨old, -, rfl⟩ := List.mem_map.mp hw
  split at same
  next own => rw [if_pos own]
  next other => exact absurd same other

theorem State.serveRingWrite_stores {s : State} {p x q o : Nat} {k : QPacket} {r : RingPkt} {a : StackPort} (here : s.port p = a)
    (data : k.data.length = k.total) (reserved : k.ringAt = some o)
    (found : (a.pair x q).ring.find? (fun w => w.num = k.num) = some r) {n : Nat}
    (run : ringRun (a.pair x q) (o + k.pos) (k.total - k.pos) = n) (more : 0 < n)
    (clear : a.ringClear x (a.pair x q) k (o + k.pos) n = n) (readable : a.eccMerge (a.ringAddr x (a.pair x q) (o + k.pos)) n = none) :
    ∃ b, s.serveRingWrite p x q k = s.setPort p b ∧
      b.mem = Cells.write 0 a.mem (a.ringAddr x (a.pair x q) (o + k.pos)) ((k.data.drop k.pos).take n) ∧
      b.pair x q = ((a.pair x q).ringGot k.num n r).performed k (k.pos + n) := by
  subst here
  simp only [State.serveRingWrite, reserved, found, data, run, clear, if_neg more.ne', readable, State.modPort, State.setPort_setPair,
    Pair.performed]
  exact ⟨_, rfl, StackPort.store_mem .., StackPort.setPair_pair ..⟩

/-! ## A page read of a sequencer (R167, R177) -/

/-- From `s` to `t` no core and no context has changed, and of the sequencers not the head parts they have read. -/
structure KeepsPages (s t : State) : Prop where
  cores : ∀ i, t.core i = s.core i
  ctxs : t.ctxs = s.ctxs
  pages : ∀ pod, (t.panel.seqs.get pod {}).pages = (s.panel.seqs.get pod {}).pages

theorem KeepsPages.trans {s t u : State} (h : KeepsPages s t) (k : KeepsPages t u) : KeepsPages s u :=
  ⟨fun i => (k.cores i).trans (h.cores i), k.ctxs.trans h.ctxs, fun pod => (k.pages pod).trans (h.pages pod)⟩

theorem State.modPort_keepsPages (s : State) (p : Nat) (f : StackPort → StackPort) : KeepsPages s (s.modPort p f) :=
  ⟨fun _ => rfl, rfl, fun _ => rfl⟩

theorem State.setSeq_keepsPages {s : State} {pod : Nat} {j : AttendJob} (old : AttendJob) (found : s.panel.seqs.find? pod = some old)
    (same : j.pages = old.pages) : KeepsPages s (s.setSeq pod j) := by
  refine ⟨fun _ => rfl, rfl, fun n => ?_⟩
  change ((s.panel.seqs.put pod j).get n {}).pages = _
  rw [Table.get_put]
  split
  next own => rw [same, Table.get, ← own, found]; rfl
  · rfl

theorem State.nextPage_keepsPages (s : State) (pod m : Nat) : KeepsPages s (s.nextPage pod m) := by
  unfold State.nextPage
  split
  · exact ⟨fun _ => rfl, rfl, fun _ => rfl⟩
  next j found =>
    split
    · exact ⟨fun _ => rfl, rfl, fun _ => rfl⟩
    next b bs todo =>
      have posted : KeepsPages s (s.setSeq pod { j with todo := j.todo.put m bs, flying := j.flying.put m (j.flying.get m 0 + 1) }) :=
        State.setSeq_keepsPages j found rfl
      dsimp only
      split
      · exact posted.trans (State.modPort_keepsPages ..)
      · exact posted

theorem State.closeWalk_keepsPages (s : State) (pod : Nat) : KeepsPages s (s.closeWalk pod) := by
  unfold State.closeWalk
  split
  · exact ⟨fun _ => rfl, rfl, fun _ => rfl⟩
  next j found =>
    split
    · have ended : KeepsPages s (s.setSeq pod { j with walking := false }) := State.setSeq_keepsPages j found rfl
      exact ended.trans (State.modPort_keepsPages ..)
    · exact ⟨fun _ => rfl, rfl, fun _ => rfl⟩

theorem State.pageServed_leaves {s : State} {pod : Nat} {j : AttendJob} (found : s.panel.seqs.find? pod = some j) (m b : Nat) (bs : List Byte) :
    ((s.pageServed pod m b bs).panel.seqs.get pod {}).pages.get (4096 * m + b) [] = bs ∧
      (∀ i, (s.pageServed pod m b bs).core i = s.core i) ∧ (s.pageServed pod m b bs).ctxs = s.ctxs := by
  simp only [State.pageServed, found]
  generalize stored : s.setSeq pod _ = t
  have keeps : KeepsPages t ((if s.walkGoes j then t.nextPage pod m else t).closeWalk pod) :=
    .trans (ite_holds (KeepsPages t) (t.nextPage_keepsPages ..) ⟨fun _ => rfl, rfl, fun _ => rfl⟩) (State.closeWalk_keepsPages ..)
  refine ⟨?_, fun i => (keeps.cores i).trans ?_, keeps.ctxs.trans ?_⟩
  · rw [keeps.pages, ← stored]
    change ((s.panel.seqs.put pod _).get pod {}).pages.get _ _ = _
    rw [Table.get_put_self]
    exact Table.get_put_self ..
  · rw [← stored]; rfl
  · rw [← stored]; rfl

theorem State.serveAtt_page {s : State} {p x q m b : Nat} {k : QPacket} {w : AttAcc} {j : AttendJob} {a : StackPort}
    (here : s.port p = a) (kind : w.kind = .page m b) (read : k.read = true) (found : s.panel.seqs.find? w.pod = some j) (own : j.ctx = x)
    (more : k.pos < w.len) (atom : w.len ≤ k.pos + (64 - (w.first + k.pos) % 64))
    (readable : a.eccAt (w.first + k.pos) (w.len - k.pos) = none) :
    ∃ c, a.Settles c ∧ s.serveAtt p x q k w = (s.setPort p (c.setPair x q ((a.pair x q).remove k))).pageServed w.pod m b
      (k.buf ++ a.bytes (w.first + k.pos) (w.len - k.pos)) := by
  subst here
  have whole : min (64 - (w.first + k.pos) % 64) (w.len - k.pos) = w.len - k.pos := by omega
  have served : ¬ k.pos + (w.len - k.pos) < w.len := by omega
  have ours (t : State) (ht : t.panel = s.panel) : (t.panel.seqs.find? w.pod).any (fun j => j.ctx != x) = false := by
    simp [ht, found, own]
  simp only [State.serveAtt, whole, if_pos read, readable, if_neg served, State.modPort, State.setPort_setPair, State.attServed, kind,
    ours _ (State.setPort_panel ..), Bool.false_eq_true, if_false]
  exact ⟨_, StackPort.settles_correct .., rfl⟩

/-! ## A slot comes round (R153) -/

theorem exec_portSlotService (s : State) (port : BitVec 5) (slot : BitVec 6) :
    exec (.portSlotService port slot) s = .next (s.serveSlot port.toNat slot.toNat) := rfl

section
variable {s : State} {p slot x : Nat}

theorem State.serveSlot_down (down : s.portServes p = false) : s.serveSlot p slot = s := by
  simp only [State.serveSlot, down, Bool.not_false, if_true]

theorem State.serveSlot_free (settled : s.settlePort p = s) (free : 62 ≤ slot ∨ (s.port p).slots.find? slot = none) :
    s.serveSlot p slot = s := by
  have nobody : (if slot < 62 then (s.port p).slots.find? slot else none) = none := by
    split
    · exact free.resolve_left (by omega)
    · rfl
  simp only [State.serveSlot, settled, nobody, ite_self]

variable (settled : s.settlePort p = s) (serves : s.portServes p = true) (hslot : slot < 62)
  (granted : (s.port p).slots.find? slot = some x)
include settled serves hslot granted

theorem State.serveSlot_stk (idle : (s.port p).nextPair? x = none) : s.serveSlot p slot = s.serveStk p x := by
  simp only [State.serveSlot, serves, Bool.not_true, Bool.false_eq_true, if_false, settled, if_pos hslot, granted, idle]

theorem State.serveSlot_pair {q : Nat} {k : QPacket} (turn : (s.port p).nextPair? x = some q) (ready : ((s.port p).pair x q).next? = some k) :
    s.serveSlot p slot = (s.setPort p ((s.port p).slotted s.tcb.now x q)).servePacket p x q k := by
  simp only [State.serveSlot, serves, Bool.not_true, Bool.false_eq_true, if_false, settled, if_pos hslot, granted, turn, ready]
  rfl

end

/-! ## An STK write (R223) -/

theorem State.serveStk_none {s : State} {p x : Nat} (empty : (s.port p).stkQ.find? (fun w => w.ctx = x) = none) : s.serveStk p x = s := by
  simp only [State.serveStk, empty]

/-- What an STK write still has to write once an atom of it is served. -/
def StkWrite.rest (w : StkWrite) : List StkWrite :=
  if w.data.length ≤ 64 - w.off % 64 then []
  else [{ w with off := w.off + (64 - w.off % 64), data := w.data.drop (64 - w.off % 64) }]

theorem StkWrite.rest_append (w : StkWrite) {n : Nat} (hn : n = min (64 - w.off % 64) w.data.length) (l : List StkWrite) :
    w.rest ++ l = if w.data.length ≤ n then l else { w with off := w.off + n, data := w.data.drop n } :: l := by
  subst hn
  unfold StkWrite.rest
  by_cases whole : w.data.length ≤ 64 - w.off % 64
  · rw [if_pos whole, if_pos (by omega), List.nil_append]
  · rw [if_neg whole, if_neg (by omega), Nat.min_eq_left (by omega)]
    rfl

theorem State.serveStk_stores {s : State} {p x a : Nat} {w : StkWrite} (oldest : (s.port p).stkQ.find? (fun w => w.ctx = x) = some w)
    (addr : (s.port p).addr? x (w.off : Nat) (w.data.take (64 - w.off % 64)).length = some a)
    (readable : (s.port p).eccMerge a (w.data.take (64 - w.off % 64)).length = none) :
    ∃ b, (((s.port p).touch s.tcb.now).write a (w.data.take (64 - w.off % 64))).Settles b ∧
      s.serveStk p x = s.setPort p { b with stkQ := w.rest ++ b.stkQ.erase w } := by
  simp only [State.serveStk, oldest, State.windowWrite_stored addr readable, State.modPort_modPort]
  exact ⟨_, StackPort.settles_overwritten .., rfl⟩

/-! ## The packet served (R140, R147, R177) -/

section
variable {s : State} {p x q : Nat} {k : QPacket} {a : StackPort} (here : s.port p = a)
include here

theorem State.servePacket_access (mode : (a.pair x q).mode ≠ 1) (stream : k.att = none) :
    s.servePacket p x q k = s.serveAccess p x q k := by
  simp only [State.servePacket, here, if_neg mode, stream]

theorem State.servePacket_sequencer {w : AttAcc} (mode : (a.pair x q).mode ≠ 1) (sequencer : k.att = some w) :
    s.servePacket p x q k = s.serveAtt p x q k w := by
  simp only [State.servePacket, here, if_neg mode, sequencer]

theorem State.servePacket_ringWrite (mode : (a.pair x q).mode = 1) (write : k.read = false) :
    s.servePacket p x q k = s.serveRingWrite p x q k := by
  simp only [State.servePacket, here, if_pos mode, write, Bool.not_false, if_true]

end

/-- Settles O25: a slot serves a run of one packet, which is a change of its port alone but for a sequencer's last access. -/
theorem portSlotsServeOneAccess : Obligations.PortSlotsServeOneAccess := by
  intro s port slot p sp
  refine ⟨fun down => ⟨_, exec_portSlotService .., State.serveSlot_down down⟩,
    fun settled free => ⟨_, exec_portSlotService .., State.serveSlot_free settled free⟩,
    fun x settled serves hslot granted idle => ⟨fun nothing => ?_, fun w a oldest waits => ?_⟩,
    fun x q k settled serves hslot granted turn ready wf => ?_⟩
  · exact ⟨_, exec_portSlotService .., (State.serveSlot_stk settled serves hslot granted idle).trans (State.serveStk_none nothing)⟩
  · intro n addr readable wf
    have length : (w.data.take (64 - w.off % 64)).length = n := List.length_take
    have taken : w.data.take (64 - w.off % 64) = w.data.take n := by rw [List.take_eq_take_iff]; omega
    rw [← length] at addr readable
    obtain ⟨_, ⟨single, double, ce, rfl⟩, acts⟩ := State.serveStk_stores oldest addr readable
    refine ⟨_, exec_portSlotService .., ?_⟩
    rw [taken] at length
    rw [State.serveSlot_stk settled serves hslot granted idle, acts, State.port_setPort_self, taken]
    refine ⟨?_, fun b apart => Cells.get_write_ne 0 _ b _ a wf (length.symm ▸ apart), w.rest_append rfl _, rfl, rfl, rfl,
      fun m hm => State.port_setPort_ne s hm _⟩
    have := Cells.read_write 0 sp.mem a (w.data.take n) wf
    rwa [length] at this
  have acts := State.serveSlot_pair settled serves hslot granted turn ready
  have here : (s.setPort p (sp.slotted s.tcb.now x q)).port p = sp.slotted s.tcb.now x q := State.port_setPort_self ..
  intro kept reqs behind
  have alone (b : StackPort) : kept (s.setPort p b) := ⟨rfl, rfl, fun n hn => State.port_setPort_ne s hn _⟩
  refine ⟨fun mode stream unfinished => ?_, fun mode write data o r reserved found => ?_,
    fun w m b j mode sequencer kind read found own => ?_⟩
  · intro c clean e addr
    have ends : k.accessEnd (sp.slotted s.tcb.now x q) p x c = e := QPacket.runEnd_slotted ..
    have inside : e ≤ k.total := QPacket.runEnd_le_total _ unfinished.le
    rw [State.servePacket_access here mode stream] at acts
    refine ⟨fun write data readable => ?_, fun read placed => ?_⟩
    · have more : k.pos < e := QPacket.lt_runEnd unfinished fun _ => data
      obtain ⟨b, served, mem, pair⟩ := State.serveAccess_write here rfl ends clean write more readable (q := q)
      rw [served, State.setPort_setPort] at acts
      obtain ⟨others, written⟩ := k.get_written c (data.symm ▸ inside) wf (a := sp.slotted s.tcb.now x q) (x := x)
      refine ⟨_, exec_portSlotService .., ?_⟩
      rw [acts]
      beta_reduce
      rw [State.port_setPort_self, mem]
      refine ⟨more, inside, others, written, ?_, alone b⟩
      change (((s.setPort p b).port p).pair x q).reqs = _
      rw [State.port_setPort_self, pair, Pair.performed_reqs]
      rfl
    · have more : k.pos < e := QPacket.lt_runEnd unfinished fun write => absurd write (by simp [read])
      obtain ⟨b, served, mem, lines⟩ := State.serveAccess_sends here rfl ends clean read more inside placed (q := q)
      rw [served, State.setPort_setPort] at acts
      refine ⟨_, exec_portSlotService .., ?_⟩
      rw [acts]
      simp only [reqs, State.port_setPort_self]
      exact ⟨more, inside, mem, lines, alone b⟩
  · intro n a more clear readable
    rw [State.servePacket_ringWrite here mode write] at acts
    obtain ⟨b, served, mem, pair⟩ := State.serveRingWrite_stores here data reserved found rfl more clear readable
    have length : ((k.data.drop k.pos).take n).length = n := by
      have : n ≤ k.total - k.pos := Nat.min_le_left ..
      simp
      omega
    rw [served, State.setPort_setPort] at acts
    refine ⟨_, exec_portSlotService .., ?_⟩
    rw [acts]
    simp only [reqs, State.port_setPort_self, pair, Pair.performed_ring, Pair.performed_reqs, mem]
    refine ⟨?_, fun b apart => Cells.get_write_ne 0 _ b _ a wf (length.symm ▸ apart), fun w hw same => Pair.mem_ringGot hw same, rfl, alone b⟩
    have := Cells.read_write 0 sp.mem a ((k.data.drop k.pos).take n) wf
    rwa [length] at this
  · intro a more atom readable
    rw [State.servePacket_sequencer here mode sequencer] at acts
    obtain ⟨r, only, served⟩ := State.serveAtt_page here kind read found own more atom readable (q := q)
    rw [served, State.setPort_setPort] at acts
    refine ⟨_, exec_portSlotService .., ?_⟩
    rw [acts]
    obtain ⟨page, cores, ctxs⟩ := State.pageServed_leaves (s := s.setPort p (r.setPair x q (((sp.slotted s.tcb.now x q).pair x q).remove k)))
      found m b (k.buf ++ (sp.slotted s.tcb.now x q).bytes a (w.len - k.pos))
    refine ⟨page, fun n => ((State.Posts.refl _).pageServed n).1.trans ?_, cores, ctxs⟩
    by_cases own : n = p
    · rw [own, State.port_setPort_self]
      exact only.mem
    · rw [State.port_setPort_ne s own]

end Machine
end Sys2Proof
end

section
/-! WINDOW_GRANT, WINDOW_RELEASE, RETAINED_FREE, WINDOW_SCRUB_DONE, SLOT_GRANT and the library's commands (R152, R193, R256). -/
namespace Sys2Proof

theorem Cells.read_eq {β : Type} (d : β) {c : Cells β} {a : Nat} {vs : List β} (h : ∀ k, k < vs.length → Cells.get d c (a + k) = vs.getD k d) :
    Cells.read d c a vs.length = vs := by
  apply List.ext_getElem (by simp [Cells.read])
  intro k _ hk
  simpa [Cells.read, List.getD_eq_getElem?_getD, hk] using h k hk

/-- No entry taken out by its value is found. -/
theorem Table.find?_filter_value {α : Type} (t : Table α) (keep : α → Bool) {n : Nat} {a : α}
    (found : Table.find? (t.filter fun e => keep e.2) n = some a) : keep a = true := by
  have kept := Machine.Table.mem_of_find? found
  exact (List.mem_filter.mp kept).2

/-- Where the second list names nothing twice, a pair of two lists is known by its second part. -/
theorem eq_of_mem_zip {α β : Type} {l : List α} {m : List β} (nodup : m.Nodup) {u v : α × β} (hu : u ∈ l.zip m) (hv : v ∈ l.zip m)
    (same : u.2 = v.2) : u = v := by
  obtain ⟨i, hi, rfl⟩ := List.getElem_of_mem hu
  obtain ⟨j, hj, rfl⟩ := List.getElem_of_mem hv
  simp only [List.getElem_zip] at same
  obtain rfl := nodup.getElem_inj_iff.mp same
  rfl

namespace Machine

open Sys2Proof

/-! ## Windows (R138, R256) -/

theorem StackPort.blockFree_of_freeRun {k : StackPort} {p n b : Nat} (run : k.freeRun p n = some b) {i : Nat} (hi : i < n) :
    k.blockFree p (b + i) = true := by
  have free := List.find?_some run
  exact List.all_eq_true.mp free i (List.mem_range.mpr hi)

/-- A window's blocks are held. -/
theorem StackPort.blockFree_of_window {k : StackPort} {c p b : Nat} {w : Window} (own : k.wins.find? c = some w) (has : w.has b = true) :
    k.blockFree p b = false := by
  have held : k.wins.any (fun e => e.2.has b) = true := List.any_eq_true.mpr ⟨_, Table.mem_of_find? own, has⟩
  simp [StackPort.blockFree, held]

section
variable {s : State} {d : Taken} (asked : s.ctlHead 0 0x24 = some d) (lives : (s.ctx (d.word 4 % 64)).st ≠ .free)
  (up : s.portUp (fld (d.word 4) 12 8) = true) (absent : (s.port (fld (d.word 4) 12 8)).wins.has (d.word 4 % 64) = false)
include asked lives up absent

theorem exec_windowGrant_blocks {b : Nat} (new : d.word 6 = 0) (sized : d.word 5 ≠ 0)
    (run : (s.port (fld (d.word 4) 12 8)).freeRun (fld (d.word 4) 12 8) (d.word 5) = some b) :
    exec .windowGrant s = .next ((s.setPort (fld (d.word 4) 12 8) { s.port (fld (d.word 4) 12 8) with
      wins := (s.port (fld (d.word 4) 12 8)).wins.put (d.word 4 % 64) { base := b, blocks := d.word 5 } }).complete d 0 b) := by
  change execWindowGrant s = _
  simp only [execWindowGrant, asked, if_neg lives, up, absent, Bool.not_true, Bool.false_eq_true, if_false, new, ne_eq, not_true,
    if_neg sized, run]

theorem exec_windowGrant_full (new : d.word 6 = 0) (sized : d.word 5 ≠ 0)
    (full : (s.port (fld (d.word 4) 12 8)).freeRun (fld (d.word 4) 12 8) (d.word 5) = none) :
    exec .windowGrant s = .next (s.complete d 0x010A (fld (d.word 4) 12 8)) := by
  change execWindowGrant s = _
  simp only [execWindowGrant, asked, if_neg lives, up, absent, Bool.not_true, Bool.false_eq_true, if_false, new, ne_eq, not_true,
    if_neg sized, full]

theorem exec_windowGrant_retained {w : Window} (again : d.word 6 ≠ 0)
    (kept : (s.port (fld (d.word 4) 12 8)).retained.find? (d.word 6) = some w) :
    exec .windowGrant s = .next ((s.setPort (fld (d.word 4) 12 8) { s.port (fld (d.word 4) 12 8) with
      retained := (s.port (fld (d.word 4) 12 8)).retained.erase (d.word 6),
      wins := (s.port (fld (d.word 4) 12 8)).wins.put (d.word 4 % 64) w }).complete d 0 w.base) := by
  change execWindowGrant s = _
  simp only [execWindowGrant, asked, if_neg lives, up, absent, Bool.not_true, Bool.false_eq_true, if_false, if_pos again, kept]

end

/-- From `s` to `t` no stack port, no core and no context has changed. -/
structure KeepsStacks (s t : State) : Prop where
  ports : t.ports = s.ports
  panel : t.panel = s.panel
  ctxs : t.ctxs = s.ctxs

section
variable {s t : State} (h : KeepsStacks s t) (p : Nat) (f : StackPort → StackPort)
include h

theorem KeepsStacks.modPort_self : (t.modPort p f).port p = f (s.port p) := by
  rw [State.port_modPort_self, State.port_congr h.ports]

theorem KeepsStacks.modPort_others :
    (∀ n, n ≠ p → (t.modPort p f).port n = s.port n) ∧ (t.modPort p f).panel = s.panel ∧ (t.modPort p f).ctxs = s.ctxs :=
  ⟨fun n hn => (State.port_setPort_ne t hn _).trans (State.port_congr h.ports n), h.panel, h.ctxs⟩

end

/-- From `s` to `t` only records have been written and descriptors ended. -/
structure OnlyRings (s t : State) : Prop extends KeepsStacks s t where
  mg : t.mg = s.mg

theorem OnlyRings.refl (s : State) : OnlyRings s s := ⟨⟨rfl, rfl, rfl⟩, rfl⟩

theorem OnlyRings.trans {s t u : State} (h : OnlyRings s t) (k : OnlyRings t u) : OnlyRings s u :=
  ⟨⟨k.ports.trans h.ports, k.panel.trans h.panel, k.ctxs.trans h.ctxs⟩, k.mg.trans h.mg⟩

theorem State.complete_onlyRings (s : State) (d : Taken) (status detail : Nat) : OnlyRings s (s.complete d status detail) :=
  ⟨⟨State.complete_ports .., State.complete_panel .., State.complete_ctxs ..⟩, State.complete_mg ..⟩

theorem State.completions_onlyRings {α : Type} (s : State) (l : List α) (d : α → Taken) (status detail : α → Nat) :
    OnlyRings s (l.foldl (fun t e => t.complete (d e) (status e) (detail e)) s) :=
  List.foldlRecOn _ _ (.refl s) fun t ht _ _ => ht.trans (t.complete_onlyRings ..)

theorem State.endWindowXfers_onlyRings (s : State) (c p : Nat) : OnlyRings s (s.endWindowXfers c p) :=
  s.completions_onlyRings _ _ _ _

theorem State.freshRet_congr {s t : State} (h : OnlyRings s t) : t.freshRet = s.freshRet := by
  simp only [State.freshRet, h.ports, h.mg]

section
variable {s : State} {d : Taken} {w : Window} (asked : s.ctlHead 0 0x25 = some d)
  (held : (s.port (fld (d.word 4) 12 8)).wins.find? (d.word 4 % 64) = some w)
include asked held

theorem exec_windowRelease_tierB (tierB : 24 ≤ fld (d.word 4) 12 8) :
    exec .windowRelease s = .next (((s.endWindowXfers (d.word 4 % 64) (fld (d.word 4) 12 8)).modPort (fld (d.word 4) 12 8) fun k =>
      { k with wins := k.wins.erase (d.word 4 % 64) }).complete d 0 0) := by
  change execWindowRelease s = _
  simp only [execWindowRelease, asked, held, if_pos tierB]

theorem exec_windowRelease_scrub (tierA : fld (d.word 4) 12 8 < 24) (scrub : fld (d.word 4) 16 16 = 1) :
    exec .windowRelease s = .next (((s.endWindowXfers (d.word 4 % 64) (fld (d.word 4) 12 8)).scrubWindow (d.word 4 % 64)
      (fld (d.word 4) 12 8) w d.num).awaitScrub d 0 0) := by
  change execWindowRelease s = _
  simp only [execWindowRelease, asked, held, if_neg tierA.not_ge, if_pos scrub]

theorem exec_windowRelease_retain (tierA : fld (d.word 4) 12 8 < 24) (keep : fld (d.word 4) 16 16 ≠ 1) :
    exec .windowRelease s = .next ((((s.endWindowXfers (d.word 4 % 64) (fld (d.word 4) 12 8)).retain (d.word 4 % 64)
      (fld (d.word 4) 12 8) w).1.postPf 0x8404 (srcPort (fld (d.word 4) 12 8)) (fld (d.word 4) 12 8)
      ((s.endWindowXfers (d.word 4 % 64) (fld (d.word 4) 12 8)).retain (d.word 4 % 64) (fld (d.word 4) 12 8) w).2).complete d 0 0) := by
  change execWindowRelease s = _
  simp only [execWindowRelease, asked, held, if_neg tierA.not_ge, if_neg keep]

end

section
variable (s : State) (d : Taken) (status detail : Nat)

theorem State.port_awaitScrub (p : Nat) : (s.awaitScrub d status detail).port p = s.port p := rfl

theorem State.mem_awaitScrub : (d, status, detail) ∈ (s.awaitScrub d status detail).mg.tearList :=
  List.mem_append_right _ (List.mem_singleton_self _)

end

section
variable {s t : State} (h : OnlyRings s t) (c p : Nat) (w : Window)
include h

/-- The window's scrub begins. -/
theorem OnlyRings.scrubWindow (num : Nat) :
    (t.scrubWindow c p w num).port p = { (s.port p).touch t.tcb.now with
      wins := (s.port p).wins.erase c, scrubs := (s.port p).scrubs ++ [{ base := w.base, blocks := w.blocks, num := some num }] } ∧
    (∀ n, n ≠ p → (t.scrubWindow c p w num).port n = s.port n) ∧ (t.scrubWindow c p w num).panel = s.panel ∧
      (t.scrubWindow c p w num).ctxs = s.ctxs :=
  ⟨h.modPort_self .., h.modPort_others ..⟩

/-- The window is retained under the next number that is free. -/
theorem OnlyRings.retain : (t.retain c p w).1.mg.nextRet = s.freshRet % 65535 + 1 ∧
    (t.retain c p w).1.port p = { s.port p with wins := (s.port p).wins.erase c, retained := (s.port p).retained.put s.freshRet w } ∧
    (∀ n, n ≠ p → (t.retain c p w).1.port n = s.port n) ∧ (t.retain c p w).1.panel = s.panel ∧ (t.retain c p w).1.ctxs = s.ctxs := by
  have books : KeepsStacks s { t with mg := { t.mg with nextRet := t.freshRet % 65535 + 1 } } := ⟨h.ports, h.panel, h.ctxs⟩
  rw [← State.freshRet_congr h]
  exact ⟨rfl, books.modPort_self .., books.modPort_others ..⟩

end

/-- The port once the scrub of a retained window has begun for the descriptor of index `num`. -/
def StackPort.scrubsRetained (k : StackPort) (now ret : Nat) (w : Window) (num : Nat) : StackPort :=
  { k.touch now with retained := k.retained.erase ret, scrubs := k.scrubs ++ [{ base := w.base, blocks := w.blocks, num := some num }] }

theorem exec_retainedFree {s : State} {d : Taken} {q : Nat} {w : Window} (asked : s.ctlHead 0 0x26 = some d)
    (kept : s.retainedAt (d.word 4 % 65536) = some (q, w)) : exec .retainedFree s =
      .next ((s.setPort q ((s.port q).scrubsRetained s.tcb.now (d.word 4 % 65536) w d.num)).awaitScrub d 0 0) := by
  change execRetainedFree s = _
  simp only [execRetainedFree, asked, kept]
  rfl

/-! ## A scrub ends (R256) -/

/-- The port once its oldest scrub j has ended: the bytes of its blocks are zeros, with no word in error among them. -/
def StackPort.scrubbed (k : StackPort) (j : ScrubJob) (js : List ScrubJob) : StackPort :=
  let lo := j.base * blockBytes
  let hi := (j.base + j.blocks) * blockBytes
  { k with scrubs := js, mem := Cells.drop k.mem (fun a => decide (lo ≤ a) && decide (a < hi)),
           eccSingle := k.eccSingle.filter (fun w => !(decide (lo ≤ 8 * w) && decide (8 * w < hi))),
           eccDouble := k.eccDouble.filter (fun w => !(decide (lo ≤ 8 * w) && decide (8 * w < hi))) }

theorem StackPort.get_scrubbed (k : StackPort) (j : ScrubJob) (js : List ScrubJob) (a : Nat) :
    Cells.get 0 (k.scrubbed j js).mem a =
      if j.base * blockBytes ≤ a ∧ a < (j.base + j.blocks) * blockBytes then 0 else Cells.get 0 k.mem a := by
  simp only [StackPort.scrubbed, Cells.get_drop, Bool.and_eq_true, decide_eq_true_eq]

/-- The descriptors that wait for scrubs, less those whose scrubs are all done. -/
def State.tearsLeft (s : State) : State := { s with mg := { s.mg with tearList := s.mg.tearList.filter (fun e => s.scrubbing e.1.num) } }

theorem State.scrubbing_congr {s t : State} (h : t.ports = s.ports) (n : Nat) : t.scrubbing n = s.scrubbing n := by
  simp only [State.scrubbing, h]

theorem exec_windowScrubDone {s : State} {port : BitVec 5} {j : ScrubJob} {js : List ScrubJob} (oldest : (s.port port.toNat).scrubs = j :: js) :
    ∃ t, exec (.windowScrubDone port) s = .next t ∧ OnlyRings (s.setPort port.toNat ((s.port port.toNat).scrubbed j js)).tearsLeft t := by
  change ∃ t, execWindowScrubDone port s = _ ∧ _
  simp only [execWindowScrubDone, oldest]
  exact ⟨_, rfl, State.completions_onlyRings ..⟩

/-! ## Service slots (R152, R387) -/

/-- Slot i of port p is another context's, in force or staged. -/
def State.slotTaken (s : State) (c p i : Nat) : Bool :=
  ((s.port p).slots.find? i).any (fun o => o != c) ||
    s.liveCtxs.any (fun o => decide (o ≠ c) && (s.ctx o).shadow.slots.any (fun w => w.1 == p && w.2.getLsbD i))

theorem State.slotTaken_eq_false {s : State} {c p i : Nat} (own : ∀ o, (s.port p).slots.find? i = some o → o = c)
    (others : ∀ o w, o ∈ s.liveCtxs → o ≠ c → w ∈ (s.ctx o).shadow.slots → w.1 = p → w.2.getLsbD i = false) :
    s.slotTaken c p i = false := by
  have inForce : ((s.port p).slots.find? i).any (fun o => o != c) = false := by
    cases held : (s.port p).slots.find? i with
    | none => rfl
    | some o => simpa using own o held
  have staged : s.liveCtxs.any (fun o => decide (o ≠ c) && (s.ctx o).shadow.slots.any (fun w => w.1 == p && w.2.getLsbD i)) = false := by
    refine List.any_eq_false.mpr fun o ho taken => ?_
    obtain ⟨other, shadow⟩ := (Bool.and_eq_true ..).mp taken
    obtain ⟨w, hw, wanted⟩ := List.any_eq_true.mp shadow
    obtain ⟨port, slot⟩ := (Bool.and_eq_true ..).mp wanted
    rw [others o w ho (of_decide_eq_true other) hw (beq_iff_eq.mp port)] at slot
    exact absurd slot (by decide)
  rw [State.slotTaken, inForce, staged]
  rfl

section
variable {s : State} {d : Taken} (asked : s.ctlHead 0 0x27 = some d) (lives : (s.ctx (d.word 4 % 64)).st ≠ .free)
  (up : s.portUp (fld (d.word 4) 12 8) = true)
include asked lives up

theorem exec_slotGrant_staged (free : ∀ i, i < 62 → (BitVec.ofNat 64 (d.dword 6)).getLsbD i = true →
      s.slotTaken (d.word 4 % 64) (fld (d.word 4) 12 8) i = false) :
    exec .slotGrant s = .next ((s.setSt d .staged).modCtx (d.word 4 % 64) fun x => { x with shadow := { x.shadow with
      slots := x.shadow.slots ++ [(fld (d.word 4) 12 8, BitVec.ofNat 64 (d.dword 6))] } }) := by
  have noneTaken : (List.range 62).find? (fun i => (BitVec.ofNat 64 (d.dword 6)).getLsbD i &&
      s.slotTaken (d.word 4 % 64) (fld (d.word 4) 12 8) i) = none :=
    List.find?_eq_none.mpr fun i hi => by
      rw [Bool.and_eq_true]
      rintro ⟨wanted, taken⟩
      rw [free i (List.mem_range.mp hi) wanted] at taken
      exact absurd taken (by decide)
  simp only [State.slotTaken] at noneTaken
  change execSlotGrant s = _
  simp only [execSlotGrant, asked, if_neg lives, up, Bool.not_true, Bool.false_eq_true, if_false, noneTaken]

theorem exec_slotGrant_refused {i : Nat} (hi : i < 62) (wanted : (BitVec.ofNat 64 (d.dword 6)).getLsbD i = true)
    (taken : s.slotTaken (d.word 4 % 64) (fld (d.word 4) 12 8) i = true) :
    ∃ j, j ≤ i ∧ exec .slotGrant s = .next (s.complete d 0x010C j) := by
  obtain ⟨j, first⟩ : ∃ j, (List.range 62).find? (fun i => (BitVec.ofNat 64 (d.dword 6)).getLsbD i &&
      s.slotTaken (d.word 4 % 64) (fld (d.word 4) 12 8) i) = some j :=
    Option.isSome_iff_exists.mp (List.find?_isSome.mpr ⟨i, List.mem_range.mpr hi, by rw [wanted, taken]; rfl⟩)
  refine ⟨j, ?_, ?_⟩
  · by_contra later
    have before := (List.find?_range_eq_some.mp first).2.2 i (by omega)
    rw [wanted, taken] at before
    exact absurd before (by decide)
  · simp only [State.slotTaken] at first
    change execSlotGrant s = _
    simp only [execSlotGrant, asked, if_neg lives, up, Bool.not_true, Bool.false_eq_true, if_false, first]

end

/-! ## The tier-B library (R193) -/

/-- The blocks of a list are entry n's. -/
def State.takeBlocks (s : State) (n : Nat) (bs : List (Nat × Nat)) : State :=
  bs.foldl (fun t b => t.modPort b.1 fun k => { k with libUsed := k.libUsed.put b.2 n }) s

theorem State.takeBlocks_frame (s : State) (n : Nat) (bs : List (Nat × Nat)) :
    s.takeBlocks n bs = { s with ports := (s.takeBlocks n bs).ports } :=
  List.foldlRecOn (motive := fun t : State => t = { s with ports := t.ports }) _ _ rfl fun t ht b _ => by rw [ht]; rfl

theorem State.find?_takeBlocks (n : Nat) (bs : List (Nat × Nat)) (s : State) {b : Nat × Nat}
    (mine : b ∈ bs ∨ (s.port b.1).libUsed.find? b.2 = some n) : ((s.takeBlocks n bs).port b.1).libUsed.find? b.2 = some n := by
  induction bs generalizing s with
  | nil => exact mine.resolve_left List.not_mem_nil
  | cons a bs ih =>
    refine ih _ ?_
    beta_reduce
    by_cases own : b.1 = a.1
    · rw [own, State.port_modPort_self, Table.find?_put]
      rcases mine with listed | held
      · rcases List.mem_cons.mp listed with rfl | later
        · exact .inr (if_pos rfl)
        · exact .inl later
      · rw [← own, held, ite_self]
        exact .inr rfl
    · rcases mine with listed | held
      · exact .inl ((List.mem_cons.mp listed).resolve_left fun same => own (same ▸ rfl))
      · exact .inr ((congrArg (fun k => k.libUsed.find? b.2) (State.port_setPort_ne s own _)).trans held)

/-- The entry of an install that has been accepted, INSTALLING, with its blocks. -/
def State.newEntry (s : State) (d : Taken) (g : Manifest) : LibEntry :=
  { root := g.root, shards := g.shards, blocks := (List.range g.shards.length).map s.libPlace, d := d, base := d.dword 8 }

/-- The state once an install has been accepted. -/
def State.installing (s : State) (d : Taken) (g : Manifest) : State :=
  (s.takeBlocks s.mg.nextLib (s.newEntry d g).blocks).setMg fun m =>
    { m with lib := m.lib.put s.mg.nextLib (s.newEntry d g), nextLib := s.mg.nextLib + 1 }

theorem State.installing_spec (s : State) (d : Taken) (g : Manifest) (st : TakenSt) :
    ∃ e, ((s.installing d g).setSt d st).mg.lib.find? s.mg.nextLib = some e ∧ e.complete = false ∧ e.root = g.root ∧ e.shards = g.shards ∧
      e.d = d ∧ e.blocks = (List.range g.shards.length).map s.libPlace ∧
      (∀ b, b ∈ e.blocks → (((s.installing d g).setSt d st).port b.1).libUsed.find? b.2 = some s.mg.nextLib) ∧
      ((s.installing d g).setSt d st).ctxs = s.ctxs ∧ ((s.installing d g).setSt d st).panel = s.panel := by
  refine ⟨s.newEntry d g, (Table.find?_put ..).trans (if_pos rfl), rfl, rfl, rfl, rfl, rfl, fun b hb =>
    State.find?_takeBlocks _ _ s (.inl hb), ?_, ?_⟩
  · change (s.takeBlocks s.mg.nextLib (s.newEntry d g).blocks).ctxs = s.ctxs
    rw [State.takeBlocks_frame]
  · change (s.takeBlocks s.mg.nextLib (s.newEntry d g).blocks).panel = s.panel
    rw [State.takeBlocks_frame]

section
variable {s : State} {d : Taken} (asked : s.ctlHead 0 0x28 = some d) (grade : s.hasSeqs = true)
include asked grade

theorem exec_libraryInstall_refused {f : Nat × Nat} (fault : s.manifestFault (s.manifestOf d) [] = some f) :
    exec (.libraryInstall .ok) s = .next (s.complete d f.1 f.2) := by
  change execLibraryInstall .ok s = _
  simp only [execLibraryInstall, asked, grade, Bool.not_true, Bool.false_eq_true, if_false, fault]

theorem exec_libraryInstall_begins (good : s.manifestFault (s.manifestOf d) [] = none) {g : Manifest} (hg : parseManifest (s.manifestOf d) = g)
    (digested : g.flags % 2 = 1) (room : s.libFault g = none) :
    exec (.libraryInstall .ok) s = .next ((s.installing d g).setSt d .running) := by
  have odd : ¬ g.flags % 2 = 0 := by omega
  change execLibraryInstall .ok s = _
  simp only [execLibraryInstall, asked, grade, Bool.not_true, Bool.false_eq_true, if_false, good, hg, if_neg odd, room]
  rfl

end

section
variable {s : State} {d : Taken} {n : Nat} {e : LibEntry} (entry : s.libOf d.libRoot = some (n, e)) (grade : s.hasSeqs = true)
include entry grade

theorem exec_libraryGrant (asked : s.ctlHead 0 0x29 = some d) : exec .libraryGrant s = .next
    ((s.setMg fun m => { m with lib := m.lib.put n { e with grants := BitVec.ofNat 64 (d.dword 12) } }).complete d 0 0) := by
  change execLibraryGrant s = _
  simp only [execLibraryGrant, asked, grade, Bool.not_true, Bool.false_eq_true, if_false, entry]
  rfl

theorem exec_libraryRemove_busy (asked : s.ctlHead 0 0x2A = some d) (busy : (s.libReads n || !e.complete) = true) :
    exec .libraryRemove s = .next (s.complete d 0x0214 0) := by
  change execLibraryRemove s = _
  simp only [execLibraryRemove, asked, grade, Bool.not_true, Bool.false_eq_true, if_false, entry, busy, if_true]

theorem exec_libraryRemove (asked : s.ctlHead 0 0x2A = some d) (idle : (s.libReads n || !e.complete) = false) :
    exec .libraryRemove s = .next ((s.libDelete n).complete d 0 0) := by
  change execLibraryRemove s = _
  simp only [execLibraryRemove, asked, grade, Bool.not_true, Bool.false_eq_true, if_false, entry, idle]

end

/-- The port once no block of it is entry n's. -/
def StackPort.freeBlocks (k : StackPort) (n : Nat) : StackPort := { k with libUsed := k.libUsed.filter (fun b => b.2 != n) }

theorem Table.get_map {α : Type} (f : α → α) (t : Table α) (n : Nat) (d : α) (hd : f d = d) :
    Table.get (t.map fun e => (e.1, f e.2)) n d = f (t.get n d) := by
  induction t with
  | nil => exact hd.symm
  | cons e t ih =>
    simp only [List.map_cons, Table.get, Table.find?] at ih ⊢
    split
    · rfl
    · exact ih

theorem State.libDelete_port (s : State) (n q : Nat) : (s.libDelete n).port q = (s.port q).freeBlocks n :=
  Table.get_map (fun k => StackPort.freeBlocks k n) s.ports q {} rfl

theorem StackPort.find?_freeBlocks (k : StackPort) (n b : Nat) : (k.freeBlocks n).libUsed.find? b ≠ some n := fun found => by
  have := Table.find?_filter_value k.libUsed (fun m => m != n) found
  simp at this

/-! ## The shards of an entry are written (R193) -/

/-- A shard is written to its block while there is room: what `State.libWrite` does with each. -/
def State.writeShard (s : State) (base : Nat) (t : State × Nat) (w : Shard × Nat × Nat) : State × Nat :=
  if t.2 = 0 then t
  else
    let n := min w.1.len t.2
    let bs := s.hostRead (base + w.1.imgoff) n
    (t.1.modPort w.2.1 (fun k =>
      { (k.write (w.2.2 * blockBytes) bs) with wear := k.wear.put w.2.2 (k.wear.get w.2.2 0 + 1) }), t.2 - n)

theorem State.libWrite_eq (s : State) (e : LibEntry) (room : Nat) :
    s.libWrite e room = ((e.shards.zip e.blocks).foldl (s.writeShard e.base) (s, room)).1 := rfl

theorem State.libWrite_frame (s : State) (e : LibEntry) (room : Nat) :
    s.libWrite e room = { s with ports := (s.libWrite e room).ports } := by
  rw [State.libWrite_eq]
  refine List.foldlRecOn (motive := fun t : State × Nat => t.1 = { s with ports := t.1.ports }) _ _ rfl fun t ht w _ => ?_
  refine ite_holds (fun u : State × Nat => u.1 = { s with ports := u.1.ports }) ht ?_
  rw [ht]
  rfl

/-- Stack address of the block of a shard, and the shard's bytes. -/
def placedAt (w : Shard × Nat × Nat) : Nat := w.2.2 * blockBytes
def State.placedBytes (s : State) (base : Nat) (w : Shard × Nat × Nat) : List Byte := s.hostRead (base + w.1.imgoff) w.1.len

theorem State.length_placedBytes (s : State) (base : Nat) (w : Shard × Nat × Nat) : (s.placedBytes base w).length = w.1.len := by
  simp [State.placedBytes, State.hostRead, Cells.read]

/-- With room for the shard it is written whole. -/
theorem State.writeShard_whole (s t : State) (base room : Nat) (w : Shard × Nat × Nat) :
    (s.writeShard base (t, w.1.len + room) w).2 = room ∧ ∀ p, ((s.writeShard base (t, w.1.len + room) w).1.port p).mem =
      if w.2.1 = p then Cells.write 0 (t.port p).mem (placedAt w) (s.placedBytes base w) else (t.port p).mem := by
  unfold State.writeShard
  split
  next done =>
    obtain ⟨empty, rfl⟩ := Nat.add_eq_zero_iff.mp done
    have nothing : s.placedBytes base w = [] := List.eq_nil_of_length_eq_zero ((s.length_placedBytes ..).trans empty)
    refine ⟨done, fun p => ?_⟩
    rw [nothing]
    exact (ite_self _).symm
  · dsimp only
    rw [Nat.min_eq_left (Nat.le_add_right ..)]
    refine ⟨Nat.add_sub_cancel_left .., fun p => ?_⟩
    split
    next own => rw [own, State.port_modPort_self]; rfl
    next other => exact congrArg StackPort.mem (State.port_setPort_ne t (Ne.symm other) _)

theorem State.writeShards_mem (s : State) (base p : Nat) (hs : List Shard) (bs : List (Nat × Nat)) (t : State) :
    (((hs.zip bs).foldl (s.writeShard base) (t, (hs.map Shard.len).sum)).1.port p).mem =
      ((hs.zip bs).filter fun w => w.2.1 = p).foldl (fun m w => Cells.write 0 m (placedAt w) (s.placedBytes base w)) (t.port p).mem := by
  induction hs generalizing bs t with
  | nil => rfl
  | cons h hs ih =>
    cases bs with
    | nil => rfl
    | cons b bs =>
      obtain ⟨room, mem⟩ := s.writeShard_whole t base (hs.map Shard.len).sum (h, b)
      rw [List.zip_cons_cons, List.foldl_cons, List.map_cons, List.sum_cons, ← Prod.mk.eta (p := s.writeShard base _ _), room, ih, mem,
        List.filter_cons]
      by_cases own : b.1 = p <;> simp [own]

section
variable {s : State} {e : LibEntry} (nodup : e.blocks.Nodup) (fits : ∀ h, h ∈ e.shards → h.len ≤ blockBytes)
  (wf : ∀ p, Cells.wf 0 (s.port p).mem = true)

/-- The bytes of an entry's shards in all. -/
def LibEntry.size (e : LibEntry) : Nat := e.shards.foldl (fun k h => k + h.len) 0

theorem State.libWrite_mem (s : State) (e : LibEntry) (p : Nat) : ((s.libWrite e e.size).port p).mem =
    ((e.shards.zip e.blocks).filter fun w => w.2.1 = p).foldl (fun m w => Cells.write 0 m (placedAt w) (s.placedBytes e.base w)) (s.port p).mem := by
  rw [State.libWrite_eq, LibEntry.size, ← List.foldl_map (f := Shard.len) (g := fun k n => k + n), ← List.sum_eq_foldl]
  exact State.writeShards_mem ..

include fits wf

theorem State.libWrite_others {p a : Nat} (outside : (p, a / blockBytes) ∉ e.blocks) :
    Cells.get 0 ((s.libWrite e e.size).port p).mem a = Cells.get 0 (s.port p).mem a := by
  rw [State.libWrite_mem]
  refine Cells.get_foldl_write_ne 0 placedAt (s.placedBytes e.base) a _ _ (wf p) fun w hw => ?_
  obtain ⟨mem, port⟩ := List.mem_filter.mp hw
  obtain ⟨shard, block⟩ := List.of_mem_zip (a := w.1) (b := w.2) mem
  have len := fits _ shard
  have apart : w.2.2 ≠ a / blockBytes := fun same => outside (same ▸ of_decide_eq_true port ▸ block)
  rw [State.length_placedBytes]
  simp only [placedAt, blockBytes] at *
  omega

include nodup

theorem State.libWrite_shard {h : Shard} {b : Nat × Nat} (mem : (h, b) ∈ e.shards.zip e.blocks) :
    Cells.read 0 ((s.libWrite e e.size).port b.1).mem (b.2 * blockBytes) h.len = s.hostRead (e.base + h.imgoff) h.len := by
  have length := s.length_placedBytes e.base (h, b)
  have read := Cells.read_eq 0 (c := ((s.libWrite e e.size).port b.1).mem) (a := b.2 * blockBytes) (vs := s.placedBytes e.base (h, b))
  rw [length] at read
  refine read fun k hk => ?_
  rw [State.libWrite_mem]
  refine Cells.get_foldl_write_mem 0 placedAt (s.placedBytes e.base) (h, b) (length.symm ▸ hk) _ _
    (wf b.1) (List.mem_filter.mpr ⟨mem, decide_eq_true rfl⟩) fun w hw => ?_
  obtain ⟨listed, port⟩ := List.mem_filter.mp hw
  have len := fits _ (List.of_mem_zip (a := w.1) (b := w.2) listed).1
  have len' := fits _ (List.of_mem_zip mem).1
  by_cases same : w.2.2 = b.2
  · exact .inl (eq_of_mem_zip nodup listed mem (Prod.ext (of_decide_eq_true port) same))
  · right
    rw [State.length_placedBytes]
    simp only [placedAt, blockBytes] at *
    omega

end

section
variable {s : State} {n : Nat} {e : LibEntry} (entry : s.mg.lib.find? n = some e) (running : e.complete = false)
include entry running

theorem exec_libraryInstallDone_good (good : e.shards.filter (fun h => sha256 (s.hostRead (e.base + h.imgoff) h.len) ≠ h.digest) = []) :
    exec (.libraryInstallDone n .ok) s =
      .next (((s.libWrite e e.size).setMg fun m => { m with lib := m.lib.put n { e with complete := true } }).complete e.d 0 0) := by
  change execLibraryInstallDone n .ok s = _
  simp only [execLibraryInstallDone, entry, running, Bool.false_eq_true, if_false, good, List.isEmpty_nil, if_true]
  rfl

theorem exec_libraryInstallDone_bad {bad : List Shard}
    (listed : e.shards.filter (fun h => sha256 (s.hostRead (e.base + h.imgoff) h.len) ≠ h.digest) = bad) (wrong : bad ≠ []) :
    exec (.libraryInstallDone n .ok) s = .next (((s.libWrite e e.size).libDelete n).complete e.d 0x020A (65536 * bad.length)) := by
  have notAll : ¬ bad.isEmpty = true := fun empty => wrong (List.isEmpty_iff.mp empty)
  change execLibraryInstallDone n .ok s = _
  simp only [execLibraryInstallDone, entry, running, Bool.false_eq_true, if_false, listed, if_neg notAll]
  rfl

end

theorem answers_ends_with {s u : State} {c : Instr} {d : Taken} {status detail : Nat} {P : State → Prop}
    (acts : exec c s = .next (u.complete d status detail)) (h : P u) : Answers c s (fun t => Ends t d status detail P) :=
  ⟨_, acts, u, rfl, h⟩

/-- Settles O49: each command is its own change of windows, slots or library entries, and its descriptor's end. -/
theorem windowsSlotsAndLibraryEntriesAreGranted : Obligations.WindowsSlotsAndLibraryEntriesAreGranted := by
  intro s
  refine ⟨fun d => ⟨?_, ?_, ?_, ?_, ?_, ?_⟩, fun n e entry running => ?_, fun port j js => ?_⟩
  · intro asked lives up absent
    refine ⟨fun b new sized run => ?_, fun new sized full => ?_, fun w again kept => ?_⟩
    · refine answers_ends_with (exec_windowGrant_blocks asked lives up absent new sized run)
        ⟨⟨fun n hn => State.port_setPort_ne s hn _, rfl, rfl⟩, ?_⟩
      rw [State.port_setPort_self]
      have own : Table.find? ((s.port (fld (d.word 4) 12 8)).wins.put (d.word 4 % 64) { base := b, blocks := d.word 5 }) (d.word 4 % 64) =
        some { base := b, blocks := d.word 5 } := (Table.find?_put ..).trans (if_pos rfl)
      refine ⟨rfl, own, fun o ho => (Table.find?_put ..).trans (if_neg ho.symm), fun i hi =>
        ⟨StackPort.blockFree_of_freeRun run hi, StackPort.blockFree_of_window own ?_⟩⟩
      simpa [Window.has] using hi
    · exact answers_ends (exec_windowGrant_full asked lives up absent new sized full)
    · refine answers_ends_with (exec_windowGrant_retained asked lives up absent again kept)
        ⟨⟨fun n hn => State.port_setPort_ne s hn _, rfl, rfl⟩, ?_⟩
      rw [State.port_setPort_self]
      exact ⟨rfl, (Table.find?_put ..).trans (if_pos rfl), Table.find?_erase_self ..⟩
  · intro w asked held
    have rings := s.endWindowXfers_onlyRings (d.word 4 % 64) (fld (d.word 4) 12 8)
    refine ⟨fun tierB => ?_, fun tierA keep => ?_, fun tierA scrub => ?_⟩
    · refine answers_ends_with (exec_windowRelease_tierB asked held tierB) ⟨rings.modPort_others .., ?_⟩
      rw [rings.modPort_self]
      exact ⟨Table.find?_erase_self .., rfl⟩
    · obtain ⟨next, port, others⟩ := rings.retain (d.word 4 % 64) (fld (d.word 4) 12 8) w
      refine answers_ends_with (exec_windowRelease_retain asked held tierA keep) ?_
      simp only [State.postPf_port, State.postPf_panel, State.postPf_ctxs, State.postPf_mg, port]
      exact ⟨others, Table.find?_erase_self .., (Table.find?_put ..).trans (if_pos rfl), trivial, next⟩
    · obtain ⟨port, others⟩ := rings.scrubWindow (d.word 4 % 64) (fld (d.word 4) 12 8) w d.num
      refine ⟨_, exec_windowRelease_scrub asked held tierA scrub, others, ?_⟩
      simp only [State.port_awaitScrub, port]
      exact ⟨Table.find?_erase_self .., trivial, State.mem_awaitScrub ..⟩
  · intro mask asked lives up
    refine ⟨fun own others => ?_, fun i o hi wanted slot other => ?_⟩
    · have free (i : Nat) (hi : i < 62) (wanted : mask.getLsbD i = true) : s.slotTaken (d.word 4 % 64) (fld (d.word 4) 12 8) i = false :=
        State.slotTaken_eq_false (own i hi wanted) fun o w ho other hw port => others o w ho other hw port i hi wanted
      exact ⟨_, exec_slotGrant_staged asked lives up free, rfl, rfl, fun o ho => State.ctx_modCtx_ne _ ho _,
        congrArg (fun x : Context => x.shadow.slots) (State.ctx_modCtx_self ..)⟩
    · have taken : s.slotTaken (d.word 4 % 64) (fld (d.word 4) 12 8) i = true := by simp [State.slotTaken, slot, other]
      obtain ⟨j, hj, acts⟩ := exec_slotGrant_refused asked lives up hi wanted taken
      exact ⟨_, acts, j, hj, s, rfl, rfl⟩
  · intro n q w asked kept
    refine ⟨_, exec_retainedFree asked kept, ?_⟩
    simp only [State.port_awaitScrub, State.port_setPort_self]
    exact ⟨Table.find?_erase_self .., rfl, rfl, State.mem_awaitScrub .., rfl, rfl⟩
  · intro g n asked grade
    refine ⟨fun f fault => answers_ends (exec_libraryInstall_refused asked grade fault), fun good digested room => ?_⟩
    exact ⟨_, exec_libraryInstall_begins asked grade good rfl digested room, s.installing_spec d _ _⟩
  · intro n e entry grade
    refine ⟨fun asked => ?_, fun asked busy => answers_ends (exec_libraryRemove_busy entry grade asked busy), fun asked idle => ?_⟩
    · exact answers_ends_with (exec_libraryGrant entry grade asked) ⟨rfl, (Table.find?_put ..).trans (if_pos rfl)⟩
    · refine answers_ends_with (exec_libraryRemove entry grade asked idle) ⟨rfl, Table.find?_erase_self .., fun q => ?_⟩
      rw [State.libDelete_port]
      exact ⟨rfl, StackPort.find?_freeBlocks _ n⟩
  · intro bad
    refine ⟨fun good nodup fits wf => ?_, fun wrong => ?_⟩
    · refine answers_ends_with (exec_libraryInstallDone_good entry running good) ⟨?_, (Table.find?_put ..).trans (if_pos rfl),
        fun h b mem => State.libWrite_shard nodup fits wf mem, fun p a outside => State.libWrite_others fits wf outside⟩
      rw [State.libWrite_frame]
      rfl
    · refine answers_ends_with (exec_libraryInstallDone_bad entry running rfl wrong) ⟨Table.find?_erase_self .., ?_, ?_⟩
      · change (s.libWrite e e.size).ctxs = s.ctxs
        rw [State.libWrite_frame]
      · change (s.libWrite e e.size).panel = s.panel
        rw [State.libWrite_frame]
  · intro p oldest wf
    obtain ⟨t, acts, rings⟩ := exec_windowScrubDone oldest
    have here : t.port p = (s.port p).scrubbed j js := (State.port_congr rings.ports p).trans (State.port_setPort_self ..)
    refine ⟨t, acts, by rw [here]; rfl, fun n hn => (State.port_congr rings.ports n).trans (State.port_setPort_ne s hn _),
      fun a lo hi => ?_, fun a outside => ?_, fun e => ?_, rings.ctxs, rings.panel⟩
    · rw [here, StackPort.get_scrubbed, if_pos ⟨lo, hi⟩]
    · rw [here, StackPort.get_scrubbed, if_neg (by omega)]
    · rw [State.scrubbing_congr rings.ports, rings.mg]
      exact List.mem_filter

end Machine
end Sys2Proof
end

section
/-! ATTEND_ACCEPT, ATTEND_MEMBER_RELEASE and ATTEND_COMPLETE (R167, R173 to R177, R181, R182). -/
namespace Sys2Proof.Machine

open Sys2Proof

/-! ## The sequencer of a pod, and the packets it posts (R177) -/

theorem State.setSeq_self (s : State) (pod : Nat) (j : AttendJob) : (s.setSeq pod j).panel.seqs.get pod {} = j :=
  Table.get_put_self ..

section
variable (s : State) (x p q : Nat) (w : AttAcc) (bs : List Byte)

/-- A posted packet joins its pair's queue. -/
theorem State.postAtt_reqs : ∃ k : QPacket, (((s.postAtt x p q w bs).port p).pair x q).reqs = ((s.port p).pair x q).reqs ++ [k] ∧
    k.read = decide (w.kind ≠ .append) ∧ k.att = some w := by
  rw [State.postAtt, State.port_modPort_self]
  refine ⟨_, congrArg Pair.reqs (StackPort.setPair_pair ..), rfl, rfl⟩

theorem State.postAtt_keeps (n : Nat) :
    ((s.postAtt x p q w bs).port n).mem = (s.port n).mem ∧ ((s.postAtt x p q w bs).port n).regions = (s.port n).regions := by
  rw [State.postAtt, State.modPort, State.port_setPort]
  split
  next own => exact own ▸ ⟨rfl, rfl⟩
  · exact ⟨rfl, rfl⟩

end

/-! ## The team is lent (R175) -/

/-- The core works for the sequencer of a pod, and its work range is registered. -/
def Core.LentTo (pod : Nat) (c : Core) : Prop := c.lent = true ∧ ∃ e ∈ c.ranges, e.owner = .work pod

/-- Core c as a member of the team of pod's ATTEND. -/
def AttendJob.lend (j : AttendJob) (pod : Nat) (c : Core) : Core :=
  { c with lent := true,
           ranges := c.ranges ++ [entry (hByte (c.handle (aWh j.desc)), hByte (c.handle (aWh j.desc)) + workBytes j.desc, true) (.work pod)] }

theorem AttendJob.lend_lentTo (j : AttendJob) (pod : Nat) (c : Core) : (j.lend pod c).LentTo pod :=
  ⟨rfl, _, List.mem_append_right _ (List.mem_singleton_self _), rfl⟩

/-- The members of a list are lent. -/
def State.lendMembers (s : State) (pod : Nat) (j : AttendJob) (ms : List Nat) : State :=
  ms.foldl (fun t m => t.modCore (memberCore pod j.desc m) (j.lend pod)) s

theorem State.lendTeam_eq (s : State) (pod : Nat) (j : AttendJob) : s.lendTeam pod j = s.lendMembers pod j (List.range j.nt) := rfl

theorem State.lendMembers_lends (pod : Nat) (j : AttendJob) (ms : List Nat) (s : State) {i : Nat}
    (h : (s.core i).LentTo pod ∨ ∃ m ∈ ms, memberCore pod j.desc m = i) : ((s.lendMembers pod j ms).core i).LentTo pod := by
  induction ms generalizing s with
  | nil => simpa [State.lendMembers] using h
  | cons m ms ih =>
    refine ih _ ?_
    by_cases own : memberCore pod j.desc m = i
    · subst own
      exact .inl ((State.core_modCore_self s _ (j.lend pod)).symm ▸ j.lend_lentTo ..)
    · dsimp only
      rw [State.modCore, State.core_setCore_ne s (Ne.symm own)]
      exact h.imp_right fun ⟨k, mem, core⟩ => ⟨k, (List.mem_cons.mp mem).resolve_left fun same => own (same ▸ core), core⟩

theorem State.lendTeam_lends (s : State) {pod m : Nat} {j : AttendJob} (hm : m < j.nt) :
    ((s.lendTeam pod j).core (memberCore pod j.desc m)).LentTo pod :=
  s.lendTeam_eq pod j ▸ State.lendMembers_lends pod j _ s (.inr ⟨m, List.mem_range.mpr hm, rfl⟩)

/-- From `s` to `t` the cores have been lent: no byte of theirs, no sequencer, no port and no context has changed. -/
structure LendsOnly (s t : State) : Prop where
  mem : ∀ i, (t.core i).mem = (s.core i).mem
  seqs : t.panel.seqs = s.panel.seqs
  ports : t.ports = s.ports
  ctxs : t.ctxs = s.ctxs

theorem State.lendTeam_lendsOnly (s : State) (pod : Nat) (j : AttendJob) : LendsOnly s (s.lendTeam pod j) := by
  refine List.foldlRecOn (motive := LendsOnly s) _ _ ⟨fun _ => rfl, rfl, rfl, rfl⟩ fun t ht m _ => ⟨fun i => ?_, ht.seqs, ht.ports, ht.ctxs⟩
  rw [State.modCore, State.core_setCore]
  split
  next own => exact own ▸ ht.mem _
  · exact ht.mem i

/-! ## ATTEND_ACCEPT (R173 to R176) -/

/-- ATTEND j once it is accepted, its whole team lent. -/
def AttendJob.taken (j : AttendJob) : AttendJob := { j with accepted := true, lentCores := List.range j.nt }

/-- The read of SELECTOR that ATTEND j of a pod posts for region r. -/
def State.selectorAcc (s : State) (pod : Nat) (j : AttendJob) (r : Region) : AttAcc :=
  { pod := pod, kind := .selector, first := ((s.port (aPort j.desc)).addr? j.ctx (r.base : Nat) 1).getD 0, len := 8 }

/-- The state once ATTEND j of a pod is accepted on region r. -/
def State.accepted (s : State) (pod : Nat) (j : AttendJob) (r : Region) : State :=
  ((s.setSeq pod j.taken).lendTeam pod j).postAtt j.ctx (aPort j.desc) (aQp j.desc) (s.selectorAcc pod j r) []

section
variable {s : State} {pod : BitVec 8} {j : AttendJob} (hpod : pod.toNat < 192) (found : s.panel.seqs.find? pod.toNat = some j)
  (goes : s.streamsGo j.core = true) (engine : s.engineDown (srcSeq pod.toNat) = false)
include hpod found goes engine

theorem exec_attendAccept {r : Region} (fresh : j.accepted = false) (up : s.seqUp pod.toNat = true) (team : s.teamOk pod.toNat j = true)
    (port : s.portUp (aPort j.desc) = true) (region : (s.port (aPort j.desc)).region? j.ctx (aBase j.desc) = some r)
    (layer : aLayer j.desc < r.layers) (has : (s.port (aPort j.desc)).hasPair j.ctx (aQp j.desc) = true)
    (mode : ((s.port (aPort j.desc)).pair j.ctx (aQp j.desc)).mode ≠ 1) (free : s.teamFree pod.toNat j = true) :
    exec (.attendAccept pod) s = .next (s.accepted pod.toNat j r) := by
  change execAttendAccept pod s = _
  simp only [execAttendAccept, atPod, if_pos hpod, found, fresh, goes, up, engine, Bool.not_true, Bool.or_false, Bool.false_eq_true,
    if_false, State.accept, team, port, if_true, region, if_neg layer.not_ge, has, Bool.true_and, decide_eq_true mode, free]
  rfl

theorem exec_attendMemberRelease (accepted : j.accepted = true) (m : Nat) :
    exec (.attendMemberRelease pod m) s = .next (s.memberRelease pod.toNat m j) := by
  change execAttendMemberRelease pod m s = _
  simp only [execAttendMemberRelease, atPod, if_pos hpod, found, accepted, goes, engine, Bool.not_false, Bool.and_true, if_true]

end

/-! ## ATTEND_MEMBER_RELEASE (R181, R182) -/

/-- The state of member m once it has merged the states sent to it. -/
def AttendJob.merged (j : AttendJob) (m : Nat) : Partial :=
  (mergeFrom j.ns (m % j.ns)).foldl (fun p k => mergeStates p (j.sent.get (m / j.ns * j.ns + k) {})) (j.memberState (m / j.ns) (m % j.ns))

/-- The states sent that are left once member m has merged its own. -/
def AttendJob.sentLeft (j : AttendJob) (m : Nat) : Table Partial :=
  (mergeFrom j.ns (m % j.ns)).foldl (fun t k => t.erase (m / j.ns * j.ns + k)) j.sent

/-- ATTEND j once member m has sent its state. -/
def AttendJob.sends (j : AttendJob) (m : Nat) : AttendJob := { j with sent := (j.sentLeft m).put m (j.merged m) }

/-- The output that member m writes, where, and ATTEND j once it has. -/
def AttendJob.outBytes (j : AttendJob) (m : Nat) : List Byte := (j.output (j.merged m)).1
def AttendJob.outAddr (j : AttendJob) (m : Nat) : Nat := j.oaddr + m / j.ns * (j.outBytes m).length
def AttendJob.writes (j : AttendJob) (m : Nat) : AttendJob :=
  { j with sent := j.sentLeft m, outs := j.outs ++ [m / j.ns], flags := j.flags ||| (j.output (j.merged m)).2 }

section
variable {s : State} {pod m : Nat} {j : AttendJob} (lent : m ∈ j.lentCores) (read : j.readDone m = true)
  (sent : ∀ k ∈ mergeFrom j.ns (m % j.ns), j.sent.has (m / j.ns * j.ns + k) = true)
include lent read sent

/-- The member may be released. -/
theorem AttendJob.releaseWaits_eq_false :
    (!(j.lentCores.contains m && j.readDone m && (mergeFrom j.ns (m % j.ns)).all fun k => j.sent.has (m / j.ns * j.ns + k))) = false := by
  rw [read, List.contains_iff_mem.mpr lent, List.all_eq_true.mpr sent]
  rfl

theorem State.memberRelease_sends (other : m % j.ns ≠ 0) : s.memberRelease pod m j = s.releaseMember pod (j.sends m) m := by
  simp only [State.memberRelease, AttendJob.releaseWaits_eq_false lent read sent, Bool.false_eq_true, if_false, if_pos other]
  rfl

theorem State.memberRelease_writes (first : m % j.ns = 0)
    (clean : (s.core j.core).eccMerge (j.outAddr m) (j.outBytes m).length = none) : s.memberRelease pod m j =
      (s.setCore j.core (((s.core j.core).writeBytes (j.outAddr m) (j.outBytes m)).overwritten (j.outAddr m) (j.outBytes m).length)).releaseMember
        pod (j.writes m) m := by
  have stored : (s.core j.core).store (j.outAddr m) (j.outBytes m) =
      .inl (((s.core j.core).writeBytes (j.outAddr m) (j.outBytes m)).overwritten (j.outAddr m) (j.outBytes m).length) := by
    simp only [Core.store, clean]
  simp only [AttendJob.outAddr, AttendJob.outBytes, AttendJob.merged] at stored
  simp only [State.memberRelease, AttendJob.releaseWaits_eq_false lent read sent, Bool.false_eq_true, if_false,
    if_neg (not_not_intro first), stored]
  rfl

end

section
variable (s : State) (pod : Nat) (j : AttendJob) (m : Nat)

theorem State.releaseMember_seq : (s.releaseMember pod j m).panel.seqs.get pod {} = { j with lentCores := j.lentCores.filter (· != m) } :=
  Table.get_put_self ..

theorem State.releaseMember_lent : ((s.releaseMember pod j m).core (memberCore pod j.desc m)).lent = false :=
  congrArg Core.lent (State.core_setCore_self ..)

theorem State.releaseMember_core {i : Nat} (h : i ≠ memberCore pod j.desc m) : (s.releaseMember pod j m).core i = s.core i :=
  State.core_setCore_ne s h _

end

/-! ## ATTEND_COMPLETE (R182) -/

/-- The issuing core once ATTEND j is over: its output range is released, its flags are raised and its notice is due. -/
def AttendJob.ended (j : AttendJob) (c : Core) : Core :=
  let k := (c.releaseAttend j.id 2).raise j.flags
  if aNote j.desc then { k with due := k.due ++ [aTag j.desc] } else k

theorem AttendJob.ended_spec (j : AttendJob) (c : Core) :
    (j.ended c).due = (if aNote j.desc then c.due ++ [aTag j.desc] else c.due) ∧ (j.ended c).sticky = c.sticky ||| j.flags ∧
      (j.ended c).mem = c.mem ∧ ∀ e ∈ (j.ended c).ranges, e.owner ≠ .attend j.id 2 := by
  have released : ∀ e ∈ (c.releaseAttend j.id 2).ranges, e.owner ≠ .attend j.id 2 := fun e mem => by
    simpa using (List.mem_filter.mp mem).2
  unfold AttendJob.ended
  by_cases note : aNote j.desc = true
  · simp only [if_pos note]
    exact ⟨rfl, rfl, rfl, released⟩
  · simp only [if_neg note]
    exact ⟨rfl, rfl, rfl, released⟩

/-- The state once ATTEND j of a pod is over. -/
def State.attendEnded (s : State) (pod : Nat) (j : AttendJob) : State :=
  let t := s.setCore j.core (j.ended (s.core j.core))
  { t with panel := { t.panel with seqs := t.panel.seqs.erase pod } }

theorem exec_attendComplete {s : State} {pod : BitVec 8} {j : AttendJob} (hpod : pod.toNat < 192)
    (found : s.panel.seqs.find? pod.toNat = some j) (goes : s.streamsGo j.core = true)
    (engine : s.engineDown (srcSeq pod.toNat) = false) (accepted : j.accepted = true) (released : j.lentCores = [])
    (outs : j.outs.length = aHk j.desc) : exec (.attendComplete pod) s = .next (s.attendEnded pod.toNat j) := by
  change execAttendComplete pod s = _
  simp only [execAttendComplete, atPod, if_pos hpod, found, accepted, goes, engine, released, outs, Bool.not_false, Bool.and_true,
    List.isEmpty_nil, decide_true, if_true]
  rfl

/-- Settles O28: acceptance lends the team and posts one packet, a member's release is its own core's and the output's bytes, and
the end changes the issuing core alone. -/
theorem theSequencerRunsItsDescriptor : Obligations.TheSequencerRunsItsDescriptor := by
  intro s pod j hpod found goes engine
  refine ⟨fun r fresh up team port region layer has mode free => ?_, fun m accepted lent read sent => ⟨fun other => ?_, fun first apart => ?_⟩,
    fun accepted released outs => ?_⟩
  · refine ⟨_, exec_attendAccept hpod found goes engine fresh up team port region layer has mode free, ?_⟩
    have lends := (s.setSeq pod.toNat j.taken).lendTeam_lendsOnly pod.toNat j
    have seq : (s.accepted pod.toNat j r).panel.seqs.get pod.toNat {} = j.taken := by
      change ((s.setSeq pod.toNat j.taken).lendTeam pod.toNat j).panel.seqs.get pod.toNat {} = _
      rw [lends.seqs, State.setSeq_self]
    have ports (n : Nat) := State.port_congr (s := s) lends.ports n
    dsimp only
    rw [seq]
    refine ⟨rfl, rfl, rfl, rfl, ?_, fun m hm => State.lendTeam_lends _ hm, lends.mem, fun n => ?_, fun n => ?_, lends.ctxs⟩
    · obtain ⟨q, reqs, isRead, att⟩ := ((s.setSeq pod.toNat j.taken).lendTeam pod.toNat j).postAtt_reqs j.ctx (aPort j.desc) (aQp j.desc)
        (s.selectorAcc pod.toNat j r) []
      exact ⟨q, ports (aPort j.desc) ▸ reqs, isRead, att⟩
    · exact (State.postAtt_keeps ..).1.trans (congrArg StackPort.mem (ports n))
    · exact (State.postAtt_keeps ..).2.trans (congrArg StackPort.regions (ports n))
  · refine ⟨_, exec_attendMemberRelease hpod found goes engine accepted m, ?_⟩
    rw [State.memberRelease_sends lent read sent other]
    dsimp only
    rw [State.releaseMember_seq]
    exact ⟨(Table.find?_put ..).trans (if_pos rfl), rfl, rfl, State.releaseMember_lent .., fun i hi => State.releaseMember_core s _ _ m hi,
      rfl, rfl⟩
  · intro out a clean canonical
    refine ⟨_, exec_attendMemberRelease hpod found goes engine accepted m, ?_⟩
    have wf := Core.Canonical.mem_wf canonical
    rw [State.memberRelease_writes lent read sent first clean]
    have issuer := (State.releaseMember_core _ pod.toNat (j.writes m) m (Ne.symm apart)).trans (State.core_setCore_self s j.core
      (((s.core j.core).writeBytes (j.outAddr m) (j.outBytes m)).overwritten (j.outAddr m) (j.outBytes m).length))
    dsimp only
    rw [issuer, Core.overwritten_mem, State.releaseMember_seq]
    exact ⟨Cells.read_write 0 _ a out wf, fun b hb => Cells.get_write_ne 0 out b _ a wf hb, rfl, rfl, State.releaseMember_lent ..,
      fun i member issues => (State.releaseMember_core _ _ _ m member).trans (State.core_setCore_ne s issues _), rfl, rfl⟩
  · have issuer : (s.attendEnded pod.toNat j).core j.core = j.ended (s.core j.core) := State.core_setCore_self ..
    obtain ⟨due, sticky, mem, ranges⟩ := j.ended_spec (s.core j.core)
    rw [← issuer] at due sticky mem ranges
    exact ⟨_, exec_attendComplete hpod found goes engine accepted released outs, congrArg Option.isSome (Table.find?_erase_self ..), due, sticky,
      mem, ranges, fun i hi => State.core_setCore_ne s hi _, rfl, rfl⟩

end Sys2Proof.Machine
end

section
/-! EDIT_PAGETABLE INIT, EDIT and RELEASE, PT_EDIT_PERFORM and PT_EDIT_COMPLETE (R164 to R170). -/
namespace Sys2Proof

/-! ## Little-endian values (R6) -/

theorem leNat_leBytes (n v : Nat) : leNat (leBytes n v) = v % 256 ^ n := by
  induction n generalizing v with
  | zero => simp [leBytes, leNat, Nat.mod_one]
  | succ n ih =>
    have digits : v % 256 ^ (n + 1) = v % 256 + 256 * (v / 256 % 256 ^ n) := by rw [pow_succ', Nat.mod_mul]
    rw [leBytes, leNat, ih, BitVec.toNat_ofNat, digits]

theorem length_flatMap_leBytes {α : Type} (n : Nat) (f : α → Nat) (xs : List α) :
    (xs.flatMap fun x => leBytes n (f x)).length = n * xs.length := by
  simp [List.length_flatMap, Machine.leBytes_length, Nat.mul_comm]

namespace Machine

/-! ## Tables: their sizes, and runs of bytes inside a region (R164) -/

/-- A copy is a whole number of words of eight bytes. -/
theorem Region.cs_words (r : Region) : 8 * (r.cs / 8) = r.cs := by
  simp only [Region.cs]
  omega

theorem ptHeader_length (r : Region) (sel flips : Nat) : (ptHeader r sel flips).length = 64 := by
  simp [ptHeader, leBytes_length]

theorem StackPort.sel_le_one (k : StackPort) (r : Region) : k.sel r ≤ 1 := by
  simp only [StackPort.sel, fld]
  omega

theorem StackPort.sel_congr {a b : StackPort} (mem : b.mem = a.mem) (wins : b.wins = a.wins) (r : Region) : b.sel r = a.sel r := by
  simp only [StackPort.sel, StackPort.word64, StackPort.bytes, StackPort.addr?, mem, wins]

/-- A run inside a run of the window lies as far from its first byte. -/
theorem StackPort.addr?_inside {k : StackPort} {x off n a : Nat} (whole : k.addr? x (off : Nat) n = some a) {i m : Nat} (inside : i + m ≤ n) :
    k.addr? x ((off + i : Nat) : Int) m = some (a + i) := by
  unfold StackPort.addr? at whole ⊢
  split at whole
  next w _ =>
    split at whole
    next fits =>
      simp only [Option.some.injEq, Int.toNat_natCast] at whole ⊢
      rw [if_pos (by omega)]
      simp only [Option.some.injEq]
      omega
    next => cases whole
  next => cases whole

theorem StackPort.addr?_start {k : StackPort} {x off n a : Nat} (whole : k.addr? x (off : Nat) n = some a) {m : Nat} (shorter : m ≤ n) :
    k.addr? x (off : Nat) m = some a := by
  simpa using StackPort.addr?_inside whole (i := 0) (by rwa [Nat.zero_add])

theorem putEntries_length (img : List (BitVec 64)) (ws : List (Nat × BitVec 64)) : (putEntries img ws).length = img.length :=
  List.foldlRecOn (motive := fun t : List (BitVec 64) => t.length = img.length) _ _ rfl fun _ ht _ _ => (List.length_set ..).trans ht

theorem editTable_length (r : Region) (img : List (BitVec 64)) (e : List (BitVec 32)) : (editTable r img e).length = img.length :=
  (putEntries_length ..).trans (putEntries_length ..)

/-- The table of a region as the words of the bytes of a copy. -/
def Region.words (r : Region) (b : List Byte) : List (BitVec 64) :=
  (List.range (r.cs / 8)).map (fun i => BitVec.ofNat 64 (leNat ((b.drop (8 * i)).take 8)))

/-- The bytes of a table. -/
def tableBytes (ws : List (BitVec 64)) : List Byte := ws.flatMap (fun x => leBytes 8 x.toNat)

theorem editedBytes_length (r : Region) (b : List Byte) (e : List (BitVec 32)) : (tableBytes (editTable r (r.words b) e)).length = r.cs := by
  rw [tableBytes, length_flatMap_leBytes, editTable_length, Region.words, List.length_map, List.length_range, Region.cs_words]

/-! ## Regions by base (R164) -/

theorem StackPort.region?_named {k : StackPort} {c base : Nat} {r : Region} (found : k.region? c base = some r) : r.ctx = c ∧ r.base = base := by
  simpa using List.find?_some found

theorem StackPort.region?_congr {a b : StackPort} (h : b.regions = a.regions) (c base : Nat) : b.region? c base = a.region? c base := by
  rw [StackPort.region?, h]
  rfl

/-! ## Changes of one port -/

/-- From `s` to `t` only port `p` has changed. -/
structure PortOnly (p : Nat) (s t : State) : Prop where
  frame : t = { s with ports := t.ports }
  others : ∀ n, n ≠ p → t.port n = s.port n

theorem PortOnly.refl (p : Nat) (s : State) : PortOnly p s s := ⟨rfl, fun _ _ => rfl⟩

theorem PortOnly.trans {p : Nat} {s t u : State} (h : PortOnly p s t) (k : PortOnly p t u) : PortOnly p s u :=
  ⟨by rw [k.frame, h.frame], fun n hn => (k.others n hn).trans (h.others n hn)⟩

theorem State.modPort_portOnly (s : State) (p : Nat) (f : StackPort → StackPort) : PortOnly p s (s.modPort p f) :=
  ⟨rfl, fun _ hn => State.port_setPort_ne s hn _⟩

theorem PortOnly.panel {p : Nat} {s t : State} (h : PortOnly p s t) : t.panel = s.panel := by rw [h.frame]
theorem PortOnly.ctxs {p : Nat} {s t : State} (h : PortOnly p s t) : t.ctxs = s.ctxs := by rw [h.frame]
theorem PortOnly.link {p : Nat} {s t : State} (h : PortOnly p s t) : t.link = s.link := by rw [h.frame]
theorem PortOnly.fns {p : Nat} {s t : State} (h : PortOnly p s t) : t.fns = s.fns := by rw [h.frame]

/-- A port has kept its windows and its regions, and has no uncorrectable error if it had none. -/
structure StackPort.Keeps (a b : StackPort) : Prop where
  regions : b.regions = a.regions
  wins : b.wins = a.wins
  clean : a.eccDouble = [] → b.eccDouble = []

theorem StackPort.Keeps.trans {a b c : StackPort} (h : a.Keeps b) (k : b.Keeps c) : a.Keeps c :=
  ⟨k.regions.trans h.regions, k.wins.trans h.wins, fun clean => k.clean (h.clean clean)⟩

theorem StackPort.Keeps.addr? {a b : StackPort} (h : a.Keeps b) (x : Nat) (off : Int) (n : Nat) : b.addr? x off n = a.addr? x off n := by
  simp only [StackPort.addr?, h.wins]

theorem StackPort.touch_keeps (k : StackPort) (now : Nat) : k.Keeps (k.touch now) := ⟨rfl, rfl, id⟩

theorem StackPort.correct_keeps (k : StackPort) (a n : Nat) : k.Keeps (k.correct a n) := by
  simp only [StackPort.correct]
  split <;> exact ⟨rfl, rfl, id⟩

theorem StackPort.store_keeps (k : StackPort) (a : Nat) (bs : List Byte) : k.Keeps (k.store a bs) := by
  unfold StackPort.store StackPort.overwritten
  split
  · exact ⟨rfl, rfl, id⟩
  · refine StackPort.Keeps.trans (b := { k.write a bs with eccSingle := _, eccDouble := _ }) ⟨rfl, rfl, fun clean => ?_⟩
      (StackPort.correct_keeps ..)
    exact (congrArg (List.filter _) clean).trans rfl

/-- From `s` to `t` only port `p` has changed, which has kept its windows and its regions. -/
structure UsesPort (p : Nat) (s t : State) : Prop extends PortOnly p s t where
  keeps : (s.port p).Keeps (t.port p)

theorem UsesPort.trans {p : Nat} {s t u : State} (h : UsesPort p s t) (k : UsesPort p t u) : UsesPort p s u :=
  ⟨h.toPortOnly.trans k.toPortOnly, h.keeps.trans k.keeps⟩

theorem State.windowUsed_usesPort (s : State) (x p off n : Nat) : UsesPort p s (s.windowUsed x p off n) := by
  unfold State.windowUsed
  split
  · refine ⟨s.modPort_portOnly .., ?_⟩
    rw [State.port_modPort_self]
    exact (StackPort.touch_keeps ..).trans (StackPort.correct_keeps ..)
  · exact ⟨.refl p s, rfl, rfl, id⟩

/-- A write to a window whose atoms can all be read. -/
theorem State.windowWrite_usesPort {s : State} {x p off a : Nat} {bs : List Byte} (addr : (s.port p).addr? x (off : Nat) bs.length = some a)
    (clean : (s.port p).eccMerge a bs.length = none) : UsesPort p s (s.windowWrite x p off bs) ∧
      ((s.windowWrite x p off bs).port p).mem = Cells.write 0 (s.port p).mem a bs := by
  rw [State.windowWrite_stored addr clean, State.port_modPort_self]
  refine ⟨⟨s.modPort_portOnly .., ?_⟩, StackPort.store_mem ..⟩
  rw [State.port_modPort_self]
  exact (StackPort.touch_keeps ..).trans (StackPort.store_keeps ..)

theorem StackPort.eccMerge_clean {k : StackPort} (clean : k.eccDouble = []) (a n : Nat) : k.eccMerge a n = none := by
  simp [StackPort.eccMerge, clean]

/-! ## One region is changed -/

section
variable (s : State) (p c base : Nat) (f : Region → Region)

theorem State.modRegion_portOnly : PortOnly p s (s.modRegion p c base f) := s.modPort_portOnly ..

theorem State.modRegion_mem : ((s.modRegion p c base f).port p).mem = (s.port p).mem := by
  rw [State.modRegion, State.port_modPort_self]

theorem State.modRegion_wins : ((s.modRegion p c base f).port p).wins = (s.port p).wins := by
  rw [State.modRegion, State.port_modPort_self]

variable {s p c base f}

theorem State.modRegion_found {r : Region} (found : (s.port p).region? c base = some r) (ctx : ∀ q, (f q).ctx = q.ctx)
    (base_ : ∀ q, (f q).base = q.base) : ((s.modRegion p c base f).port p).region? c base = some (f r) := by
  have same : (fun q : Region => decide (q.ctx = c) && decide (q.base = base)) ∘ (fun q => if q.ctx = c ∧ q.base = base then f q else q) =
      fun q => decide (q.ctx = c) && decide (q.base = base) := by
    funext q
    dsimp only [Function.comp]
    split
    · rw [ctx, base_]
    · rfl
  rw [State.modRegion, State.port_modPort_self]
  simp only [StackPort.region?] at found ⊢
  rw [List.find?_map, same, found, Option.map_some, if_pos (StackPort.region?_named found)]

end

theorem State.clearRegion_gone (s : State) (p c base : Nat) : ((s.clearRegion p c base).port p).region? c base = none := by
  rw [State.clearRegion, State.port_modPort_self, StackPort.region?, List.find?_eq_none]
  intro r mem
  simpa [imp_iff_not_or] using (List.mem_filter.mp mem).2

theorem State.clearRegion_mem (s : State) (p c base : Nat) : ((s.clearRegion p c base).port p).mem = (s.port p).mem := by
  rw [State.clearRegion, State.port_modPort_self]

/-! ## INIT (R165) -/

/-- The region that an INIT makes. -/
def Taken.region (d : Taken) (c : Nat) : Region := { ctx := c, base := d.ptBase, layers := d.word 8, maxent := d.word 9 }

/-- The bytes of a new region: its first 64, and the image of its table twice. -/
def State.newTable (s : State) (d : Taken) (r : Region) : List Byte :=
  ptHeader r 0 0 ++ s.hostRead (d.dword 6) r.cs ++ s.hostRead (d.dword 6) r.cs

theorem State.newTable_length (s : State) (d : Taken) (r : Region) : (s.newTable d r).length = r.bytes := by
  simp only [State.newTable, List.length_append, ptHeader_length, State.hostRead, Cells.read, List.length_map, List.length_range, Region.bytes]
  omega

section
variable {s : State} {fn : Nat} {d : Taken} (small : fn ≤ 64) (asked : s.ptHead fn 0 = some d) (layers : ¬ (d.word 8 < 1 ∨ 1024 < d.word 8))
  (entries : ¬ (d.word 9 < 1 ∨ 65535 < d.word 9))
include small asked layers entries

theorem exec_editPagetableInit_refused (bad : s.ptInitOk (fn - 1) d (d.region (fn - 1)) = false) :
    exec (.editPagetableInit fn .ok) s = .next (s.complete d 0x0303 0) := by
  simp only [Taken.region] at bad
  change execEditPagetableInit fn .ok s = _
  simp only [execEditPagetableInit, atFn, if_pos small, asked, if_neg layers, if_neg entries, bad, Bool.not_false, if_true]

theorem exec_editPagetableInit (good : s.ptInitOk (fn - 1) d (d.region (fn - 1)) = true) : exec (.editPagetableInit fn .ok) s =
    .next (((s.windowWrite (fn - 1) d.port4 d.ptBase (s.newTable d (d.region (fn - 1)))).modPort d.port4 (fun k =>
      { k with regions := k.regions ++ [d.region (fn - 1)] })).complete d 0 0) := by
  simp only [Taken.region] at good
  change execEditPagetableInit fn .ok s = _
  simp only [execEditPagetableInit, atFn, if_pos small, asked, if_neg layers, if_neg entries, good, Bool.not_true, Bool.false_eq_true,
    if_false]
  rfl

end

/-! ## EDIT and RELEASE (R168, R170) -/

/-- The list that an EDIT reads. -/
def State.editList (s : State) (d : Taken) : List (BitVec 32) :=
  BitVec.ofNat 32 (d.word 8) :: BitVec.ofNat 32 (d.word 9) ::
    (List.range (4 * (d.word 8 + d.word 9))).map (fun k =>
      BitVec.ofNat 32 (leNat (((s.hostRead (d.dword 6) (16 * (d.word 8 + d.word 9))).drop (4 * k)).take 4)))

section
variable {s : State} {fn : Nat} {d : Taken} {r : Region} (small : fn ≤ 64) (found : s.ptRegion (fn - 1) d = some r) (kept : r.release = none)
include small found kept

theorem exec_editPagetableEdit (asked : s.ptHead fn 1 = some d) : exec (.editPagetableEdit fn .ok) s =
    .next ((s.modRegion d.port4 (fn - 1) d.ptBase (fun q => { q with edits := q.edits ++ [(s.editList d, d.num)] })).toBg d .accepted) := by
  change execEditPagetableEdit fn .ok s = _
  simp only [execEditPagetableEdit, atFn, if_pos small, asked, found, kept, Option.isSome_none, Bool.false_eq_true, if_false]
  rfl

theorem exec_editPagetableRelease_quiet (asked : s.ptHead fn 2 = some d) (quiet : r.quiet = true) :
    exec (.editPagetableRelease fn) s = .next ((s.clearRegion d.port4 (fn - 1) d.ptBase).complete d 0 0) := by
  change execEditPagetableRelease fn s = _
  simp only [execEditPagetableRelease, atFn, if_pos small, asked, found, kept, Option.isSome_none, Bool.false_eq_true, if_false, quiet,
    if_true]

theorem exec_editPagetableRelease_waits (asked : s.ptHead fn 2 = some d) (busy : r.quiet = false) :
    exec (.editPagetableRelease fn) s =
      .next ((s.modRegion d.port4 (fn - 1) d.ptBase (fun q => { q with release := some d.num })).toBg d .accepted) := by
  change execEditPagetableRelease fn s = _
  simp only [execEditPagetableRelease, atFn, if_pos small, asked, found, kept, Option.isSome_none, Bool.false_eq_true, if_false, busy]

end

/-! ## PT_EDIT_PERFORM (R168) -/

theorem State.completePt_held {s t : State} {c n : Nat} {d : Taken} (held : s.bgDesc (c + 1) n = some d) (fns : t.fns = s.fns)
    (status detail : Nat) : t.completePt c n status detail = t.complete d status detail := by
  have still : t.bgDesc (c + 1) n = some d := by rw [← held, State.bgDesc, State.fn, fns]; rfl
  simp only [State.completePt, still]

theorem State.layoutFault_congr {s t : State} (h : ∀ n, (t.port n).regions = (s.port n).regions) (r : Region) (img : List (BitVec 64))
    (e : List (BitVec 32)) : t.layoutFault r img e = s.layoutFault r img e := by
  simp only [State.layoutFault, State.pageClear, StackPort.owned, h]

/-- Where copy c of a region's table begins in the window. -/
def Region.copyOff (r : Region) (c : Nat) : Nat := r.base + 64 + c * r.cs

/-- The state once the active copy of a region has been read. -/
def State.copyUsed (s : State) (p : Nat) (r : Region) : State := s.windowUsed r.ctx p (r.copyOff ((s.port p).sel r)) r.cs

/-- The oldest EDIT of a region leaves its queue. -/
def State.skipEdit (s : State) (p : Nat) (r : Region) : State :=
  s.modRegion p r.ctx r.base (fun q => { q with edits := q.edits.drop 1 })

/-- The first word of a region, as one more flip makes it (Table 8.3). -/
def StackPort.flippedWord (k : StackPort) (r : Region) : Nat :=
  1 - k.sel r + 2 ^ 16 * ((fld (k.word64 ((k.addr? r.ctx (r.base : Nat) 1).getD 0)).toNat 47 16 + 1) % 2 ^ 32)

/-- A region whose oldest EDIT, of index n, has flipped it away from copy `old`. -/
def Region.flippedFrom (r : Region) (n old : Nat) : Region := { r with edits := r.edits.drop 1, flipped := some (n, old) }

/-- The state once the edited table is in the inactive copy and that copy is active. -/
def State.flip (s : State) (p : Nat) (r : Region) (new : List (BitVec 64)) : State :=
  (((s.copyUsed p r).windowWrite r.ctx p (r.copyOff (1 - (s.port p).sel r)) (tableBytes new)).windowWrite r.ctx p r.base
    (leBytes 8 ((s.port p).flippedWord r)))

/-- The state once the oldest EDIT of a region, of index n, is performed with `new` as its table. -/
def State.edited (s : State) (p n : Nat) (r : Region) (new : List (BitVec 64)) : State :=
  (s.flip p r new).modRegion p r.ctx r.base (fun q => q.flippedFrom n ((s.port p).sel r))

section
variable (s : State) (p n : Nat) (r : Region) (new : List (BitVec 64))

theorem State.edited_mem : ((s.edited p n r new).port p).mem = ((s.flip p r new).port p).mem := State.modRegion_mem ..

theorem State.edited_sel : ((s.edited p n r new).port p).sel r = ((s.flip p r new).port p).sel r :=
  StackPort.sel_congr (State.modRegion_mem ..) (State.modRegion_wins ..) r

end

theorem State.layoutFault_copyUsed (s : State) (p : Nat) (r q : Region) (img : List (BitVec 64)) (l : List (BitVec 32)) :
    (s.copyUsed p r).layoutFault q img l = s.layoutFault q img l := by
  have used := s.windowUsed_usesPort r.ctx p (r.copyOff ((s.port p).sel r)) r.cs
  refine State.layoutFault_congr (fun m => ?_) q img l
  by_cases own : m = p
  · exact own ▸ used.keeps.regions
  · exact congrArg StackPort.regions (used.others m own)

section
variable {s : State} {p n : Nat} {r : Region} {e : List (BitVec 32)} {b : List Byte}
  (read : s.windowRead r.ctx p (r.copyOff ((s.port p).sel r)) r.cs = .inl b)
include read

theorem State.performEdit_stale {i : Nat} (stale : genMismatch r (r.words b) e = some i) :
    s.performEdit p r e n = ((s.copyUsed p r).skipEdit p r).completePt r.ctx n 0x0300 i := by
  simp only [Region.copyOff, Region.words] at read stale
  simp only [State.performEdit, read, stale]
  rfl

section
variable (fresh : genMismatch r (r.words b) e = none)
include fresh

theorem State.performEdit_illegal {i : Nat} (illegal : s.layoutFault r (editTable r (r.words b) e) e = some i) :
    s.performEdit p r e n = ((s.copyUsed p r).skipEdit p r).completePt r.ctx n 0x0301 i := by
  rw [← s.layoutFault_copyUsed p r] at illegal
  simp only [Region.copyOff, Region.words, State.copyUsed] at read fresh illegal
  simp only [State.performEdit, read, fresh, illegal]
  rfl

theorem State.performEdit_flips (legal : s.layoutFault r (editTable r (r.words b) e) e = none) :
    s.performEdit p r e n = s.edited p n r (editTable r (r.words b) e) := by
  rw [← s.layoutFault_copyUsed p r] at legal
  simp only [Region.copyOff, Region.words, State.copyUsed] at read fresh legal
  simp only [State.performEdit, read, fresh, legal]
  rfl

end

end

theorem exec_ptEditPerform {s : State} {cc : BitVec 6} {port : BitVec 5} {base n : Nat} {r : Region} {e : List (BitVec 32)}
    {es : List (List (BitVec 32) × Nat)} (found : (s.port port.toNat).region? cc.toNat base = some r) (pending : r.edits = (e, n) :: es)
    (settled : r.flipped = none) (unread : r.walks (1 - (s.port port.toNat).sel r) = 0) :
    exec (.ptEditPerform cc port base) s = .next (s.performEdit port.toNat r e n) := by
  change execPtEditPerform cc port base s = _
  simp only [execPtEditPerform, found, pending, settled, unread, Option.isNone_none, decide_true, Bool.and_true, if_true]

section
variable {s : State} {p c base : Nat} {r : Region} (found : (s.port p).region? c base = some r)
include found

/-- A region is changed after its port has been used. -/
theorem UsesPort.modRegion_found {t : State} (used : UsesPort p s t) {f : Region → Region} (ctx : ∀ q, (f q).ctx = q.ctx)
    (base_ : ∀ q, (f q).base = q.base) : ((t.modRegion p r.ctx r.base f).port p).region? c base = some (f r) := by
  obtain ⟨rfl, rfl⟩ := StackPort.region?_named found
  exact State.modRegion_found ((StackPort.region?_congr used.keeps.regions ..).trans found) ctx base_

/-- An EDIT that leaves its queue undone changes no byte, and nothing of its region but the queue. -/
theorem State.skipEdit_spec : PortOnly p s ((s.copyUsed p r).skipEdit p r) ∧
    (((s.copyUsed p r).skipEdit p r).port p).mem = (s.port p).mem ∧
      (((s.copyUsed p r).skipEdit p r).port p).region? c base = some { r with edits := r.edits.drop 1 } := by
  have used : UsesPort p s (s.copyUsed p r) := s.windowUsed_usesPort ..
  exact ⟨used.toPortOnly.trans (State.modRegion_portOnly ..), (State.modRegion_mem ..).trans ((s.windowUsed_sameBytes ..).port p),
    used.modRegion_found found (fun _ => rfl) (fun _ => rfl)⟩

end

/-- SELECTOR is the lowest bit of a region's first word. -/
theorem StackPort.sel_eq {k : StackPort} {r : Region} {a : Nat} (addr : k.addr? r.ctx (r.base : Nat) 1 = some a) :
    k.sel r = leNat (k.bytes a 8) % 2 := by
  simp only [StackPort.sel, addr, Option.getD_some, StackPort.word64, BitVec.toNat_ofNat, fld]
  omega

theorem StackPort.flippedWord_lt (k : StackPort) (r : Region) : k.flippedWord r < 256 ^ 8 := by
  simp only [StackPort.flippedWord]
  omega

section
variable {s : State} {p a : Nat} {r : Region} (whole : (s.port p).addr? r.ctx (r.base : Nat) r.bytes = some a)
  (clean : (s.port p).eccDouble = []) {new : List (BitVec 64)} (size : (tableBytes new).length = r.cs)
include whole clean size

/-- A flip writes the inactive copy and the first word of the region. -/
theorem State.flip_spec : UsesPort p s (s.flip p r new) ∧ ((s.flip p r new).port p).mem =
    Cells.write 0 (Cells.write 0 (s.port p).mem (a + 64 + (1 - (s.port p).sel r) * r.cs) (tableBytes new)) a
      (leBytes 8 ((s.port p).flippedWord r)) := by
  have sel := (s.port p).sel_le_one r
  have used : UsesPort p s (s.copyUsed p r) := s.windowUsed_usesPort ..
  have copyIn : 64 + (1 - (s.port p).sel r) * r.cs + (tableBytes new).length ≤ r.bytes := by
    have fits : (1 - (s.port p).sel r) * r.cs ≤ 1 * r.cs := Nat.mul_le_mul_right _ (Nat.sub_le ..)
    rw [size, Region.bytes]
    omega
  have copyAddr := StackPort.addr?_inside whole copyIn
  rw [← used.keeps.addr?, ← Nat.add_assoc, ← Nat.add_assoc] at copyAddr
  obtain ⟨copied, copyMem⟩ := State.windowWrite_usesPort copyAddr (StackPort.eccMerge_clean (used.keeps.clean clean) ..)
  have wordAddr := StackPort.addr?_start whole (m := (leBytes 8 ((s.port p).flippedWord r)).length)
    (by rw [leBytes_length, Region.bytes]; omega)
  rw [← (used.trans copied).keeps.addr?] at wordAddr
  obtain ⟨flipped, wordMem⟩ := State.windowWrite_usesPort wordAddr (StackPort.eccMerge_clean ((used.trans copied).keeps.clean clean) ..)
  refine ⟨(used.trans copied).trans flipped, wordMem.trans ?_⟩
  rw [copyMem, State.copyUsed, (s.windowUsed_sameBytes ..).port p]

variable (wf : Cells.wf 0 (s.port p).mem = true)
include wf

theorem State.flip_table : Cells.read 0 ((s.flip p r new).port p).mem (a + 64 + (1 - (s.port p).sel r) * r.cs) r.cs = tableBytes new := by
  rw [(State.flip_spec whole clean size).2, ← size]
  refine Cells.read_eq 0 fun k hk => ?_
  rw [Cells.get_write_ne 0 _ _ _ _ (Cells.wf_write 0 _ _ _ wf) (.inr (by rw [leBytes_length]; omega)), Cells.get_write 0 _ _ _ _ wf hk]

theorem State.flip_sel : ((s.flip p r new).port p).sel r = 1 - (s.port p).sel r := by
  obtain ⟨uses, mem⟩ := State.flip_spec whole clean size
  have addr := StackPort.addr?_start whole (m := 1) (by rw [Region.bytes]; omega)
  rw [← uses.keeps.addr?] at addr
  have word : ((s.flip p r new).port p).bytes a 8 = leBytes 8 ((s.port p).flippedWord r) := by
    have read := Cells.read_write 0 (Cells.write 0 (s.port p).mem (a + 64 + (1 - (s.port p).sel r) * r.cs) (tableBytes new)) a
      (leBytes 8 ((s.port p).flippedWord r)) (Cells.wf_write 0 _ _ _ wf)
    rw [leBytes_length] at read
    rw [StackPort.bytes, mem, read]
  rw [StackPort.sel_eq addr, word, leNat_leBytes, Nat.mod_eq_of_lt ((s.port p).flippedWord_lt r), StackPort.flippedWord]
  omega

theorem State.flip_others {z : Nat} (table : z < a + 64 + (1 - (s.port p).sel r) * r.cs ∨ a + 64 + (1 - (s.port p).sel r) * r.cs + r.cs ≤ z)
    (word : z < a ∨ a + 8 ≤ z) : Cells.get 0 ((s.flip p r new).port p).mem z = Cells.get 0 (s.port p).mem z := by
  rw [(State.flip_spec whole clean size).2, Cells.get_write_ne 0 _ _ _ _ (Cells.wf_write 0 _ _ _ wf) (by rwa [leBytes_length]),
    Cells.get_write_ne 0 _ _ _ _ wf (by rwa [size])]

/-- What an EDIT makes of its port: the new table in the inactive copy, that copy active, and no other byte changed. -/
theorem State.edited_spec {n c base : Nat} (found : (s.port p).region? c base = some r) : PortOnly p s (s.edited p n r new) ∧
    Cells.read 0 ((s.edited p n r new).port p).mem (a + 64 + (1 - (s.port p).sel r) * r.cs) r.cs = tableBytes new ∧
    ((s.edited p n r new).port p).sel r = 1 - (s.port p).sel r ∧
    ((s.edited p n r new).port p).region? c base = some (r.flippedFrom n ((s.port p).sel r)) ∧
    ∀ z, (z < a + 64 + (1 - (s.port p).sel r) * r.cs ∨ a + 64 + (1 - (s.port p).sel r) * r.cs + r.cs ≤ z) → (z < a ∨ a + 8 ≤ z) →
      Cells.get 0 ((s.edited p n r new).port p).mem z = Cells.get 0 (s.port p).mem z := by
  obtain ⟨uses, -⟩ := State.flip_spec whole clean size
  rw [State.edited_mem, State.edited_sel]
  exact ⟨uses.toPortOnly.trans (State.modRegion_portOnly ..), State.flip_table whole clean size wf, State.flip_sel whole clean size wf,
    uses.modRegion_found found (fun _ => rfl) (fun _ => rfl), fun _ => State.flip_others whole clean size wf⟩

end

/-! ## PT_EDIT_COMPLETE (R169) -/

section
variable {s : State} {cc : BitVec 6} {port : BitVec 5} {base n old : Nat} {r : Region}
  (found : (s.port port.toNat).region? cc.toNat base = some r) (flipped : r.flipped = some (n, old))
include found flipped

theorem exec_ptEditComplete (ended : r.walks old = 0) : exec (.ptEditComplete cc port base) s =
    .next ((s.modRegion port.toNat cc.toNat base (fun q => { q with flipped := none })).completePt cc.toNat n 0 0) := by
  change execPtEditComplete cc port base s = _
  simp only [execPtEditComplete, found, flipped, if_pos ended]

theorem exec_ptEditComplete_waits (walking : r.walks old ≠ 0) : exec (.ptEditComplete cc port base) s = .next s := by
  change execPtEditComplete cc port base s = _
  simp only [execPtEditComplete, found, flipped, if_neg walking]

end

/-- Settles O47: each command is a change of one port, of one region of it and of the bytes that its writes name, and the end of its
descriptor. -/
theorem pageTablesAreEditedBesideTheirReaders : Obligations.PageTablesAreEditedBesideTheirReaders := by
  intro s
  refine ⟨fun fn d small => ⟨fun a asked low high least most => ?_, fun r asked found kept => ?_, fun r asked found kept => ?_⟩,
    fun cc port base r => ?_⟩
  · have layers : ¬ (d.word 8 < 1 ∨ 1024 < d.word 8) := by omega
    have entries : ¬ (d.word 9 < 1 ∨ 65535 < d.word 9) := by omega
    refine ⟨fun bad => answers_ends (exec_editPagetableInit_refused small asked layers entries bad), fun good addr clean wf => ?_⟩
    refine answers_ends_with (exec_editPagetableInit small asked layers entries good) ?_
    have length := s.newTable_length d (d.region (fn - 1))
    obtain ⟨uses, mem⟩ := State.windowWrite_usesPort (length.symm ▸ addr) (length.symm ▸ clean)
    have made := uses.toPortOnly.trans (State.modPort_portOnly _ d.port4 (fun k => { k with regions := k.regions ++ [d.region (fn - 1)] }))
    rw [State.port_modPort_self]
    refine ⟨⟨made.others, made.panel, made.ctxs, made.link⟩, congrArg (· ++ _) uses.keeps.regions, ?_, fun b hb => ?_⟩
    · exact (congrArg (Cells.read 0 · a _) mem).trans (length ▸ Cells.read_write 0 _ a _ wf)
    · exact (congrArg (Cells.get 0 · b) mem).trans (Cells.get_write_ne 0 _ b _ a wf (length.symm ▸ hb))
  · refine ⟨_, exec_editPagetableEdit small found kept asked, ?_⟩
    have only := s.modRegion_portOnly d.port4 (fn - 1) d.ptBase (fun q => { q with edits := q.edits ++ [(s.editList d, d.num)] })
    refine ⟨⟨only.others, only.panel, only.ctxs, only.link⟩, State.modRegion_mem .., s.editList d, rfl, rfl, fun j hj => ?_,
      State.modRegion_found found (fun _ => rfl) (fun _ => rfl)⟩
    simp [State.editList, Nat.add_comm 2 j, hj]
  · refine ⟨fun quiet => ?_, fun busy => ?_⟩
    · have only : PortOnly d.port4 s (s.clearRegion d.port4 (fn - 1) d.ptBase) := s.modPort_portOnly ..
      exact answers_ends_with (exec_editPagetableRelease_quiet small found kept asked quiet)
        ⟨⟨only.others, only.panel, only.ctxs, only.link⟩, State.clearRegion_gone .., State.clearRegion_mem ..⟩
    · have only := s.modRegion_portOnly d.port4 (fn - 1) d.ptBase (fun q => { q with release := some d.num })
      exact ⟨_, exec_editPagetableRelease_waits small found kept asked busy, ⟨only.others, only.panel, only.ctxs, only.link⟩,
        State.modRegion_found found (fun _ => rfl) (fun _ => rfl), State.modRegion_mem ..⟩
  · intro c p k found
    refine ⟨fun e n es d pending settled unread held => ?_, fun n old d flipped held => ⟨fun ended => ?_, fun walking => ?_⟩⟩
    · dsimp only
      intro b read
      have acts := exec_ptEditPerform found pending settled unread
      obtain ⟨ctx, -⟩ := StackPort.region?_named found
      have readCopy : s.windowRead r.ctx p (r.copyOff (k.sel r)) r.cs = .inl b := ctx.symm ▸ read
      have owner : s.bgDesc (r.ctx + 1) n = some d := ctx.symm ▸ held
      obtain ⟨only, bytes, region⟩ := State.skipEdit_spec found
      rw [pending] at region
      refine ⟨fun i stale => ?_, fun i fresh illegal => ?_, fun a fresh legal whole clean wf => ?_⟩
      · rw [State.performEdit_stale readCopy stale, State.completePt_held owner only.fns] at acts
        exact answers_ends_with acts ⟨only.frame, bytes, region, only.others⟩
      · rw [State.performEdit_illegal readCopy fresh illegal, State.completePt_held owner only.fns] at acts
        exact answers_ends_with acts ⟨only.frame, bytes, region, only.others⟩
      · rw [State.performEdit_flips readCopy fresh legal] at acts
        have start : k.addr? r.ctx (r.base : Nat) r.bytes = some a := ctx.symm ▸ whole
        obtain ⟨only, table, active, region, others⟩ := State.edited_spec (n := n) start clean (editedBytes_length r b e) wf found
        rw [Region.flippedFrom, pending] at region
        exact ⟨_, acts, only.frame, only.others, table, active, region, others⟩
    · have acts := exec_ptEditComplete found flipped ended
      rw [State.completePt_held held (s.modRegion_portOnly ..).fns] at acts
      exact answers_ends_with acts ⟨rfl, State.modRegion_found found (fun _ => rfl) (fun _ => rfl), State.modRegion_mem ..⟩
    · exact ⟨s, exec_ptEditComplete_waits found flipped walking, rfl⟩

end Machine
end Sys2Proof
end

section
/-! Changes of a context's weight set, and the digest engines of the stack ports (R192, R210). -/
namespace Sys2Proof.Machine

open Sys2Proof

/-- From `s` to `t` only context `c` has changed, and at the stack ports nothing that their memories hold. -/
structure ChangesSet (c : Nat) (s t : State) : Prop where
  other : ∀ k, k ≠ c → t.ctx k = s.ctx k
  panel : t.panel = s.panel
  mem : ∀ n, (t.port n).mem = (s.port n).mem
  tcb : t.tcb = s.tcb

theorem ChangesSet.trans {c : Nat} {s t u : State} (h : ChangesSet c s t) (k : ChangesSet c t u) : ChangesSet c s u :=
  ⟨fun d hd => (k.other d hd).trans (h.other d hd), k.panel.trans h.panel, fun n => (k.mem n).trans (h.mem n), k.tcb.trans h.tcb⟩

theorem OnlyContextAndRings.changesSet {c : Nat} {s t : State} (h : OnlyContextAndRings c s t) : ChangesSet c s t :=
  ⟨h.other, h.panel, fun n => congrArg StackPort.mem (State.port_congr h.ports n), h.tcb⟩

/-- From `s` to `t` the set of context `c` has become `w`; of the host's side only descriptors have moved. -/
structure PutsSet (c : Nat) (w : WSet) (s t : State) : Prop extends ChangesSet c s t where
  ctx : t.ctx c = { s.ctx c with wset := w }
  link : t.link = s.link

theorem PutsSet.trans {c : Nat} {w v : WSet} {s t u : State} (h : PutsSet c w s t) (k : PutsSet c v t u) : PutsSet c v s u :=
  ⟨h.toChangesSet.trans k.toChangesSet, by rw [k.ctx, h.ctx], k.link.trans h.link⟩

theorem State.modCtx_putsSet {s : State} {c : Nat} {f : Context → Context} {w : WSet} (h : f (s.ctx c) = { s.ctx c with wset := w }) :
    PutsSet c w s (s.modCtx c f) :=
  ⟨(s.modCtx_onlyContext c f).changesSet, (State.ctx_modCtx_self ..).trans h, rfl⟩

/-! ## Digest engines (R192) -/

/-- A port whose engine no longer serves a shard of a context. -/
def StackPort.releasesEngine (k : StackPort) (a : Nat × Nat) : StackPort := if k.engine = some a then { k with engine := none } else k

theorem StackPort.releasesEngine_engine (k : StackPort) (a : Nat × Nat) : (k.releasesEngine a).engine ≠ some a := by
  unfold StackPort.releasesEngine
  split
  · exact nofun
  · assumption

theorem StackPort.releasesEngine_mem (k : StackPort) (a : Nat × Nat) : (k.releasesEngine a).mem = k.mem := by
  unfold StackPort.releasesEngine
  split <;> rfl

theorem State.freeEngine_port (s : State) (c i p : Nat) : (s.freeEngine c i).port p = (s.port p).releasesEngine (c, i) := by
  have each : (fun e : Nat × StackPort => if e.2.engine = some (c, i) then (e.1, { e.2 with engine := none }) else e) =
      fun e => (e.1, e.2.releasesEngine (c, i)) := by
    funext e
    unfold StackPort.releasesEngine
    split <;> rfl
  rw [State.port, State.freeEngine, each]
  exact Table.get_map (fun k => StackPort.releasesEngine k (c, i)) s.ports p {} rfl

/-- A port whose engine serves a shard, which waits for it no longer. -/
def StackPort.serving (k : StackPort) (a : Nat × Nat) : StackPort :=
  { k with engine := some a, engineQ := k.engineQ.filter (fun e => e != a) }

section
variable {k : StackPort} {a : Nat × Nat}

theorem StackPort.askEngine_free (free : k.engine = none) (first : k.engineQ.head?.all (fun e => e == a) = true) :
    k.askEngine a = k.serving a := by
  simp only [StackPort.askEngine, free, first, Option.isNone_none, Bool.and_true, if_true]
  rfl

theorem StackPort.askEngine_serves (serves : k.engine = some a) : k.askEngine a = k := by
  simp [StackPort.askEngine, serves]

theorem StackPort.askEngine_waits {e : Nat × Nat} (taken : k.engine = some e) (other : e ≠ a) :
    k.askEngine a = { k with engineQ := if a ∈ k.engineQ then k.engineQ else k.engineQ ++ [a] } := by
  have busy : ¬ (k.engine.isNone && k.engineQ.head?.all (fun e => e == a)) = true := by simp [taken]
  have apart : (k.engine == some a) = false := by simp [taken, other]
  rw [StackPort.askEngine, if_neg busy, apart, Bool.or_false]
  by_cases queued : a ∈ k.engineQ
  · rw [if_pos (List.contains_iff_mem.mpr queued), if_pos queued]
  · rw [if_neg (fun asked => queued (List.contains_iff_mem.mp asked)), if_neg queued]

end

/-- The port once what has given up waiting for its engine has left the queue. -/
def State.wantedPort (s : State) (p : Nat) : StackPort := { s.port p with engineQ := (s.port p).engineQ.filter s.wantsEngine }

theorem State.askEngine_eq {s : State} {p : Nat} (up : s.portServes p = true) (a : Nat × Nat) :
    s.askEngine p a = s.setPort p ((s.wantedPort p).askEngine a) := if_pos up

/-! ## A re-check that is dropped (R210) -/

theorem State.dropRecheck_under {s : State} {c : Nat} {r : Recheck} (under : (s.ctx c).wset.recheck = some r) :
    s.dropRecheck c = (s.modPort (r.shard % 24) (fun k => k.releasesEngine (c, r.shard))).modCtx c (fun x =>
      { x with wset := { x.wset with recheck := none } }) := by
  simp only [State.dropRecheck, under]
  rfl

/-- The set once no re-check of it is under way. -/
def WSet.unchecked (w : WSet) : WSet := { w with recheck := none }

theorem State.modPort_mem (s : State) (p : Nat) {f : StackPort → StackPort} (kept : (f (s.port p)).mem = (s.port p).mem) (n : Nat) :
    ((s.modPort p f).port n).mem = (s.port n).mem := by
  by_cases own : n = p
  · rw [own, State.port_modPort_self, kept]
  · exact congrArg StackPort.mem (State.port_setPort_ne s own _)

theorem State.dropRecheck_putsSet (s : State) (c : Nat) : PutsSet c (s.ctx c).wset.unchecked s (s.dropRecheck c) := by
  cases under : (s.ctx c).wset.recheck with
  | none =>
    have same : (s.ctx c).wset.unchecked = (s.ctx c).wset := by
      rw [WSet.unchecked, ← under]
    have dropped : s.dropRecheck c = s := by simp only [State.dropRecheck, under]
    rw [same, dropped]
    exact ⟨⟨fun _ _ => rfl, rfl, fun _ => rfl, rfl⟩, rfl, rfl⟩
  | some r =>
    rw [State.dropRecheck_under under]
    exact ⟨⟨fun _ hd => State.ctx_modCtx_ne _ hd _, rfl, s.modPort_mem _ (StackPort.releasesEngine_mem ..), rfl⟩,
      State.ctx_modCtx_self .., rfl⟩

theorem State.dropRecheck_engine {s : State} {c : Nat} {r : Recheck} (under : (s.ctx c).wset.recheck = some r) :
    ((s.dropRecheck c).port (r.shard % 24)).engine ≠ some (c, r.shard) := by
  have port : (s.dropRecheck c).port (r.shard % 24) = (s.port (r.shard % 24)).releasesEngine (c, r.shard) := by
    rw [State.dropRecheck_under under]
    exact State.port_modPort_self ..
  rw [port]
  exact (s.port (r.shard % 24)).releasesEngine_engine (c, r.shard)

end Sys2Proof.Machine
end

section
/-! WSET_LOAD, WSET_SWAP, SHARD_TRANSFER_START and SHARD_VERDICT (R185 to R198, R205, R393). -/
namespace Sys2Proof.Machine

open Sys2Proof

/-! ## The checks of a descriptor (Table 9.5) -/

/-- The first check of Table 9.5 that a descriptor fails: its status and DETAIL. -/
def State.wsetFault (s : State) (c : Nat) (d : Taken) : Option (Nat × Nat) :=
  (s.manifestFault (s.manifestOf d) (s.repairList d)).or (s.loadFault c d (parseManifest (s.manifestOf d)))

section
variable {s : State} {c : Nat} {d : Taken} {go : State → Manifest → State}

theorem State.wsetOp_refused {f : Nat × Nat} (fault : s.wsetFault c d = some f) : s.wsetOp c d .ok go = s.complete d f.1 f.2 := by
  rw [State.wsetFault, Option.or_eq_some_iff] at fault
  rcases fault with bad | ⟨good, bad⟩
  · unfold State.wsetOp
    simp only [bad]
  · unfold State.wsetOp
    simp only [good, bad]

theorem State.wsetOp_accepted (sound : s.wsetFault c d = none) : s.wsetOp c d .ok go = go s (parseManifest (s.manifestOf d)) := by
  rw [State.wsetFault, Option.or_eq_none_iff] at sound
  obtain ⟨good, fits⟩ := sound
  unfold State.wsetOp
  simp only [good, fits]

end

/-- A manifest that passes names a shard (Table 9.1). -/
theorem State.manifestFault_shards {s : State} {m : List Byte} {reps : List Nat} (good : s.manifestFault m reps = none) :
    (parseManifest m).shards ≠ [] := by
  have format : formatFault m = none := by
    unfold State.manifestFault at good
    split at good
    · cases good
    · assumption
  have header : headerOk m = true := by
    by_contra bad
    unfold formatFault at format
    rw [if_pos (by simpa using bad)] at format
    cases format
  have many : 1 ≤ leAt m 8 4 := by
    simp only [headerOk, Bool.and_eq_true, decide_eq_true_eq] at header
    omega
  intro none
  have length : (parseManifest m).shards.length = leAt m 8 4 := by simp [parseManifest]
  rw [none, List.length_nil] at length
  omega

/-! ## Acceptance (R194, R195, R198, R205) -/

theorem State.settle_transfers {s : State} {c : Nat} {l : Load} (load : (s.ctx c).wset.load = some l) (left : l.todo ≠ []) :
    s.settle c = s := by
  simp [State.settle, load, left]

/-- The set that an accepted load puts in place, LOADING (R195). -/
def WSet.loading (w : WSet) (d : Taken) (g : Manifest) (l : Load) : WSet :=
  { w with st := 1, epoch := d.wsEpoch, root := g.root, shards := g.shards, lastStart := none, nextShard := 0, load := some l }

/-- The set once a repair of the shards `todo` is accepted (R198). -/
def WSet.repairing (w : WSet) (g : Manifest) (todo : List Nat) (l : Load) : WSet :=
  { w with st := 1, shards := repairShards w.shards g.shards todo, load := some l }

theorem repairShards_length (sh new : List Shard) (todo : List Nat) : (repairShards sh new todo).length = sh.length := by
  simp [repairShards]

theorem repairShards_get {sh : List Shard} {i : Nat} {h : Shard} (nth : sh[i]? = some h) (new : List Shard) (todo : List Nat) :
    (repairShards sh new todo)[i]? =
      some (if i ∈ todo then { new.getD i h with st := h.st, lastGood := h.lastGood } else h) := by
  simp [repairShards, List.getElem?_zipIdx, nth]

/-- The state once a descriptor has been accepted whose context takes the set `w`. -/
def State.takesSet (s : State) (c : Nat) (d : Taken) (w : WSet) : State :=
  (((s.dropRecheck c).toBg d .accepted).modCtx c (fun x => { x with wset := w })).settle c

/-- Where the load has a shard to transfer it does not end at once. -/
theorem State.takesSet_putsSet (s : State) (c : Nat) (d : Taken) {w : WSet} {l : Load} (load : w.load = some l) (left : l.todo ≠ []) :
    PutsSet c w s (s.takesSet c d w) := by
  rw [State.takesSet, State.settle_transfers ((congrArg (·.wset.load) (State.ctx_modCtx_self ..)).trans load) left]
  have dropped := s.dropRecheck_putsSet c
  have moved : PutsSet c (s.ctx c).wset.unchecked s ((s.dropRecheck c).toBg d .accepted) :=
    ⟨⟨dropped.other, dropped.panel, dropped.mem, dropped.tcb⟩, dropped.ctx, dropped.link⟩
  exact moved.trans (State.modCtx_putsSet rfl)

section
variable {s : State} {c : Nat} {d : Taken} {g : Manifest}

theorem State.acceptLoad_load (whole : d.wsRepair = false) (nonempty : g.shards ≠ []) :
    ∃ l, l.d = d ∧ l.swap = false ∧ l.source = d.wsSource ∧ l.todo = List.range g.shards.length ∧
      PutsSet c ((s.ctx c).wset.unchecked.loading d g l) s (s.acceptLoad c d g) := by
  have left : List.range g.shards.length ≠ [] := by simpa using nonempty
  refine ⟨(s.dropRecheck c).newLoad d g (List.range g.shards.length), rfl, rfl, rfl, rfl, ?_⟩
  have takes : s.acceptLoad c d g =
      s.takesSet c d ((s.ctx c).wset.unchecked.loading d g ((s.dropRecheck c).newLoad d g (List.range g.shards.length))) := by
    simp only [State.acceptLoad, whole, Bool.false_eq_true, if_false, (s.dropRecheck_putsSet c).ctx]
    rfl
  rw [takes]
  exact s.takesSet_putsSet c d rfl left

theorem State.acceptLoad_repair (repair : d.wsRepair = true) (left : repairTodo (s.ctx c).wset.shards (s.repairList d) ≠ []) :
    ∃ l, l.d = d ∧ l.swap = false ∧ l.todo = repairTodo (s.ctx c).wset.shards (s.repairList d) ∧
      PutsSet c ((s.ctx c).wset.unchecked.repairing g (repairTodo (s.ctx c).wset.shards (s.repairList d)) l) s (s.acceptLoad c d g) := by
  refine ⟨(s.dropRecheck c).newLoad d g (repairTodo (s.ctx c).wset.shards (s.repairList d)), rfl, rfl, rfl, ?_⟩
  have listed : (s.dropRecheck c).repairList d = s.repairList d := by
    simp only [State.repairList, State.hostRead, (s.dropRecheck_putsSet c).link]
  have takes : s.acceptLoad c d g =
      s.takesSet c d ((s.ctx c).wset.unchecked.repairing g (repairTodo (s.ctx c).wset.shards (s.repairList d))
        ((s.dropRecheck c).newLoad d g (repairTodo (s.ctx c).wset.shards (s.repairList d)))) := by
    simp only [State.acceptLoad, repair, if_true, listed, (s.dropRecheck_putsSet c).ctx]
    rfl
  rw [takes]
  exact s.takesSet_putsSet c d rfl left

end

section
variable {s : State} {fn : Nat} {d : Taken} (small : fn ≤ 64)
include small

theorem exec_wsetLoad (asked : s.ctlHead fn 0x05 = some d) :
    exec (.wsetLoad fn .ok) s = .next (s.wsetOp (fn - 1) d .ok (fun t g => t.acceptLoad (fn - 1) d g)) := by
  change execWsetLoad fn .ok s = _
  simp only [execWsetLoad, atFn, if_pos small, asked]

theorem exec_wsetSwap_state (asked : s.ctlHead fn 0x06 = some d) (own : d.wsJob = false)
    (state : [CtxState.bound, .running, .quiesced].contains (s.ctx (fn - 1)).st = false) :
    exec (.wsetSwap fn .ok) s = .next (s.complete d 0x0100 (s.ctx (fn - 1)).st.code) := by
  change execWsetSwap fn .ok s = _
  simp only [List.contains_cons, List.contains_nil, Bool.or_false, Bool.or_eq_false_iff] at state
  obtain ⟨bound, running, quiesced⟩ := state
  simp only [execWsetSwap, atFn, if_pos small, asked, own, bound, running, quiesced, Bool.or_false, Bool.not_false, Bool.and_true, if_true]
  rfl

theorem exec_wsetSwap (asked : s.ctlHead fn 0x06 = some d)
    (state : d.wsJob = true ∨ [CtxState.bound, .running, .quiesced].contains (s.ctx (fn - 1)).st = true) :
    exec (.wsetSwap fn .ok) s = .next (s.wsetOp (fn - 1) d .ok (fun t g => t.acceptSwap (fn - 1) d g)) := by
  have may : ¬ (!d.wsJob && !((s.ctx (fn - 1)).st == CtxState.bound || (s.ctx (fn - 1)).st == CtxState.running ||
      (s.ctx (fn - 1)).st == CtxState.quiesced)) = true := by
    rcases state with job | state
    · simp [job]
    · simp only [List.contains_cons, List.contains_nil, Bool.or_false, ← Bool.or_assoc] at state
      simp [state]
  change execWsetSwap fn .ok s = _
  simp only [execWsetSwap, atFn, if_pos small, asked, if_neg may]

end

/-! ## The start of a transfer (R191, R192, R195) -/

/-- The set once the transfer of shard i has started. -/
def WSet.starting (w : WSet) (l : Load) (i : Nat) : WSet :=
  { w with shards := w.shards.modify i (fun q => { q with st := .arriving }), load := some { l with todo := l.todo.filter (· != i) } }

theorem State.startShard_putsSet (s : State) (c : Nat) (l : Load) (i : Nat) :
    PutsSet c ((s.ctx c).wset.starting l i) s (s.startShard c l i) := by
  have arriving : PutsSet c _ s (s.modShard c i (fun h => { h with st := .arriving })) := State.modCtx_putsSet rfl
  refine arriving.trans (State.modCtx_putsSet ?_)
  rw [arriving.ctx]
  rfl

section
variable {s : State} {cc : BitVec 6} {i : Nat} {l : Load} (load : (s.ctx cc.toNat).wset.load = some l) (runs : l.runs = true)
  (listed : l.todo.contains i = true) (free : s.shardFree cc.toNat l ((s.ctx cc.toNat).wset.shards.getD i {}) = true)
include load runs listed free

theorem exec_shardTransferStart_host (host : l.engine i = none) (turn : s.hostTurn cc.toNat l i = true) :
    exec (.shardTransferStart cc i) s = .next (s.startShard cc.toNat l i) := by
  change execShardTransferStart cc i s = _
  simp only [execShardTransferStart, load, runs, listed, free, Bool.and_self, if_true, host, turn]

variable {p : Nat} (engine : l.engine i = some p) (up : s.portServes p = true)
include engine up

theorem exec_shardTransferStart_served (idle : (s.port p).engine = none)
    (first : ((s.port p).engineQ.filter s.wantsEngine).head?.all (fun e => e == (cc.toNat, i)) = true) :
    exec (.shardTransferStart cc i) s =
      .next ((s.setPort p (((s.wantedPort p).serving (cc.toNat, i)).touch s.tcb.now)).startShard cc.toNat l i) := by
  have asks : s.askEngine p (cc.toNat, i) = s.setPort p ((s.wantedPort p).serving (cc.toNat, i)) := by
    rw [State.askEngine_eq up, StackPort.askEngine_free (k := s.wantedPort p) idle first]
  have taken : ((s.askEngine p (cc.toNat, i)).port p).engine = some (cc.toNat, i) := by
    rw [asks, State.port_setPort_self]
    rfl
  have touched : (s.askEngine p (cc.toNat, i)).modPort p (fun k => k.touch s.tcb.now) =
      s.setPort p (((s.wantedPort p).serving (cc.toNat, i)).touch s.tcb.now) := by
    rw [asks, State.modPort, State.port_setPort_self, State.setPort_setPort]
  change execShardTransferStart cc i s = _
  simp only [execShardTransferStart, load, runs, listed, free, Bool.and_self, if_true, engine, taken, touched]

theorem exec_shardTransferStart_waits {e : Nat × Nat} (serves : (s.port p).engine = some e) (other : e ≠ (cc.toNat, i)) :
    exec (.shardTransferStart cc i) s = .next (s.askEngine p (cc.toNat, i)) := by
  have taken : ((s.askEngine p (cc.toNat, i)).port p).engine ≠ some (cc.toNat, i) := by
    rw [State.askEngine_eq up, State.port_setPort_self, StackPort.askEngine_waits (k := s.wantedPort p) serves other]
    exact fun same => other (Option.some.inj (serves.symm.trans same))
  change execShardTransferStart cc i s = _
  simp only [execShardTransferStart, load, runs, listed, free, Bool.and_self, if_true, engine, if_neg taken]

end

/-! ## The bytes of a shard reach its cores (R112, R119, R187) -/

/-- Which cores the host interface reaches is settled at the module start. -/
theorem State.hostReaches_congr {s t : State} (h : t.mg.startMap = s.mg.startMap) (i : Nat) : t.hostReaches i = s.hostReaches i := by
  simp only [State.hostReaches, State.reachable, State.xFirst, State.yFirst, State.startWithdrawn, h]

/-- From `s` to `t` bytes have been stored to cores of a list: a context may have taken a fault, and none has another set. -/
structure StoresTo (ks : List Nat) (s t : State) : Prop where
  core : ∀ k, k ∉ ks → t.core k = s.core k
  ports : t.ports = s.ports
  wset : ∀ c, (t.ctx c).wset = (s.ctx c).wset
  startMap : t.mg.startMap = s.mg.startMap

section
variable {s t u : State} {ks : List Nat}

theorem StoresTo.refl (ks : List Nat) (s : State) : StoresTo ks s s := ⟨fun _ _ => rfl, rfl, fun _ => rfl, rfl⟩

theorem StoresTo.trans (h : StoresTo ks s t) (k : StoresTo ks t u) : StoresTo ks s u :=
  ⟨fun i hi => (k.core i hi).trans (h.core i hi), k.ports.trans h.ports, fun c => (k.wset c).trans (h.wset c), k.startMap.trans h.startMap⟩

theorem StoresTo.mono {js : List Nat} (h : StoresTo js s t) (sub : js ⊆ ks) : StoresTo ks s t :=
  ⟨fun i hi => h.core i fun mem => hi (sub mem), h.ports, h.wset, h.startMap⟩

end

theorem Context.faulted_wset (x : Context) (code : Nat) : (x.faulted code).wset = x.wset := rfl

section
variable (s : State) (ks : List Nat)

theorem State.ctxFault_storesTo (c code source arg0 arg1 : Nat) : StoresTo ks s (s.ctxFault c code source arg0 arg1) := by
  refine ⟨fun _ _ => State.ctxFault_core .., State.ctxFault_ports .., fun d => ?_, State.ctxFault_startMap ..⟩
  rcases (s.ctxFault_faultsOnly c code source arg0 arg1).ctx d with same | ⟨-, faulted⟩
  · rw [same]
  · rw [faulted, Context.faulted_wset]

theorem State.coreFault_storesTo (i code arg0 arg1 : Nat) : StoresTo ks s (s.coreFault i code arg0 arg1) := by
  unfold State.coreFault
  split
  · exact s.ctxFault_storesTo ks ..
  · exact .refl ks s

theorem State.hostFault_storesTo (i : Nat) : StoresTo ks s (s.hostFault i) := by
  unfold State.hostFault
  split
  · exact s.ctxFault_storesTo ks ..
  · exact .refl ks s

theorem State.setCore_storesTo (i : Nat) (k : Core) : StoresTo [i] s (s.setCore i k) :=
  ⟨fun _ hj => State.core_setCore_ne s (fun same => hj (List.mem_singleton.mpr same)) k, rfl, fun _ => rfl, rfl⟩

theorem State.logFault_storesTo (code cls ctx source arg0 arg1 : Nat) : StoresTo ks s (s.logFault code cls ctx source arg0 arg1) := by
  refine ⟨fun _ _ => State.core_congr (State.logFault_panel ..) _, State.logFault_ports .., fun _ => ?_, ?_⟩
  · rw [State.ctx_congr (State.logFault_ctxs ..)]
  · unfold State.logFault State.logAs
    dsimp only
    split <;> rfl

theorem State.retireNo_storesTo (n source : Nat) : StoresTo ks s (s.retireNo n source) := by
  unfold State.retireNo
  split
  · exact .refl ks s
  · refine .trans ?_ (State.logFault_storesTo _ ks ..)
    exact ⟨fun _ _ => rfl, rfl, fun _ => rfl, rfl⟩

theorem State.coreUe_storesTo (i : Nat) : StoresTo [i] s (s.coreUe i) := by
  unfold State.coreUe
  dsimp only
  split
  · exact (s.setCore_storesTo i _).trans (State.retireNo_storesTo _ [i] ..)
  · exact s.setCore_storesTo i _

theorem State.dataFault_storesTo (i : Nat) (f : Nat × Nat × Nat) : StoresTo [i] s (s.dataFault i f) :=
  .trans (ite_holds (StoresTo [i] s) (s.coreUe_storesTo i) (.refl [i] s)) (State.coreFault_storesTo _ [i] ..)

theorem State.turnStore_storesTo (i hd off : Nat) (bs : List Byte) : StoresTo [i] s (s.turnStore i hd off bs) := by
  unfold State.turnStore
  split
  · exact .refl [i] s
  · split
    · exact s.setCore_storesTo ..
    · exact s.dataFault_storesTo ..

theorem State.hostStore_storesTo (i hd off : Nat) (bs : List Byte) : StoresTo [i] s (s.hostStore i hd off bs) :=
  ite_holds (StoresTo [i] s) (s.hostFault_storesTo [i] i) (s.turnStore_storesTo ..)

end

/-- Bytes of a shard for one core: from the host interface, or from a stack port. -/
def State.putShard (s : State) (l : Load) (i hd off : Nat) (bs : List Byte) : State :=
  if l.source = 0 then s.hostStore i hd off bs else s.turnStore i hd off bs

theorem State.putShard_storesTo (s : State) (l : Load) (i hd off : Nat) (bs : List Byte) : StoresTo [i] s (s.putShard l i hd off bs) :=
  ite_holds (StoresTo [i] s) (s.hostStore_storesTo ..) (s.turnStore_storesTo ..)

theorem State.putShard_stored {s : State} {l : Load} {i hd off : Nat} {bs : List Byte} {k : Core} (nonempty : bs ≠ [])
    (reached : l.source = 0 → s.hostReaches i = true) (stored : (s.core i).hostStore hd off bs = .inl k) :
    s.putShard l i hd off bs = s.setCore i k := by
  have turn : s.turnStore i hd off bs = s.setCore i k := by
    simp only [State.turnStore, List.isEmpty_eq_false_iff.mpr nonempty, Bool.false_eq_true, if_false, stored]
  unfold State.putShard
  split
  next host => simp only [State.hostStore, reached host, Bool.not_true, Bool.and_false, Bool.false_eq_true, if_false, turn]
  next => exact turn

/-- The bytes of a shard that its n-th core takes (R187). -/
def Shard.piece (h : Shard) (bs : List Byte) (n : Nat) : List Byte := (bs.drop (n * h.per * 64)).take (h.per * 64)

/-- Cores take their pieces of a shard in turn, the first of them piece `m`. -/
def State.putPieces (s : State) (l : Load) (h : Shard) (bs : List Byte) (ks : List Nat) (m : Nat) : State :=
  (ks.zipIdx m).foldl (fun t e => t.putShard l e.1 h.hd (64 * h.off) (h.piece bs e.2)) s

theorem State.placeShard_eq (s : State) (c : Nat) (l : Load) (h : Shard) (bs : List Byte) :
    s.placeShard c l h bs = s.putPieces l h bs ((s.ctx c).shardCores h) 0 := by
  unfold State.placeShard State.putPieces State.putShard
  dsimp only
  congr 1
  funext t e
  split <;> rfl

section
variable (l : Load) (h : Shard) (bs : List Byte)

theorem State.putPieces_storesTo (ks : List Nat) (m : Nat) (s : State) : StoresTo ks s (s.putPieces l h bs ks m) := by
  induction ks generalizing m s with
  | nil => exact .refl [] s
  | cons i ks ih =>
    exact ((s.putShard_storesTo l i ..).mono (by simp)).trans ((ih (m + 1) _).mono (List.subset_cons_self ..))

/-- A core whose store meets no error holds its own piece, whatever its neighbours meet. -/
theorem State.putPieces_core {ks : List Nat} (m : Nat) {s : State} (nodup : ks.Nodup) {n k : Nat} {k' : Core} (nth : ks[n]? = some k)
    (nonempty : h.piece bs (m + n) ≠ []) (reached : l.source = 0 → s.hostReaches k = true)
    (stored : (s.core k).hostStore h.hd (64 * h.off) (h.piece bs (m + n)) = .inl k') :
    (s.putPieces l h bs ks m).core k = k' := by
  induction ks generalizing m n s with
  | nil => cases nth
  | cons i ks ih =>
    obtain ⟨fresh, rest⟩ := List.nodup_cons.mp nodup
    have first := s.putShard_storesTo l i h.hd (64 * h.off) (h.piece bs m)
    change ((s.putShard l i h.hd (64 * h.off) (h.piece bs m)).putPieces l h bs ks (m + 1)).core k = k'
    cases n with
    | zero =>
      obtain rfl : i = k := by simpa using nth
      rw [Nat.add_zero] at nonempty stored
      rw [(State.putPieces_storesTo l h bs ks (m + 1) _).core i fresh, State.putShard_stored nonempty reached stored, State.core_setCore_self]
    | succ n =>
      have later : ks[n]? = some k := by simpa using nth
      have apart : k ∉ [i] := fun same => fresh (List.mem_singleton.mp same ▸ List.mem_of_getElem? later)
      have next : m + (n + 1) = m + 1 + n := by omega
      rw [next] at nonempty stored
      exact ih (m + 1) rest later nonempty (fun host => (State.hostReaches_congr first.startMap k).trans (reached host)) ((first.core k apart).symm ▸ stored)

end

/-! ## SHARD_VERDICT (R195, R196) -/

/-- From `s` to `t` nothing has changed but errors and times at the stack ports. -/
structure ReadsStacks (s t : State) : Prop where
  ctxs : t.ctxs = s.ctxs
  panel : t.panel = s.panel
  mg : t.mg = s.mg
  mem : ∀ n, (t.port n).mem = (s.port n).mem

theorem State.windowUsed_readsStacks (s : State) (x p off n : Nat) : ReadsStacks s (s.windowUsed x p off n) :=
  have used := s.windowUsed_usesPort x p off n
  ⟨used.ctxs, used.panel, by rw [used.frame], (s.windowUsed_sameBytes ..).port⟩

theorem State.shardRead_readsStacks (s : State) (c : Nat) (l : Load) (h : Shard) (i : Nat) : ReadsStacks s (s.shardRead c l h i) := by
  unfold State.shardRead
  dsimp only
  split
  · exact s.windowUsed_readsStacks ..
  · split
    · exact ⟨rfl, rfl, rfl, s.modPort_mem _ (StackPort.correct_mem ..)⟩
    · exact ⟨rfl, rfl, rfl, fun _ => rfl⟩

/-- The state once shard i has been read, placed and judged, before its load may end. -/
def State.judged (s : State) (c : Nat) (l : Load) (h : Shard) (i : Nat) (dma : Dma) : State :=
  (((s.shardRead c l h i).placeShard c l h (s.shardBytes c l h i dma).1).freeEngine c i).modShard c i (fun q =>
    { q with st := if !(s.shardBytes c l h i dma).2.1 && decide (sha256 (s.shardBytes c l h i dma).1 = h.digest) then .good else .bad })

theorem exec_shardVerdict {s : State} {cc : BitVec 6} {i : Nat} {l : Load} (dma : Dma) (load : (s.ctx cc.toNat).wset.load = some l)
    (arriving : ((s.ctx cc.toNat).wset.shards.getD i {}).st = .arriving)
    (clean : (s.shardBytes cc.toNat l ((s.ctx cc.toNat).wset.shards.getD i {}) i dma).2.2 = none) :
    exec (.shardVerdict cc i dma) s =
      .next ((s.judged cc.toNat l ((s.ctx cc.toNat).wset.shards.getD i {}) i dma).settle cc.toNat) := by
  change execShardVerdict cc i dma s = _
  simp only [execShardVerdict, load, arriving, ne_eq, not_true, if_false, clean]
  rfl

section
variable (s : State) (c : Nat) (l : Load) (h : Shard) (i : Nat) (dma : Dma)

theorem State.judged_shards : ((s.judged c l h i dma).ctx c).wset.shards = (s.ctx c).wset.shards.modify i (fun q =>
    { q with st := if !(s.shardBytes c l h i dma).2.1 && decide (sha256 (s.shardBytes c l h i dma).1 = h.digest) then .good else .bad }) := by
  have read := s.shardRead_readsStacks c l h i
  have placed := State.putPieces_storesTo l h (s.shardBytes c l h i dma).1 (((s.shardRead c l h i).ctx c).shardCores h) 0 (s.shardRead c l h i)
  have shards : (((s.shardRead c l h i).placeShard c l h (s.shardBytes c l h i dma).1).ctx c).wset.shards = (s.ctx c).wset.shards := by
    rw [State.placeShard_eq, placed.wset c, State.ctx_congr read.ctxs]
  rw [State.judged, State.modShard, State.ctx_modCtx_self, ← shards]
  rfl

theorem State.judged_port (p : Nat) :
    ((s.judged c l h i dma).port p).engine ≠ some (c, i) ∧ ((s.judged c l h i dma).port p).mem = (s.port p).mem := by
  have placed := State.putPieces_storesTo l h (s.shardBytes c l h i dma).1 (((s.shardRead c l h i).ctx c).shardCores h) 0 (s.shardRead c l h i)
  have port : (s.judged c l h i dma).port p = ((s.shardRead c l h i).port p).releasesEngine (c, i) := by
    rw [← State.port_congr placed.ports, ← State.placeShard_eq, ← State.freeEngine_port]
    rfl
  rw [port]
  exact ⟨((s.shardRead c l h i).port p).releasesEngine_engine (c, i),
    (StackPort.releasesEngine_mem ..).trans ((s.shardRead_readsStacks c l h i).mem p)⟩

theorem State.judged_core (k : Nat) : (s.judged c l h i dma).core k =
    ((s.shardRead c l h i).putPieces l h (s.shardBytes c l h i dma).1 ((s.ctx c).shardCores h) 0).core k := by
  rw [← State.ctx_congr (s.shardRead_readsStacks c l h i).ctxs, ← State.placeShard_eq]
  rfl

theorem State.judged_core_other {k : Nat} (away : k ∉ (s.ctx c).shardCores h) : (s.judged c l h i dma).core k = s.core k := by
  rw [State.judged_core, (State.putPieces_storesTo ..).core k away, State.core_congr (s.shardRead_readsStacks c l h i).panel]

theorem State.judged_core_stored {n k : Nat} {k' : Core} (nodup : ((s.ctx c).shardCores h).Nodup) (nth : ((s.ctx c).shardCores h)[n]? = some k)
    (nonempty : h.piece (s.shardBytes c l h i dma).1 n ≠ []) (reached : l.source = 0 → s.hostReaches k = true)
    (stored : (s.core k).hostStore h.hd (64 * h.off) (h.piece (s.shardBytes c l h i dma).1 n) = .inl k') :
    (s.judged c l h i dma).core k = k' := by
  have read := s.shardRead_readsStacks c l h i
  have reaches := State.hostReaches_congr (congrArg Mgmt.startMap read.mg) k
  rw [State.judged_core]
  refine State.putPieces_core l h _ 0 nodup nth ?_ (fun host => reaches.trans (reached host)) ?_
  · rwa [Nat.zero_add]
  · rwa [Nat.zero_add, State.core_congr read.panel]

end

/-- Settles O45: a refusal ends the descriptor alone, an acceptance puts the set or the swap in place, and a shard's start and
verdict are its engine's, its cores' and its own. -/
theorem weightSetsAreCheckedAndLoaded : Obligations.WeightSetsAreCheckedAndLoaded := by
  intro s
  refine ⟨fun fn d small => ⟨fun asked f fault => ?_, fun asked sound whole => ?_, fun asked sound repair left => ?_,
    fun asked own state => ?_, fun asked state => ⟨fun f fault => ?_, fun sound => ?_⟩⟩,
    fun cc i l => ?_⟩
  · exact answers_ends ((exec_wsetLoad small asked).trans (congrArg _ (State.wsetOp_refused fault)))
  · obtain ⟨good, -⟩ := Option.or_eq_none_iff.mp sound
    obtain ⟨l, descriptor, noSwap, source, todo, puts⟩ := State.acceptLoad_load (c := fn - 1) whole (State.manifestFault_shards good)
    refine ⟨_, (exec_wsetLoad small asked).trans (congrArg _ (State.wsetOp_accepted sound)),
      ⟨puts.other, puts.panel, puts.mem, puts.link⟩, ?_⟩
    dsimp only
    rw [puts.ctx]
    exact ⟨rfl, rfl, rfl, rfl, ⟨l, rfl, descriptor, noSwap, source, todo⟩, rfl⟩
  · obtain ⟨l, descriptor, noSwap, todo, puts⟩ :=
      State.acceptLoad_repair (g := parseManifest (s.manifestOf d)) repair left
    refine ⟨_, (exec_wsetLoad small asked).trans (congrArg _ (State.wsetOp_accepted sound)),
      ⟨puts.other, puts.panel, puts.mem, puts.link⟩, ?_⟩
    dsimp only
    rw [puts.ctx]
    exact ⟨rfl, rfl, rfl, repairShards_length .., fun j h nth => repairShards_get nth .., l, rfl, descriptor, noSwap, todo⟩
  · exact answers_ends (exec_wsetSwap_state small asked own state)
  · exact answers_ends ((exec_wsetSwap small asked state).trans (congrArg _ (State.wsetOp_refused fault)))
  · refine ⟨_, (exec_wsetSwap small asked state).trans (congrArg _ (State.wsetOp_accepted sound)), ⟨fun k hk => State.ctx_modCtx_ne _ hk _,
      rfl, fun _ => rfl, rfl⟩, rfl, _, rfl, rfl, rfl, rfl, rfl, rfl, State.ctx_modCtx_self ..⟩
  · intro c x h load
    refine ⟨fun runs listed free => ⟨fun host turn => ?_, fun p engine up => ⟨fun idle first => ?_, fun e serves other => ?_⟩⟩,
      fun dma arriving clean nodup => ?_⟩
    · have started := s.startShard_putsSet c l i
      exact ⟨_, exec_shardTransferStart_host load runs listed free host turn, ⟨started.ctx, started.other, started.panel⟩, rfl⟩
    · have started := (s.setPort p (((s.wantedPort p).serving (c, i)).touch s.tcb.now)).startShard_putsSet c l i
      exact ⟨_, exec_shardTransferStart_served load runs listed free engine up idle first, ⟨started.ctx, started.other, started.panel⟩,
        congrArg StackPort.engine (State.port_setPort_self ..), (congrArg StackPort.mem (State.port_setPort_self ..)).trans rfl,
        fun n hn => State.port_setPort_ne s hn _⟩
    · refine ⟨_, exec_shardTransferStart_waits load runs listed free engine up serves other, ?_⟩
      rw [State.askEngine_eq up, StackPort.askEngine_waits (k := s.wantedPort p) serves other]
      exact ⟨rfl, rfl, (congrArg StackPort.engine (State.port_setPort_self ..)).trans serves,
        congrArg StackPort.engineQ (State.port_setPort_self ..), fun n hn => State.port_setPort_ne s hn _⟩
    · refine ⟨_, exec_shardVerdict dma load arriving clean, s.judged c l h i dma, rfl, s.judged_shards .., s.judged_port c l h i dma,
        fun k away => s.judged_core_other c l h i dma away,
        fun n k k' nth nonempty reached stored => s.judged_core_stored c l h i dma nodup nth nonempty reached stored⟩

end Sys2Proof.Machine
end

section
/-! SWAP_SWITCH, SWAP_RESUME, SWAP_LOADED_REPORT, RECHECK_VERDICT and RECHECK_ABANDON (R200, R201, R205 to R209, R325). -/
namespace Sys2Proof.Machine

open Sys2Proof

/-! ## The switch tick (R205, R206) -/

/-- A microbatch whatever its LATE flag. -/
def Batch.unflagged (b : Batch) : Batch := { b with late := false }

theorem State.findOverruns_unflagged (s : State) (c : Nat) :
    ((s.findOverruns c).ctx c).batches.map Batch.unflagged = (s.ctx c).batches.map Batch.unflagged := by
  unfold State.findOverruns
  dsimp only
  split
  · rfl
  · rw [State.postCtx_ctx, State.ctx_modCtx_self]
    dsimp only
    rw [List.map_map]
    refine List.map_congr_left fun b _ => ?_
    dsimp only [Function.comp]
    split <;> rfl

/-- The look for overruns sets LATE flags and ends no microbatch (R40). -/
theorem State.lookOverruns_unflagged (s : State) (c n : Nat) :
    ((s.lookOverruns c n).ctx c).batches.map Batch.unflagged = (s.ctx c).batches.map Batch.unflagged := by
  have looked : ((s.modCtx c (fun y => { y with lookedAt := n })).ctx c).batches = (s.ctx c).batches := by
    rw [State.ctx_modCtx_self]
  unfold State.lookOverruns
  dsimp only
  split
  · rw [State.findOverruns_unflagged, looked]
  · rw [looked]

/-- No microbatch of a cut swap stays in flight at the frame of its switch (R206). -/
theorem Context.cutBatches_ended (x : Context) (frame : Nat) :
    ∀ b ∈ (x.cutBatches frame).batches, b.ended.isSome = true ∨ b.copying = true ∨ x.stages ≤ frame - b.tick := by
  intro b mem
  obtain ⟨a, -, rfl⟩ := List.mem_map.mp mem
  split
  next past => simpa [or_assoc] using past
  next => exact .inl rfl

/-- The set in force as a swap replaces it at the tick of number n (R205, R208). -/
def WSet.replaced (w : WSet) (n : Nat) (cut : Bool) : OldSet :=
  { tTick := n, cut := cut, epoch := w.epoch, root := w.root, shards := w.shards, lvf := w.lvf }

/-- Every stage is held at once: the policy is CUT, or the context does not run (R206, R393). -/
def Context.holdsAll (x : Context) (l : Load) : Bool := l.cut || decide (x.st ≠ .running)

/-- The set after the switch tick of a swap, of number n (R205). -/
def WSet.switched (w : WSet) (l : Load) (next : List Shard × BitVec 256 × Nat) (n : Nat) (all : Bool) : WSet :=
  { w with st := 1, epoch := next.2.2, root := next.2.1, shards := next.1, next := none, recheck := none, lastStart := none,
           nextShard := 0, resumeAt := none, old := some (w.old.getD (w.replaced n all)),
           load := some { l with armed := false, waiting := true, tTick := n } }

/-- The stages held after the switch tick. -/
def Context.heldAtSwitch (x : Context) (l : Load) : List Nat :=
  if x.holdsAll l then List.range x.stages else if x.held.contains 0 then x.held else x.held ++ [0]

/-- A context after the switch tick of number n and frame `frame`. -/
def Context.switched (x : Context) (l : Load) (next : List Shard × BitVec 256 × Nat) (n frame : Nat) : Context :=
  { x with wset := x.wset.switched l next n (x.holdsAll l), held := x.heldAtSwitch l,
           batches := if l.cut then (x.cutBatches frame).batches else x.batches }

/-- The old set is kept as it stood, unless one still drains (R205, R208). -/
theorem WSet.switched_old (w : WSet) (l : Load) (next : List Shard × BitVec 256 × Nat) (n : Nat) (all : Bool) :
    ∃ o, (w.switched l next n all).old = some o ∧
      (w.old = none → o.epoch = w.epoch ∧ o.root = w.root ∧ o.shards = w.shards ∧ o.tTick = n) :=
  ⟨_, rfl, fun first => by rw [first]; exact ⟨rfl, rfl, rfl, rfl⟩⟩

theorem Context.heldAtSwitch_eq (x : Context) (l : Load) : x.heldAtSwitch l =
    if l.cut ∨ x.st ≠ .running then List.range x.stages else if x.held.contains 0 then x.held else x.held ++ [0] :=
  if_congr (by simp [Context.holdsAll]) rfl rfl

theorem Context.switched_batches_cut (x : Context) {l : Load} (cut : l.cut = true) (next : List Shard × BitVec 256 × Nat) (n frame : Nat) :
    (x.switched l next n frame).batches = (x.cutBatches frame).batches := if_pos cut

theorem Context.switched_batches_drain (x : Context) {l : Load} (drain : l.cut = false) (next : List Shard × BitVec 256 × Nat) (n frame : Nat) :
    (x.switched l next n frame).batches = x.batches := if_neg (by simp [drain])

theorem State.switchSwap_spec {s : State} {c n frame : Nat} {l : Load} {next : List Shard × BitVec 256 × Nat}
    (load : (s.ctx c).wset.load = some l) (pending : (s.ctx c).wset.next = some next) :
    ChangesSet c s (s.switchSwap c n frame) ∧ (s.switchSwap c n frame).ctx c =
      { s.ctx c with wset := (s.ctx c).wset.unchecked }.switched l next n frame := by
  have dropped := s.dropRecheck_putsSet c
  have switches : s.switchSwap c n frame = (s.dropRecheck c).modCtx c (fun x => x.switched l next n frame) := by
    have load' : ((s.dropRecheck c).ctx c).wset.load = some l := by rw [dropped.ctx]; exact load
    have pending' : ((s.dropRecheck c).ctx c).wset.next = some next := by rw [dropped.ctx]; exact pending
    unfold State.switchSwap
    simp only [load', pending', State.modCtx]
    unfold Context.switched
    congr 1
    by_cases cut : l.cut = true
    · simp only [if_pos cut]
      rfl
    · simp only [if_neg cut]
      rfl
  rw [switches]
  exact ⟨dropped.toChangesSet.trans (State.modCtx_onlyContext ..).changesSet, by rw [State.ctx_modCtx_self, dropped.ctx]⟩

/-- What the switch tick does to the context, under the count of the tick. -/
def State.atSwitch (s : State) (c n frame : Nat) : State := (s.lookOverruns c n).switchSwap c n frame

theorem exec_swapSwitch {s : State} {cc : BitVec 6} {l : Load} (load : (s.ctx cc.toNat).wset.load = some l)
    (due : (s.ctx cc.toNat).swapDue l.at_ = true) : exec (.swapSwitch cc) s =
      .next ((s.passTo l.at_).underCount cc.toNat (fun t => t.atSwitch cc.toNat ((s.ctx cc.toNat).tickNo + 1)
        (if (s.ctx cc.toNat).started then (s.ctx cc.toNat).fcount + 1 else (s.ctx cc.toNat).fcount))) := by
  change execSwapSwitch cc s = _
  simp only [execSwapSwitch, load, due, if_true]
  rfl

theorem State.atSwitch_spec {s : State} {c n frame : Nat} {l : Load} {next : List Shard × BitVec 256 × Nat}
    (load : (s.ctx c).wset.load = some l) (pending : (s.ctx c).wset.next = some next) :
    ChangesSet c s (s.atSwitch c n frame) ∧ ∃ o bs, bs.map Batch.unflagged = (s.ctx c).batches.map Batch.unflagged ∧
      (s.atSwitch c n frame).ctx c = Context.switched
        { s.ctx c with overruns := o, batches := bs, lookedAt := n, wset := (s.ctx c).wset.unchecked } l next n frame := by
  obtain ⟨only, o, bs, looked⟩ := s.lookOverruns_spec c n
  have flags := s.lookOverruns_unflagged c n
  rw [looked] at flags
  obtain ⟨changes, switched⟩ := State.switchSwap_spec (s := s.lookOverruns c n) (n := n) (frame := frame)
    (by rw [looked]; exact load) (by rw [looked]; exact pending)
  rw [looked] at switched
  exact ⟨only.changesSet.trans changes, o, bs, flags, switched⟩

/-- The switch tick as SWAP_SWITCH runs it. -/
theorem State.switchTick_spec {s : State} {c n frame : Nat} {l : Load} {next : List Shard × BitVec 256 × Nat}
    (load : (s.ctx c).wset.load = some l) (pending : (s.ctx c).wset.next = some next) :
    ChangesSet c s (s.underCount c (fun t => t.atSwitch c n frame)) ∧
      ∃ o bs, bs.map Batch.unflagged = (s.ctx c).batches.map Batch.unflagged ∧
        (s.underCount c (fun t => t.atSwitch c n frame)).ctx c = Context.switched
          { s.ctx c with overruns := o, batches := bs, lookedAt := n, wset := (s.ctx c).wset.unchecked } l next n frame := by
  have keeps (t : State) (m : Nat) (same : t.ctx c = { s.ctx c with fcount := m }) :
      ((t.atSwitch c n frame).ctx c).fcount = (t.ctx c).fcount := by
    obtain ⟨-, o, bs, -, switched⟩ := State.atSwitch_spec (s := t) (n := n) (frame := frame) (by rw [same]; exact load)
      (by rw [same]; exact pending)
    rw [switched]
    rfl
  obtain ⟨u, before, ⟨m, counted⟩, after, ended⟩ := s.underCount_spec c (fun t => t.atSwitch c n frame) keeps
  obtain ⟨changes, o, bs, flags, switched⟩ := State.atSwitch_spec (s := u) (n := n) (frame := frame) (by rw [counted]; exact load)
    (by rw [counted]; exact pending)
  rw [counted] at flags switched
  rw [switched] at ended
  exact ⟨(before.changesSet.trans changes).trans after.changesSet, o, bs, flags, ended⟩

/-! ## The resume tick (R208) -/

theorem exec_swapResume {s : State} {cc : BitVec 6} {r : Nat} (agreed : (s.ctx cc.toNat).wset.resumeAt = some r) :
    exec (.swapResume cc) s = .next ((s.passTo r).modCtx cc.toNat Context.swapResume) := by
  change execSwapResume cc s = _
  simp only [execSwapResume, agreed]

/-! ## Re-checks (R200, R201, R325) -/

section
variable {s : State} {cc : BitVec 6} {r : Recheck} (under : (s.ctx cc.toNat).wset.recheck = some r)
include under

theorem exec_recheckAbandon : exec (.recheckAbandon cc) s =
    .next (((s.passTo (r.tc + 200000000)).dropRecheck cc.toNat).modCtx cc.toNat (fun y =>
      { y with wset := { y.wset with nextShard := r.shard } })) := by
  change execRecheckAbandon cc s = _
  simp only [execRecheckAbandon, under]

theorem exec_recheckVerdict (ready : (s.ctx cc.toNat).wset.st = 2) (up : s.portServes (r.shard % 24) = true)
    (serves : (s.port (r.shard % 24)).engine = some (cc.toNat, r.shard)) (later : r.tick < (s.ctx cc.toNat).tickNo) :
    exec (.recheckVerdict cc) s = .next ((s.setPort (r.shard % 24) (s.wantedPort (r.shard % 24))).judge cc.toNat r.shard) := by
  have asks : s.askEngine (r.shard % 24) (cc.toNat, r.shard) = s.setPort (r.shard % 24) (s.wantedPort (r.shard % 24)) := by
    rw [State.askEngine_eq up, StackPort.askEngine_serves (k := s.wantedPort (r.shard % 24)) serves]
  have engine : ((s.setPort (r.shard % 24) (s.wantedPort (r.shard % 24))).port (r.shard % 24)).engine = some (cc.toNat, r.shard) :=
    (congrArg StackPort.engine (State.port_setPort_self ..)).trans serves
  change execRecheckVerdict cc s = _
  simp only [execRecheckVerdict, under, ready, ne_eq, not_true, if_false, asks, engine, later, and_self, if_true]

end

/-- From `s` to `t` only context `c` has changed of the contexts, and no byte of a core or a stack. -/
structure KeepsBytes (c : Nat) (s t : State) : Prop where
  other : ∀ k, k ≠ c → t.ctx k = s.ctx k
  core : ∀ k, (t.core k).mem = (s.core k).mem
  mem : ∀ n, (t.port n).mem = (s.port n).mem

theorem KeepsBytes.trans {c : Nat} {s t u : State} (h : KeepsBytes c s t) (k : KeepsBytes c t u) : KeepsBytes c s u :=
  ⟨fun d hd => (k.other d hd).trans (h.other d hd), fun i => (k.core i).trans (h.core i), fun n => (k.mem n).trans (h.mem n)⟩

theorem KeepsBytes.of_same {c : Nat} {s t : State} (other : ∀ k, k ≠ c → t.ctx k = s.ctx k) (panel : t.panel = s.panel)
    (ports : t.ports = s.ports) : KeepsBytes c s t :=
  ⟨other, fun k => congrArg Core.mem (State.core_congr panel k), fun n => congrArg StackPort.mem (State.port_congr ports n)⟩

theorem ChangesSet.keepsBytes {c : Nat} {s t : State} (h : ChangesSet c s t) : KeepsBytes c s t :=
  ⟨h.other, fun k => congrArg Core.mem (State.core_congr h.panel k), h.mem⟩

theorem State.wantedPort_keepsBytes (s : State) (c p : Nat) : KeepsBytes c s (s.setPort p (s.wantedPort p)) :=
  ⟨fun _ _ => rfl, fun _ => rfl, s.modPort_mem p (f := fun _ => s.wantedPort p) rfl⟩

/-- From `s` to `t` only errors of cores have been corrected. -/
structure CorrectsCores (s t : State) : Prop where
  ctxs : t.ctxs = s.ctxs
  ports : t.ports = s.ports
  core : ∀ k, (t.core k).mem = (s.core k).mem

theorem State.shardUsed_correctsCores (s : State) (c : Nat) (h : Shard) : CorrectsCores s (s.shardUsed c h) := by
  refine List.foldlRecOn (motive := fun t => CorrectsCores s t) _ _ ⟨rfl, rfl, fun _ => rfl⟩ fun t corrects i _ =>
    ⟨corrects.ctxs, corrects.ports, fun k => ?_⟩
  rw [State.modCore, State.core_setCore]
  split
  next own => rw [Core.correct_mem, own, corrects.core]
  next => exact corrects.core k

/-- The state in which a re-check is judged: it is no longer under way, and its reads have corrected errors. -/
def State.rechecked (s : State) (c i : Nat) : State := (s.dropRecheck c).shardUsed c ((s.ctx c).wset.shards.getD i {})

theorem State.rechecked_ctx (s : State) (c i : Nat) : (s.rechecked c i).ctx c = { s.ctx c with wset := (s.ctx c).wset.unchecked } :=
  (State.ctx_congr (State.shardUsed_correctsCores ..).ctxs c).trans (s.dropRecheck_putsSet c).ctx

theorem State.rechecked_keepsBytes (s : State) (c i : Nat) : KeepsBytes c s (s.rechecked c i) := by
  have used := (s.dropRecheck c).shardUsed_correctsCores c ((s.ctx c).wset.shards.getD i {})
  exact (s.dropRecheck_putsSet c).toChangesSet.keepsBytes.trans
    ⟨fun k _ => State.ctx_congr used.ctxs k, used.core, fun n => congrArg StackPort.mem (State.port_congr used.ports n)⟩

theorem State.rechecked_engine {s : State} {c : Nat} {r : Recheck} (under : (s.ctx c).wset.recheck = some r) (i : Nat) :
    ((s.rechecked c i).port (r.shard % 24)).engine ≠ some (c, r.shard) := by
  rw [State.rechecked, State.port_congr (State.shardUsed_correctsCores ..).ports]
  exact State.dropRecheck_engine under

section
variable {s : State} {c i : Nat} {bs : List Byte} (image : s.shardImage c ((s.ctx c).wset.shards.getD i {}) = .inl bs)
include image

theorem State.judge_passes (same : sha256 bs = ((s.ctx c).wset.shards.getD i {}).digest) :
    s.judge c i = (s.rechecked c i).modShard c i (fun q => { q with lastGood := (s.ctx c).fcount }) := by
  unfold State.judge
  simp only [image, if_pos same]
  rfl

theorem State.judge_fails (other : sha256 bs ≠ ((s.ctx c).wset.shards.getD i {}).digest) :
    s.judge c i = (s.rechecked c i).suspect c i none := by
  unfold State.judge
  simp only [image, if_neg other]
  rfl

end

/-- The set once a re-check of shard i has failed (R201). -/
def WSet.suspected (w : WSet) (i : Nat) : WSet := { w with st := 3, shards := w.shards.modify i (fun q => { q with st := .bad }) }

theorem Context.mayFault_iff (x : Context) : x.mayFault ↔ [CtxState.bound, .running, .quiesced].contains x.st = true := by
  simp [Context.mayFault]

/-- The state once the set of a context is SUSPECT. -/
def State.marked (s : State) (c i : Nat) : State :=
  (s.modShard c i (fun h => { h with st := .bad })).modCtx c (fun x => { x with wset := { x.wset with st := 3 } })

theorem State.marked_putsSet (s : State) (c i : Nat) : PutsSet c ((s.ctx c).wset.suspected i) s (s.marked c i) := by
  have bad : PutsSet c _ s (s.modShard c i (fun h => { h with st := .bad })) := State.modCtx_putsSet rfl
  refine bad.trans (State.modCtx_putsSet ?_)
  rw [bad.ctx]
  rfl

theorem State.suspect_eq (s : State) (c i : Nat) : s.suspect c i none =
    ((s.marked c i).endBatches c 0x0006 i).ctxFault c 0x0701 srcCtx i (((s.ctx c).wset.shards.getD i {}).lastGood % 2 ^ 32) := rfl

/-- A set whose re-check fails is SUSPECT, its microbatches end, and the context takes its fault (R201). -/
theorem State.suspect_spec (s : State) (c i : Nat) : KeepsBytes c s (s.suspect c i none) ∧ (s.suspect c i none).ports = s.ports ∧
    ((s.suspect c i none).ctx c).wset = (s.ctx c).wset.suspected i ∧ ((s.suspect c i none).ctx c).batches = [] ∧
    ((s.ctx c).mayFault → ((s.suspect c i none).ctx c).st = .faulted ∧ ((s.suspect c i none).ctx c).fault = some 0x0701) := by
  have marked := s.marked_putsSet c i
  have ended := ((s.marked c i).endBatches_ctx_self c 0x0006 i)
  rw [marked.ctx] at ended
  have ends : KeepsBytes c (s.marked c i) ((s.marked c i).endBatches c 0x0006 i) :=
    .of_same (fun k hk => State.endBatches_ctx_ne _ hk ..) (State.endBatches_panel ..) (State.endBatches_ports ..)
  have faults := State.ctxFault_faultsOnly ((s.marked c i).endBatches c 0x0006 i) c 0x0701 srcCtx i
    (((s.ctx c).wset.shards.getD i {}).lastGood % 2 ^ 32)
  rw [State.suspect_eq]
  refine ⟨(marked.toChangesSet.keepsBytes.trans ends).trans (.of_same (fun k hk => State.ctxFault_ctx_ne _ hk ..) faults.panel faults.ports),
    faults.ports.trans (State.endBatches_ports ..), ?_⟩
  by_cases may : (s.ctx c).mayFault
  · rw [State.ctxFault_ctx_live (by rw [ended]; exact may), ended]
    exact ⟨rfl, rfl, fun _ => ⟨rfl, rfl⟩⟩
  · rw [State.ctxFault_ctx_dead (by rw [ended]; exact may), ended]
    exact ⟨rfl, rfl, fun live => absurd live may⟩

/-! ## SWAP_LOADED_REPORT (R209) -/

/-- The modules that have reported LOADED once module m has. -/
def Job.loadedWith (j : Job) (m : Nat) : List Nat := (j.loaded ++ [m]).eraseDups

/-- The job's book once module m has reported LOADED. -/
def State.noteLoaded (s : State) (id m : Nat) : State := s.setJob id { s.job id with loaded := (s.job id).loadedWith m }

/-- The manager opens the resume exchange of a job swap. -/
def State.openSwapResume (s : State) (id : Nat) : State :=
  (s.jobPrepare .resume id 0 (fun t => t) false (s.job id).epoch).2.openExchange
    (s.jobPrepare .resume id 0 (fun t => t) false (s.job id).epoch).1 (s.swapDesc id)

theorem State.noteLoaded_job (s : State) (id m : Nat) : (s.noteLoaded id m).job id = { s.job id with loaded := (s.job id).loadedWith m } :=
  State.job_setJob_self ..

theorem State.noteLoaded_job_ne (s : State) (id m : Nat) {k : Nat} (other : k ≠ id) : (s.noteLoaded id m).job k = s.job k :=
  Table.get_put_ne _ other ..

/-- The exchange is of the resume, of this job, and for the descriptor that waits; the books stay. -/
theorem State.openSwapResume_spec (s : State) {id : Nat} (small : id < 2 ^ 16) :
    (∃ e, (s.openSwapResume id).ep.ex = some e ∧ e.kind = .resume ∧ e.job = id ∧ e.manager = true ∧ e.d = s.swapDesc id) ∧
    (s.openSwapResume id).ep.jobs = s.ep.jobs ∧ (s.openSwapResume id).ctxs = s.ctxs ∧ (s.openSwapResume id).panel = s.panel ∧
    (s.openSwapResume id).fns = s.fns := by
  obtain ⟨free, kind, job, -, -⟩ := s.jobPrepare_spec .resume id 0 (fun t => t) false (s.job id).epoch
  rw [State.openSwapResume, State.openExchange_frame, free]
  refine ⟨⟨_, rfl, kind, ?_, rfl, rfl⟩, rfl, rfl, rfl, rfl⟩
  exact (congrArg BitVec.toNat job).trans ((BitVec.toNat_ofNat ..).trans (Nat.mod_eq_of_lt small))

theorem swapReport_heard {s : State} {j : JobSt} (manager : s.ep.role = 2) (swapping : j = .swapping true ∨ j = .swapping false) :
    ¬ (s.ep.role ≠ 2 ∨ (!(decide (j = .swapping true) || decide (j = .swapping false))) = true) := by
  rcases swapping with rfl | rfl <;> simp [manager]

section
variable {s : State} {job : BitVec 16} {m : BitVec 10} (manager : s.ep.role = 2)
  (swapping : (s.job job.toNat).st = .swapping true ∨ (s.job job.toNat).st = .swapping false)
include manager swapping

theorem exec_swapLoadedReport_failed {f : List (BitVec 16)} {d : Taken} (waits : s.swapDesc job.toNat = some d) :
    exec (.swapLoadedReport job m (some f)) s = .next (s.complete d 0x020A
      (65536 * (f.length - (f.filter (fun n => n.getLsbD 15)).length) + (f.filter (fun n => n.getLsbD 15)).length)) := by
  change execSwapLoadedReport job m (some f) s = _
  simp only [execSwapLoadedReport, if_neg (swapReport_heard manager swapping), waits]

theorem exec_swapLoadedReport_waits (waits : s.exBusy = true ∨
    (s.job job.toNat).members.all (fun q => ((s.job job.toNat).loadedWith m.toNat).contains q.1) = false) :
    exec (.swapLoadedReport job m none) s = .next (s.noteLoaded job.toNat m.toNat) := by
  have stays : ((s.noteLoaded job.toNat m.toNat).exBusy ||
      !(s.job job.toNat).members.all (fun q => ((s.job job.toNat).loadedWith m.toNat).contains q.1)) = true := by
    rcases waits with busy | missing
    · exact Bool.or_eq_true_iff.mpr (.inl busy)
    · rw [missing]
      exact Bool.or_true _
  change execSwapLoadedReport job m none s = _
  simp only [execSwapLoadedReport, if_neg (swapReport_heard manager swapping)]
  exact congrArg Host.Outcome.next (if_pos stays)

theorem exec_swapLoadedReport_resumes (idle : s.exBusy = false)
    (all : (s.job job.toNat).members.all (fun q => ((s.job job.toNat).loadedWith m.toNat).contains q.1) = true) :
    exec (.swapLoadedReport job m none) s = .next ((s.noteLoaded job.toNat m.toNat).openSwapResume job.toNat) := by
  have goes : ¬ ((s.noteLoaded job.toNat m.toNat).exBusy ||
      !(s.job job.toNat).members.all (fun q => ((s.job job.toNat).loadedWith m.toNat).contains q.1)) = true := by
    have free : (s.noteLoaded job.toNat m.toNat).exBusy = false := idle
    rw [free, all]
    exact Bool.false_ne_true
  change execSwapLoadedReport job m none s = _
  simp only [execSwapLoadedReport, if_neg (swapReport_heard manager swapping)]
  refine congrArg Host.Outcome.next ((if_neg goes).trans ?_)
  rw [State.openSwapResume, State.noteLoaded, State.job_setJob_self]
  rfl

end

/-- Settles O46: each command is the rule of its tick, its verdict or its report above. -/
theorem swapsSwitchResumeAndSetsAreRechecked : Obligations.SwapsSwitchResumeAndSetsAreRechecked := by
  intro s
  refine ⟨fun cc => ⟨fun l sh root ep load due pending => ?_, fun r agreed => ?_, fun r under => ⟨?_, fun bs ready up serves later image =>
    ⟨fun same => ?_, fun other => ?_⟩⟩⟩, fun job m manager swapping => ⟨fun f d waits => ?_, ?_⟩⟩
  · obtain ⟨changes, o, bs, flags, switched⟩ := State.switchTick_spec (s := s.passTo l.at_) (n := (s.ctx cc.toNat).tickNo + 1)
      (frame := if (s.ctx cc.toNat).started then (s.ctx cc.toNat).fcount + 1 else (s.ctx cc.toNat).fcount) load pending
    refine ⟨_, exec_swapSwitch load due, changes.other, changes.panel, changes.mem, congrArg TimeBlock.now changes.tcb, ?_⟩
    dsimp only
    rw [switched]
    refine ⟨rfl, rfl, rfl, rfl, rfl, rfl, rfl, WSet.switched_old (s.ctx cc.toNat).wset.unchecked .., Context.heldAtSwitch_eq (s.ctx cc.toNat) l,
      fun cut => ?_, fun drain => ?_, rfl, rfl⟩
    · rw [Context.switched_batches_cut _ cut]
      intro b mem
      have ended := Context.cutBatches_ended _ _ b mem
      exact ended
    · rw [Context.switched_batches_drain _ drain]
      exact flags
  · exact ⟨_, exec_swapResume agreed, fun k hk => State.ctx_modCtx_ne _ hk _, rfl, rfl, State.ctx_modCtx_self ..⟩
  · have dropped := (s.passTo (r.tc + 200000000)).dropRecheck_putsSet cc.toNat
    refine ⟨_, exec_recheckAbandon under, ⟨fun k hk => (State.ctx_modCtx_ne _ hk _).trans (dropped.other k hk),
      dropped.toChangesSet.keepsBytes.core, dropped.mem, State.dropRecheck_engine (s := s.passTo (r.tc + 200000000)) under⟩, dropped.panel, ?_, ?_⟩
    · rw [State.ctx_modCtx_self, dropped.ctx]
      rfl
    · exact (Nat.le_max_right ..).trans_eq (congrArg TimeBlock.now dropped.tcb).symm
  · have acts := exec_recheckVerdict under ready up serves later
    rw [State.judge_passes (s := s.setPort (r.shard % 24) (s.wantedPort (r.shard % 24))) image same] at acts
    obtain ⟨others, core, mem⟩ := (s.wantedPort_keepsBytes cc.toNat (r.shard % 24)).trans (State.rechecked_keepsBytes _ cc.toNat r.shard)
    refine ⟨_, acts, ⟨fun k hk => (State.ctx_modCtx_ne _ hk _).trans (others k hk), core, mem,
      State.rechecked_engine (s := s.setPort (r.shard % 24) (s.wantedPort (r.shard % 24))) under r.shard⟩, ?_⟩
    rw [State.modShard, State.ctx_modCtx_self, State.rechecked_ctx]
    rfl
  · have acts := exec_recheckVerdict under ready up serves later
    rw [State.judge_fails (s := s.setPort (r.shard % 24) (s.wantedPort (r.shard % 24))) image other] at acts
    have checked := (s.wantedPort_keepsBytes cc.toNat (r.shard % 24)).trans (State.rechecked_keepsBytes _ cc.toNat r.shard)
    have engine := State.rechecked_engine (s := s.setPort (r.shard % 24) (s.wantedPort (r.shard % 24))) under r.shard
    have ctx := (s.setPort (r.shard % 24) (s.wantedPort (r.shard % 24))).rechecked_ctx cc.toNat r.shard
    generalize (s.setPort (r.shard % 24) (s.wantedPort (r.shard % 24))).rechecked cc.toNat r.shard = t at acts checked engine ctx
    obtain ⟨keeps, ports, wset, batches, faults⟩ := t.suspect_spec cc.toNat r.shard
    obtain ⟨others, core, mem⟩ := checked.trans keeps
    rw [ctx] at wset faults
    refine ⟨_, acts, ⟨others, core, mem, ?_⟩, wset, batches, fun live => faults ((Context.mayFault_iff _).mpr live)⟩
    rw [State.port_congr ports]
    exact engine
  · exact answers_ends (exec_swapLoadedReport_failed manager swapping waits)
  · by_cases goes : s.exBusy = false ∧
        (s.job job.toNat).members.all (fun q => ((s.job job.toNat).loadedWith m.toNat).contains q.1) = true
    · obtain ⟨idle, all⟩ := goes
      obtain ⟨opened, jobs, ctxs, panel, fns⟩ := (s.noteLoaded job.toNat m.toNat).openSwapResume_spec job.isLt
      have book (k : Nat) : ((s.noteLoaded job.toNat m.toNat).openSwapResume job.toNat).job k = (s.noteLoaded job.toNat m.toNat).job k := by
        rw [State.job, jobs]
        rfl
      refine ⟨_, exec_swapLoadedReport_resumes manager swapping idle all, ?_, ?_, fun k hk => ?_, ctxs, panel, fns, fun _ _ => opened,
        fun stays => ?_⟩
      · rw [book, State.noteLoaded_job]
        rfl
      · rw [book, State.noteLoaded_job]
      · rw [book, State.noteLoaded_job_ne _ _ _ hk]
      · rcases stays with busy | missing
        · exact absurd (idle.symm.trans busy) Bool.false_ne_true
        · exact absurd (missing.symm.trans all) Bool.false_ne_true
    · have waits : s.exBusy = true ∨
          (s.job job.toNat).members.all (fun q => ((s.job job.toNat).loadedWith m.toNat).contains q.1) = false :=
        (not_and_or.mp goes).imp Bool.of_not_eq_false Bool.of_not_eq_true
      refine ⟨_, exec_swapLoadedReport_waits manager swapping waits, ?_, ?_, fun k hk => s.noteLoaded_job_ne _ _ hk, rfl, rfl, rfl,
        fun idle all => absurd ⟨idle, all⟩ goes, fun _ => rfl⟩
      · rw [State.noteLoaded_job]
        rfl
      · rw [State.noteLoaded_job]

end Sys2Proof.Machine
end
